-- ==== Sys2Proof/Word.lean ====
section
/-! DEFINITION. The word types of the IL9: the widths the spec gives the contents of registers, of
instruction words and of memory bytes (R2, R165, R246). -/

namespace Sys2Proof

/-- A byte of memory, of SBM, of flash or of scratchpad (R213). -/
abbrev Byte := BitVec 8

/-- A vector or uniform register, an instruction word, or a code offset (R165, R246, R282). -/
abbrev Word := BitVec 32

/-- A register pair, a 64-bit register of the host interface or of the doorbell aperture (R71, R166). -/
abbrev DWord := BitVec 64

/-- A register number inside its class, as a field of an instruction word holds it (R247). -/
abbrev Reg := BitVec 7

/-- A predicate register number p0–p7 (R165). -/
abbrev PReg := BitVec 3

/-- A mask with one bit for each lane of the widest warp (R159, R200). -/
abbrev LaneMask := BitVec 64

/-- The pair whose lower half stands in the lower-numbered register (R2, R166). -/
def pairOf (lo hi : Word) : DWord := hi ++ lo

/-- The lower half of a pair (R166). -/
def loHalf (x : DWord) : Word := x.setWidth 32

/-- The upper half of a pair (R166). -/
def hiHalf (x : DWord) : Word := (x >>> 32).setWidth 32

/-- All ones or all zeros by a condition: 1 as a word, or 0. -/
def boolWord (b : Bool) : Word := if b then 1 else 0

end Sys2Proof
end

