-- ==== Sys2Proof/Syntax.lean ====
section
/-! DEFINITION. The steps of the part as syntax: the 206 instruction words of the core (R246–R252) with their operand
fields, and the operations and events of the host, the fabric, the engines and the scheduler. The operands of an event,
which come from outside the device or are choices the spec leaves free, stand in one record, `Input`. -/

namespace Sys2Proof

/-- The two common fields of an instruction word: the switch marker S and the field G, which holds the guard predicate,
the token or the selector (R246). -/
structure Hdr where
  /-- bit 31, the switch marker -/
  s : Bool
  /-- bits [30:28]: guard, token or selector -/
  g : BitVec 3
deriving DecidableEq, Repr

/-- Memory order, B[6:5] of format MEM (R247). -/
inductive Order where
  | rlx | acq | rel | sc
deriving DecidableEq, Repr

/-- The orders `fence` may hold: order rlx is no instruction (R251, R315). -/
inductive FenceOrder where
  | acq | rel | sc
deriving DecidableEq, Repr

/-- Scope, B[4:3] of format MEM (R211, R247). -/
inductive Scope where
  | team | dev | fab | sys
deriving DecidableEq, Repr

/-- Access size, B[2:0] of the loads and stores (R305). -/
inductive MSize where
  | x8 | sx8 | x16 | sx16 | w32 | w64 | w128 | w256
deriving DecidableEq, Repr

/-- Order, scope and size of a load or store (R247). -/
structure MemMode where
  order : Order
  scope : Scope
  size  : MSize
deriving DecidableEq, Repr

/-- Order and scope of an atomic, its width B[2] and its request of the old value B[1] (R311). -/
structure AtomMode where
  order : Order
  scope : Scope
  w64   : Bool
  ret   : Bool
deriving DecidableEq, Repr

/-- The ten integer conditions (R252). -/
inductive ICond where
  | eq | ne | ltI | leI | gtI | geI | ltN | leN | gtN | geN
deriving DecidableEq, Repr

/-- The fourteen floating conditions (R252). -/
inductive FCond where
  | oeq | one | olt | ole | ogt | oge | ord | uno | ueq | une | ult | ule | ugt | uge
deriving DecidableEq, Repr

/-- The eight functions of `acc.st` (R340). -/
inductive AccStFn where
  | f32 | bf16Rn | bf16Sr | e4m3Rn | e4m3Sr | e5m2Rn | cf32Fold | cf32Split
deriving DecidableEq, Repr

/-- The five functions of `acc.ld` (R341). -/
inductive AccLdFn where
  | f32 | bf16 | e4m3 | e5m2 | cf32
deriving DecidableEq, Repr

/-- A command-queue slot, 0 to 1,023 (R75). -/
abbrev Slot := BitVec 10

/-- A context number, 0 to 4,095 (R91). -/
abbrev CtxId := BitVec 12

/-- A core number; 0 to 191 exist (R12). -/
abbrev CoreId := BitVec 8

/-- Who writes a register: the physical function, a virtual function, or a context through its doorbell
aperture (R71, R93, R94). -/
inductive Writer where
  | pf
  | vf (n : BitVec 7)
  | ctx (c : CtxId)
deriving DecidableEq, Repr

/-- Which bytes of a 64-bit register an access covers: all eight, or the four of either half (R71). -/
inductive Half where
  | full | lo | hi
deriving DecidableEq, Repr

/-- A write that reaches one register: the bytes it covers and the data, in place (R71). -/
structure RegAcc where
  half : Half
  data : DWord
deriving DecidableEq, Repr

/-- What steps 1 and 2 of a start find outside the model: whether the loader's signature verifies, the loader's version,
and whether the identity checks pass (R18, R28). -/
structure Boot where
  sigOk      : Bool
  version    : Nat
  identityOk : Bool
deriving DecidableEq, Repr

/-- How one part comes through step 4 or 5 of a start: its stored record verified, it was trained in full, or it
failed (R18, R19). -/
inductive Train where
  | verified | full | failed
deriving DecidableEq, Repr

/-- What step 4 of a start finds: whether the firmware chain verifies and its version, and how stacks 0 and 1 and die 0
come through training (R18, R21, R28). -/
structure FwLoad where
  sigOk   : Bool
  version : Nat
  stack0  : Train
  stack1  : Train
  die0Ok  : Bool
deriving DecidableEq, Repr

/-- A part that step 5 of a start trains (R18). -/
inductive Part where
  | stack (n : BitVec 3)
  | flash (n : BitVec 1)
  | link (n : BitVec 4)
  | dieBoundary
deriving DecidableEq, Repr

/-- One memory access of one warp that is not yet performed: the team, the warp, the request of the warp and the unit
inside that request, a unit being one single-copy atomic part of one lane or one combined atomic (R213, R313). -/
structure UnitRef where
  team : Nat
  warp : Nat
  req  : Nat
  unit : Nat
deriving DecidableEq, Repr

/-- What befalls an access at its home besides being performed (R68, R69, R128, R130). -/
inductive HomeEvent where
  /-- nothing -/
  | plain
  /-- a correctable error, corrected and counted -/
  | corrected
  /-- an error beyond correction, which poisons the sector, word or page -/
  | uncorrectable
  /-- the line was tampered with, so that its tag fails -/
  | tampered
  /-- the transfer's tag fails on the network inside the package -/
  | networkTag
deriving DecidableEq, Repr

/-- The kinds of a remote access at its target (R33, R38): a store with the bytes of its block, an atomic with its function
code (R251), its width and the operands of its lanes. -/
inductive RemoteKind where
  | load
  | store (data : List Byte)
  | atom (op : BitVec 7) (w64 : Bool) (vals : List (DWord × DWord))
deriving DecidableEq, Repr

/-- A request between devices: its source, its end-to-end sequence number, the identifiers it carries, its fabric address as the device and
the local address (of a 64-byte block, or of an atomic's word), the byte mask of the block it covers, what it does, its order and
scope, and its place among the packets that its source sends on this plane (R31 to R33, R36, R38). -/
structure RemoteReq where
  src     : BitVec 12
  seq     : Nat
  subtree : BitVec 16
  world   : BitVec 6
  comp    : BitVec 2
  addr    : BitVec 44
  bytes   : Nat
  kind    : RemoteKind
  order   : Order := .rlx
  scope   : Scope := .team
  /-- how many packets the source sent to this device on this plane before (R36) -/
  place   : Nat := 0
  /-- the device it goes to (R31, R32) -/
  dev     : BitVec 12 := 0
deriving DecidableEq, Repr

/-- The subtree commands that ALL forwards across the fabric (R115). -/
inductive FwdCmd where
  | freeze | thaw | revoke
deriving DecidableEq, Repr

/-- A forwarded command as it arrives: the command, the SUBTREE whose member it acts on, the level of its issuer, and
whether a root context named itself (R115, R117). -/
structure Forward where
  cmd     : FwdCmd
  subtree : BitVec 16
  level   : BitVec 2
  self    : Bool
deriving DecidableEq, Repr

/-- The order in which switches combine the contributions of the ranks, which the spec leaves free (R6, R41). -/
inductive CombTree where
  | leaf (rank : Nat)
  | node (l r : CombTree)
deriving DecidableEq, Repr

/-- What the other ranks of a collective bring: whether their blocks agree with this one, each rank's source buffer as it
stood, and the order of combination (R335, R336). -/
structure CollIn where
  agree : Bool
  bufs  : List (List Byte)
  tree  : CombTree
deriving DecidableEq, Repr

/-- An engine operation that holds work of a context when a halt reaches it (R187, R191). -/
inductive EngineRef where
  | tce (op : Nat)
  | mxe (op : Nat)
  | cle (op : Nat)
deriving DecidableEq, Repr

/-- What another device answers to a request: done, with the bytes that a load or an atomic returns; a remote miss of a KIND; or a
failure of its data at the home, with the cause, the bytes of the block that it leaves sound, and what a load returns (R36, R38, R69,
R128, R306). -/
inductive FarAnswer where
  | done (bytes : List Byte)
  | miss (kind : BitVec 2)
  | failed (cause : BitVec 8) (sound : Nat) (bytes : List Byte)
deriving DecidableEq, Repr

/-- The operands of an operation or event: what comes with it from outside the device, and the choices the spec leaves
free to the device. Each event reads the fields its meaning names. -/
structure Input where
  /-- who writes a register -/
  writer : Writer := .pf
  /-- a command-queue slot -/
  slot : Slot := 0
  /-- a register write -/
  acc : RegAcc := ⟨.full, 0⟩
  /-- offset of a register write of `REGISTER_WRITE` -/
  off : Nat := 0
  /-- bytes of a register write of `REGISTER_WRITE` -/
  bytes : Nat := 8
  /-- RESET_CTL.COLD of the write that sets GO (R26) -/
  cold : Bool := false
  /-- findings of steps 1 and 2 of a start -/
  boot : Boot := ⟨true, 0, true⟩
  /-- findings of step 4 of a start -/
  fw : FwLoad := ⟨true, 0, .full, .full, true⟩
  /-- the part that step 5 trains -/
  part : Part := .dieBoundary
  /-- how it comes through -/
  train : Train := .full
  /-- a link -/
  link : BitVec 4 := 0
  /-- the link in service that replaces it in OSF_PLANE_MAP (R35) -/
  repl : BitVec 4 := 0
  /-- a die: true for die 1 -/
  die1 : Bool := false
  /-- a clock in MHz (R15) -/
  mhz : BitVec 11 := 0
  /-- a register's index within its array -/
  index : BitVec 3 := 0
  /-- a value written to a 32-bit register -/
  value : Word := 0
  /-- CQ_LOG2 of a write to CQ_CTL -/
  cqLog2 : BitVec 5 := 0
  /-- CR_LOG2 of a write to CQ_CTL -/
  crLog2 : BitVec 5 := 0
  /-- a memory access under way -/
  unit : UnitRef := ⟨0, 0, 0, 0⟩
  /-- what befalls it at its home -/
  home : HomeEvent := .plain
  /-- the KIND of a remote miss (R40) -/
  kind : BitVec 2 := 0
  /-- bytes that another device returns -/
  ext : List Byte := []
  /-- bytes of other devices' memory as the event finds them, by fabric address; a byte not listed reads 0 -/
  far : List (Nat × Byte) := []
  /-- pages of other devices that refuse this device's accesses, by fabric address ÷ 4,096, with the KIND of the miss (R38) -/
  refusing : List (Nat × BitVec 2) := []
  /-- what befalls accesses of the engines, the CPX, instruction fetch and walks, by the local address of the aligned 8-byte word -/
  hits : List (Nat × HomeEvent) := []
  /-- what befalls, at its home on another device, the data that such accesses reach there, by the fabric address of the word (R128) -/
  farHits : List (Nat × HomeEvent) := []
  /-- the bytes of its 64-byte block that a reported failure of a remote access leaves sound, as a mask (R306) -/
  sound : Nat := 0
  /-- the packet received is marked as the first under the next key of its link (R46) -/
  newKey : Bool := false
  /-- an error at an access through an MX window is at the scale byte, not at the element (R64, R68) -/
  atScale : Bool := false
  /-- warps packed with the one that the dispatcher chooses: team and warp (R146) -/
  pack : List (Nat × Nat) := []
  /-- a request of another device -/
  remote : RemoteReq := ⟨0, 0, 0, 0, 0, 0, 0, .load, .rlx, .team, 0, 0⟩
  /-- a team -/
  team : Nat := 0
  /-- a warp of the team -/
  warp : Nat := 0
  /-- an operation, command, bundle or result by number -/
  num : Nat := 0
  /-- a yes or no of the event -/
  flag : Bool := false
  /-- a virtual function -/
  vf : BitVec 7 := 0
  /-- a bounce channel or watchpoint -/
  ch : BitVec 2 := 0
  /-- a context -/
  ctx : CtxId := 0
  /-- a device -/
  dev : BitVec 12 := 0
  /-- a position in a save area -/
  pos : Nat := 0
  /-- positions in a save area -/
  places : List Nat := []
  /-- a core -/
  core : CoreId := 0
  /-- an issue slot of the core -/
  coreSlot : BitVec 2 := 0
  /-- a forwarded subtree command -/
  fwd : Forward := ⟨.freeze, 0, 0, false⟩
  /-- what the other ranks of a collective bring -/
  coll : CollIn := ⟨true, [], .leaf 0⟩
  /-- an engine operation -/
  engine : EngineRef := .tce 0
deriving DecidableEq, Repr


/-- The steps of the part, one constructor for each row of the opcode table: the instruction words of R246 to R252 with
their fields, and the operations and events, whose operands stand in `Input`. -/
inductive Instr where
  /-- `NOP` (R281). nop has no effect except on ISSUE_COUNT and PLY_LEFT. -/
  | nop (h : Hdr)
  /-- `EXIT` (R344). Each thread that takes part waits for its warp's results, tokens and stores and then exits. -/
  | exit (h : Hdr)
  /-- `TRAP` (R345). trap raises TRAP with CAUSE 0x80 + n, precisely, with the saved PC at the next instruction. -/
  | trap (h : Hdr) (a : Reg)
  /-- `BRK` (R345). brk raises BREAK precisely, with the saved PC at the next instruction. -/
  | brk (h : Hdr)
  /-- `RSB` (R346). rsb adds 1 to the warp's RSEC_DEPTH, stopping at 255. -/
  | rsb (h : Hdr)
  /-- `RSE` (R346). rse subtracts 1 from the warp's RSEC_DEPTH, stopping at 0. -/
  | rse (h : Hdr)
  /-- `GPW` (R346). gpw takes a grace-period tag and parks the warp until GEN reaches it, or faults inside a read-side section. -/
  | gpw (h : Hdr)
  /-- `DFREE` (R347). dfree enqueues each active lane's address with its tag on the deferred-free queue, parking while room is short. -/
  | dfree (h : Hdr) (a : Reg)
  /-- `GATE` (R319). gate g continues when gate g is open, and otherwise parks until it opens, acquiring at device scope. -/
  | gate (h : Hdr) (a : Reg)
  /-- `DLREL` (R320). dlrel g marks the warp as having released gate g, and the team releases g when its last warp has done so. -/
  | dlrel (h : Hdr) (a : Reg)
  /-- `SYSRD` (R349). sysrd writes a special register's value into a uniform register. -/
  | sysrd (h : Hdr) (d a : Reg)
  /-- `SYSWR` (R349). syswr 22 copies a uniform register into USER_TAG. -/
  | syswr (h : Hdr) (d a : Reg)
  /-- `RALLOC` (R350). ralloc grows the warp's register allocation by n pages, parking when pages are short. -/
  | ralloc (h : Hdr) (a : Reg)
  /-- `RFREE` (R350). rfree removes n pages from the top of the allocation and serves parked ralloc warps. -/
  | rfree (h : Hdr) (a : Reg)
  /-- `WBASE` (R351). wbase sets the warp's register WINDOW to n. -/
  | wbase (h : Hdr) (a : Reg)
  /-- `CPOST` (R352). cpost writes a KIND 3 completion record holding sD to sD+3, parking while the ring is full. -/
  | cpost (h : Hdr) (d : Reg)
  /-- `SPT` (R342). spt refills PLY_LEFT, parks under a standing stop request and clears grace-period debt at nesting zero. -/
  | spt (s : Bool) (i : BitVec 17)
  /-- `WAIT` (R324). wait parks until every token in the mask holds 0, and then acquires their operations. -/
  | wait (s : Bool) (m : BitVec 8)
  /-- `BR` (R282). br sends each thread that takes part to the target code offset. -/
  | br (h : Hdr) (o : BitVec 21)
  /-- `BR_M` (R284). br.m parks every active thread at a marked branch with a guard-chosen target, for rendezvous and regrouping. -/
  | brM (h : Hdr) (o : BitVec 21)
  /-- `CALL` (R283). call writes the return offset into v127 and branches to the target. -/
  | call (h : Hdr) (o : BitVec 21)
  /-- `BRX` (R284). brx sends each thread that takes part to the code offset held in its vA. -/
  | brx (h : Hdr) (a : Reg)
  /-- `BRX_M` (R284). brx.m is a marked indirect branch, parking each thread for rendezvous with a target from vA or the next instruction. -/
  | brxM (h : Hdr) (a : Reg)
  /-- `BAR_JOIN` (R316). bar.join arrives at barrier bN and then waits for the phase to complete. -/
  | barJoin (h : Hdr) (a : Reg)
  /-- `BAR_MARK` (R316). bar.mark arrives at barrier bN without waiting. -/
  | barMark (h : Hdr) (a : Reg)
  /-- `BAR_HOLD` (R316). bar.hold waits for the phase in which the thread arrived, or continues at once when it has not arrived. -/
  | barHold (h : Hdr) (a : Reg)
  /-- `FENCE` (R315). fence orders the thread's accesses with the given order and scope. -/
  | fence (h : Hdr) (o : FenceOrder) (c : Scope)
  /-- `CSTAGE` (R332). cstage raises the warp's stage count, captures DYN_REG pairs and binds a stage-release operation to the token. -/
  | cstage (h : Hdr)
  /-- `COLL` (R334). coll reads a collective parameter block and starts one collective instance on the CLE, bound to the token. -/
  | coll (h : Hdr) (a : Reg)
  /-- `TLD` (R338). tld captures a uniform quad and writes it as a shape record into a tile register. -/
  | tld (h : Hdr) (d a : Reg)
  /-- `TST` (R338). tst writes a tile register's shape record into a uniform quad. -/
  | tst (h : Hdr) (d a : Reg)
  /-- `MMA` (R339). mma checks the captured shape records and adds the exact product of the A and B tiles into an accumulator with one rounding. -/
  | mma (h : Hdr) (d a b : Reg)
  /-- `MMZ` (R339). mmz acts as mma with the accumulator taken as +0. -/
  | mmz (h : Hdr) (d a b : Reg)
  /-- `CMMA` (R243). cmma adds a complex FP32 tile product into an accumulator quad with compensated hi and lo parts. -/
  | cmma (h : Hdr) (d a b : Reg)
  /-- `CMMZ` (R243). cmmz acts as cmma with hi and lo taken as +0. -/
  | cmmz (h : Hdr) (d a b : Reg)
  /-- `ACC_ST` (R340). acc.st writes accumulator elements into a scratchpad tile with the selected rounding function. -/
  | accSt (h : Hdr) (d a : Reg) (t : BitVec 4) (f : AccStFn)
  /-- `ACC_LD` (R341). acc.ld loads a scratchpad tile into an accumulator, with +0 outside the tile. -/
  | accLd (h : Hdr) (d : Reg) (t : BitVec 4) (f : AccLdFn)
  /-- `ACC_ZERO` (R341). acc.zero sets n consecutive accumulators to +0. -/
  | accZero (h : Hdr) (d n : Reg)
  /-- `VLIL` (R280). vlil writes a sign-extended 17-bit immediate into a vector register. -/
  | vlil (s : Bool) (d : Reg) (i : BitVec 17)
  /-- `VLIH` (R280). vlih replaces bits 31 to 15 of a vector register with a 17-bit immediate. -/
  | vlih (s : Bool) (d : Reg) (i : BitVec 17)
  /-- `SLIL` (R280). slil writes a sign-extended 17-bit immediate into a uniform register. -/
  | slil (s : Bool) (d : Reg) (i : BitVec 17)
  /-- `SLIH` (R280). slih replaces bits 31 to 15 of a uniform register with a 17-bit immediate. -/
  | slih (s : Bool) (d : Reg) (i : BitVec 17)
  /-- `LD` (R306). ld loads each lane's data from its address pair after the probe, as a variable-latency producer. -/
  | ld (h : Hdr) (d a : Reg) (m : MemMode)
  /-- `ST` (R307). st enters each lane's data into the warp's FIFO store queue for its home. -/
  | st (h : Hdr) (d a : Reg) (m : MemMode)
  /-- `SLD` (R306). sld performs one load for the warp from a uniform address into uniform registers. -/
  | sld (h : Hdr) (d a : Reg) (m : MemMode)
  /-- `SST` (R307). sst performs one store for the warp from uniform registers to a uniform address. -/
  | sst (h : Hdr) (d a : Reg) (m : MemMode)
  /-- `ATOM_ADD` (R311). atom.add adds the data to the word modulo 2^n, lanes at one address combining into one step. -/
  | atomAdd (h : Hdr) (d a : Reg) (m : AtomMode)
  /-- `ATOM_AND` (R311). atom.and stores the AND of the word and the data. -/
  | atomAnd (h : Hdr) (d a : Reg) (m : AtomMode)
  /-- `ATOM_OR` (R311). atom.or stores the OR of the word and the data. -/
  | atomOr (h : Hdr) (d a : Reg) (m : AtomMode)
  /-- `ATOM_XOR` (R311). atom.xor stores the XOR of the word and the data. -/
  | atomXor (h : Hdr) (d a : Reg) (m : AtomMode)
  /-- `ATOM_MIN_I` (R311). atom.min.i stores the signed lesser of the word and the data. -/
  | atomMinI (h : Hdr) (d a : Reg) (m : AtomMode)
  /-- `ATOM_MAX_I` (R311). atom.max.i stores the signed greater of the word and the data. -/
  | atomMaxI (h : Hdr) (d a : Reg) (m : AtomMode)
  /-- `ATOM_MIN_N` (R311). atom.min.n stores the unsigned lesser of the word and the data. -/
  | atomMinN (h : Hdr) (d a : Reg) (m : AtomMode)
  /-- `ATOM_MAX_N` (R311). atom.max.n stores the unsigned greater of the word and the data. -/
  | atomMaxN (h : Hdr) (d a : Reg) (m : AtomMode)
  /-- `ATOM_SWAP` (R311). atom.swap stores the data and optionally returns the old word. -/
  | atomSwap (h : Hdr) (d a : Reg) (m : AtomMode)
  /-- `ATOM_CAS` (R312). atom.cas stores new when the word equals cmp. -/
  | atomCas (h : Hdr) (d a : Reg) (m : AtomMode)
  /-- `ATOM_FADD` (R313). atom.fadd adds an FP32 value to the word, lanes at one address combining through the pairwise tree. -/
  | atomFadd (h : Hdr) (d a : Reg) (m : AtomMode)
  /-- `ATOM_FMAX` (R311). atom.fmax stores the fmax of the word and an FP32 value. -/
  | atomFmax (h : Hdr) (d a : Reg) (m : AtomMode)
  /-- `SAND` (R278). sand ANDs two uniform registers. -/
  | sand (h : Hdr) (d a b : Reg)
  /-- `SOR` (R278). sor ORs two uniform registers. -/
  | sor (h : Hdr) (d a b : Reg)
  /-- `SXOR` (R278). sxor XORs two uniform registers. -/
  | sxor (h : Hdr) (d a b : Reg)
  /-- `SSHR` (R278). sshr shifts a uniform register right logically. -/
  | sshr (h : Hdr) (d a b : Reg)
  /-- `SSAR` (R278). ssar shifts a uniform register right arithmetically. -/
  | ssar (h : Hdr) (d a b : Reg)
  /-- `SMIN_N` (R278). smin.n writes the unsigned lesser of two uniform registers. -/
  | sminN (h : Hdr) (d a b : Reg)
  /-- `SMAX_N` (R278). smax.n writes the unsigned greater of two uniform registers. -/
  | smaxN (h : Hdr) (d a b : Reg)
  /-- `IADD` (R265). iadd adds two vector registers modulo 2^32. -/
  | iadd (h : Hdr) (d a b : Reg)
  /-- `ISUB` (R265). isub subtracts modulo 2^32. -/
  | isub (h : Hdr) (d a b : Reg)
  /-- `IMUL` (R265). imul writes the low 32 bits of the product. -/
  | imul (h : Hdr) (d a b : Reg)
  /-- `IMULH_I` (R265). imulh.i writes the high 32 bits of the signed product. -/
  | imulhI (h : Hdr) (d a b : Reg)
  /-- `IMULH_N` (R265). imulh.n writes the high 32 bits of the unsigned product. -/
  | imulhN (h : Hdr) (d a b : Reg)
  /-- `IMAD` (R265). imad writes A × B + D modulo 2^32. -/
  | imad (h : Hdr) (d a b : Reg)
  /-- `IAND` (R265). iand ANDs two vector registers. -/
  | iand (h : Hdr) (d a b : Reg)
  /-- `IOR` (R265). ior ORs two vector registers. -/
  | ior (h : Hdr) (d a b : Reg)
  /-- `IXOR` (R265). ixor XORs two vector registers. -/
  | ixor (h : Hdr) (d a b : Reg)
  /-- `IANDN` (R265). iandn writes A AND NOT B. -/
  | iandn (h : Hdr) (d a b : Reg)
  /-- `ISHL` (R266). ishl shifts left by the whole of B, giving 0 for counts of 32 or more. -/
  | ishl (h : Hdr) (d a b : Reg)
  /-- `ISHR` (R266). ishr shifts right logically by the whole of B. -/
  | ishr (h : Hdr) (d a b : Reg)
  /-- `ISAR` (R266). isar shifts right arithmetically by the whole of B. -/
  | isar (h : Hdr) (d a b : Reg)
  /-- `IMIN_I` (R265). imin.i writes the signed lesser. -/
  | iminI (h : Hdr) (d a b : Reg)
  /-- `IMAX_I` (R265). imax.i writes the signed greater. -/
  | imaxI (h : Hdr) (d a b : Reg)
  /-- `IMIN_N` (R265). imin.n writes the unsigned lesser. -/
  | iminN (h : Hdr) (d a b : Reg)
  /-- `IMAX_N` (R265). imax.n writes the unsigned greater. -/
  | imaxN (h : Hdr) (d a b : Reg)
  /-- `CLMUL` (R267). clmul writes the low 32 bits of the carry-less product. -/
  | clmul (h : Hdr) (d a b : Reg)
  /-- `CLMULH` (R267). clmulh writes the high 32 bits of the carry-less product. -/
  | clmulh (h : Hdr) (d a b : Reg)
  /-- `IADD64` (R265). iadd64 adds register pairs modulo 2^64. -/
  | iadd64 (h : Hdr) (d a b : Reg)
  /-- `ISUB64` (R265). isub64 subtracts register pairs modulo 2^64. -/
  | isub64 (h : Hdr) (d a b : Reg)
  /-- `IMULW_N` (R265). imulw.n writes the whole unsigned 64-bit product into a pair. -/
  | imulwN (h : Hdr) (d a b : Reg)
  /-- `BFE_N` (R268). bfe.n extracts an unsigned bit field. -/
  | bfeN (h : Hdr) (d a b : Reg)
  /-- `BFE_I` (R268). bfe.i extracts a sign-extended bit field. -/
  | bfeI (h : Hdr) (d a b : Reg)
  /-- `BFI` (R268). bfi inserts a bit field of A into D. -/
  | bfi (h : Hdr) (d a b : Reg)
  /-- `PERM` (R269). perm builds each byte of D from a nibble selector. -/
  | perm (h : Hdr) (d a b : Reg)
  /-- `SEL` (R270). sel writes A where the selector predicate is 1 and B otherwise. -/
  | sel (h : Hdr) (d a b : Reg)
  /-- `ICMP` (R271). icmp sets a predicate by an integer condition. -/
  | icmp (h : Hdr) (c : ICond) (p : PReg) (a b : Reg)
  /-- `IADDI` (R272). iaddi adds a sign-extended 7-bit immediate. -/
  | iaddi (h : Hdr) (d a : Reg) (i : BitVec 7)
  /-- `ISHLI` (R272). ishli shifts left by an immediate count. -/
  | ishli (h : Hdr) (d a : Reg) (i : BitVec 5)
  /-- `ISHRI` (R272). ishri shifts right logically by an immediate count. -/
  | ishri (h : Hdr) (d a : Reg) (i : BitVec 5)
  /-- `ISARI` (R272). isari shifts right arithmetically by an immediate count. -/
  | isari (h : Hdr) (d a : Reg) (i : BitVec 5)
  /-- `IADD_VS` (R273). iadd.vs adds a uniform operand to a vector register. -/
  | iaddVs (h : Hdr) (d a b : Reg)
  /-- `IMUL_VS` (R273). imul.vs multiplies by a uniform operand. -/
  | imulVs (h : Hdr) (d a b : Reg)
  /-- `IMAD_VS` (R273). imad.vs writes A × sB + D. -/
  | imadVs (h : Hdr) (d a b : Reg)
  /-- `IAND_VS` (R273). iand.vs ANDs with a uniform operand. -/
  | iandVs (h : Hdr) (d a b : Reg)
  /-- `ISHL_VS` (R273). ishl.vs shifts left by a uniform count. -/
  | ishlVs (h : Hdr) (d a b : Reg)
  /-- `ISHR_VS` (R273). ishr.vs shifts right logically by a uniform count. -/
  | ishrVs (h : Hdr) (d a b : Reg)
  /-- `ICMP_VS` (R273). icmp.vs compares a vector register with a uniform operand into a predicate. -/
  | icmpVs (h : Hdr) (c : ICond) (p : PReg) (a b : Reg)
  /-- `IADD64_VS` (R273). iadd64.vs adds a uniform pair to a vector pair modulo 2^64. -/
  | iadd64Vs (h : Hdr) (d a b : Reg)
  /-- `MOV` (R274). mov copies a vector register. -/
  | mov (h : Hdr) (d a : Reg)
  /-- `MOV64` (R274). mov64 copies a vector pair. -/
  | mov64 (h : Hdr) (d a : Reg)
  /-- `POPC` (R274). popc counts the 1 bits. -/
  | popc (h : Hdr) (d a : Reg)
  /-- `CLZ` (R274). clz counts the leading zeros. -/
  | clz (h : Hdr) (d a : Reg)
  /-- `BREV` (R274). brev reverses the bit order. -/
  | brev (h : Hdr) (d a : Reg)
  /-- `INEG` (R274). ineg negates modulo 2^32. -/
  | ineg (h : Hdr) (d a : Reg)
  /-- `IABS` (R274). iabs writes the absolute value modulo 2^32. -/
  | iabs (h : Hdr) (d a : Reg)
  /-- `LANEID` (R275). laneid writes the thread's lane within its warp. -/
  | laneid (h : Hdr) (d : Reg)
  /-- `BCAST` (R276). bcast writes a uniform value into every thread that takes part. -/
  | bcast (h : Hdr) (d a : Reg)
  /-- `RDL` (R276). rdl writes vA of the lowest lane that takes part into a uniform register. -/
  | rdl (h : Hdr) (d a : Reg)
  /-- `PAND` (R277). pand writes the AND of two predicates. -/
  | pand (h : Hdr) (d b a : PReg)
  /-- `POR` (R277). por writes the OR of two predicates. -/
  | por (h : Hdr) (d b a : PReg)
  /-- `PXOR` (R277). pxor writes the XOR of two predicates. -/
  | pxor (h : Hdr) (d b a : PReg)
  /-- `PANDN` (R277). pandn writes pA AND NOT pB. -/
  | pandn (h : Hdr) (d b a : PReg)
  /-- `PNOT` (R277). pnot writes NOT pA. -/
  | pnot (h : Hdr) (d a : PReg)
  /-- `PSET` (R277). pset sets each thread's predicate from its lane bit of a 64-bit uniform mask. -/
  | pset (h : Hdr) (d : PReg) (a : Reg)
  /-- `TIDX` (R275). tidx writes the thread's x coordinate within its team. -/
  | tidx (h : Hdr) (d : Reg)
  /-- `TIDY` (R275). tidy writes the thread's y coordinate within its team. -/
  | tidy (h : Hdr) (d : Reg)
  /-- `TIDZ` (R275). tidz writes the thread's z coordinate within its team. -/
  | tidz (h : Hdr) (d : Reg)
  /-- `XL_IDX` (R300). xl.idx reads vA from the lane named by vB[5:0]. -/
  | xlIdx (h : Hdr) (d a b : Reg)
  /-- `XL_XOR` (R300). xl.xor reads vA from lane L XOR n. -/
  | xlXor (h : Hdr) (d a : Reg) (n : BitVec 6)
  /-- `XL_BACK` (R300). xl.back reads vA from lane L − n. -/
  | xlBack (h : Hdr) (d a : Reg) (n : BitVec 6)
  /-- `XL_FWD` (R300). xl.fwd reads vA from lane L + n. -/
  | xlFwd (h : Hdr) (d a : Reg) (n : BitVec 6)
  /-- `PCOL_MASK` (R301). pcol.mask writes a 64-bit ballot of a predicate into a uniform pair. -/
  | pcolMask (h : Hdr) (d : Reg) (a : PReg)
  /-- `PCOL_ANY` (R301). pcol.any writes 1 when any participating thread has the predicate set. -/
  | pcolAny (h : Hdr) (d : Reg) (a : PReg)
  /-- `PCOL_ALL` (R301). pcol.all writes 1 when every participating thread has the predicate set. -/
  | pcolAll (h : Hdr) (d : Reg) (a : PReg)
  /-- `PCOL_CNT` (R301). pcol.cnt counts the participating threads with the predicate set. -/
  | pcolCnt (h : Hdr) (d : Reg) (a : PReg)
  /-- `WRED_ADD` (R302). wred.add sums vA over the participating threads modulo 2^32. -/
  | wredAdd (h : Hdr) (d a : Reg)
  /-- `WRED_MIN_I` (R302). wred.min.i writes the signed least. -/
  | wredMinI (h : Hdr) (d a : Reg)
  /-- `WRED_MAX_I` (R302). wred.max.i writes the signed greatest. -/
  | wredMaxI (h : Hdr) (d a : Reg)
  /-- `WRED_MIN_N` (R302). wred.min.n writes the unsigned least. -/
  | wredMinN (h : Hdr) (d a : Reg)
  /-- `WRED_MAX_N` (R302). wred.max.n writes the unsigned greatest. -/
  | wredMaxN (h : Hdr) (d a : Reg)
  /-- `WRED_AND` (R302). wred.and writes the bitwise AND. -/
  | wredAnd (h : Hdr) (d a : Reg)
  /-- `WRED_OR` (R302). wred.or writes the bitwise OR. -/
  | wredOr (h : Hdr) (d a : Reg)
  /-- `WRED_XOR` (R302). wred.xor writes the bitwise XOR. -/
  | wredXor (h : Hdr) (d a : Reg)
  /-- `WRED_FADD` (R302). wred.fadd writes the exact FP32 sum rounded once. -/
  | wredFadd (h : Hdr) (d a : Reg)
  /-- `PFX_ADD_IN` (R303). pfx.add.in writes the inclusive prefix sum. -/
  | pfxAddIn (h : Hdr) (d a : Reg)
  /-- `PFX_ADD_EX` (R303). pfx.add.ex writes the exclusive prefix sum. -/
  | pfxAddEx (h : Hdr) (d a : Reg)
  /-- `PFX_XOR_IN` (R303). pfx.xor.in writes the inclusive prefix XOR. -/
  | pfxXorIn (h : Hdr) (d a : Reg)
  /-- `PFX_XOR_EX` (R303). pfx.xor.ex writes the exclusive prefix XOR. -/
  | pfxXorEx (h : Hdr) (d a : Reg)
  /-- `PFX_MAX_I_IN` (R303). pfx.max.i.in writes the inclusive signed prefix maximum. -/
  | pfxMaxIIn (h : Hdr) (d a : Reg)
  /-- `FADD` (R288). fadd writes the FP32 sum rounded RN. -/
  | fadd (h : Hdr) (d a b : Reg)
  /-- `FSUB` (R288). fsub writes the FP32 difference rounded RN. -/
  | fsub (h : Hdr) (d a b : Reg)
  /-- `FMUL` (R288). fmul writes the FP32 product rounded RN. -/
  | fmul (h : Hdr) (d a b : Reg)
  /-- `FFMA` (R288). ffma writes A × B + D with one rounding. -/
  | ffma (h : Hdr) (d a b : Reg)
  /-- `FMIN` (R289). fmin returns the lesser operand bit for bit. -/
  | fmin (h : Hdr) (d a b : Reg)
  /-- `FMAX` (R289). fmax returns the greater operand bit for bit. -/
  | fmax (h : Hdr) (d a b : Reg)
  /-- `FCMP` (R290). fcmp sets a predicate by an ordered or unordered FP32 condition. -/
  | fcmp (h : Hdr) (c : FCond) (p : PReg) (a b : Reg)
  /-- `FADD_VS` (R291). fadd.vs adds a uniform FP32 operand. -/
  | faddVs (h : Hdr) (d a b : Reg)
  /-- `FMUL_VS` (R291). fmul.vs multiplies by a uniform FP32 operand. -/
  | fmulVs (h : Hdr) (d a b : Reg)
  /-- `FFMA_VS` (R291). ffma.vs writes A × sB + D with one rounding. -/
  | ffmaVs (h : Hdr) (d a b : Reg)
  /-- `BADD2` (R292). badd2 adds two packed BF16 pairs element by element. -/
  | badd2 (h : Hdr) (d a b : Reg)
  /-- `BMUL2` (R292). bmul2 multiplies packed BF16 pairs. -/
  | bmul2 (h : Hdr) (d a b : Reg)
  /-- `BFMA2` (R292). bfma2 computes packed BF16 fused multiply-adds. -/
  | bfma2 (h : Hdr) (d a b : Reg)
  /-- `CMUL` (R293). cmul multiplies complex FP32 pairs with one rounding per part. -/
  | cmul (h : Hdr) (d a b : Reg)
  /-- `CFMA` (R293). cfma adds a complex product into D with one rounding per part. -/
  | cfma (h : Hdr) (d a b : Reg)
  /-- `TWOSUM` (R294). twosum writes the rounded sum and its exact error into a pair. -/
  | twosum (h : Hdr) (d a b : Reg)
  /-- `FRCP` (R295). frcp writes the correctly rounded reciprocal. -/
  | frcp (h : Hdr) (d a : Reg)
  /-- `FRSQ` (R295). frsq writes the faithfully rounded reciprocal square root. -/
  | frsq (h : Hdr) (d a : Reg)
  /-- `FSQRT` (R295). fsqrt writes the correctly rounded square root. -/
  | fsqrt (h : Hdr) (d a : Reg)
  /-- `FEXP2` (R295). fexp2 writes 2^A, faithfully rounded. -/
  | fexp2 (h : Hdr) (d a : Reg)
  /-- `FLOG2` (R295). flog2 writes log2 A, faithfully rounded. -/
  | flog2 (h : Hdr) (d a : Reg)
  /-- `FSINP` (R295). fsinp writes sin(πA), faithfully rounded. -/
  | fsinp (h : Hdr) (d a : Reg)
  /-- `FCOSP` (R295). fcosp writes cos(πA), faithfully rounded. -/
  | fcosp (h : Hdr) (d a : Reg)
  /-- `FABS` (R295). fabs clears bit 31. -/
  | fabs (h : Hdr) (d a : Reg)
  /-- `FNEG` (R295). fneg inverts bit 31. -/
  | fneg (h : Hdr) (d a : Reg)
  /-- `FFLOOR` (R296). ffloor rounds to the greatest integer not above A. -/
  | ffloor (h : Hdr) (d a : Reg)
  /-- `FCEIL` (R296). fceil rounds to the least integer not below A. -/
  | fceil (h : Hdr) (d a : Reg)
  /-- `FTRUNC` (R296). ftrunc rounds toward zero to an integer. -/
  | ftrunc (h : Hdr) (d a : Reg)
  /-- `FRINT` (R296). frint rounds to the nearest integer, ties to even. -/
  | frint (h : Hdr) (d a : Reg)
  /-- `FCLASS` (R297). fclass writes a one-hot class mask of A. -/
  | fclass (h : Hdr) (d a : Reg)
  /-- `CVT_F32_I32` (R298). Converts a signed integer to FP32 with RN. -/
  | cvtF32I32 (h : Hdr) (d a : Reg)
  /-- `CVT_F32_N32` (R298). Converts an unsigned integer to FP32 with RN. -/
  | cvtF32N32 (h : Hdr) (d a : Reg)
  /-- `CVT_I32_F32` (R298). Converts FP32 to a signed integer with RN, saturating. -/
  | cvtI32F32 (h : Hdr) (d a : Reg)
  /-- `CVT_N32_F32` (R298). Converts FP32 to an unsigned integer with RN, saturating. -/
  | cvtN32F32 (h : Hdr) (d a : Reg)
  /-- `CVT_I32_F32_RZ` (R298). Converts FP32 to a signed integer toward zero, saturating. -/
  | cvtI32F32Rz (h : Hdr) (d a : Reg)
  /-- `CVT_BF16X2_F32` (R298). Narrows an FP32 pair to packed BF16 with RN. -/
  | cvtBf16x2F32 (h : Hdr) (d a : Reg)
  /-- `CVT_F32_BF16X2` (R298). Widens packed BF16 exactly to an FP32 pair. -/
  | cvtF32Bf16x2 (h : Hdr) (d a : Reg)
  /-- `CVT_F16X2_F32` (R298). Narrows an FP32 pair to packed FP16 with RN. -/
  | cvtF16x2F32 (h : Hdr) (d a : Reg)
  /-- `CVT_F32_F16X2` (R298). Widens packed FP16 exactly to an FP32 pair. -/
  | cvtF32F16x2 (h : Hdr) (d a : Reg)
  /-- `CVT_E4M3X4_F32` (R298). Narrows an FP32 quad to four E4M3 codes with RN, saturating. -/
  | cvtE4m3x4F32 (h : Hdr) (d a : Reg)
  /-- `CVT_E5M2X4_F32` (R298). Narrows an FP32 quad to four E5M2 codes with RN, saturating. -/
  | cvtE5m2x4F32 (h : Hdr) (d a : Reg)
  /-- `CVT_F32_E4M3X4` (R298). Widens four E4M3 codes exactly to an FP32 quad. -/
  | cvtF32E4m3x4 (h : Hdr) (d a : Reg)
  /-- `CVT_F32_E5M2X4` (R298). Widens four E5M2 codes exactly to an FP32 quad. -/
  | cvtF32E5m2x4 (h : Hdr) (d a : Reg)
  /-- `TWOPROD` (R294). twoprod writes the rounded product and its error into a pair. -/
  | twoprod (h : Hdr) (d a b : Reg)
  /-- `FCMP_VS` (R291). fcmp.vs compares with a uniform FP32 operand into a predicate. -/
  | fcmpVs (h : Hdr) (c : FCond) (p : PReg) (a b : Reg)
  /-- `HADD2` (R292). hadd2 adds packed FP16 pairs. -/
  | hadd2 (h : Hdr) (d a b : Reg)
  /-- `HMUL2` (R292). hmul2 multiplies packed FP16 pairs. -/
  | hmul2 (h : Hdr) (d a b : Reg)
  /-- `HFMA2` (R292). hfma2 computes packed FP16 fused multiply-adds. -/
  | hfma2 (h : Hdr) (d a b : Reg)
  /-- `SADD` (R278). sadd adds two uniform registers. -/
  | sadd (h : Hdr) (d a b : Reg)
  /-- `SSUB` (R278). ssub subtracts two uniform registers. -/
  | ssub (h : Hdr) (d a b : Reg)
  /-- `SMUL` (R278). smul multiplies two uniform registers. -/
  | smul (h : Hdr) (d a b : Reg)
  /-- `SSHL` (R278). sshl shifts a uniform register left. -/
  | sshl (h : Hdr) (d a b : Reg)
  /-- `SCMP` (R279). scmp writes the same predicate value to every non-exited thread of the warp. -/
  | scmp (h : Hdr) (c : ICond) (p : PReg) (a b : Reg)
  /-- `SADD64` (R278). sadd64 adds uniform pairs modulo 2^64. -/
  | sadd64 (h : Hdr) (d a b : Reg)
  /-- `SADDI` (R278). saddi adds a sign-extended 7-bit immediate to a uniform register. -/
  | saddi (h : Hdr) (d a : Reg) (i : BitVec 7)
  /-- `SMOV` (R278). smov copies a uniform register. -/
  | smov (h : Hdr) (d a : Reg)
  /-- `SMOV64` (R278). smov64 copies a uniform pair. -/
  | smov64 (h : Hdr) (d a : Reg)
  /-- `SPOPC` (R278). spopc counts the 1 bits of a uniform register. -/
  | spopc (h : Hdr) (d a : Reg)
  /-- `SCLZ` (R278). sclz counts the leading zeros of a uniform register. -/
  | sclz (h : Hdr) (d a : Reg)
  /-- `SNEG` (R278). sneg negates a uniform register. -/
  | sneg (h : Hdr) (d a : Reg)
  /-- `MAIN_POWER_ON` (R17). Applying main power begins a start at step 1 of the start sequence, with every register at its Reset value. -/
  | mainPowerOn
  /-- `MAIN_POWER_OFF` (R17). Removing main power loses all state except the fuses, the flash contents and the stored training records. -/
  | mainPowerOff
  /-- `HOST_LINK_TRAINED` (R18). The PCI Express link finishes training, and the physical function and START_STATUS become visible with PHASE 2. -/
  | hostLinkTrained
  /-- `FIRMWARE_LOADED` (R18). Firmware is verified and loaded, stacks 0 and 1 are trained and zeroed, PHASE becomes 3 and configuration enters CONFIG_OPEN. -/
  | firmwareLoaded
  /-- `UNIT_TRAINED` (R19). A stack, flash stack, link or the die boundary finishes training or verifies its stored record, and its in-service bit is set or left clear. -/
  | unitTrained
  /-- `FULL_SERVICE` (R24). Cores 96 to 191 join the distributor and PHASE moves from 3 to 4 without disturbing running kernels. -/
  | fullService
  /-- `RESET_GO` (R27). Writing GO as 1 in RESET_CTL abandons all work and begins a new start at step 1, cold when COLD is also 1. -/
  | resetGo
  /-- `CLOCK_ADJUST` (R15). Command-processor firmware lowers or raises a die's arithmetic clock in 25 MHz steps to keep the draw under the power cap. -/
  | clockAdjust
  /-- `POWER_CTL_WRITE` (R16). A physical-function write to POWER_CTL sets the clamped power cap, and a virtual-function write is ignored. -/
  | powerCtlWrite
  /-- `REGISTER_WRITE` (R7). A write to a register that has no row of its own takes effect field by field under each field's access code. -/
  | registerWrite
  /-- `CFG_LOCK` (R73). CMD 1 in CFG_CTL, accepted only in CONFIG_OPEN, moves the configuration interface to CONFIG_LOCKED. -/
  | cfgLock
  /-- `CFG_RUN` (R74). CMD 2 in CFG_CTL, accepted only in CONFIG_LOCKED, begins the move to RUN and sets MOVING. -/
  | cfgRun
  /-- `CFG_RUN_DONE` (R74). Firmware checks every VF_CFG, enables the virtual functions, records the locked configuration and sets STATE to RUN. -/
  | cfgRunDone
  /-- `HASH_MASK_WRITE` (R56). A write that changes a HASH_MASK starts the zeroing of every HBM stack in service and stalls host HBM accesses, while a write that changes nothing has no effect. -/
  | hashMaskWrite
  /-- `HASH_MASK_ZEROING_DONE` (R56). The base dies finish zeroing HBM after a mask change, and the stalled host accesses proceed. -/
  | hashMaskZeroingDone
  /-- `OWL_REKEY` (R49). Each bit set in LINKS asks firmware to agree and install a next key on both directions of that link. -/
  | owlRekey
  /-- `LINK_KEY_INSTALLED` (R131). The authenticated ML-KEM exchange with the peer switch finishes, the next key is installed, and a direction held in KEY_EXHAUSTED resumes. -/
  | linkKeyInstalled
  /-- `REMOTE_REQUEST_SEND` (R37). A remote request leaves on the plane chosen from its address, a release or sc operation waiting for earlier acknowledgements. -/
  | remoteRequestSend
  /-- `LINK_TAG_FAILURE` (R48). A receiver discards a link packet whose tag fails and asks for retransmission. -/
  | linkTagFailure
  /-- `LINK_FAILED` (R48). After eight consecutive tag failures the link leaves service, SEC_EVENT records the loss and the plane map is rewritten for resending. -/
  | linkFailed
  /-- `REMOTE_REQUEST_ARRIVE` (R38). A request arriving from another device passes the target check and is performed, or it is a remote miss that is logged and halts the member context. -/
  | remoteRequestArrive
  /-- `UNDELIVERABLE` (R34). A packet returned by the leaf as undeliverable is treated at the source as a remote miss of kind no-route. -/
  | undeliverable
  /-- `REMOTE_MISS_REPLY` (R39). A failure reply reaching the source raises the context's halt line with an imprecise REMOTE_PIN_MISS and records OSF_ERR. -/
  | remoteMissReply
  /-- `REMOTE_ACK` (R36). An acknowledgement for a remote store or atomic, or a returned value, arrives at the source. -/
  | remoteAck
  /-- `HOME_PERFORM` (R57). A load, store, atomic or engine access is performed at its word's home unit, BALU or scratchpad word, serialised with all other accesses to that word. -/
  | homePerform
  /-- `RESULT_RETURN` (R171). A variable-latency result returns to the register named at issue, releasing warps parked at a switch marker or fence. -/
  | resultReturn
  /-- `CQ_WRITE` (R77). A write to CQ_WRITE is checked against RIDX and the ring size and either advances WIDX or puts the queue in ERROR with INDEX_BAD. -/
  | cqWrite
  /-- `CQ_ENABLE` (R78). Setting ENABLE in IDLE puts the queue in RUN, or in ERROR with BAD_CONFIG or INDEX_BAD. -/
  | cqEnable
  /-- `CQ_DISABLE` (R78). Clearing ENABLE returns the queue to IDLE, and any blocked packet is abandoned with status ABORTED. -/
  | cqDisable
  /-- `CQ_RESTART` (R79). Writing RESTART returns a queue in ERROR to RUN. -/
  | cqRestart
  /-- `CQ_READ_WRITE` (R79). A write to CQ_READ in IDLE or ERROR sets RIDX when the value is within the ring. -/
  | cqReadWrite
  /-- `CR_READ_WRITE` (R89). Software's write of CR_READ frees completion-ring space, so waiting records can be written. -/
  | crReadWrite
  /-- `PACKET_START` (R80). The CPX reads and starts the packet at RIDX in index order once it may start, and otherwise the queue shows BLOCKED. -/
  | packetStart
  /-- `LAUNCH` (R81). LAUNCH reads the bundle's records, arguments and copy schedules once and either queues its teams for placement or completes LAUNCH_BAD or ADDR_BAD. -/
  | launch
  /-- `MBOX_PUT` (R83). MBOX_PUT writes VALUE to an empty SBM word and sets it full, waiting while the word is full. -/
  | mboxPut
  /-- `MBOX_TAKE` (R83). MBOX_TAKE takes the value of a full SBM word, sets it empty, stores it at DEST and returns it in the completion payload, waiting while the word is empty. -/
  | mboxTake
  /-- `MBOX_WAIT_SERVED` (R83). A PUT or TAKE waiting on a word proceeds, in the order of waiting, once the word's full/empty state allows. -/
  | mboxWaitServed
  /-- `WRITE` (R85). WRITE stores 1 to 40 bytes of DATA at ADDR as naturally aligned single-copy atomic pieces. -/
  | write
  /-- `FAULT_DONE` (R86). FAULT_DONE returns the team swapped out by a recoverable fault to the distributor, or completes DENIED or STALE. -/
  | faultDone
  /-- `FLOG_APPEND` (R87). FLOG_APPEND writes PAGES source pages to unused flash for one commit at DST. -/
  | flogAppend
  /-- `FLOG_APPEND_COMMIT` (R67). The new flash page map is committed in one step and the completion record is posted. -/
  | flogAppendCommit
  /-- `CHILD_CREATE` (R109). CHILD_CREATE allocates a child context, moves queue slots to it, sets weights and binds its stage and handler queue, or completes DENIED or NO_SPACE. -/
  | childCreate
  /-- `SET_SHARE` (R110). SET_SHARE sets a child's weights or the issuer's SELF weights and lifts a PREEMPT bar on the child. -/
  | setShare
  /-- `FREEZE` (R111). FREEZE sets the issuer's freeze flag on a child's subtree and its queues and raises stop requests on its warps. -/
  | freeze
  /-- `FREEZE_COMPLETE` (R111). FREEZE completes once every warp of the subtree is still at a safe point or a parking site. -/
  | freezeComplete
  /-- `THAW` (R112). THAW clears the issuer's freeze flag on a subtree and resumes a halted context from its saved images, or completes DENIED. -/
  | thaw
  /-- `CHECKPOINT` (R118). CHECKPOINT freezes a subtree, saves its warps and listed ranges to staging, thaws it and drains the shards to DEST_VA. -/
  | checkpoint
  /-- `CHECKPOINT_COMMIT` (R119). The CPX writes and signs the manifest and commits it by writing SEQ to COMMIT, or by one flash append. -/
  | checkpointCommit
  /-- `REVOKE` (R113). REVOKE stops every engine of a child's subtree and ends its bundles, grace periods and any overlapping checkpoint. -/
  | revoke
  /-- `REVOKE_COMPLETE` (R113). After every engine has stopped and every sent request is settled, the subtree's records are written or discarded and its slots, weights and context numbers return. -/
  | revokeComplete
  /-- `PREEMPT` (R114). PREEMPT raises stop requests on the teams of a child's subtree on the n highest-numbered cores that hold them, optionally barring those cores. -/
  | preempt
  /-- `INVAL` (R102). INVAL names a range of a context's stage whose castling-cache entries and dependent walks must be removed. -/
  | inval
  /-- `INVAL_COMPLETE` (R103). INVAL completes once no cache entry or walk depends on a covered entry and every access translated through one has been performed. -/
  | invalComplete
  /-- `ROOT_PTB_WRITE` (R104). A write to ROOT_PTB sets the root stage's table and acts as an INVAL of the whole root stage. -/
  | rootPtbWrite
  /-- `FORWARDED_COMMAND` (R115). A FREEZE, THAW or REVOKE forwarded with ALL arrives at a device of the range, acts on the local member and its descendants, and answers. -/
  | forwardedCommand
  /-- `TENSOR_DECLARE` (R129). TENSOR with OP DECLARE sets each granule's TENSOR_ID and VERSION and zeroes its lines, or completes DENIED. -/
  | tensorDeclare
  /-- `TENSOR_REVISE` (R129). TENSOR with OP REVISE re-encrypts each granule's contents under the new VERSION, or completes DENIED. -/
  | tensorRevise
  /-- `TENSOR_RETIRE` (R129). TENSOR with OP RETIRE zeroes each granule under (0, HIGH + 1), or completes DENIED. -/
  | tensorRetire
  /-- `SCRUB` (R134). SCRUB zeroes the listed ranges or erases keys, and writes a signed receipt carrying the next scrub count. -/
  | scrub
  /-- `COMPLETION_RECORD_WRITE` (R89). A 32-byte completion record is written to its ring once the ring can take it, bytes 0 to 3 last as a system-scope release. -/
  | completionRecordWrite
  /-- `BUNDLE_RETIRE` (R82). Once every team of a bundle has exited and drained, the bundle retires, writes its KIND 2 record and completes its LAUNCH. -/
  | bundleRetire
  /-- `HANDLER_RECORD_WRITE` (R120). A 64-byte handler-queue record is written once its ring has room, bytes 0 to 3 last as a release. -/
  | handlerRecordWrite
  /-- `ROOT_HQ_IDX_WRITE` (R93). The host's write of HQ_READ frees room in the root handler queue, so waiting records are delivered. -/
  | rootHqIdxWrite
  /-- `WORLD_CREATE` (R125). WORLD_CMD OP CREATE binds the named functions to a new world, and firmware draws the keys and writes the attestation report. -/
  | worldCreate
  /-- `WORLD_KEY` (R125). WORLD_CMD OP KEY decapsulates an owner's compartment key from the capsule page. -/
  | worldKey
  /-- `WORLD_DESTROY` (R126). WORLD_CMD OP DESTROY revokes every context of the world, erases its keys and returns its functions to world 0. -/
  | worldDestroy
  /-- `WORLD_CMD_DONE` (R125). Firmware finishes a world command and sets STATUS to done, bad, denied or ready. -/
  | worldCmdDone
  /-- `BCH_ENABLE` (R132). Setting ENABLE in BCH_CTL enables a bounce channel and sets its counter to 0. -/
  | bchEnable
  /-- `BCH_GO` (R132). A write to BCH_GO starts a transfer of CHUNKS chunks on an IDLE channel. -/
  | bchGo
  /-- `BCH_CHUNK` (R132). One chunk of a bounce transfer is verified and written, or read and encrypted, and the counter advances. -/
  | bchChunk
  /-- `BCH_ABORT` (R133). Writing ABORT stops a BUSY transfer and puts the channel in RESYNC. -/
  | bchAbort
  /-- `BCH_STATUS_RECORD` (R133). In RESYNC the device sets NEXT, writes the signed status record to BCH_REC and returns the channel to IDLE. -/
  | bchStatusRecord
  /-- `TAMPER_ALARM` (R136). A lid, supply or clock-glitch sensor sets TAMPER and, with ERASE_EN set, erases every key and stops every context. -/
  | tamperAlarm
  /-- `TEAM_PLACE` (R140). The distributor places a waiting team whole on a permitted core where it fits, initialising its registers, budget and stage-0 entries. -/
  | teamPlace
  /-- `TEAM_IMAGE_COMMIT` (R197). Once a stopped team has drained, the CSE writes and commits its save image and the distributor frees its resources. -/
  | teamImageCommit
  /-- `TEAM_REENTRY` (R150). A saved team re-enters on a permitted core from its committed image, and rebuild stubs run for safe-point images. -/
  | teamReentry
  /-- `ENGINE_HALT_STOP` (R187). An engine reached by the halt line stops after its allowed skid and records its progress in a stop record. -/
  | engineHaltStop
  /-- `HALT_SAVE_COMPLETE` (R192). After a halt the CSE saves every resident team, chains the images and writes one KIND 2 handler record. -/
  | haltSaveComplete
  /-- `ZUGZWANG_SWAP` (R153). When a slot with a warp parked in ralloc can make no progress, the lowest-priority parked warp is swapped out to free its pages. -/
  | zugzwangSwap
  /-- `ZUGZWANG_REENTRY` (R153). A warp swapped by the zugzwang rule re-enters its lane range once the slot can hold its pages and request, and its ralloc completes. -/
  | zugzwangReentry
  /-- `RIPE_ENTRY_WRITE` (R157). Tempo writes a ripe deferred-free entry to the ring and then its count as a device-scope release, waiting while the ring is full or unwritable. -/
  | ripeEntryWrite
  /-- `TEMPO_RING_WRITE` (R157). A write to TEMPO_RING sets the ripe ring and restarts the count of entries written at 0. -/
  | tempoRingWrite
  /-- `MARKED_BRANCH_RENDEZVOUS` (R162). When every non-exited thread is parked at one marked branch and queues are drained, threads are regrouped and continue at their targets. -/
  | markedBranchRendezvous
  /-- `TCE_ENTRY_COMPLETE` (R327). The TCE finishes a released copy, copy-accumulate or multicast entry, writes its tile record and lowers the bound token. -/
  | tceEntryComplete
  /-- `MXE_OPERATION_COMPLETE` (R323). The MXE finishes a matrix, tile or accumulator operation and lowers its token. -/
  | mxeOperationComplete
  /-- `COLL_COMPLETE` (R336). A collective completes at a participant once its incoming elements are written and outgoing ones acknowledged, lowering its token. -/
  | collComplete
  /-- `WATCH_WRITE` (R207). A write to WATCH_ADDR or EN sets a watchpoint and translates its address, setting or clearing UNMAPPED. -/
  | watchWrite
  /-- `ILLEGAL_INSTRUCTION` (R253). The issue of a word with OP 0x7F, or with a function or condition code that R251 or R252 does not list, raises ILLEGAL_INSTRUCTION precisely with no effect. -/
  | illegalInstruction
  /-- `FORWARDED_COMMAND_ANSWER` (R115). A device of the range answers a FREEZE, THAW or REVOKE forwarded with ALL, and the packet completes with the count of members reached once every device has answered. -/
  | forwardedCommandAnswer
  /-- `RETRANSMISSION_REQUEST` (R48). The peer switch asks for a packet whose tag failed to be retransmitted, and the device resends it under fresh counter values, entering FAILED after eight consecutive failures. -/
  | retransmissionRequest
deriving DecidableEq, Repr

end Sys2Proof
end

