-- ==== Sys2Proof/Config.lean ====
section
/-! DEFINITION. What the spec leaves to the implementation or leaves open: free values as constants without a body, so that
nothing can be proved of the value. -/

namespace Sys2Proof

/-- A free choice between two outcomes, taken from the count of steps and a number that tells apart the choices of one
step (R101, R171, R248, R333, R338): nothing is known of it. -/
opaque Config.pick : Nat → Nat → Bool

/-- A free choice among several outcomes, in the same way (R101, R248). -/
opaque Config.pickNat : Nat → Nat → Nat

/-- Which of the two neighbours of an exact result a faithful function answers, by function code and operand (R245, R295). -/
opaque Config.faithfulUp : Nat → Word → Bool

/-- SHA-256 of a byte string (R18, R119, R126): only that it is a function of the bytes is used. -/
opaque Config.sha256 : List Byte → BitVec 256

/-- The LMS signature of the device identity key under one leaf over a byte string (R119, R126, R133, R134). -/
opaque Config.lmsSign : Nat → List Byte → List Byte

/-- The length of such a signature in bytes: SIG_BYTES of R119, which the parameters of the key fix. -/
opaque Config.sigBytes : Nat

/-- The ML-KEM-1024 public key that firmware draws for a world, by its creation count (R125). -/
opaque Config.kemPublic : Nat → List Byte

/-- The joint key that firmware draws for a world, by the same count (R125). -/
opaque Config.jointKey : Nat → BitVec 256

/-- The compartment key that a capsule holds, by the count of the key pair it was made for (R125). -/
opaque Config.decapsulate : Nat → List Byte → BitVec 256

/-- The digests of the firmware images of the chain, as the attestation report holds them (R126). -/
opaque Config.firmwareDigests : List Byte

/-- The key of a bounce channel, derived from a compartment key, the channel number and the direction (R132). -/
opaque Config.channelKey : BitVec 256 → Nat → Bool → Nat

/-- AES-256-GCM sealing of one chunk under a bounce channel's key: key number, counter, plaintext to ciphertext and tag
(R132). -/
opaque Config.gcmSeal : Nat → Nat → List Byte → List Byte

/-- AES-256-GCM opening of one chunk under a bounce channel's key: key number, counter, ciphertext to plaintext (R132). -/
opaque Config.gcmOpen : Nat → Nat → List Byte → List Byte

/-- How a checkpoint lays out Tempo's state of a context: GEN, whether a period runs and whether one is tagged, the deferred-free queue,
and the warps that owe the period (R158), to bytes. -/
opaque Config.tempoRecord : Nat → Bool → Bool → List (Nat × Nat) → List (Nat × Nat) → List Byte

/-- What a byte of a flash page reads as under a key other than the one it was written with (R127). -/
opaque Config.flashGarble : Nat → Byte

end Sys2Proof
end

