-- ==== Sys2Proof/Machine/State.lean ====
section
/-! DEFINITION. The state of one IL9 as plain data: every register, queue, table and unit the spec gives the device, with
its reset value as the default of its field. Fields the model adds to run (the agenda, the operands of the next event, the
issuing warp, counters of free choices and of order) stand last in `State` and are marked MODEL. -/

namespace Sys2Proof.Machine

/-! ## Package, start-up and power -/

/-- How far a start has come (R17, R18, R21). -/
inductive BootStage where
  /-- main power is off -/
  | off
  /-- steps 1 and 2 passed: the host link trains next -/
  | hostLink
  /-- step 3 passed: firmware is loaded next -/
  | firmware
  /-- step 4 passed: parts train until full service -/
  | parts
  /-- step 6 passed -/
  | full
  /-- PHASE 15, or PHASE 2 with a firmware failure: nothing further until a new start -/
  | failed
deriving DecidableEq, Repr

/-- Fuses, training records, power and START_STATUS (R15 to R28). -/
structure Power where
  stage        : BootStage := .hostLink
  /-- the fused device serial, 64 bits (R18, R28); survives power loss -/
  serial       : DWord := 0
  /-- the fused hash of the root LMS key, 256 bits (R28) -/
  rootKeyHash  : BitVec 256 := 0
  /-- the fused rollback counter (R18, R28) -/
  rollback     : Nat := 0
  /-- bit u set: part u holds a stored training record; 0–7 stacks, 8–9 flash, 10–25 links, 26 die boundary (R19) -/
  records      : BitVec 27 := 0
  /-- RESET_CTL asked for a cold start in the present start (R19, R26) -/
  coldAsked    : Bool := false
  /-- POWER_CTL.CAP_W, 12 bits, reset 2,200 (R16) -/
  capW         : BitVec 12 := 2200
  /-- POWER_CTL.CLK0_MHZ, 11 bits (R16) -/
  clk0         : BitVec 11 := 0
  /-- POWER_CTL.CLK1_MHZ, 11 bits (R16) -/
  clk1         : BitVec 11 := 0
  /-- START_STATUS.PHASE, 4 bits (R25) -/
  phase        : BitVec 4 := 0
  /-- START_STATUS.WARM (R25) -/
  warm         : Bool := false
  /-- START_STATUS.STACK_OK, 8 bits (R25) -/
  stackOk      : BitVec 8 := 0
  /-- START_STATUS.FLASH_OK, 2 bits (R25) -/
  flashOk      : BitVec 2 := 0
  /-- START_STATUS.DIE1_OK (R25) -/
  die1Ok       : Bool := false
  /-- START_STATUS.LINK_UP, 16 bits (R25) -/
  linkUp       : BitVec 16 := 0
  /-- START_STATUS.STACK_TRAINED, 8 bits (R25) -/
  stackTrained : BitVec 8 := 0
  /-- START_STATUS.FLASH_TRAINED, 2 bits (R25) -/
  flashTrained : BitVec 2 := 0
  /-- START_STATUS.LINK_TRAINED, 16 bits (R25) -/
  linkTrained  : BitVec 16 := 0
  /-- parts step 5 has settled, numbered as in `records` -/
  settled      : BitVec 27 := 0
deriving DecidableEq, Repr

/-! ## Registers of the physical function -/

/-- States of the configuration interface (R72). -/
inductive CfgState where
  | closed | open_ | locked | run
deriving DecidableEq, Repr

/-- One VF_CFG register (R75). -/
structure VfCfg where
  qbase  : BitVec 10 := 0
  qcount : BitVec 11 := 0
  enable : Bool := false
deriving DecidableEq, Repr

/-- One pair of MX_ALIAS registers (R62). -/
structure MxAlias where
  dataFrame : BitVec 32 := 0
  fmt       : BitVec 2 := 0
  en        : Bool := false
  overrun   : Bool := false
  blocks    : BitVec 28 := 0
  scaleAddr : BitVec 44 := 0
deriving DecidableEq, Repr

/-- One MEM_ERR register (R70). -/
structure MemErr where
  corrected : BitVec 16 := 0
  uncorr    : Bool := false
  overflow  : Bool := false
  unit      : BitVec 2 := 0
  addr      : BitVec 44 := 0
deriving DecidableEq, Repr

/-- SEC_EVENT (R135), preserved across starts by RESET_CTL. -/
structure SecEvent where
  lockWrite     : Bool := false
  bootFail      : Bool := false
  bootCause     : BitVec 2 := 0
  linkLost      : Bool := false
  linkNum       : BitVec 4 := 0
  integrity     : Bool := false
  resync        : Bool := false
  tamper        : Bool := false
  keysErased    : Bool := false
  signExhausted : Bool := false
  intCount      : BitVec 8 := 0
deriving DecidableEq, Repr

/-- Operations of WORLD_CMD (R124). -/
inductive WorldOp where
  | create | key | destroy
deriving DecidableEq, Repr

/-- The configuration, security and world registers of the physical function. -/
structure Cfg where
  /-- CFG_CTL.STATE (R72); closed before step 4 of a start -/
  state     : CfgState := .closed
  /-- CFG_CTL.MOVING (R72) -/
  moving    : Bool := false
  /-- VF_CFG_n, sparse, reset 0 (R75) -/
  vf        : List (Nat × VfCfg) := []
  /-- HASH_MASK_0 to 5, 26 bits each (R55) -/
  hashMask  : List (BitVec 26) := [0x100, 0x200, 0x400, 0x800, 0x1000, 0x2000]
  /-- a change of a HASH_MASK is zeroing the HBM stacks (R56) -/
  zeroing   : Bool := false
  /-- MX_ALIAS_A_n and B_n, sparse, reset 0 (R62) -/
  aliases   : List (Nat × MxAlias) := []
  /-- MEM_ERR_0 to 9, sparse, reset 0 (R70) -/
  memErr    : List (Nat × MemErr) := []
  /-- SPM_DISCARD_c, 32 bits each, sparse, reset 0 (R181) -/
  discard   : List (Nat × Word) := []
  /-- SEC_EVENT (R135) -/
  sec       : SecEvent := {}
  /-- TAMPER_CTL.ERASE_EN, reset 1 (R136) -/
  eraseEn   : Bool := true
  /-- a tamper-class erase has happened: only START_STATUS, SEC_EVENT and RESET_CTL answer (R136) -/
  erased    : Bool := false
  /-- WORLD_CMD.WORLD, 6 bits (R124) -/
  wWorld    : BitVec 6 := 0
  /-- WORLD_CMD.COMP, 2 bits (R124) -/
  wComp     : BitVec 2 := 0
  /-- WORLD_CMD.ADDR, 44 bits (R124) -/
  wAddr     : BitVec 44 := 0
  /-- WORLD_CMD.STATUS, 3 bits (R124) -/
  wStatus   : BitVec 3 := 0
  /-- the world command in progress while STATUS reads 1 (R124) -/
  wOp       : Option WorldOp := none
  /-- WORLD_VFS_0 and WORLD_VFS_1, 128 bits (R124) -/
  wVfs      : BitVec 128 := 0
  /-- the digest of the locked configuration recorded at the move to RUN (R74, R126) -/
  cfgDigest : BitVec 256 := 0
deriving DecidableEq, Repr

/-! ## Fabric -/

/-- Elements of a collective as they leave in one packet: the device they go to, none where the leaf passes them to the group's tree or to
every rank; the identifiers; the fabric address at which the first is read; the group and its instance; and each element's index and
code (R32, R41 to R43, R335, R354). -/
structure CollElems where
  dst     : Option (BitVec 12)
  subtree : BitVec 16
  world   : BitVec 6
  comp    : BitVec 2
  addr    : BitVec 56
  group   : Nat
  inst    : Nat
  elems   : List (Nat × Nat)
deriving DecidableEq, Repr

/-- What a packet that leaves this device carries (R32, R36). -/
inductive PacketBody where
  /-- a request of this device -/
  | request (q : RemoteReq)
  /-- the answer to a request: the device it goes to, the request's sequence number and the answer -/
  | reply (to' : BitVec 12) (seq : Nat) (a : FarAnswer)
  /-- elements of a collective, sent by a device under an end-to-end sequence number -/
  | element (src : BitVec 12) (seq : Nat) (e : CollElems)
  /-- a subtree command for a device of the context's range, sent by a device under an end-to-end sequence number (R115) -/
  | command (src : BitVec 12) (seq : Nat) (to' : BitVec 12) (f : Forward)
  /-- the answer to such a command: whether it reached a member (R115) -/
  | commandAnswer (to' : BitVec 12) (member : Bool)
deriving DecidableEq, Repr

/-- A packet that leaves on a link: its flits, what it carries, and the mark of the first packet under a next key (R32, R46). -/
structure FarPacket where
  flits : Nat
  body  : PacketBody
  fresh : Bool := false
deriving DecidableEq, Repr

/-- One link of the fabric, both directions (R45 to R50). -/
structure Link where
  /-- OWL_STATUS.STATE, 3 bits: 0 DOWN, 1 TRAINING, 2 UP, 3 KEY_EXHAUSTED, 4 FAILED (R50) -/
  state    : BitVec 3 := 0
  /-- OWL_STATUS.KEY_SLOT (R50) -/
  keySlot  : Bool := false
  /-- OWL_STATUS.NEXT_READY: a next key is installed (R46, R50) -/
  next     : Bool := false
  /-- firmware asks for an early key switch, or agrees a key (R46, R49) -/
  asked    : Bool := false
  /-- OWL_STATUS.TX_COUNTER, 48 bits (R45, R50) -/
  tx       : BitVec 48 := 0
  /-- no packet has left yet under the key that the sending direction switched to (R46) -/
  switched : Bool := false
  /-- the receiving direction holds a next key (R46) -/
  rxNext   : Bool := false
  /-- consecutive tag failures of the receiving direction (R48) -/
  rxFails  : Nat := 0
  /-- consecutive tag failures the peer reports of the sending direction (R48) -/
  txFails  : Nat := 0
  /-- the packets sent, newest first: the peer may ask for any of them again (R48) -/
  sent     : List FarPacket := []
  /-- packets that wait for a key, oldest first (R47) -/
  held     : List FarPacket := []
  /-- answers that wait for their contexts' turns at the port, oldest first (R106) -/
  answers  : List (Nat × FarPacket) := []
deriving DecidableEq, Repr

/-- The fabric registers and links. -/
structure Fabric where
  /-- OSF_ID.DEVICE_NUM, 12 bits (R30) -/
  deviceNum : BitVec 12 := 0
  /-- OSF_ID.FABRIC_EN (R30) -/
  enable    : Bool := false
  /-- OSF_PLANE_MAP: sixteen slots of 4 bits, slot i reset to i (R35) -/
  planeMap  : List (BitVec 4) := [0, 1, 2, 3, 4, 5, 6, 7, 8, 9, 10, 11, 12, 13, 14, 15]
  /-- the sixteen links (R29, R50), sparse over the reset value -/
  links     : List (Nat × Link) := []
  /-- the requests of other devices already performed: source device, end-to-end sequence number and answer (R48) -/
  seen      : List (Nat × Nat × FarAnswer) := []
  /-- the next end-to-end sequence number of this device (R32) -/
  nextSeq   : Nat := 0
  /-- how many requests of a source on a plane have been presented, by source × 16 + link (R36) -/
  presented : List (Nat × Nat) := []
  /-- the reorder buffer: requests that wait for an earlier one of their source and plane, with their link and what befalls them
  at their home (R36) -/
  reorder   : List (RemoteReq × BitVec 4 × HomeEvent) := []
deriving DecidableEq, Repr

/-! ## Memory -/

/-- One entry of the tensor map (R127). -/
structure Tensor where
  id      : Word := 0
  version : Word := 0
  high    : Word := 0
deriving DecidableEq, Repr

/-- What a 64-byte line of HBM was last written under: world, compartment, key generation, TENSOR_ID, VERSION (R127, R128). -/
structure LineTag where
  world   : BitVec 6 := 0
  comp    : BitVec 2 := 0
  gen     : Nat := 0
  id      : Word := 0
  version : Word := 0
  /-- the line was tampered with -/
  broken  : Bool := false
deriving DecidableEq, Repr

/-- The key a flash page is enciphered under: derived from a compartment key, or, for world 0, from the fused secret (R127). -/
structure FlashKey where
  comp : Option (BitVec 256) := none
deriving DecidableEq, Repr

/-- Main memory, SBM, flash and the host's memory, with their error, cipher and full/empty state. -/
structure Mem where
  /-- the bytes of HBM, SBM and flash, by storage location: HBM at the storing stack's window, SBM at its local address,
  flash at its local address; an unlisted location reads 0 (R20, R51) -/
  cells    : List Host.Cell := []
  /-- the bytes of host memory by bus address; an unlisted address reads 0 -/
  host     : List Host.Cell := []
  /-- SBM words whose full/empty bit is full, by offset ÷ 8, rising (R61) -/
  full     : List (Nat × Bool) := []
  /-- poisoned HBM sectors (storage ÷ 32), SBM words (storage ÷ 8) and flash pages (storage ÷ 4,096), each keyed by its
  first storage location (R69) -/
  poison   : List (Nat × Bool) := []
  /-- the tensor map by 64 KiB granule of local address, reset (0, 0, 0) (R127) -/
  tensor   : List (Nat × Tensor) := []
  /-- line tags by storage location ÷ 64 (R127) -/
  lines    : List (Nat × LineTag) := []
  /-- key generation of each world, raised when its keys are erased or drawn anew (R124, R126) -/
  keyGen   : List (Nat × Nat) := []
  /-- appends committed to flash, kept across starts (R67, R127) -/
  appends  : Nat := 0
  /-- scrub receipts issued, kept in flash (R134) -/
  scrubs   : DWord := 0
  /-- leaves of the device identity key spent, kept in flash, of 2^20 (R133) -/
  leaves   : Nat := 0
  /-- the key each flash page was appended under (R127) -/
  flashKey : List (Nat × FlashKey) := []
deriving DecidableEq, Repr

/-! ## Worlds -/

/-- One gate of a world's policy (R123). -/
structure PolicyGate where
  src    : Byte
  dst    : Byte
  tensor : Word
deriving DecidableEq, Repr

/-- One tenant world (R121 to R126). -/
structure World where
  live    : Bool := false
  /-- the model owner's key is held (R125) -/
  key1    : Bool := false
  /-- the data owner's key is held (R125) -/
  key2    : Bool := false
  /-- the joint key, the model owner's and the data owner's, as they were drawn or installed (R124, R125) -/
  joint   : BitVec 256 := 0
  key1Val : BitVec 256 := 0
  key2Val : BitVec 256 := 0
  /-- the ML-KEM private key is held (R126), and the number of its pair -/
  kem     : Bool := false
  pair    : Nat := 0
  vfs     : BitVec 128 := 0
  gates   : List PolicyGate := []
  policy  : BitVec 256 := 0
deriving DecidableEq, Repr

/-! ## Queues, packets and records -/

/-- States of a command queue; FROZEN shows while a freeze flag of its context is set (R76, R78). -/
inductive QState where
  | idle | run | blocked | error
deriving DecidableEq, Repr

/-- A packet the CPX has read from its ring and not yet started: its index and its 64 bytes (R77, R80). -/
structure Packet where
  index : Word
  bytes : List Byte
  /-- the packet waits on a mailbox word: since this count, and the word's offset in SBM (R83) -/
  waits : Option (Nat × Nat) := none
deriving DecidableEq, Repr

/-- A completion record that waits for its ring (R88, R89). -/
structure CRec where
  kind    : BitVec 8
  status  : BitVec 8
  queue   : Slot
  tag     : Word
  userTag : Word
  index   : Word
  payload : BitVec 128
  /-- the packet that completes when the record is written -/
  pkt     : Option (Nat × Nat)
deriving DecidableEq, Repr

/-- One queue slot: the registers of R76 and what the CPX holds of its ring. -/
structure Queue where
  /-- CQ_BASE.BASE, 56 bits -/
  base      : BitVec 56 := 0
  /-- CQ_CTL.CQ_LOG2, 5 bits -/
  cqLog2    : BitVec 5 := 0
  /-- CQ_CTL.CR_LOG2, 5 bits -/
  crLog2    : BitVec 5 := 0
  /-- CQ_CTL.ENABLE -/
  enable    : Bool := false
  /-- CQ_WRITE.WIDX, 32 bits -/
  widx      : Word := 0
  /-- CQ_READ.RIDX, 32 bits -/
  ridx      : Word := 0
  /-- CQ_STATUS.STATE -/
  state     : QState := .idle
  /-- CQ_STATUS.CAUSE, 8 bits -/
  cause     : BitVec 8 := 0
  /-- CR_BASE.BASE, 56 bits -/
  crBase    : BitVec 56 := 0
  /-- CR_IDX.CR_READ, 32 bits -/
  crRead    : Word := 0
  /-- CR_IDX.CR_WRITE, 32 bits -/
  crWrite   : Word := 0
  /-- the PHASE bit of the next record is 0 (R88) -/
  crFlip    : Bool := false
  /-- the context the slot belongs to, none while no context holds it (R75, R109) -/
  owner     : Option CtxId := none
  /-- the packet read at RIDX (R77) -/
  cur       : Option Packet := none
  /-- indices of packets started and not completed (R80) -/
  open_     : List Word := []
  /-- records waiting for this slot's ring, oldest first (R89) -/
  waiting   : List CRec := []
  /-- by gate, the latest LAUNCH that releases it: its bundle plus 1, or 0 when it failed (R90) -/
  producers : List (Nat × Nat) := []
deriving DecidableEq, Repr

/-- A handler-queue record that waits for its ring (R120). -/
structure HRec where
  kind    : BitVec 8
  cause   : BitVec 8
  stage   : BitVec 2
  userTag : Word
  ctx     : BitVec 16
  origin  : BitVec 16
  seq     : Word
  addr    : DWord
  image   : DWord
  pc      : DWord
  team    : Word
deriving DecidableEq, Repr

/-! ## Contexts -/

/-- A stop record (R191). -/
structure StopRec where
  engine   : BitVec 8
  cause    : BitVec 8
  skid     : BitVec 8 := 0
  precise  : Bool := false
  unit     : BitVec 16 := 0xFFFF
  warp     : BitVec 16 := 0xFFFF
  team     : Word := 0xFFFFFFFF
  userTag  : Word := 0
  pcOrOp   : DWord := 0
  addr     : DWord := 0
  byteMask : BitVec 16 := 0
  ctx      : BitVec 16 := 0
deriving DecidableEq, Repr

/-- One watchpoint (R206). -/
structure Watch where
  addr     : BitVec 56 := 0
  mask     : BitVec 16 := 0
  load     : Bool := false
  store    : Bool := false
  atomic   : Bool := false
  en       : Bool := false
  unmapped : Bool := false
  late     : Bool := false
  /-- the fabric address ADDR translates to, while it translates (R207) -/
  fabric   : Option (BitVec 56) := none
  /-- the stage entries that its translation read, or the page of a stage that it missed: each as context, first page and count of pages (R100,
  R207) -/
  deps     : List (Nat × Nat × Nat) := []
deriving DecidableEq, Repr

/-- OSF_ERR (R40). -/
structure OsfErr where
  peer      : BitVec 12 := 0
  isTarget  : Bool := false
  kind      : BitVec 2 := 0
  valid     : Bool := false
  localAddr : BitVec 44 := 0
  overflow  : Bool := false
deriving DecidableEq, Repr

/-- One bounce channel of a root context (R132, R133). -/
structure Bounce where
  comp   : BitVec 2 := 0
  dir    : Bool := false
  enable : Bool := false
  host   : DWord := 0
  dev    : BitVec 56 := 0
  /-- BCH_STATUS.STATE: 0 IDLE, 1 BUSY, 2 RESYNC -/
  state  : BitVec 2 := 0
  done   : Word := 0
  next   : DWord := 0
  rec_   : DWord := 0
  /-- chunks of the transfer under way -/
  chunks : Word := 0
  /-- the counter of its first chunk, and the world it was started in (R133) -/
  first  : DWord := 0
  world  : BitVec 6 := 0
deriving DecidableEq, Repr

/-- Tempo's state of one context (R154 to R158). -/
structure Tempo where
  /-- TEMPO_RING.BASE, 56 bits -/
  ringBase : BitVec 56 := 0
  /-- TEMPO_RING.LOG2, 5 bits -/
  ringLog2 : BitVec 5 := 0
  /-- completed grace periods; TEMPO_GEN.GEN is its low 32 bits -/
  gen      : Nat := 0
  /-- a period is in progress, of number GEN + 1 -/
  running  : Bool := false
  /-- a later period is tagged and starts when this one ends -/
  wanted   : Bool := false
  /-- the deferred-free queue: address and tag, oldest first -/
  deferred : List (BitVec 56 × Nat) := []
  /-- entries written to the present ripe ring -/
  written  : DWord := 0
deriving DecidableEq, Repr

/-- A halt of a context (R186 to R192). -/
structure Halt where
  /-- the cause the handler record carries -/
  cause    : BitVec 8
  /-- REMOTE_PIN_MISS: the context stays halted (R39) -/
  fatal    : Bool
  /-- a tamper-class erase: no image is saved and no record is written (R136) -/
  tamper   : Bool := false
  /-- the KIND 2 record is written (R192) -/
  reported : Bool := false
  /-- images, stop records and record are saved and the record waits or is written -/
  saved    : Bool := false
  /-- stop records so far, first fault first -/
  recs     : List StopRec := []
  /-- the record goes to the handler queue of the context's root (R122) -/
  toRoot   : Bool := false
  /-- the team that holds the reported fault -/
  team     : Option Nat := none
  /-- the step in which the reported fault came, which stands for its clock (R189) -/
  clock    : Nat := 0
  /-- the program counter, address and tag the handler record carries -/
  pc       : DWord := 0
  addr     : DWord := 0
  userTag  : Word := 0
  /-- the header-only image of a halt that saves no team, and the stop records: position and bytes held (R192) -/
  extra    : List (Nat × Nat) := []
deriving DecidableEq, Repr

/-- A recoverable fault that FAULT_DONE may return (R86, R99). -/
structure Pending where
  seq  : Word
  team : Nat
deriving DecidableEq, Repr

/-- One context (R91 to R120). -/
structure Ctx where
  live       : Bool := false
  level      : BitVec 2 := 0
  parent     : CtxId := 0
  world      : BitVec 6 := 0
  /-- a packet of the context has started (R93, R125) -/
  started    : Bool := false
  /-- SUBTREE, DEV_FIRST and DEV_COUNT; none at a root stands for the reset values of ROOT_SUBTREE (R92, R93) -/
  subtree    : Option (BitVec 16 × BitVec 12 × BitVec 13) := none
  /-- ROOT_PTB.TABLE, local address ÷ 4,096, of a root (R93) -/
  ptb        : BitVec 32 := 0
  /-- TABLE_VA of a child (R108) -/
  tableVa    : BitVec 56 := 0
  /-- HQ_LOG2 of the handler queue (R93, R108) -/
  hqLog2     : BitVec 5 := 0
  /-- base of the handler queue: host bus address of a root, parent's address of a child (R93, R120) -/
  hqBase     : DWord := 0
  /-- ROOT_HQ_IDX.HQ_READ (R93) -/
  hqRead     : Word := 0
  /-- records written to the handler queue, ROOT_HQ_IDX.HQ_WRITE (R93, R120) -/
  hqWrite    : Word := 0
  /-- the PHASE bit of the next handler record is 0 (R120) -/
  hqFlip     : Bool := false
  /-- handler records waiting for room, oldest first (R120) -/
  hqWaiting  : List HRec := []
  /-- the next FAULT_SEQ of this handler queue (R120) -/
  faultSeq   : Word := 0
  /-- recoverable faults whose stage is this context's (R86) -/
  pending    : List Pending := []
  /-- SELF weights for core time and link bandwidth (R105) -/
  coreSelf   : BitVec 8 := 1
  linkSelf   : BitVec 8 := 1
  /-- the parent's weights for this context (R105) -/
  coreWeight : BitVec 8 := 1
  linkWeight : BitVec 8 := 1
  /-- freeze flags: bit k for the ancestor at level k, bit 3 for a root's commands that name itself (R111, R117) -/
  freeze     : BitVec 4 := 0
  halt       : Option Halt := none
  osfErr     : OsfErr := {}
  /-- SAVE_AREA.BASE and LOG2 (R198) -/
  saveBase   : BitVec 56 := 0
  saveLog2   : BitVec 6 := 0
  /-- images held: position and bytes (R198) -/
  images     : List (Nat × Nat) := []
  watch      : List (Nat × Watch) := []
  tempo      : Tempo := {}
  bounce     : List (Nat × Bounce) := []
  /-- cores barred for the subtree by PREEMPT (R114) -/
  barred     : List Nat := []
  /-- instances issued of each collective GROUP (R335) -/
  collCount  : List (Nat × Nat) := []
deriving DecidableEq, Repr

/-! ## Bundles, kernels and teams -/

/-- A copy-schedule entry (R325). -/
structure SchedEntry where
  stage     : Nat
  kind      : Nat
  flags     : Byte
  fmt       : Byte
  tileReg   : Byte
  dynReg    : Byte
  rsv       : Byte
  src       : DWord
  dst       : DWord
  size      : List Nat
  stride    : List Int
  scaleOff  : Int
  scaleBase : Nat
  band      : BitVec 16
  mcast     : Word
  seed      : Word
  ctr       : Word
deriving DecidableEq, Repr

/-- One kernel of a bundle: the fields of its launch record, its arguments and its copy schedule as read once (R137, R138). -/
structure Kernel where
  codeBase   : BitVec 56 := 0
  sptTable   : BitVec 56 := 0
  gridX      : Nat := 1
  gridY      : Nat := 1
  gridZ      : Nat := 1
  teamX      : Nat := 1
  teamY      : Nat := 1
  teamZ      : Nat := 1
  /-- WIDTH: 8 × 2^width lanes -/
  width      : Nat := 0
  entryStage : Bool := false
  pair       : Bool := false
  regPages   : Nat := 1
  accs       : Nat := 0
  tiles      : Nat := 0
  spmBytes   : Nat := 0
  ply        : Nat := 1
  argBytes   : Nat := 0
  args       : List Word := []
  sched      : List SchedEntry := []
  userTag    : Word := 0
  sptCount   : Nat := 0
  /-- linear index of the next new team (R140) -/
  nextTeam   : Nat := 0
  /-- code words fetched earlier, by code offset (R248) -/
  code       : List (Nat × Word) := []
deriving DecidableEq, Repr

/-- One bundle in progress (R81, R82, R90, R138). -/
structure Bundle where
  ctx      : CtxId
  queue    : Slot
  index    : Word
  tag      : Word
  cpl      : Bool
  ring     : Slot
  priority : Nat
  gateWait : BitVec 16
  gateRel  : BitVec 16
  /-- by gate waited for, the producer bundle (R90) -/
  binds    : List (Nat × Nat)
  kernels  : List Kernel
  /-- the kernel whose team is offered next (R140) -/
  turn     : Nat := 0
  /-- the KIND 2 record waits for its ring (R89) -/
  retiring : Bool := false
  /-- the core that each team which has exited held, by kernel × 2^32 + linear index: where a copy to it arrives (R181) -/
  places   : List (Nat × Nat) := []
deriving DecidableEq, Repr

/-- Where a thread is parked, or that it has exited (R161, R200). -/
inductive Park where
  | none
  | spt (i : Nat)
  | bar (n : Nat)
  | gate (g : Nat)
  | gpw
  | wait (mask : Byte)
  | marked (target : Word)
  | cpost
  | ralloc
  | dfree
  | exiting
  | exited
deriving DecidableEq, Repr

/-- One thread (R159). -/
structure Thread where
  lane    : Nat
  tx      : Nat
  ty      : Nat
  tz      : Nat
  /-- the program counter as a code offset -/
  pc      : Word := 0
  /-- issues passed over; not architectural (R147) -/
  passed  : Nat := 0
  /-- predicates; bit 0 is unused, p0 reads true (R165) -/
  preds   : Byte := 0
  park    : Park := .none
  /-- barriers the thread has arrived at in their current phase (R178) -/
  arrived : BitVec 16 := 0
  /-- vector registers by allocated index, reset 0 (R165, R167) -/
  regs    : List (Nat × Word) := []
deriving DecidableEq, Repr

/-- A stage entry that a walk read: the context of the stage, the first page that the entry maps or leads to, and how many
(R100, R102). -/
structure Dep where
  ctx   : Nat
  page  : Nat
  pages : Nat
deriving DecidableEq, Repr

/-- Where an access leads once translated (R309). -/
inductive Target where
  /-- memory of this device: local address, INTERLEAVE, WORLD, COMPARTMENT -/
  | here (addr : Nat) (inter : BitVec 3) (world : BitVec 6) (comp : BitVec 2)
  /-- memory of another device: device number, local address and tags -/
  | away (dev : BitVec 12) (addr : Nat) (world : BitVec 6) (comp : BitVec 2)
  /-- the team's scratchpad -/
  | spm (off : Nat)
  /-- the doorbell aperture -/
  | door (off : Nat)
deriving DecidableEq, Repr

/-- The twelve operations of the atomics (R311). -/
inductive AtomOp where
  | add | and | or | xor | minI | maxI | minN | maxN | swap | cas | fadd | fmax
deriving DecidableEq, Repr

/-- One single-copy atomic part of a memory instruction: a part of one lane's load or store, or the lanes of an atomic
that name one address (R213, R313). -/
structure MemUnit where
  lane : Nat
  /-- byte offset of the part in the lane's access -/
  off  : Nat
  va   : DWord
  tgt  : Target
  len  : Nat
  /-- which bytes a store writes, lane ties settled (R215) -/
  mask : Nat := 0xFFFFFFFF
  /-- bytes of the lane's whole access -/
  size : Nat := 8
  /-- the bytes a store writes -/
  data : List Byte := []
  /-- the lanes of a combined atomic with their operands v, or new and cmp -/
  ops  : List (Nat × DWord × DWord) := []
  /-- sent to another device and not yet answered -/
  sent : Bool := false
  /-- the end-to-end sequence number of the request it left in: kept for a resend (R48) -/
  seq  : Option Nat := none
  done : Bool := false
  /-- stage entries its translation read (R100, R103) -/
  deps : List Dep := []
deriving DecidableEq, Repr

/-- What a memory request does. -/
inductive ReqKind where
  | load
  | store
  | atom (op : AtomOp) (w64 ret : Bool)
deriving DecidableEq, Repr

/-- One memory instruction issued and not yet wholly performed, in its warp's queue (R216, R310). -/
structure MemReq where
  id    : Nat
  kind  : ReqKind
  order : Order
  scope : Scope
  pc    : Word
  units : List MemUnit
deriving DecidableEq, Repr

/-- One register of one lane, or one uniform register, whose result is outstanding (R171). -/
structure PendCell where
  /-- the lane, for a vector register -/
  lane : Nat
  /-- true for a uniform register -/
  uni  : Bool
  /-- the allocated index, or the uniform number -/
  reg  : Nat
  /-- byte offset of the register's value in the lane's access -/
  off  : Nat := 0
  /-- the result once known -/
  val  : Option Word := none
  /-- a later instruction wrote the register -/
  rewritten : Bool := false
deriving DecidableEq, Repr

/-- A variable-latency result outstanding, or the uniform registers of a `tst` until a `wait` on its token (R170, R338). -/
structure Pend where
  /-- the request it belongs to, none for a cross-lane result or a `tst` -/
  req   : Option Nat
  /-- the token of a `tst` -/
  tok   : Option (BitVec 3) := none
  /-- size of the load whose bytes it takes -/
  size  : MSize := .w32
  /-- it belongs to an acquire or an sc access, which holds back later memory instructions until it returns (R308) -/
  acq   : Bool := false
  cells : List PendCell
deriving DecidableEq, Repr

/-- Why the next instruction of a warp cannot issue (R170, R172, R308, R310). -/
inductive Hold where
  /-- a switch marker, until no variable-latency result is outstanding -/
  | marker
  /-- a token that holds 63 -/
  | token (k : BitVec 3)
  /-- room for so many requests among the 4,096 outstanding ones of the core -/
  | room (n : Nat)
  /-- an earlier acquire, sc access or fence -/
  | order
  /-- `gpw` or `dfree`, until the earlier stores and atomics are performed (R348) -/
  | drain
  /-- an instruction that releases (`bar`, `dlrel`, `cstage`, `cpost`), until every earlier access is performed (R224) -/
  | quiet
  /-- an instruction of the matrix engine, until the warp's earlier scratchpad stores are performed (R180) -/
  | spm
  /-- a packet of the instruction's fetch, or of a walk or read that it makes, until its plane takes one (R47) -/
  | plane (link : Nat)
deriving DecidableEq, Repr

/-- What an earlier fence or sc access holds back (R308, R315). -/
structure Fence where
  /-- until every earlier access is performed -/
  perf : Bool := false
  /-- until every earlier load and atomic has returned -/
  ret  : Bool := false
  /-- the accesses it orders: requests of a number below this -/
  upto : Nat := 0
deriving DecidableEq, Repr

/-- A tile register that a copy entry rewrote, until the warp waits on its stage: the number, the earlier record and the
token of the warp's `cstage` (R338). -/
structure StaleTile where
  tile : Nat
  old  : BitVec 128
  tok  : BitVec 3
deriving DecidableEq, Repr

/-- What the context-save engine keeps of a warp record it wrote: its KIND, its safe-point index, its DYN_COUNT and the registers it
holds (R200). -/
structure WarpImg where
  full : Bool := true
  dyns : Nat := 0
  spt  : Nat := 0
  vec  : BitVec 128 := 0
  uni  : BitVec 128 := 0
deriving DecidableEq, Repr

/-- One warp (R159 to R172). -/
structure Warp where
  core       : Nat := 0
  slot       : Nat := 0
  /-- first lane of its aligned range in the slot -/
  base       : Nat := 0
  /-- the order of placement or re-entry -/
  placed     : Nat := 0
  /-- ALLOC_PAGES -/
  pages      : Nat := 1
  /-- WINDOW, 0 to 127 -/
  window     : Nat := 0
  /-- uniform registers, reset 0 but for the arguments (R81, R165) -/
  uni        : List (Nat × Word) := []
  /-- token counts k0 to k7, 0 to 63 -/
  tokens     : List Nat := [0, 0, 0, 0, 0, 0, 0, 0]
  threads    : List Thread := []
  /-- ISSUE_COUNT, 64 bits -/
  issues     : DWord := 0
  /-- PLY_LEFT -/
  plyLeft    : Nat := 0
  /-- RSEC_DEPTH, 0 to 255 -/
  rsec       : Nat := 0
  /-- USER_TAG, 32 bits -/
  userTag    : Word := 0
  /-- the count C of `cstage` instructions issued (R332) -/
  cstage     : Nat := 0
  /-- DYN_REG values captured: stage, register, value (R332) -/
  dyn        : List (Nat × Nat × DWord) := []
  /-- the `cstage` operations not complete: stage and token (R172, R332) -/
  bound      : List (Nat × BitVec 3) := []
  /-- gates the warp has executed `dlrel` for (R320) -/
  dlrel      : BitVec 16 := 0
  /-- the warp owes the grace period in progress (R155) -/
  owes       : Bool := false
  /-- a debt that the last `spt` clears once the loads and atomics below this number have returned (R348) -/
  clearing   : Option Nat := none
  /-- stores below this number, which a warp whose debt is cleared issued before its quiescent point, are not all performed yet (R348) -/
  trailing   : Option Nat := none
  /-- the tag of the `gpw` the warp is parked at (R154) -/
  gpwTag     : Nat := 0
  /-- SKIP_WATCH (R208) -/
  skipWatch  : Bool := false
  /-- the instruction issued last was `spt` of this index (R350) -/
  lastSpt    : Option Nat := none
  /-- the first `ralloc` after re-entry completes without growing (R350) -/
  freeRalloc : Bool := false
  /-- pages asked by the `ralloc` the warp is parked at, and since when (R152) -/
  rallocAsk  : Nat := 0
  rallocAt   : Nat := 0
  /-- active set of the last issue (R200) -/
  active     : LaneMask := 0
  /-- the order of its last issue since placement, 0 for none (R145) -/
  lastIssue  : Nat := 0
  /-- consecutive opportunities it was passed over while it could issue (R145) -/
  overlooked : Nat := 0
  hold       : Option Hold := none
  fence      : Fence := {}
  /-- the number of the next memory request -/
  nextReq    : Nat := 1
  /-- the warp's memory queue, oldest first (R216) -/
  mem        : List MemReq := []
  /-- results outstanding, oldest first (R171) -/
  pend       : List Pend := []
  stale      : List StaleTile := []
  /-- a remote access of the warp was lost to a miss (R39): its result never returns, nor does its store drain -/
  lost       : Bool := false
  /-- swapped out by the zugzwang rule: position and bytes of its image (R153) -/
  zug        : Option (Nat × Nat) := none
  /-- its record in the image that holds it -/
  img        : WarpImg := {}
deriving DecidableEq, Repr

/-- Where a team stands (R148). -/
inductive Place where
  | resident
  /-- stopping, to be saved; with the cause its image will carry -/
  | stopping (cause : BitVec 8)
  /-- saved: position and bytes of its image; true once it may re-enter -/
  | saved (pos bytes : Nat) (ready : Bool) (since : Nat)
deriving DecidableEq, Repr

/-- Why a resident team is asked to stop (R196). -/
inductive StopAsk where
  | none
  | preempt
  /-- a recoverable fault: every warp stops at its next instruction boundary (R148) -/
  | fault
deriving DecidableEq, Repr

/-- One team (R9, R140, R173 to R178). -/
structure Team where
  bundle  : Nat
  kernel  : Nat
  /-- linear index in the grid -/
  index   : Nat
  /-- core of the team, the even one of a pair -/
  core    : Nat := 0
  place   : Place := .resident
  ask     : StopAsk := .none
  /-- the record of the recoverable fault the team is swapped out for, its IMAGE open until the image is committed, and the warp that it
  reports (R151) -/
  fault   : Option HRec := none
  faultWarp : Nat := 0
  /-- team-instance tag of this placement (R181) -/
  tag     : Nat := 0
  /-- phase bits of b0 to b15 -/
  phase   : BitVec 16 := 0
  /-- STAGE, the team's stage counter -/
  stage   : Nat := 0
  /-- scratchpad bytes by offset, reset 0 (R173) -/
  spm     : List Host.Cell := []
  /-- granules written since placement (R201) -/
  dirty   : List (Nat × Bool) := []
  /-- tile registers by half × 16 + number, 128 bits, reset 0 -/
  tiles   : List (Nat × BitVec 128) := []
  /-- accumulator elements by (half × 16 + number) × 4,096 + 64m + n, FP32 bits, reset 0 -/
  accs    : List (Nat × Word) := []
  /-- gates the team has released -/
  gateRel : BitVec 16 := 0
  /-- TILE_SAVED and ACC_SAVED of its image (R201) -/
  tileSaved : BitVec 16 := 0
  accSaved  : BitVec 16 := 0
  warps   : List Warp := []
deriving DecidableEq, Repr

/-! ## Engines -/

/-- A released copy entry (R327, R332). -/
structure TceOp where
  id    : Nat
  team  : Nat
  entry : Nat
  stage : Nat
  /-- the value its DYN_REG adds to SRC -/
  dyn   : DWord
  /-- the warp whose work it counts as -/
  warp  : Nat
  /-- write beats already performed, for a resume (R188) -/
  beats : Nat := 0
deriving DecidableEq, Repr

/-- What an operation of the matrix engine does (R323). -/
inductive MxeKind where
  | mma (d : Nat) (a b : BitVec 128) (fresh complex : Bool)
  | accSt (d : Nat) (f : AccStFn) (rec : BitVec 128) (seed ctr : Word)
  | accLd (d : Nat) (f : AccLdFn) (rec : BitVec 128)
  | accZero (d n : Nat)
  | tld (t : Nat) (rec : BitVec 128)
  | tst (d : Nat) (rec : BitVec 128)
deriving DecidableEq, Repr

/-- An operation issued to the matrix engine (R176, R323). -/
structure MxeOp where
  id   : Nat
  team : Nat
  warp : Nat
  tok  : BitVec 3
  pc   : Word
  kind : MxeKind
deriving DecidableEq, Repr

/-- A collective in progress at this participant (R334, R335): the block is kept as its 64 bytes. -/
structure CleOp where
  id    : Nat
  ctx   : CtxId
  team  : Nat
  warp  : Nat
  tok   : BitVec 3
  pc    : Word
  userTag : Word
  block : List Byte
  inst  : Nat
  /-- where its results go: the first context virtual address and the bytes, as they stood at issue; none where there was no such byte
  (R44) -/
  outAt : Nat := 0
  outOld : List (Option Byte) := []
  /-- the outgoing elements read so far, in their order (R354) -/
  taken : List Nat := []
  /-- the results not yet written, once every outgoing element is read: element and code (R188) -/
  left  : Option (List (Nat × Nat)) := none
deriving DecidableEq, Repr

/-- What a command in progress still has to do (R103, R111, R113, R114, R115, R118, R67). -/
inductive CmdKind where
  | freeze
  | revoke (self : Bool)
  | inval (base pages : Nat)
  | flog (dst : Nat) (pages : List (List Byte))
  | preempt (cores : List Nat)
  /-- a SCRUB that destroys its world once nothing of it is under way (R126, R134) -/
  | scrub
  | checkpoint (wasFrozen drained : Bool) (shards : List (Nat × Nat × BitVec 256))
  /-- waiting for the answers of the devices that remain, with the members reached so far and whether this device denied it -/
  | forward (left : List Nat) (reached : Nat) (denied : Bool)
deriving DecidableEq, Repr

/-- A subtree command, INVAL or append in progress (R116). -/
structure Cmd where
  id    : Nat
  kind  : CmdKind
  /-- the context it names -/
  ctx   : CtxId
  /-- the queue and packet it completes, none for a forwarded command -/
  queue : Option (Slot × Packet)
  /-- the device that forwarded it and waits for an answer, and the link on which it came (R115) -/
  answer : Option (BitVec 12 × BitVec 4) := none
deriving DecidableEq, Repr

/-- One castling-cache entry (R98, R100): context, page, the composed translation and the entries its walk read. -/
structure Trans where
  dev   : BitVec 12
  /-- local address of the 4 KiB page -/
  frame : Nat
  size  : Nat
  read  : Bool
  write : Bool
  exec  : Bool
  pin   : Bool
  flash : Bool
  mx    : Bool
  inter : BitVec 3
  world : BitVec 6
  comp  : BitVec 2
  deps  : List Dep
deriving DecidableEq, Repr

/-- An entry of the castling cache. -/
structure CastEntry where
  ctx  : Nat
  page : Nat
  tr   : Trans
deriving DecidableEq, Repr

/-- One context at one core's dispatcher (R144). -/
structure Disp where
  pass     : DWord := 0
  runnable : Bool := false
deriving DecidableEq, Repr

/-- The engines' work, the commands in progress, the translation cache and the dispatchers. -/
structure Engines where
  tce    : List TceOp := []
  mxe    : List MxeOp := []
  cle    : List CleOp := []
  cmds   : List Cmd := []
  /-- the next number of an operation or command -/
  nextId : Nat := 1
  castle : List CastEntry := []
  /-- by core × 4,096 + context -/
  disp   : List (Nat × Disp) := []
  /-- the link ports' records, by link × 4,096 + context (R105, R106) -/
  ports  : List (Nat × Disp) := []
  /-- contexts of which an engine, the CPX or a fetch waits for its turn at a port: the link, the context, and since which step (R106) -/
  portWait : List (Nat × Nat × Nat) := []
deriving DecidableEq, Repr

/-! ## The machine -/

/-- MODEL. The warp whose instruction is at issue: the team, the warp, the active lanes in ascending order and their code
offset (R147). -/
structure Issue where
  team   : Nat
  warp   : Nat
  active : List Nat
  pc     : Word
deriving DecidableEq, Repr

/-- MODEL. An access by the host or another PCI Express agent (R57, R210, R214): to device memory by local address under an
INTERLEAVE pattern, or to the host's own memory by bus address. -/
inductive Pcie where
  | read (addr : Nat) (inter : BitVec 3) (n : Nat)
  | write (addr : Nat) (inter : BitVec 3) (bs : List Byte)
  | hostWrite (addr : Nat) (bs : List Byte)
deriving DecidableEq, Repr

/-- MODEL. What happens next: an operation or event with its operands, an issue opportunity of one slot of one core with what
comes from outside during it, an early fetch of a code word, or an access by the host (R144, R210, R248). -/
inductive Move where
  | event (i : Instr) (x : Input)
  | issue (core slot : Nat) (x : Input)
  | prefetch (bundle kernel off : Nat) (x : Input)
  | pcie (a : Pcie) (x : Input)
deriving DecidableEq, Repr

/-- One IL9. -/
structure State where
  power   : Power := {}
  cfg     : Cfg := {}
  fabric  : Fabric := {}
  mem     : Mem := {}
  /-- tenant worlds by number (R121) -/
  worlds  : List (Nat × World) := []
  /-- the 1,024 queue slots, sparse over the reset value (R75) -/
  queues  : List (Nat × Queue) := []
  /-- contexts 0 to 4,095, sparse over the reset value (R91) -/
  ctxs    : List (Nat × Ctx) := []
  bundles : List (Nat × Bundle) := []
  teams   : List (Nat × Team) := []
  eng     : Engines := {}
  /-- MODEL: a count of placements, waits and issues, for the orders the spec keeps -/
  stamp   : Nat := 1
  /-- MODEL: a count of free choices -/
  freeCtr : Nat := 0
  /-- MODEL: a count of steps, which stands for the clock where the spec asks what falls into one (R189; log 70) -/
  steps   : Nat := 0
  /-- MODEL: the warp at issue -/
  issue   : Option Issue := none
  /-- MODEL: the operands of the event at hand -/
  input   : Input := {}
  /-- MODEL: the link that a packet of the event at hand waits for, so that the event does not take place yet (R47) -/
  stall   : Option Nat := none
  /-- MODEL: what happens next, first move first; when it is empty the device goes on by itself -/
  agenda  : List Move := []
deriving DecidableEq, Repr

/-- Why the machine stands still for good. -/
inductive Fault where
  /-- Raised by `step` while main power is off and the next move is not MAIN_POWER_ON: nothing keeps running (R17). Safe: no
  state follows. -/
  | mainPowerOff
deriving DecidableEq, Repr

/-- Why an instruction or event has no meaning in a state. -/
inductive Refusal where
  /-- Raised by the arms of `exec` whose instruction has no meaning yet. Safe: nothing follows. -/
  | notModelled (mnemonic : String)
  /-- Raised when an instruction of the core is executed with no warp at issue, which no step of the device does. Safe. -/
  | noWarpAtIssue
  /-- Raised by an event whose occasion does not stand in the state (nothing to complete, no such packet, no such
  operation), so that the device does not make that step. Safe: nothing follows. -/
  | noOccasion
deriving DecidableEq, Repr

/-- The machine right after main power is applied and steps 1 and 2 of the start have passed: every register at its Reset
value (R8, R17, R18). -/
def State.reset : State := {}

end Sys2Proof.Machine
end

