-- ==== Sys2Proof/Machine/Sparse.lean ====
section
/-! DEFINITION. Tables keyed by a number, as sorted lists: in canonical form where absent means a stated default (memory,
registers), and as plain tables of records. -/

namespace Sys2Proof.Machine

/-- The value at a key, or the default that an unlisted key reads as. The search ends at the first key above, so that an entry
out of its place counts for nothing. -/
def Sparse.get {α : Type} (d : α) (k : Nat) : List (Nat × α) → α
  | [] => d
  | (j, v) :: rest => if j = k then v else if k < j then d else Sparse.get d k rest

/-- Writing in canonical form: keys stay strictly rising, and writing the default removes the entry, with any entry out of its
place that it would lay bare. -/
def Sparse.set {α : Type} [DecidableEq α] (d : α) (k : Nat) (x : α) : List (Nat × α) → List (Nat × α)
  | [] => if x = d then [] else [(k, x)]
  | (j, v) :: rest =>
    if k < j then (if x = d then (j, v) :: rest else (k, x) :: (j, v) :: rest)
    else if k = j then (if x = d then rest.dropWhile (fun p => decide (p.1 ≤ k)) else (k, x) :: rest)
    else (j, v) :: Sparse.set d k x rest

/-- The canonical form below a bound: every key is above it, keys strictly rise, no entry is the default. -/
def Sparse.wfFrom {α : Type} [DecidableEq α] (d : α) (lo : Nat) : List (Nat × α) → Bool
  | [] => true
  | (j, v) :: rest => decide (lo ≤ j) && decide (v ≠ d) && Sparse.wfFrom d (j + 1) rest

/-- The canonical form. -/
def Sparse.wf {α : Type} [DecidableEq α] (d : α) (m : List (Nat × α)) : Bool :=
  Sparse.wfFrom d 0 m

/-- Writing a record into a plain table, keys rising. -/
def Table.put {α : Type} (k : Nat) (x : α) : List (Nat × α) → List (Nat × α)
  | [] => [(k, x)]
  | (j, v) :: rest =>
    if k < j then (k, x) :: (j, v) :: rest
    else if k = j then (k, x) :: rest
    else (j, v) :: Table.put k x rest

/-- The record at a key. -/
def Table.find {α : Type} (k : Nat) : List (Nat × α) → Option α
  | [] => none
  | (j, v) :: rest => if j = k then some v else Table.find k rest

/-- A plain table without a key. -/
def Table.drop {α : Type} (k : Nat) (m : List (Nat × α)) : List (Nat × α) :=
  m.filter fun p => p.1 != k

/-! Numbers as bits and bytes -/

/-- Bits [h:l] of a number (R2). -/
def bits (x h l : Nat) : Nat := (x >>> l) % 2 ^ (h + 1 - l)

/-- Bit n of a number, as a Bool. -/
def bitAt (x n : Nat) : Bool := x.testBit n

/-- The exclusive-or of all bits of a number below 2^32 (R9). -/
def parity (x : Nat) : Bool :=
  let a := x ^^^ (x >>> 16)
  let b := a ^^^ (a >>> 8)
  let c := b ^^^ (b >>> 4)
  let d := c ^^^ (c >>> 2)
  (d ^^^ (d >>> 1)).testBit 0

/-- Little-endian bytes of a number (R2). -/
def leBytes : Nat → Nat → List Byte
  | 0, _ => []
  | n + 1, x => BitVec.ofNat 8 x :: leBytes n (x >>> 8)

/-- The number little-endian bytes stand for (R2). -/
def leNat : List Byte → Nat
  | [] => 0
  | b :: rest => b.toNat + 256 * leNat rest

/-- The first entry of a list that a test admits, with its position. -/
def findAt {α : Type} (p : α → Bool) : Nat → List α → Option (Nat × α)
  | _, [] => none
  | n, x :: rest => if p x then some (n, x) else findAt p (n + 1) rest

/-- A list with one position changed. -/
def modifyAt {α : Type} (f : α → α) : Nat → List α → List α
  | _, [] => []
  | 0, x :: rest => f x :: rest
  | n + 1, x :: rest => x :: modifyAt f n rest

end Sys2Proof.Machine
end

