-- ==== Sys2Proof/Machine/Memory.lean ====
section
/-! DEFINITION. The local address map, the interleave and hash that place an HBM access, and the bytes of memory (R51 to
R59, R61, R69). -/

namespace Sys2Proof.Machine

/-- Parts of the local address map (R51). -/
inductive Region where
  | hbm | sbm | mxWindow | flash | hole
deriving DecidableEq, Repr

/-- The part of the map a local address lies in; the upper 16 GiB of each HBM window are a hole (R51). -/
def regionOf (a : Nat) : Region :=
  if a < 0x8000000000 then (if a % 0x1000000000 < 0xC00000000 then .hbm else .hole)
  else if a < 0x80000000000 then .hole
  else if a < 0x8000C000000 then .sbm
  else if a < 0x90000000000 then .hole
  else if a < 0xA0000000000 then .mxWindow
  else if a < 0xC0000000000 then .hole
  else if a < 0x100000000000 then .flash
  else .hole

/-- The stack whose window an HBM address lies in, moved by the interleave pattern (R53). -/
def storingStack (inter a : Nat) : Nat :=
  let w := bits a 38 36
  match inter with
  | 0 => w ^^^ bits a 10 8
  | 2 => w ^^^ bits a 8 8
  | 3 => w ^^^ bits a 9 8
  | 4 => w ^^^ bits a 14 12
  | _ => w

/-- The hash base b of a pattern; pattern 7 has none (R53). -/
def hashBase (inter : Nat) : Nat :=
  match inter with
  | 0 => 11 | 1 => 8 | 2 => 9 | 3 => 10 | 4 => 15 | 5 => 11 | _ => 16

/-- The mask bits j a pattern uses already, for the storing stack or as base bits (R54). -/
def usedMask (inter : Nat) : Nat :=
  let stack := 0x1C00000 ||| (if inter = 4 then 1 else 0)
  let base :=
    match inter with
    | 0 => 0x7 | 1 => 0 | 2 => 0x1 | 3 => 0x3 | 4 => 0x7E | 5 => 0x7 | 6 => 0xFC | _ => 0x7
  stack ||| base

/-- The term t[i] of R54: the parity of the address bits that mask i selects. -/
def hashTerm (masks : List (BitVec 26)) (inter a i : Nat) : Bool :=
  let m := (masks.getD i 0).toNat
  let used := usedMask inter
  parity (bits a 39 14 &&& (m &&& (0x3FFFFFF ^^^ (m &&& used))))

/-- The pseudo-channel index h[5:0] within the storing stack (R54). -/
def hashIndex (masks : List (BitVec 26)) (inter a : Nat) : Nat :=
  let bit (i : Nat) : Bool :=
    if inter = 7 then
      if i = 0 then a.testBit 8 else (a.testBit (11 + i) != hashTerm masks inter a i)
    else (a.testBit (hashBase inter + i) != hashTerm masks inter a i)
  [0, 1, 2, 3, 4, 5].foldl (fun n i => n + (if bit i then 2 ^ i else 0)) 0

/-- Address bits [35:8] without the six base bits of the pattern, closed up: the place inside the pseudo-channel. -/
def channelPlace (inter a : Nat) : Nat :=
  let x := a % 0x1000000000
  if inter = 7 then (x >>> 17) * 8 + bits x 11 9
  else
    let b := hashBase inter
    (x >>> (b + 6)) * 2 ^ (b - 8) + (x >>> 8) % 2 ^ (b - 8)

/-- The storage location of an HBM address under a pattern: a fixed function of both (R53), one location for each place of
each pseudo-channel. DESIGN CHOICE (log 6): the place inside the pseudo-channel, which the spec keeps internal. -/
def hbmStorage (masks : List (BitVec 26)) (inter a : Nat) : Nat :=
  storingStack inter a * 0x1000000000 + channelPlace inter a * 0x4000 + hashIndex masks inter a * 0x100 + a % 0x100

/-- The storage location of a local address: HBM through the interleave, everything else by its own address (R59). -/
def storageOf (masks : List (BitVec 26)) (inter a : Nat) : Nat :=
  if a < 0x8000000000 then hbmStorage masks inter a else a

/-- The pattern of accesses that no entry with an INTERLEAVE leads to: tables of a root stage, the save area of a root, pages that firmware
reads. DESIGN CHOICE (log 7): 256-byte stripes within one stack, which every phase of service has. -/
def plainPattern : Nat := 1

/-- What an unlisted storage location reads as: a start zeroes HBM and SBM (R20). For flash it is a DESIGN CHOICE
(log 1). -/
def unlistedByte : Byte := 0

/-- The byte at a storage location. -/
def Mem.get (m : Mem) (k : Nat) : Byte := Sparse.get unlistedByte k m.cells

/-- Memory with one byte written. -/
def Mem.set (m : Mem) (k : Nat) (b : Byte) : Mem := { m with cells := Sparse.set unlistedByte k b m.cells }

/-- The canonical form of memory and of the host's memory. -/
def Mem.wf (m : Mem) : Bool := Sparse.wf unlistedByte m.cells && Sparse.wf unlistedByte m.host

/-- n bytes from a storage location on. -/
def Mem.read (m : Mem) (k : Nat) : Nat → List Byte
  | 0 => []
  | n + 1 => m.get k :: m.read (k + 1) n

/-- Bytes written from a storage location on. -/
def Mem.write (m : Mem) (k : Nat) : List Byte → Mem
  | [] => m
  | b :: rest => (m.set k b).write (k + 1) rest

/-- Bytes written where a mask bit is set, from a storage location on. -/
def Mem.writeMasked (m : Mem) (k : Nat) (mask : Nat) : List Byte → Mem
  | [] => m
  | b :: rest => (if mask.testBit 0 then m.set k b else m).writeMasked (k + 1) (mask >>> 1) rest

/-- n bytes of host memory from a bus address on. -/
def Mem.readHost (m : Mem) (k : Nat) : Nat → List Byte
  | 0 => []
  | n + 1 => Sparse.get unlistedByte k m.host :: m.readHost (k + 1) n

/-- Bytes written to host memory. -/
def Mem.writeHost (m : Mem) (k : Nat) : List Byte → Mem
  | [] => m
  | b :: rest => ({ m with host := Sparse.set unlistedByte k b m.host } : Mem).writeHost (k + 1) rest

/-- The storage location of a local address of this device. -/
def State.place (s : State) (inter a : Nat) : Nat := storageOf s.cfg.hashMask inter a

/-- Bytes of this device's memory at a local address; the bytes of one call lie within 256 aligned bytes. -/
def State.readLocal (s : State) (inter a n : Nat) : List Byte := s.mem.read (s.place inter a) n

/-- Bytes of this device's memory written at a local address. -/
def State.writeLocal (s : State) (inter a : Nat) (bs : List Byte) : State :=
  { s with mem := s.mem.write (s.place inter a) bs }

/-- The first storage location of the unit that an error poisons: a 32-byte HBM sector, an 8-byte SBM word or a 4 KiB flash
page (R68, R69). -/
def poisonUnit (k : Nat) : Nat :=
  match regionOf k with
  | .sbm => k - k % 8
  | .flash => k - k % 4096
  | _ => k - k % 32

/-- The bytes of that unit. -/
def poisonBytes (k : Nat) : Nat :=
  match regionOf k with
  | .sbm => 8
  | .flash => 4096
  | _ => 32

/-- Whether a storage location is poisoned (R69). -/
def Mem.poisoned (m : Mem) (k : Nat) : Bool := Sparse.get false (poisonUnit k) m.poison

/-- The full/empty bit of the SBM word at an offset (R61). -/
def Mem.isFull (m : Mem) (off : Nat) : Bool := Sparse.get false (off / 8) m.full

/-- The full/empty bit set or cleared (R61). -/
def Mem.setFull (m : Mem) (off : Nat) (b : Bool) : Mem := { m with full := Sparse.set false (off / 8) b m.full }

/-- The tensor-map entry of a local HBM address (R127). -/
def Mem.tensorAt (m : Mem) (a : Nat) : Tensor := Sparse.get {} (a / 65536) m.tensor

/-- The key generation of a world (R126). -/
def Mem.genOf (m : Mem) (w : BitVec 6) : Nat := Sparse.get 0 w.toNat m.keyGen

/-- The tag a line of HBM takes when it is written now, by world, compartment and the granule's tensor entry (R127). -/
def Mem.tagFor (m : Mem) (a : Nat) (w : BitVec 6) (c : BitVec 2) : LineTag :=
  { world := w, comp := c, gen := m.genOf w, id := (m.tensorAt a).id, version := (m.tensorAt a).version }

/-- Whether the tag of the HBM line at a storage location verifies for an access (R128). -/
def Mem.tagOk (m : Mem) (k a : Nat) (w : BitVec 6) (c : BitVec 2) : Bool :=
  regionOf a != .hbm || decide (Sparse.get {} (k / 64) m.lines = m.tagFor a w c)

/-- The home of a storage location as a stop record names it: stack × 64 + h, or 512 + bank for SBM (R59, R191). -/
def homeUnit (k : Nat) : Nat :=
  match regionOf k with
  | .sbm => 512 + ((k - 0x80000000000) >>> 8) % 1536
  | _ => k / 0x1000000000 * 64 + bits k 13 8

end Sys2Proof.Machine
end

