-- ==== Sys2Proof/Machine/Contexts.lean ====
section
/-! DEFINITION. Contexts and their chain of stages (R91, R92), and how a walk misses (R99). -/

namespace Sys2Proof.Machine

/-- Context n. -/
def State.ctx (s : State) (n : Nat) : Ctx := (Table.find n s.ctxs).getD {}

/-- Context n replaced. -/
def State.setCtx (s : State) (n : Nat) (c : Ctx) : State := { s with ctxs := Table.put n c s.ctxs }

/-- Context n changed. -/
def State.modCtx (s : State) (n : Nat) (f : Ctx → Ctx) : State := s.setCtx n (f (s.ctx n))

/-- SUBTREE, DEV_FIRST and DEV_COUNT of a context; a root that has not set ROOT_SUBTREE has its function number and this
device alone (R92, R93). -/
def State.subtreeOf (s : State) (n : Nat) : BitVec 16 × BitVec 12 × BitVec 13 :=
  (s.ctx n).subtree.getD (BitVec.ofNat 16 n, s.fabric.deviceNum, 1)

/-- The contexts from one context up to its root, with their numbers (R91). -/
def State.chain (s : State) : Nat → Nat → List (Nat × Ctx)
  | 0, _ => []
  | fuel + 1, n =>
    let c := s.ctx n
    if c.level == 0 then [(n, c)] else (n, c) :: s.chain fuel c.parent.toNat

/-- The chain of a context: at most four levels (R91). -/
def State.chainOf (s : State) (n : Nat) : List (Nat × Ctx) := s.chain 4 n

/-- The root of a context's chain. -/
def State.rootOf (s : State) (n : Nat) : Nat := ((s.chainOf n).getLastD (n, {})).1

/-- Why a walk misses: no valid entry leads on; the data of a table word fail at their home (R69, R128); the table lies on another
device, whose answer is a remote miss (R39), or whose data fail there; or a table word's transfer fails its tag on the network inside the
package (R130). -/
inductive MissWhy where
  | absent
  | spoiled (cause : BitVec 8)
  | far (dev : BitVec 12) (addr : Nat) (kind : BitVec 2)
  | farFailed (cause : BitVec 8)
  | tampered
deriving DecidableEq, Repr

/-- A walk that misses: the context whose stage missed, the address in its space, and why (R99). -/
structure Miss where
  ctx  : Nat
  addr : Nat
  why  : MissWhy := .absent
deriving DecidableEq, Repr

/-- A device number is this device's own (R31). -/
def State.isOwn (s : State) (dev : Nat) : Bool := dev == s.fabric.deviceNum.toNat

/-- Bytes of another device's memory from a fabric address on, as they come with the event (log 9). -/
def State.farBytes (s : State) (a : Nat) : Nat → List Byte
  | 0 => []
  | n + 1 => (Table.find a s.input.far).getD 0 :: s.farBytes (a + 1) n

/-- The KIND of the miss that an access of this device to a fabric address meets, if it meets one: no route while the fabric is
disabled (R30), or what the other device answers for the page (R38). -/
def State.farMiss (s : State) (a : Nat) : Option (BitVec 2) :=
  if !s.fabric.enable then some 3 else Table.find (a / 4096) s.input.refusing

/-- Where what befalls the words of a range is looked up. -/
def wordsOf (a n : Nat) : List Nat := (List.range ((a % 8 + n + 7) / 8)).map fun i => a - a % 8 + 8 * i

/-- What befalls an access of an engine, the CPX, instruction fetch or a walk at a local address, as the event at hand says. -/
def State.hitAt (s : State) (a : Nat) : HomeEvent := (Table.find (a / 8 * 8) s.input.hits).getD .plain

/-- The transfer of a range that such an access reaches fails its tag on the network (R130). -/
def State.netFails (s : State) (a n : Nat) : Bool := (wordsOf a n).any fun w => s.hitAt w == .networkTag

end Sys2Proof.Machine
end

