-- ==== Sys2Proof/WellFormed.lean ====
section
/-! DEFINITION. The checks of R253 that a decoded instruction word can still fail: must-be-zero fields of `acc.st`
(check 2), order and size combinations (check 3), immediates (check 4) and aligned register groups (check 5), over one
table of the registers each instruction names. -/

namespace Sys2Proof

/-- The register classes that have limits (R165). -/
inductive RegClass where
  | v | s | t | a
deriving DecidableEq, Repr

/-- One register operand: its class, its first register, how many registers it takes, and whether the first must be a
multiple of that number (R166, R250). -/
structure RegUse where
  cls     : RegClass
  first   : Reg
  count   : Nat
  aligned : Bool
deriving DecidableEq, Repr

/-- Bytes of an access size (R305). -/
def MSize.bytes : MSize → Nat
  | .x8 | .sx8 => 1
  | .x16 | .sx16 => 2
  | .w32 => 4
  | .w64 => 8
  | .w128 => 16
  | .w256 => 32

/-- Registers of the data operand of an access size (R305). -/
def MSize.regs : MSize → Nat
  | .x8 | .sx8 | .x16 | .sx16 | .w32 => 1
  | .w64 => 2
  | .w128 => 4
  | .w256 => 8

/-- The functions of `acc.st` that round stochastically and so name a SEED and CTR pair (R340). -/
def AccStFn.random : AccStFn → Bool
  | .bf16Sr | .e4m3Sr => true
  | _ => false

/-- Accumulators an `acc.st` function reads (R322). -/
def AccStFn.accs : AccStFn → Nat
  | .cf32Fold | .cf32Split => 4
  | _ => 1

/-- Accumulators an `acc.ld` function writes (R322). -/
def AccLdFn.accs : AccLdFn → Nat
  | .cf32 => 4
  | _ => 1


/-- The registers an instruction names, with their classes and the number of registers of each operand (R250, R251).
`call` names v127 (R283). The events name none. -/
def Instr.uses : Instr → List RegUse
  | .nop _ => []
  | .exit _ => []
  | .trap _ _ => []
  | .brk _ => []
  | .rsb _ => []
  | .rse _ => []
  | .gpw _ => []
  | .dfree _ a => [.mk .v a 2 true]
  | .gate _ _ => []
  | .dlrel _ _ => []
  | .sysrd _ d _ => [.mk .s d 1 true]
  | .syswr _ _ a => [.mk .s a 1 true]
  | .ralloc _ _ => []
  | .rfree _ _ => []
  | .wbase _ _ => []
  | .cpost _ d => [.mk .s d 4 true]
  | .spt _ _ => []
  | .wait _ _ => []
  | .br _ _ => []
  | .brM _ _ => []
  | .call _ _ => [.mk .v 127 1 true]
  | .brx _ a => [.mk .v a 1 true]
  | .brxM _ a => [.mk .v a 1 true]
  | .barJoin _ _ => []
  | .barMark _ _ => []
  | .barHold _ _ => []
  | .fence _ _ _ => []
  | .cstage _ => []
  | .coll _ a => [.mk .s a 2 true]
  | .tld _ d a => [.mk .t d 1 true, .mk .s a 4 true]
  | .tst _ d a => [.mk .s d 4 true, .mk .t a 1 true]
  | .mma _ d a b => [.mk .a d 1 true, .mk .t a 1 true, .mk .t b 1 true]
  | .mmz _ d a b => [.mk .a d 1 true, .mk .t a 1 true, .mk .t b 1 true]
  | .cmma _ d a b => [.mk .a d 4 true, .mk .t a 1 true, .mk .t b 1 true]
  | .cmmz _ d a b => [.mk .a d 4 true, .mk .t a 1 true, .mk .t b 1 true]
  | .accSt _ d a t f => .mk .a d f.accs true :: .mk .t (t.setWidth 7) 1 true :: (if f.random then [.mk .s a 2 true] else [])
  | .accLd _ d t f => [.mk .a d f.accs true, .mk .t (t.setWidth 7) 1 true]
  | .accZero _ d n => [.mk .a d n.toNat false]
  | .vlil _ d _ => [.mk .v d 1 true]
  | .vlih _ d _ => [.mk .v d 1 true]
  | .slil _ d _ => [.mk .s d 1 true]
  | .slih _ d _ => [.mk .s d 1 true]
  | .ld _ d a m => [.mk .v d m.size.regs true, .mk .v a 2 true]
  | .st _ d a m => [.mk .v d m.size.regs true, .mk .v a 2 true]
  | .sld _ d a m => [.mk .s d m.size.regs true, .mk .s a 2 true]
  | .sst _ d a m => [.mk .s d m.size.regs true, .mk .s a 2 true]
  | .atomAdd _ d a m => [.mk .v d (if m.w64 then 2 else 1) true, .mk .v a 2 true]
  | .atomAnd _ d a m => [.mk .v d (if m.w64 then 2 else 1) true, .mk .v a 2 true]
  | .atomOr _ d a m => [.mk .v d (if m.w64 then 2 else 1) true, .mk .v a 2 true]
  | .atomXor _ d a m => [.mk .v d (if m.w64 then 2 else 1) true, .mk .v a 2 true]
  | .atomMinI _ d a m => [.mk .v d (if m.w64 then 2 else 1) true, .mk .v a 2 true]
  | .atomMaxI _ d a m => [.mk .v d (if m.w64 then 2 else 1) true, .mk .v a 2 true]
  | .atomMinN _ d a m => [.mk .v d (if m.w64 then 2 else 1) true, .mk .v a 2 true]
  | .atomMaxN _ d a m => [.mk .v d (if m.w64 then 2 else 1) true, .mk .v a 2 true]
  | .atomSwap _ d a m => [.mk .v d (if m.w64 then 2 else 1) true, .mk .v a 2 true]
  | .atomCas _ d a m => [.mk .v d (if m.w64 then 4 else 2) true, .mk .v a 2 true]
  | .atomFadd _ d a m => [.mk .v d (if m.w64 then 2 else 1) true, .mk .v a 2 true]
  | .atomFmax _ d a m => [.mk .v d (if m.w64 then 2 else 1) true, .mk .v a 2 true]
  | .sand _ d a b => [.mk .s d 1 true, .mk .s a 1 true, .mk .s b 1 true]
  | .sor _ d a b => [.mk .s d 1 true, .mk .s a 1 true, .mk .s b 1 true]
  | .sxor _ d a b => [.mk .s d 1 true, .mk .s a 1 true, .mk .s b 1 true]
  | .sshr _ d a b => [.mk .s d 1 true, .mk .s a 1 true, .mk .s b 1 true]
  | .ssar _ d a b => [.mk .s d 1 true, .mk .s a 1 true, .mk .s b 1 true]
  | .sminN _ d a b => [.mk .s d 1 true, .mk .s a 1 true, .mk .s b 1 true]
  | .smaxN _ d a b => [.mk .s d 1 true, .mk .s a 1 true, .mk .s b 1 true]
  | .iadd _ d a b => [.mk .v d 1 true, .mk .v a 1 true, .mk .v b 1 true]
  | .isub _ d a b => [.mk .v d 1 true, .mk .v a 1 true, .mk .v b 1 true]
  | .imul _ d a b => [.mk .v d 1 true, .mk .v a 1 true, .mk .v b 1 true]
  | .imulhI _ d a b => [.mk .v d 1 true, .mk .v a 1 true, .mk .v b 1 true]
  | .imulhN _ d a b => [.mk .v d 1 true, .mk .v a 1 true, .mk .v b 1 true]
  | .imad _ d a b => [.mk .v d 1 true, .mk .v a 1 true, .mk .v b 1 true]
  | .iand _ d a b => [.mk .v d 1 true, .mk .v a 1 true, .mk .v b 1 true]
  | .ior _ d a b => [.mk .v d 1 true, .mk .v a 1 true, .mk .v b 1 true]
  | .ixor _ d a b => [.mk .v d 1 true, .mk .v a 1 true, .mk .v b 1 true]
  | .iandn _ d a b => [.mk .v d 1 true, .mk .v a 1 true, .mk .v b 1 true]
  | .ishl _ d a b => [.mk .v d 1 true, .mk .v a 1 true, .mk .v b 1 true]
  | .ishr _ d a b => [.mk .v d 1 true, .mk .v a 1 true, .mk .v b 1 true]
  | .isar _ d a b => [.mk .v d 1 true, .mk .v a 1 true, .mk .v b 1 true]
  | .iminI _ d a b => [.mk .v d 1 true, .mk .v a 1 true, .mk .v b 1 true]
  | .imaxI _ d a b => [.mk .v d 1 true, .mk .v a 1 true, .mk .v b 1 true]
  | .iminN _ d a b => [.mk .v d 1 true, .mk .v a 1 true, .mk .v b 1 true]
  | .imaxN _ d a b => [.mk .v d 1 true, .mk .v a 1 true, .mk .v b 1 true]
  | .clmul _ d a b => [.mk .v d 1 true, .mk .v a 1 true, .mk .v b 1 true]
  | .clmulh _ d a b => [.mk .v d 1 true, .mk .v a 1 true, .mk .v b 1 true]
  | .iadd64 _ d a b => [.mk .v d 2 true, .mk .v a 2 true, .mk .v b 2 true]
  | .isub64 _ d a b => [.mk .v d 2 true, .mk .v a 2 true, .mk .v b 2 true]
  | .imulwN _ d a b => [.mk .v d 2 true, .mk .v a 1 true, .mk .v b 1 true]
  | .bfeN _ d a b => [.mk .v d 1 true, .mk .v a 1 true, .mk .v b 1 true]
  | .bfeI _ d a b => [.mk .v d 1 true, .mk .v a 1 true, .mk .v b 1 true]
  | .bfi _ d a b => [.mk .v d 1 true, .mk .v a 1 true, .mk .v b 1 true]
  | .perm _ d a b => [.mk .v d 1 true, .mk .v a 1 true, .mk .v b 1 true]
  | .sel _ d a b => [.mk .v d 1 true, .mk .v a 1 true, .mk .v b 1 true]
  | .icmp _ _ _ a b => [.mk .v a 1 true, .mk .v b 1 true]
  | .iaddi _ d a _ => [.mk .v d 1 true, .mk .v a 1 true]
  | .ishli _ d a _ => [.mk .v d 1 true, .mk .v a 1 true]
  | .ishri _ d a _ => [.mk .v d 1 true, .mk .v a 1 true]
  | .isari _ d a _ => [.mk .v d 1 true, .mk .v a 1 true]
  | .iaddVs _ d a b => [.mk .v d 1 true, .mk .v a 1 true, .mk .s b 1 true]
  | .imulVs _ d a b => [.mk .v d 1 true, .mk .v a 1 true, .mk .s b 1 true]
  | .imadVs _ d a b => [.mk .v d 1 true, .mk .v a 1 true, .mk .s b 1 true]
  | .iandVs _ d a b => [.mk .v d 1 true, .mk .v a 1 true, .mk .s b 1 true]
  | .ishlVs _ d a b => [.mk .v d 1 true, .mk .v a 1 true, .mk .s b 1 true]
  | .ishrVs _ d a b => [.mk .v d 1 true, .mk .v a 1 true, .mk .s b 1 true]
  | .icmpVs _ _ _ a b => [.mk .v a 1 true, .mk .s b 1 true]
  | .iadd64Vs _ d a b => [.mk .v d 2 true, .mk .v a 2 true, .mk .s b 2 true]
  | .mov _ d a => [.mk .v d 1 true, .mk .v a 1 true]
  | .mov64 _ d a => [.mk .v d 2 true, .mk .v a 2 true]
  | .popc _ d a => [.mk .v d 1 true, .mk .v a 1 true]
  | .clz _ d a => [.mk .v d 1 true, .mk .v a 1 true]
  | .brev _ d a => [.mk .v d 1 true, .mk .v a 1 true]
  | .ineg _ d a => [.mk .v d 1 true, .mk .v a 1 true]
  | .iabs _ d a => [.mk .v d 1 true, .mk .v a 1 true]
  | .laneid _ d => [.mk .v d 1 true]
  | .bcast _ d a => [.mk .v d 1 true, .mk .s a 1 true]
  | .rdl _ d a => [.mk .s d 1 true, .mk .v a 1 true]
  | .pand _ _ _ _ => []
  | .por _ _ _ _ => []
  | .pxor _ _ _ _ => []
  | .pandn _ _ _ _ => []
  | .pnot _ _ _ => []
  | .pset _ _ a => [.mk .s a 2 true]
  | .tidx _ d => [.mk .v d 1 true]
  | .tidy _ d => [.mk .v d 1 true]
  | .tidz _ d => [.mk .v d 1 true]
  | .xlIdx _ d a b => [.mk .v d 1 true, .mk .v a 1 true, .mk .v b 1 true]
  | .xlXor _ d a _ => [.mk .v d 1 true, .mk .v a 1 true]
  | .xlBack _ d a _ => [.mk .v d 1 true, .mk .v a 1 true]
  | .xlFwd _ d a _ => [.mk .v d 1 true, .mk .v a 1 true]
  | .pcolMask _ d _ => [.mk .s d 2 true]
  | .pcolAny _ d _ => [.mk .s d 1 true]
  | .pcolAll _ d _ => [.mk .s d 1 true]
  | .pcolCnt _ d _ => [.mk .s d 1 true]
  | .wredAdd _ d a => [.mk .s d 1 true, .mk .v a 1 true]
  | .wredMinI _ d a => [.mk .s d 1 true, .mk .v a 1 true]
  | .wredMaxI _ d a => [.mk .s d 1 true, .mk .v a 1 true]
  | .wredMinN _ d a => [.mk .s d 1 true, .mk .v a 1 true]
  | .wredMaxN _ d a => [.mk .s d 1 true, .mk .v a 1 true]
  | .wredAnd _ d a => [.mk .s d 1 true, .mk .v a 1 true]
  | .wredOr _ d a => [.mk .s d 1 true, .mk .v a 1 true]
  | .wredXor _ d a => [.mk .s d 1 true, .mk .v a 1 true]
  | .wredFadd _ d a => [.mk .s d 1 true, .mk .v a 1 true]
  | .pfxAddIn _ d a => [.mk .v d 1 true, .mk .v a 1 true]
  | .pfxAddEx _ d a => [.mk .v d 1 true, .mk .v a 1 true]
  | .pfxXorIn _ d a => [.mk .v d 1 true, .mk .v a 1 true]
  | .pfxXorEx _ d a => [.mk .v d 1 true, .mk .v a 1 true]
  | .pfxMaxIIn _ d a => [.mk .v d 1 true, .mk .v a 1 true]
  | .fadd _ d a b => [.mk .v d 1 true, .mk .v a 1 true, .mk .v b 1 true]
  | .fsub _ d a b => [.mk .v d 1 true, .mk .v a 1 true, .mk .v b 1 true]
  | .fmul _ d a b => [.mk .v d 1 true, .mk .v a 1 true, .mk .v b 1 true]
  | .ffma _ d a b => [.mk .v d 1 true, .mk .v a 1 true, .mk .v b 1 true]
  | .fmin _ d a b => [.mk .v d 1 true, .mk .v a 1 true, .mk .v b 1 true]
  | .fmax _ d a b => [.mk .v d 1 true, .mk .v a 1 true, .mk .v b 1 true]
  | .fcmp _ _ _ a b => [.mk .v a 1 true, .mk .v b 1 true]
  | .faddVs _ d a b => [.mk .v d 1 true, .mk .v a 1 true, .mk .s b 1 true]
  | .fmulVs _ d a b => [.mk .v d 1 true, .mk .v a 1 true, .mk .s b 1 true]
  | .ffmaVs _ d a b => [.mk .v d 1 true, .mk .v a 1 true, .mk .s b 1 true]
  | .badd2 _ d a b => [.mk .v d 1 true, .mk .v a 1 true, .mk .v b 1 true]
  | .bmul2 _ d a b => [.mk .v d 1 true, .mk .v a 1 true, .mk .v b 1 true]
  | .bfma2 _ d a b => [.mk .v d 1 true, .mk .v a 1 true, .mk .v b 1 true]
  | .cmul _ d a b => [.mk .v d 2 true, .mk .v a 2 true, .mk .v b 2 true]
  | .cfma _ d a b => [.mk .v d 2 true, .mk .v a 2 true, .mk .v b 2 true]
  | .twosum _ d a b => [.mk .v d 2 true, .mk .v a 1 true, .mk .v b 1 true]
  | .frcp _ d a => [.mk .v d 1 true, .mk .v a 1 true]
  | .frsq _ d a => [.mk .v d 1 true, .mk .v a 1 true]
  | .fsqrt _ d a => [.mk .v d 1 true, .mk .v a 1 true]
  | .fexp2 _ d a => [.mk .v d 1 true, .mk .v a 1 true]
  | .flog2 _ d a => [.mk .v d 1 true, .mk .v a 1 true]
  | .fsinp _ d a => [.mk .v d 1 true, .mk .v a 1 true]
  | .fcosp _ d a => [.mk .v d 1 true, .mk .v a 1 true]
  | .fabs _ d a => [.mk .v d 1 true, .mk .v a 1 true]
  | .fneg _ d a => [.mk .v d 1 true, .mk .v a 1 true]
  | .ffloor _ d a => [.mk .v d 1 true, .mk .v a 1 true]
  | .fceil _ d a => [.mk .v d 1 true, .mk .v a 1 true]
  | .ftrunc _ d a => [.mk .v d 1 true, .mk .v a 1 true]
  | .frint _ d a => [.mk .v d 1 true, .mk .v a 1 true]
  | .fclass _ d a => [.mk .v d 1 true, .mk .v a 1 true]
  | .cvtF32I32 _ d a => [.mk .v d 1 true, .mk .v a 1 true]
  | .cvtF32N32 _ d a => [.mk .v d 1 true, .mk .v a 1 true]
  | .cvtI32F32 _ d a => [.mk .v d 1 true, .mk .v a 1 true]
  | .cvtN32F32 _ d a => [.mk .v d 1 true, .mk .v a 1 true]
  | .cvtI32F32Rz _ d a => [.mk .v d 1 true, .mk .v a 1 true]
  | .cvtBf16x2F32 _ d a => [.mk .v d 1 true, .mk .v a 2 true]
  | .cvtF32Bf16x2 _ d a => [.mk .v d 2 true, .mk .v a 1 true]
  | .cvtF16x2F32 _ d a => [.mk .v d 1 true, .mk .v a 2 true]
  | .cvtF32F16x2 _ d a => [.mk .v d 2 true, .mk .v a 1 true]
  | .cvtE4m3x4F32 _ d a => [.mk .v d 1 true, .mk .v a 4 true]
  | .cvtE5m2x4F32 _ d a => [.mk .v d 1 true, .mk .v a 4 true]
  | .cvtF32E4m3x4 _ d a => [.mk .v d 4 true, .mk .v a 1 true]
  | .cvtF32E5m2x4 _ d a => [.mk .v d 4 true, .mk .v a 1 true]
  | .twoprod _ d a b => [.mk .v d 2 true, .mk .v a 1 true, .mk .v b 1 true]
  | .fcmpVs _ _ _ a b => [.mk .v a 1 true, .mk .s b 1 true]
  | .hadd2 _ d a b => [.mk .v d 1 true, .mk .v a 1 true, .mk .v b 1 true]
  | .hmul2 _ d a b => [.mk .v d 1 true, .mk .v a 1 true, .mk .v b 1 true]
  | .hfma2 _ d a b => [.mk .v d 1 true, .mk .v a 1 true, .mk .v b 1 true]
  | .sadd _ d a b => [.mk .s d 1 true, .mk .s a 1 true, .mk .s b 1 true]
  | .ssub _ d a b => [.mk .s d 1 true, .mk .s a 1 true, .mk .s b 1 true]
  | .smul _ d a b => [.mk .s d 1 true, .mk .s a 1 true, .mk .s b 1 true]
  | .sshl _ d a b => [.mk .s d 1 true, .mk .s a 1 true, .mk .s b 1 true]
  | .scmp _ _ _ a b => [.mk .s a 1 true, .mk .s b 1 true]
  | .sadd64 _ d a b => [.mk .s d 2 true, .mk .s a 2 true, .mk .s b 2 true]
  | .saddi _ d a _ => [.mk .s d 1 true, .mk .s a 1 true]
  | .smov _ d a => [.mk .s d 1 true, .mk .s a 1 true]
  | .smov64 _ d a => [.mk .s d 2 true, .mk .s a 2 true]
  | .spopc _ d a => [.mk .s d 1 true, .mk .s a 1 true]
  | .sclz _ d a => [.mk .s d 1 true, .mk .s a 1 true]
  | .sneg _ d a => [.mk .s d 1 true, .mk .s a 1 true]
  | .mainPowerOn => []
  | .mainPowerOff => []
  | .hostLinkTrained => []
  | .firmwareLoaded => []
  | .unitTrained => []
  | .fullService => []
  | .resetGo => []
  | .clockAdjust => []
  | .powerCtlWrite => []
  | .registerWrite => []
  | .cfgLock => []
  | .cfgRun => []
  | .cfgRunDone => []
  | .hashMaskWrite => []
  | .hashMaskZeroingDone => []
  | .owlRekey => []
  | .linkKeyInstalled => []
  | .remoteRequestSend => []
  | .linkTagFailure => []
  | .linkFailed => []
  | .remoteRequestArrive => []
  | .undeliverable => []
  | .remoteMissReply => []
  | .remoteAck => []
  | .homePerform => []
  | .resultReturn => []
  | .cqWrite => []
  | .cqEnable => []
  | .cqDisable => []
  | .cqRestart => []
  | .cqReadWrite => []
  | .crReadWrite => []
  | .packetStart => []
  | .launch => []
  | .mboxPut => []
  | .mboxTake => []
  | .mboxWaitServed => []
  | .write => []
  | .faultDone => []
  | .flogAppend => []
  | .flogAppendCommit => []
  | .childCreate => []
  | .setShare => []
  | .freeze => []
  | .freezeComplete => []
  | .thaw => []
  | .checkpoint => []
  | .checkpointCommit => []
  | .revoke => []
  | .revokeComplete => []
  | .preempt => []
  | .inval => []
  | .invalComplete => []
  | .rootPtbWrite => []
  | .forwardedCommand => []
  | .tensorDeclare => []
  | .tensorRevise => []
  | .tensorRetire => []
  | .scrub => []
  | .completionRecordWrite => []
  | .bundleRetire => []
  | .handlerRecordWrite => []
  | .rootHqIdxWrite => []
  | .worldCreate => []
  | .worldKey => []
  | .worldDestroy => []
  | .worldCmdDone => []
  | .bchEnable => []
  | .bchGo => []
  | .bchChunk => []
  | .bchAbort => []
  | .bchStatusRecord => []
  | .tamperAlarm => []
  | .teamPlace => []
  | .teamImageCommit => []
  | .teamReentry => []
  | .engineHaltStop => []
  | .haltSaveComplete => []
  | .zugzwangSwap => []
  | .zugzwangReentry => []
  | .ripeEntryWrite => []
  | .tempoRingWrite => []
  | .markedBranchRendezvous => []
  | .tceEntryComplete => []
  | .mxeOperationComplete => []
  | .collComplete => []
  | .watchWrite => []
  | .illegalInstruction => []
  | .forwardedCommandAnswer => []
  | .retransmissionRequest => []

/-- The decode checks of R253 after check 1, by their number there. -/
inductive DecodeCheck where
  /-- check 2: a field marked zero is not zero -/
  | mustBeZero
  /-- check 3: an order, scope or size combination that is refused -/
  | badOrder
  /-- check 4: an immediate beyond its limit -/
  | badImmediate
  /-- check 5: a register group that does not begin at a multiple of its size -/
  | misalignedGroup
deriving DecidableEq, Repr

/-- Check 2 of R253: field A of `acc.st` is zero unless the function names a pair (R340). -/
def Instr.zeroFieldsOk : Instr → Bool
  | .accSt _ _ a _ f => f.random || a == 0
  | _ => true

/-- rlx is admitted at team scope only (R308, R312). -/
def Order.scopeOk (o : Order) (c : Scope) : Bool :=
  o != .rlx || c == .team

/-- Check 3 of R253: no acq store, no rel load, no rlx beyond team scope, no 64-bit `atom.fadd` or `atom.fmax`. -/
def Instr.orderOk : Instr → Bool
  | .ld _ _ _ m | .sld _ _ _ m => m.order != .rel && m.order.scopeOk m.scope
  | .st _ _ _ m | .sst _ _ _ m => m.order != .acq && m.order.scopeOk m.scope
  | .atomFadd _ _ _ m | .atomFmax _ _ _ m => !m.w64 && m.order.scopeOk m.scope
  | .atomAdd _ _ _ m | .atomAnd _ _ _ m | .atomOr _ _ _ m | .atomXor _ _ _ m | .atomMinI _ _ _ m
  | .atomMaxI _ _ _ m | .atomMinN _ _ _ m | .atomMaxN _ _ _ m | .atomSwap _ _ _ m | .atomCas _ _ _ m =>
    m.order.scopeOk m.scope
  | _ => true

/-- The number of the special register USER_TAG (R349). -/
def sysUserTag : Reg := 22

/-- Check 4 of R253: barrier and gate numbers to 15, page counts from 1, accumulator counts 1 to 16, special-register
numbers that exist (R251, R322). -/
def Instr.immediateOk : Instr → Bool
  | .gate _ a | .dlrel _ a | .barJoin _ a | .barMark _ a | .barHold _ a => a.toNat ≤ 15
  | .ralloc _ a | .rfree _ a => a != 0
  | .accZero _ _ n => n != 0 && n.toNat ≤ 16
  | .sysrd _ _ a => a.toNat ≤ 22
  | .syswr _ d _ => d == sysUserTag
  | _ => true

/-- An operand's first register is a multiple of its size (R166). -/
def RegUse.groupOk (u : RegUse) : Bool :=
  !u.aligned || u.first.toNat % u.count == 0

/-- Check 5 of R253. -/
def Instr.groupsOk (i : Instr) : Bool :=
  i.uses.all RegUse.groupOk

/-- The first of checks 2 to 5 of R253 that a decoded instruction fails. -/
def Instr.failedCheck (i : Instr) : Option DecodeCheck :=
  if !i.zeroFieldsOk then some .mustBeZero
  else if !i.orderOk then some .badOrder
  else if !i.immediateOk then some .badImmediate
  else if !i.groupsOk then some .misalignedGroup
  else none

/-- An instruction that passes checks 2 to 5 of R253; the events always do. -/
def Instr.wellFormed (i : Instr) : Bool :=
  i.failedCheck == none

end Sys2Proof
end

