-- ==== Sys2Proof/Machine/Ops.lean ====
section
/-! DEFINITION. Named operations over the state: queues, bundles, teams and warps; the warp at issue; raising the halt line of
a context, which is how a stopping fault is taken (R182 to R191), and taking a recoverable fault (R99, R148, R151), with the
returns from both; the accounting of an issue (R147, R195). -/

namespace Sys2Proof.Machine

/-! ## Causes, statuses and limits -/

/-- Fault codes (R182). -/
def Cause.halted : BitVec 8 := 0x00
def Cause.pageMiss : BitVec 8 := 0x01
def Cause.illegalInstruction : BitVec 8 := 0x02
def Cause.regRange : BitVec 8 := 0x03
def Cause.misaligned : BitVec 8 := 0x04
def Cause.permission : BitVec 8 := 0x05
def Cause.remotePinMiss : BitVec 8 := 0x06
def Cause.shapeMismatch : BitVec 8 := 0x07
def Cause.shapeBad : BitVec 8 := 0x08
def Cause.safepointDistance : BitVec 8 := 0x09
def Cause.teamDeadlock : BitVec 8 := 0x0A
def Cause.regGrowImpossible : BitVec 8 := 0x0B
def Cause.scheduleExhausted : BitVec 8 := 0x0C
def Cause.paramBad : BitVec 8 := 0x0D
def Cause.gateBad : BitVec 8 := 0x0E
def Cause.break_ : BitVec 8 := 0x0F
def Cause.watch : BitVec 8 := 0x10
def Cause.eccUncorrectable : BitVec 8 := 0x11
def Cause.cipherIntegrity : BitVec 8 := 0x12
/-- TRAP carries its code in CAUSE[6:0] (R182, R345). -/
def Cause.trap (n : BitVec 7) : BitVec 8 := 1#1 ++ n

/-- Completion statuses (R88). -/
def Status.ok : BitVec 8 := 0
def Status.launchBad : BitVec 8 := 1
def Status.addrBad : BitVec 8 := 2
def Status.noSpace : BitVec 8 := 3
def Status.aborted : BitVec 8 := 4
def Status.faulted : BitVec 8 := 5
def Status.denied : BitVec 8 := 6
def Status.stale : BitVec 8 := 7
def Status.badPacket : BitVec 8 := 8
def Status.indexBad : BitVec 8 := 9
def Status.badConfig : BitVec 8 := 10

/-! ## Tables of the state -/

/-- The queue slot q. -/
def State.queue (s : State) (q : Nat) : Queue := (Table.find q s.queues).getD {}
/-- The queue slot q replaced. -/
def State.setQueue (s : State) (q : Nat) (v : Queue) : State := { s with queues := Table.put q v s.queues }
/-- The queue slot q changed. -/
def State.modQueue (s : State) (q : Nat) (f : Queue → Queue) : State := s.setQueue q (f (s.queue q))
/-- The bundle b, while it is in progress. -/
def State.bundle? (s : State) (b : Nat) : Option Bundle := Table.find b s.bundles
/-- The bundle b replaced. -/
def State.setBundle (s : State) (b : Nat) (v : Bundle) : State := { s with bundles := Table.put b v s.bundles }
/-- The team t, while it is not exited. -/
def State.team? (s : State) (t : Nat) : Option Team := Table.find t s.teams
/-- The team t replaced. -/
def State.setTeam (s : State) (t : Nat) (v : Team) : State := { s with teams := Table.put t v s.teams }
/-- The team t changed, if it is there. -/
def State.modTeam (s : State) (t : Nat) (f : Team → Team) : State :=
  match s.team? t with
  | some tm => s.setTeam t (f tm)
  | none => s
/-- The kernel a team runs. -/
def State.kernelOf (s : State) (tm : Team) : Kernel :=
  match s.bundle? tm.bundle with
  | some b => b.kernels.getD tm.kernel {}
  | none => {}
/-- The context a team belongs to. -/
def State.ctxOf (s : State) (tm : Team) : Nat :=
  match s.bundle? tm.bundle with
  | some b => b.ctx.toNat
  | none => 0
/-- Lanes of a warp of a kernel: 8, 16, 32 or 64 (R137). -/
def Kernel.lanes (k : Kernel) : Nat := 8 * 2 ^ k.width
/-- The warp w of a team. -/
def Team.warp (tm : Team) (w : Nat) : Warp := tm.warps.getD w {}
/-- The warp w of a team replaced. -/
def Team.setWarp (tm : Team) (w : Nat) (v : Warp) : Team := { tm with warps := tm.warps.set w v }
/-- A team with one of its warps changed. -/
def State.modWarp (s : State) (t w : Nat) (f : Warp → Warp) : State :=
  s.modTeam t fun tm => tm.setWarp w (f (tm.warp w))
/-- Half of a pair a warp stands on: 0 on the team's own core, 1 on the partner (R174, R176). -/
def Team.half (tm : Team) (w : Warp) : Nat := w.core - tm.core

/-- A thread that has not exited. -/
def Thread.alive (t : Thread) : Bool := t.park != .exited
/-- A thread that may issue: neither parked nor exited (R147). -/
def Thread.eligible (t : Thread) : Bool := t.park == .none
/-- A predicate of a thread; p0 reads true (R165). -/
def Thread.pred (t : Thread) (p : PReg) : Bool := p == 0 || t.preds.getLsbD p.toNat
/-- A predicate written; a write to p0 is discarded (R165, R252). -/
def Thread.setPred (t : Thread) (p : PReg) (b : Bool) : Thread :=
  if p == 0 then t
  else { t with preds := (t.preds &&& ~~~(1#8 <<< p.toNat)) ||| (if b then 1#8 <<< p.toNat else 0#8) }
/-- The thread on a lane of a warp. -/
def Warp.thread? (w : Warp) (lane : Nat) : Option Thread := w.threads.find? fun t => t.lane == lane
/-- Threads changed by lane. -/
def Warp.mapThreads (w : Warp) (f : Thread → Thread) : Warp := { w with threads := w.threads.map f }
/-- A warp with no thread left. -/
def Warp.exited (w : Warp) : Bool := w.threads.all fun t => !t.alive
/-- Every warp of a team has exited. -/
def Team.exited (tm : Team) : Bool := tm.warps.all Warp.exited

/-! ## Records -/

/-- A completion record joins the records waiting for a ring (R88, R89). -/
def State.pushRec (s : State) (ring : Nat) (r : CRec) : State :=
  s.modQueue ring fun q => { q with waiting := q.waiting ++ [r] }

/-- A packet is no longer outstanding in its queue (R80). -/
def State.closePacket (s : State) (q : Nat) (index : Word) : State :=
  s.modQueue q fun x => { x with open_ := x.open_.filter fun i => i != index }

/-- The TAG of a packet, header bits [63:32] (R80). -/
def Packet.tag (p : Packet) : Word := BitVec.ofNat 32 (leNat ((p.bytes.drop 4).take 4))
/-- The low 32 bits of a packet's header (R80). -/
def Packet.head (p : Packet) : Nat := leNat (p.bytes.take 4)
/-- CPL of a packet (R80). -/
def Packet.cpl (p : Packet) : Bool := p.head.testBit 8
/-- A field of n bytes at a byte offset of a packet. -/
def Packet.field (p : Packet) (off n : Nat) : Nat := leNat ((p.bytes.drop off).take n)

/-- A started packet completes with a status and a payload: a record of KIND 1 when it asks for one or has failed, and it
is complete when that record is written (R80, R88, R89). -/
def State.complete (s : State) (q : Nat) (p : Packet) (status : BitVec 8) (payload : BitVec 128) : State :=
  if p.cpl || status != Status.ok then
    s.pushRec q { kind := 1, status := status, queue := BitVec.ofNat 10 q, tag := p.tag, userTag := 0, index := p.index
                  payload := payload, pkt := some (q, p.index.toNat) }
  else s.closePacket q p.index

/-- A handler record joins the records waiting for a context's handler queue, with the queue's next FAULT_SEQ (R120). -/
def State.pushHandler (s : State) (c : Nat) (r : HRec) : State :=
  s.modCtx c fun x => { x with hqWaiting := x.hqWaiting ++ [{ r with seq := x.faultSeq }], faultSeq := x.faultSeq + 1 }

/-! ## Taking a stopping fault -/

/-- A BUSY bounce channel of a root that is halted, frozen or revoked enters RESYNC (R133). -/
def State.resyncBounce (s : State) (c : Nat) : State :=
  s.modCtx c fun x => { x with bounce := x.bounce.map fun p => (p.1, if p.2.state == 1 then { p.2 with state := 2 } else p.2) }

/-- One of two faults of the same clock goes first: the lowest ENGINE_ID, then UNIT, then WARP (R189). -/
def StopRec.before (a b : StopRec) : Bool :=
  a.engine.ult b.engine || (a.engine == b.engine && (a.unit.ult b.unit || (a.unit == b.unit && a.warp.ult b.warp)))

/-- The halt of a context with one stop record more (R186, R189): the first fault, and of those of one clock the one that goes before the
others, gives the handler record's cause, program counter, address and tag; REMOTE_PIN_MISS makes the halt fatal (R39). -/
def haltWith (h : Option Halt) (r : StopRec) (toRoot : Bool) (team : Option Nat) (clock : Nat) : Halt :=
  let first (fatal : Bool) (recs : List StopRec) : Halt :=
    { cause := r.cause, fatal := fatal || r.cause == Cause.remotePinMiss, recs := r :: recs, toRoot := toRoot, team := team
      pc := r.pcOrOp, addr := r.addr, userTag := r.userTag, clock := clock }
  match h with
  | none => first false []
  | some h =>
    if h.saved then h
    else if h.clock = clock && (match h.recs with | p :: _ => r.before p | [] => false) then first h.fatal h.recs
    else { h with recs := h.recs ++ [r], fatal := h.fatal || r.cause == Cause.remotePinMiss }

/-- A stopping fault raises the halt line of a context (R186): the stop record joins the halt's records. -/
def State.raiseHalt (s : State) (c : Nat) (r : StopRec) (toRoot : Bool) (team : Option Nat) : State :=
  (s.modCtx c fun x => { x with halt := some (haltWith x.halt { r with ctx := BitVec.ofNat 16 c } toRoot team s.steps) }).resyncBounce c

/-- A context stopped for good by REVOKE or DESTROY: its engines stop, nothing is saved and no handler record is written (R113,
R126). A halt by a stopping fault keeps its cause. -/
def State.stopForGood (s : State) (c : Nat) : State :=
  (s.modCtx c fun x => { x with halt := some (match x.halt with
    | none => { cause := Cause.halted, fatal := false, tamper := true, saved := true }
    | some h => { h with tamper := true, saved := true }) }).resyncBounce c

/-- An integrity failure counted in SEC_EVENT (R128, R135). -/
def State.countIntegrity (s : State) : State :=
  { s with cfg := { s.cfg with sec := { s.cfg.sec with
      integrity := true, intCount := if s.cfg.sec.intCount = 255 then 255 else s.cfg.sec.intCount + 1 } } }

/-- A failure of data at their home, counted where a tag failed (R69, R128). -/
def State.countFailure (s : State) (cause : BitVec 8) : State := if cause = Cause.cipherIntegrity then s.countIntegrity else s

/-- The failure of a remote access's data at its home that an answer reports (R69, R128, R130). -/
def answerFailure (e : HomeEvent) : Option (BitVec 8) :=
  match e with
  | .uncorrectable => some Cause.eccUncorrectable
  | .tampered | .networkTag => some Cause.cipherIntegrity
  | _ => none

/-- The failure that the data of a range of another device's memory meet at their home, by fabric address, as the event at hand says. -/
def State.farFails (s : State) (a n : Nat) : Option (BitVec 8) :=
  (wordsOf a n).findSome? fun w => (Table.find w s.input.farHits).bind answerFailure

/-- A fabric address (R31). -/
def fabricAddr (dev : BitVec 12) (a : Nat) : DWord := BitVec.ofNat 64 (dev.toNat * 0x100000000000 + a)

/-- OSF_ERR of a context records a miss, or OVERFLOW (R40). -/
def State.recordOsf (s : State) (c : Nat) (peer : BitVec 12) (target : Bool) (kind : BitVec 2) (a : Nat) : State :=
  s.modCtx c fun x =>
    if x.osfErr.valid then { x with osfErr := { x.osfErr with overflow := true } }
    else { x with osfErr := { x.osfErr with peer := peer, isTarget := target, kind := kind, valid := true, localAddr := BitVec.ofNat 44 a } }

/-- Whether a context is halted, so that nothing of it issues (R186, R187). -/
def State.isHalted (s : State) (c : Nat) : Bool := (s.ctx c).halt.isSome
/-- Whether a freeze flag of a context is set (R111). -/
def State.isFrozen (s : State) (c : Nat) : Bool := (s.ctx c).freeze != 0

/-! ## The warp at issue -/

/-- The warp at issue with everything that surrounds it. -/
structure Focus where
  s      : State
  /-- the team's number and record -/
  tid    : Nat
  tm     : Team
  /-- the warp's number and record -/
  wn     : Nat
  wp     : Warp
  /-- the active lanes, ascending, and their code offset -/
  active : List Nat
  pc     : Word
  /-- the kernel and the context -/
  k      : Kernel
  ctx    : Nat

/-- The warp at issue, if there is one. -/
def State.focus? (s : State) : Option Focus :=
  match s.issue with
  | none => none
  | some i =>
    match s.team? i.team with
    | none => none
    | some tm => some { s := s, tid := i.team, tm := tm, wn := i.warp, wp := tm.warp i.warp, active := i.active, pc := i.pc
                        k := s.kernelOf tm, ctx := s.ctxOf tm }

/-- The state with the focus' warp and team put back. -/
def Focus.close (f : Focus) : State := f.s.setTeam f.tid (f.tm.setWarp f.wn f.wp)

/-- The focus with another warp record. -/
def Focus.withWarp (f : Focus) (w : Warp) : Focus := { f with wp := w }

/-- The threads that take part: the active ones whose guard is 1, in ascending lane order (R246, R264). -/
def Focus.takers (f : Focus) (g : PReg) : List Nat :=
  f.active.filter fun l => match f.wp.thread? l with
    | some t => t.pred g
    | none => false

/-- A core stop record (R191). -/
def Focus.stopRec (f : Focus) (cause : BitVec 8) (precise : Bool) (addr : DWord) (mask : BitVec 16) : StopRec :=
  { engine := 0, cause := cause, precise := precise, unit := BitVec.ofNat 16 f.wp.core, warp := BitVec.ofNat 16 f.wn
    team := BitVec.ofNat 32 f.tm.index, userTag := f.wp.userTag, pcOrOp := f.pc.setWidth 64, addr := addr, byteMask := mask }

/-- Taking a precise stopping fault of the warp at issue: the instruction has no effect, the saved program counters stay
those of the instruction, and the context's halt line is raised (R165, R184 to R186). -/
def Focus.stop (f : Focus) (cause : BitVec 8) : State :=
  f.close.raiseHalt f.ctx (f.stopRec cause true 0 0) false (some f.tid)

/-- The same for a fault of the probe stage, with its address, the bytes of a watch range struck, and whether a world rule
refused it (R122, R184, R191). -/
def Focus.stopAt (f : Focus) (cause : BitVec 8) (addr : DWord) (mask : BitVec 16) (toRoot : Bool) : State :=
  f.close.raiseHalt f.ctx (f.stopRec cause true addr mask) toRoot (some f.tid)

/-- Taking a recoverable page miss of the warp at issue: the instruction has no effect, the team stops at once to be swapped
out, and its record will go to the context whose stage missed; of warps that miss in one issue the lowest-numbered is reported (R99,
R148, R151, R248). -/
def Focus.pageMiss (f : Focus) (m : Miss) : State :=
  let r : HRec :=
    { kind := 1, cause := Cause.pageMiss, stage := (f.s.ctx m.ctx).level, userTag := f.wp.userTag, ctx := BitVec.ofNat 16 m.ctx
      origin := BitVec.ofNat 16 f.ctx, seq := 0, addr := BitVec.ofNat 64 m.addr, image := 0, pc := f.pc.setWidth 64
      team := BitVec.ofNat 32 f.tm.index }
  if f.tm.ask == .fault && decide (f.tm.faultWarp ≤ f.wn) then f.close
  else { f with tm := { f.tm with ask := .fault, place := .stopping Cause.pageMiss, fault := some r, faultWarp := f.wn } }.close

/-- The return from a recoverable fault: the saved team may re-enter (R86, R99). -/
def State.returnTeam (s : State) (t : Nat) : State :=
  { s with stamp := s.stamp + 1 }.modTeam t fun tm =>
    match tm.place with
    | .saved pos bytes _ _ => { tm with place := .saved pos bytes true s.stamp, fault := none }
    | _ => { tm with fault := none }

/-- The return from a halt: the halt line is lowered and every saved team of the context that waits for no FAULT_DONE may
re-enter (R112, R192, R203). -/
def State.returnContext (s : State) (c : Nat) : State :=
  let s1 := s.modCtx c fun x => { x with halt := none }
  let mine := s1.teams.filter fun p => s1.ctxOf p.2 == c && p.2.fault.isNone
  mine.foldl (fun st p => st.returnTeam p.1) s1

/-! ## The accounting of an issue -/

/-- One thread after an issue: an active one goes to the next instruction and its PASSED returns to 0, an eligible one that is
not active is passed over once more (R147). -/
def Thread.afterIssue (active : List Nat) (pc : Word) (t : Thread) : Thread :=
  if active.contains t.lane then { t with pc := pc + 4, passed := 0 }
  else if t.eligible then { t with passed := t.passed + 1 }
  else t

/-- The lane mask of a list of lanes. -/
def laneMask (lanes : List Nat) : LaneMask := lanes.foldl (fun m l => m ||| (1#64 <<< l)) 0

/-- The focus after its instruction has issued: ISSUE_COUNT up, PLY_LEFT down, threads advanced, SKIP_WATCH clear
(R147, R195, R208). -/
def Focus.commit (f : Focus) : Focus :=
  { f with
    s := { f.s with stamp := f.s.stamp + 1, freeCtr := f.s.freeCtr + 1 }
    wp := { f.wp with
      issues := f.wp.issues + 1, plyLeft := f.wp.plyLeft - 1, active := laneMask f.active, lastIssue := f.s.stamp
      overlooked := 0, hold := none, skipWatch := false, lastSpt := none
      threads := f.wp.threads.map (Thread.afterIssue f.active f.pc) } }

/-- The warp waits before its instruction issues (R161, R170, R172, R308). -/
def Focus.park (f : Focus) (h : Hold) : State := (f.withWarp { f.wp with hold := some h }).close

/-- Variable-latency results outstanding: those of a `tst` do not count (R170). -/
def Warp.outstanding (w : Warp) : Bool := w.pend.any fun p => p.tok.isNone

/-- An access that is not yet performed, among requests below a number (R308, R315). -/
def Warp.waitsPerf (w : Warp) (upto : Nat) : Bool := w.mem.any fun r => decide (r.id < upto)

/-- An earlier load or atomic that has not returned (R315). -/
def Warp.waitsRet (w : Warp) (upto : Nat) : Bool :=
  (w.mem.any fun r => decide (r.id < upto) && r.kind != .store)
    || w.pend.any fun p => match p.req with | some n => decide (n < upto) | none => false

/-- A request of order acq or sc that still holds back later memory instructions: its own data have not returned, or its sc
store is not yet performed (R308, R217). -/
def Warp.waitsAcquire (w : Warp) : Bool :=
  (w.mem.any fun r => r.order == .sc || (r.order == .acq && r.kind != .store)) || w.pend.any Pend.acq

/-- Later memory instructions of the warp are held back (R308, R315). -/
def Warp.memHeld (w : Warp) : Bool :=
  w.waitsAcquire || (w.fence.perf && w.waitsPerf w.fence.upto) || (w.fence.ret && w.waitsRet w.fence.upto)

/-- Stores and atomics are still queued (R348). -/
def Warp.storesQueued (w : Warp) : Bool := w.mem.any fun r => r.kind != .load

/-- Every earlier access of the warp is performed (R224). -/
def Warp.quiet (w : Warp) : Bool := w.mem.isEmpty

/-- A target in scratchpad. -/
def Target.isSpm (t : Target) : Bool :=
  match t with
  | .spm _ => true
  | _ => false

/-- Stores and atomics to scratchpad are still queued (R180). -/
def Warp.spmQueued (w : Warp) : Bool := w.mem.any fun r => r.kind != .load && r.units.any fun u => !u.done && u.tgt.isSpm

/-- The lanes a unit serves. -/
def MemUnit.lanes (u : MemUnit) : List Nat := if u.ops.isEmpty then [u.lane] else u.ops.map Prod.fst

/-- The lanes of a request that are not performed. -/
def MemReq.lanes (r : MemReq) : List Nat := (r.units.filter fun u => !u.done).flatMap MemUnit.lanes

/-- Requests of a warp not yet performed, or performed and not yet returned: one for each thread's load, store or atomic
(R210, R310). A uniform access counts as one. -/
def Warp.requests (w : Warp) : Nat :=
  let queued (n : Nat) : List Nat := (w.mem.filter fun r => r.id = n).flatMap MemReq.lanes
  let back (n : Nat) : List Nat := (w.pend.filter fun p => p.req = some n).flatMap fun p => p.cells.map fun c => if c.uni then 64 else c.lane
  let uni (n : Nat) : Bool := w.pend.any fun p => p.req = some n && p.cells.any PendCell.uni
  let ids := (w.mem.map MemReq.id ++ w.pend.filterMap Pend.req).eraseDups
  (ids.map fun n => if uni n then 1 else (queued n ++ back n).eraseDups.length).sum

/-- Memory requests of a core not yet performed or returned (R310). -/
def State.coreRequests (s : State) (core : Nat) : Nat :=
  s.teams.foldl (fun n p => p.2.warps.foldl (fun m w => if w.core = core then m + w.requests else m) n) 0

/-- Every register an instruction names exists: vector registers below ALLOC_PAGES × 32, tiles below TILES, accumulators
below ACCS (R165, R167; check 6 of R253). -/
def Focus.regsOk (f : Focus) (uses : List RegUse) : Bool :=
  uses.all fun u => match u.cls with
    | .v => decide (f.wp.window * 8 + u.first.toNat + u.count ≤ f.wp.pages * 32)
    | .s => decide (u.first.toNat + u.count ≤ 128)
    | .t => decide (u.first.toNat + u.count ≤ f.k.tiles)
    | .a => decide (u.first.toNat + u.count ≤ f.k.accs)

/-- Whether an instruction is `spt`, which issues with PLY_LEFT 0 (R195). -/
def isSpt : Instr → Bool
  | .spt _ _ => true
  | _ => false

/-- The issue of an instruction of the core. In order: the waits that come before an issue (a switch marker, and what `hold`
names), the decode checks and REG_RANGE (R253), SAFEPOINT_DISTANCE (R195), the faults of the instruction itself and of its
probe (`own`), then the accounting of the issue and the effect, which sees the focus before and after that accounting. -/
def coreIssue (i : Instr) (mark : Bool) (g : PReg) (hold : Focus → List Nat → Option Hold)
    (own : Focus → List Nat → Option State) (eff : Focus → List Nat → Focus → State) (s : State) :
    Host.Outcome State Fault Refusal :=
  match s.focus? with
  | none => .refused .noWarpAtIssue
  | some f =>
    if mark && f.wp.outstanding then .next (f.park .marker)
    else match hold f (f.takers g) with
      | some h => .next (f.park h)
      | none =>
        if !i.wellFormed then .next (f.stop Cause.illegalInstruction)
        else if !f.regsOk i.uses then .next (f.stop Cause.regRange)
        else if f.wp.plyLeft == 0 && !isSpt i then .next (f.stop Cause.safepointDistance)
        else match own f (f.takers g) with
          | some t => .next t
          | none => .next (eff f (f.takers g) f.commit)

/-- No wait before the issue but the switch marker. -/
def noHold (_ : Focus) (_ : List Nat) : Option Hold := none
/-- No fault of the instruction's own. -/
def noFault (_ : Focus) (_ : List Nat) : Option State := none

/-- The issue of an instruction that only changes registers of its warp: the new warp record is computed from the focus
before the issue, the threads that take part, and the warp after the accounting (R264). -/
def regIssue (i : Instr) (mark : Bool) (g : PReg) (upd : Focus → List Nat → Warp → Warp) (s : State) :
    Host.Outcome State Fault Refusal :=
  coreIssue i mark g noHold noFault (fun f part c => (c.withWarp (upd f part c.wp)).close) s

end Sys2Proof.Machine
end

