-- ==== Sys2Proof/Machine/Operands.lean ====
section
/-! DEFINITION. Reading and writing register operands: vector registers through the window, uniform registers, pairs, quads
and octets, predicates, immediates; the value of a register whose result is outstanding is a free choice (R165 to R171,
R264, R266, R280). -/

namespace Sys2Proof.Machine

/-- A number that tells apart the reads of one issue: the operand's position, the reader's lane and the register (R171). -/
def readSalt (pos lane reg : Nat) : Nat := pos * 0x100000 + lane * 0x4000 + reg

/-- The value of a register while results for it are outstanding: for each known result, the value before it or the
result, by a free choice of each read (R171). -/
def pendChoice (ctr salt : Nat) (uni : Bool) (lane reg : Nat) : List Pend → Nat → Word → Word
  | [], _, old => old
  | p :: rest, n, old =>
    let now := match p.cells.find? fun c => c.uni == uni && c.reg == reg && (uni || c.lane == lane) with
      | none => old
      | some c => match c.val with
        | none => old
        | some v => if v = old then old else if Config.pick ctr (salt + 0x10000000 * n) then v else old
    pendChoice ctr salt uni lane reg rest (n + 1) now

/-- The allocated index of a vector name (R167). -/
def Warp.vIndex (w : Warp) (r : Nat) : Nat := w.window * 8 + r

/-- The stored value of an allocated vector register of a lane's thread; 0 where no thread is. -/
def Warp.vRaw (w : Warp) (lane idx : Nat) : Word :=
  match w.thread? lane with
  | some t => Sparse.get 0 idx t.regs
  | none => 0

/-- The stored value of a uniform register. -/
def Warp.uRaw (w : Warp) (r : Nat) : Word := Sparse.get 0 r w.uni

/-- The value that a read of vector register r in a lane yields, as operand number `pos` (R167, R171). -/
def Focus.v (f : Focus) (pos lane r : Nat) : Word :=
  let idx := f.wp.vIndex r
  pendChoice f.s.freeCtr (readSalt pos lane idx) false lane idx f.wp.pend 0 (f.wp.vRaw lane idx)

/-- The value that a read of uniform register r yields (R171). -/
def Focus.u (f : Focus) (pos r : Nat) : Word :=
  pendChoice f.s.freeCtr (readSalt pos 64 r) true 0 r f.wp.pend 0 (f.wp.uRaw r)

/-- A pair of vector registers (R166). -/
def Focus.v2 (f : Focus) (pos lane r : Nat) : DWord := pairOf (f.v pos lane r) (f.v pos lane (r + 1))

/-- A pair of uniform registers (R166). -/
def Focus.u2 (f : Focus) (pos r : Nat) : DWord := pairOf (f.u pos r) (f.u pos (r + 1))

/-- A later write to a register marks its outstanding results: either value may stand at the end (R171). -/
def Pend.overwrite (lanes : List Nat) (uni : Bool) (reg : Nat) (p : Pend) : Pend :=
  { p with cells := p.cells.map fun c =>
      if c.uni == uni && c.reg == reg && (uni || lanes.contains c.lane) then { c with rewritten := true } else c }

/-- Writing vector register r (a name in the window in force) of the given lanes (R167, R264). -/
def Warp.setV (w : Warp) (lanes : List Nat) (r : Nat) (val : Nat → Word) : Warp :=
  let idx := w.vIndex r
  { w with
    threads := w.threads.map fun t => if lanes.contains t.lane then { t with regs := Sparse.set 0 idx (val t.lane) t.regs } else t
    pend := w.pend.map (Pend.overwrite lanes false idx) }

/-- Writing a vector pair (R166). -/
def Warp.setV2 (w : Warp) (lanes : List Nat) (r : Nat) (val : Nat → DWord) : Warp :=
  (w.setV lanes r fun l => loHalf (val l)).setV lanes (r + 1) fun l => hiHalf (val l)

/-- Writing a vector quad (R166). -/
def Warp.setV4 (w : Warp) (lanes : List Nat) (r : Nat) (val : Nat → Nat → Word) : Warp :=
  (((w.setV lanes r fun l => val l 0).setV lanes (r + 1) fun l => val l 1).setV lanes (r + 2) fun l => val l 2).setV lanes
    (r + 3) fun l => val l 3

/-- Writing a uniform register (R264). -/
def Warp.setU (w : Warp) (r : Nat) (x : Word) : Warp :=
  { w with uni := Sparse.set 0 r x w.uni, pend := w.pend.map (Pend.overwrite [] true r) }

/-- Writing a uniform pair (R166). -/
def Warp.setU2 (w : Warp) (r : Nat) (x : DWord) : Warp := (w.setU r (loHalf x)).setU (r + 1) (hiHalf x)

/-- Writing a predicate of the given lanes (R264, R277). -/
def Warp.setP (w : Warp) (lanes : List Nat) (p : PReg) (val : Nat → Bool) : Warp :=
  w.mapThreads fun t => if lanes.contains t.lane then t.setPred p (val t.lane) else t

/-- Writing a predicate of every thread of the warp that has not exited (R279). -/
def Warp.setPAll (w : Warp) (p : PReg) (b : Bool) : Warp :=
  w.mapThreads fun t => if t.alive then t.setPred p b else t

/-- A predicate of the thread on a lane. -/
def Focus.p (f : Focus) (lane : Nat) (p : PReg) : Bool :=
  match f.wp.thread? lane with
  | some t => t.pred p
  | none => false

/-- A signed 7-bit immediate as a word (R247, R272). -/
def imm7 (i : BitVec 7) : Word := i.signExtend 32

/-- The lil forms: the 17-bit immediate sign-extended (R280). -/
def immLow (i : BitVec 17) : Word := i.signExtend 32

/-- The lih forms: bits [31:15] from the immediate, bits [14:0] as they stood (R280). -/
def immHigh (i : BitVec 17) (old : Word) : Word := i ++ old.extractLsb' 0 15

/-- The target of a branch: the instruction's own offset plus four times its signed offset, modulo 2^32 (R282). -/
def branchTarget (pc : Word) (o : BitVec 21) : Word := pc + (o.signExtend 32 <<< 2)

/-! ## Shapes of register instructions -/

/-- A vector result from each taking lane's own values (R264, R265). -/
def vecIssue (i : Instr) (h : Hdr) (d : Reg) (val : Focus → Nat → Word) (s : State) : Host.Outcome State Fault Refusal :=
  regIssue i h.s h.g (fun f part w => w.setV part d.toNat (val f)) s

/-- A vector pair result. -/
def vecIssue2 (i : Instr) (h : Hdr) (d : Reg) (val : Focus → Nat → DWord) (s : State) : Host.Outcome State Fault Refusal :=
  regIssue i h.s h.g (fun f part w => w.setV2 part d.toNat (val f)) s

/-- A vector quad result, element by element. -/
def vecIssue4 (i : Instr) (h : Hdr) (d : Reg) (val : Focus → Nat → Nat → Word) (s : State) : Host.Outcome State Fault Refusal :=
  regIssue i h.s h.g (fun f part w => w.setV4 part d.toNat (val f)) s

/-- A predicate result in each taking lane. -/
def predIssue (i : Instr) (h : Hdr) (p : PReg) (val : Focus → Nat → Bool) (s : State) : Host.Outcome State Fault Refusal :=
  regIssue i h.s h.g (fun f part w => w.setP part p (val f)) s

/-- A uniform result, written once when at least one thread takes part (R264). -/
def uniIssue (i : Instr) (h : Hdr) (d : Reg) (val : Focus → List Nat → Word) (s : State) : Host.Outcome State Fault Refusal :=
  regIssue i h.s h.g (fun f part w => if part.isEmpty then w else w.setU d.toNat (val f part)) s

/-- A uniform pair result. -/
def uniIssue2 (i : Instr) (h : Hdr) (d : Reg) (val : Focus → List Nat → DWord) (s : State) : Host.Outcome State Fault Refusal :=
  regIssue i h.s h.g (fun f part w => if part.isEmpty then w else w.setU2 d.toNat (val f part)) s

end Sys2Proof.Machine
end

