-- ==== Sys2Proof/Machine/Flags.lean ====
section
/-! DEFINITION. The conditions of the compares. The IL9 has no flag register: compares write predicates (R252, R271, R290). -/

namespace Sys2Proof.Machine

/-- An integer condition on two words (R252, R271). -/
def iHolds (c : ICond) (a b : Word) : Bool :=
  match c with
  | .eq => a == b
  | .ne => a != b
  | .ltI => a.slt b
  | .leI => a.sle b
  | .gtI => b.slt a
  | .geI => b.sle a
  | .ltN => a.ult b
  | .leN => a.ule b
  | .gtN => b.ult a
  | .geN => b.ule a

/-- How two floating values compare: less, equal or greater, or unordered. -/
inductive FOrder where
  | lt | eq | gt | un
deriving DecidableEq, Repr

/-- A floating condition on the order of two values (R252). -/
def fHolds (c : FCond) (o : FOrder) : Bool :=
  match c, o with
  | .oeq, o => o == .eq
  | .one, o => o == .lt || o == .gt
  | .olt, o => o == .lt
  | .ole, o => o == .lt || o == .eq
  | .ogt, o => o == .gt
  | .oge, o => o == .gt || o == .eq
  | .ord, o => o != .un
  | .uno, o => o == .un
  | .ueq, o => o == .eq || o == .un
  | .une, o => o != .eq
  | .ult, o => o == .lt || o == .un
  | .ule, o => o != .gt
  | .ugt, o => o == .gt || o == .un
  | .uge, o => o != .lt

end Sys2Proof.Machine
end

