-- ==== Sys2Proof/Machine/Alu.lean ====
section
/-! DEFINITION. The integer computations of the vector and uniform instructions on words (R264 to R269, R274). -/

namespace Sys2Proof.Machine

/-- `imulh.i`: bits [63:32] of the signed product (R265). -/
def mulHighS (a b : Word) : Word := BitVec.ofInt 32 ((a.toInt * b.toInt) / 0x100000000)

/-- `imulh.n`: bits [63:32] of the unsigned product (R265). -/
def mulHighN (a b : Word) : Word := BitVec.ofNat 32 (a.toNat * b.toNat / 0x100000000)

/-- `imulw.n`: the whole unsigned product (R265). -/
def mulWideN (a b : Word) : DWord := BitVec.ofNat 64 (a.toNat * b.toNat)

/-- `ishl`: a count of 32 or more gives 0 (R266). -/
def shlWord (a count : Word) : Word := if count.toNat ≥ 32 then 0 else a <<< count.toNat

/-- `ishr`: zeros enter (R266). -/
def shrWord (a count : Word) : Word := if count.toNat ≥ 32 then 0 else a >>> count.toNat

/-- `isar`: copies of bit 31 enter (R266). -/
def sarWord (a count : Word) : Word :=
  if count.toNat ≥ 32 then (if a.getLsbD 31 then 0xFFFFFFFF else 0) else a.sshiftRight count.toNat

/-- The carry-less product, bit by bit (R267). -/
def clmulFrom (a b : Word) : Nat → DWord
  | 0 => 0
  | n + 1 => clmulFrom a b n ^^^ (if b.getLsbD n then a.setWidth 64 <<< n else 0)

/-- The 64-bit carry-less product (R267). -/
def clmulWide (a b : Word) : DWord := clmulFrom a b 32

/-- pos of a bit-field instruction (R268). -/
def fieldPos (b : Word) : Nat := (b.extractLsb' 0 8).toNat
/-- len of a bit-field instruction, above 32 taken as 32 (R268). -/
def fieldLen (b : Word) : Nat := min 32 (b.extractLsb' 8 8).toNat
/-- The low len bits. -/
def lowMask (len : Nat) : Word := BitVec.ofNat 32 (2 ^ len - 1)

/-- `bfe.n` (R268). -/
def bfeN (a b : Word) : Word := (if fieldPos b ≥ 32 then 0 else a >>> fieldPos b) &&& lowMask (fieldLen b)

/-- `bfe.i` (R268). -/
def bfeI (a b : Word) : Word :=
  let len := fieldLen b
  let f := a.sshiftRight (fieldPos b) &&& lowMask len
  if len = 0 then 0 else if f.getLsbD (len - 1) then f ||| ~~~(lowMask len) else f

/-- `bfi` (R268). -/
def bfiWord (d a b : Word) : Word :=
  let m : Word := if fieldPos b ≥ 32 then 0 else lowMask (fieldLen b) <<< fieldPos b
  let x : Word := if fieldPos b ≥ 32 then 0 else a <<< fieldPos b
  (d &&& ~~~m) ||| (x &&& m)

/-- One byte of `perm` from its nibble (R269). -/
def permByte (a : Word) (n : Nat) : Byte :=
  if n < 4 then a.extractLsb' (8 * n) 8
  else if n < 8 then (if a.getLsbD (8 * (n - 4) + 7) then 0xFF else 0)
  else 0

/-- `perm` (R269). -/
def permWord (a b : Word) : Word :=
  permByte a (b.extractLsb' 12 4).toNat ++ permByte a (b.extractLsb' 8 4).toNat
    ++ permByte a (b.extractLsb' 4 4).toNat ++ permByte a (b.extractLsb' 0 4).toNat

/-- `imin.i` and `imax.i` (R265). -/
def minS (a b : Word) : Word := if b.slt a then b else a
def maxS (a b : Word) : Word := if a.slt b then b else a
/-- `imin.n` and `imax.n` (R265). -/
def minN (a b : Word) : Word := if b.ult a then b else a
def maxN (a b : Word) : Word := if a.ult b then b else a

/-- `popc`: the 1 bits below bit n (R274). -/
def popFrom (a : Word) : Nat → Nat
  | 0 => 0
  | n + 1 => popFrom a n + (if a.getLsbD n then 1 else 0)

/-- `popc` (R274). -/
def popcWord (a : Word) : Word := BitVec.ofNat 32 (popFrom a 32)

/-- `clz` (R274). -/
def clzWord (a : Word) : Word := if a = 0 then 32 else BitVec.ofNat 32 (31 - a.toNat.log2)

/-- `brev` (R274). -/
def brevFrom (a : Word) : Nat → Nat
  | 0 => 0
  | n + 1 => brevFrom a n + (if a.getLsbD n then 2 ^ (31 - n) else 0)

/-- `brev` (R274). -/
def brevWord (a : Word) : Word := BitVec.ofNat 32 (brevFrom a 32)

/-- `iabs`: 0x8000_0000 gives itself (R274). -/
def absWord (a : Word) : Word := if a.getLsbD 31 then 0 - a else a

end Sys2Proof.Machine
end

