-- ==== Sys2Proof/Machine/FloatVal.lean ====
section
/-! DEFINITION. The number formats and their exact values (R226 to R235), and the three roundings (R236 to R238). -/

namespace Sys2Proof.Machine

/-- What a code of a format stands for: a NaN, an infinity with its sign, or the exact finite value
(−1)^neg × m × 2^e, zero of either sign among them (R227, R228). -/
inductive FVal where
  | nan
  | inf (neg : Bool)
  | fin (neg : Bool) (m : Nat) (e : Int)
deriving DecidableEq, Repr

/-- What an all-ones exponent means, or what stands above the largest finite code (R226, R228). -/
inductive FTop where
  /-- infinity and NaNs, as IEEE 754 -/
  | ieee
  /-- the one code above the largest finite one is a NaN -/
  | nanOnly
  /-- every code is finite -/
  | none
deriving DecidableEq, Repr

/-- One floating format: code bits without the sign, fraction bits, bias, and the meaning of the top codes (R226). -/
structure Fmt where
  width : Nat
  frac : Nat
  bias : Nat
  top  : FTop
  /-- results above the largest finite value saturate (R236) -/
  sat  : Bool
  /-- largest finite magnitude code -/
  maxCode : Nat
  /-- canonical NaN (R234) -/
  cnan : Nat
deriving DecidableEq, Repr

/-- FP32 (R226). -/
def Fmt.f32 : Fmt := ⟨31, 23, 127, .ieee, false, 0x7F7FFFFF, 0x7FC00000⟩
/-- BF16 (R226). -/
def Fmt.bf16 : Fmt := ⟨15, 7, 127, .ieee, false, 0x7F7F, 0x7FC0⟩
/-- FP16 (R226). -/
def Fmt.f16 : Fmt := ⟨15, 10, 15, .ieee, false, 0x7BFF, 0x7E00⟩
/-- E4M3 (R226, R228). -/
def Fmt.e4m3 : Fmt := ⟨7, 3, 7, .nanOnly, true, 0x7E, 0x7F⟩
/-- E5M2 (R226, R228). -/
def Fmt.e5m2 : Fmt := ⟨7, 2, 15, .ieee, true, 0x7B, 0x7E⟩
/-- E2M1: a NaN written becomes 0 (R226, R229, R234). -/
def Fmt.e2m1 : Fmt := ⟨3, 1, 1, .none, true, 7, 0⟩

/-- Exponent of the unit of the smallest subnormal. -/
def Fmt.ulow (f : Fmt) : Int := 1 - (f.bias : Int) - (f.frac : Int)

/-- The value of a magnitude code (R227). -/
def Fmt.magOf (f : Fmt) (neg : Bool) (c : Nat) : FVal :=
  let e := c / 2 ^ f.frac
  if e = 0 then .fin neg c f.ulow
  else .fin neg (2 ^ f.frac + c % 2 ^ f.frac) (f.ulow + ((e : Int) - 1))

/-- The value of a code (R227, R228); the E2M1 code of negative zero reads as +0 (R229). -/
def Fmt.value (f : Fmt) (code : Nat) : FVal :=
  let neg := code.testBit f.width
  let c := code % 2 ^ f.width
  match f.top with
  | .ieee => if c ≤ f.maxCode then f.magOf neg c else if c % 2 ^ f.frac = 0 then .inf neg else .nan
  | .nanOnly => if c ≤ f.maxCode then f.magOf neg c else .nan
  | .none => f.magOf (neg && c != 0) c

/-- An E3M5 scale: unsigned (R227, R230). -/
def scaleE3M5 (c : Nat) : FVal :=
  if c / 32 = 0 then .fin false (c % 32) (-8) else .fin false (32 + c % 32) ((c / 32 : Nat) - 4 - 5 : Int)

/-- An E8M0 scale: a power of two; 0xFF reads as 2^127 (R230). -/
def scaleE8M0 (c : Nat) : FVal := .fin false 1 ((min c 254 : Nat) - 127 : Int)

/-- The sign bit placed before a magnitude code. -/
def Fmt.signed (f : Fmt) (neg : Bool) (c : Nat) : Nat := (if neg then 2 ^ f.width else 0) + c

/-- Zero of a sign; E2M1 writes +0 (R229). -/
def Fmt.zero (f : Fmt) (neg : Bool) : Nat := if f.top = .none then 0 else f.signed neg 0

/-- What an infinite result becomes under a rounding to nearest (R236). -/
def Fmt.over (f : Fmt) (neg : Bool) : Nat := f.signed neg (if f.sat then f.maxCode else f.maxCode + 1)

/-- The exponent of the unit in the last place of a format at a magnitude m × 2^e with m > 0. -/
def Fmt.ulpExp (f : Fmt) (m : Nat) (e : Int) : Int := max ((m.log2 : Int) + e - (f.frac : Int)) f.ulow

/-- m × 2^e divided by 2^u: the whole part, twice the remainder compared with the unit (0 below a half, 1 a half, 2 above),
and whether a remainder is left. -/
def scaled (m : Nat) (e u : Int) : Nat × Nat × Bool :=
  if e ≥ u then (m <<< (e - u).toNat, 0, false)
  else
    let k := (u - e).toNat
    let q := m >>> k
    let r := m - (q <<< k)
    (q, if 2 * r < 2 ^ k then 0 else if 2 * r = 2 ^ k then 1 else 2, r != 0)

/-- The magnitude code of q units of 2^u, u being at least the smallest unit. -/
def Fmt.codeOf (f : Fmt) (q : Nat) (u : Int) : Nat := (u - f.ulow).toNat * 2 ^ f.frac + q

/-- RN: to nearest, ties to even (R236). -/
def Fmt.rn (f : Fmt) : FVal → Nat
  | .nan => f.cnan
  | .inf neg => f.over neg
  | .fin neg m e =>
    if m = 0 then f.zero neg
    else
      let u := f.ulpExp m e
      let (q, half, _) := scaled m e u
      let q' := if half = 2 || (half = 1 && q % 2 = 1) then q + 1 else q
      if q' = 0 then f.zero neg
      else
        let c := f.codeOf q' u
        if c > f.maxCode then f.over neg else f.signed neg c

/-- RZ of a finite value: the code whose magnitude does not exceed it (R236). -/
def Fmt.rz (f : Fmt) : FVal → Nat
  | .nan => f.cnan
  | .inf neg => f.over neg
  | .fin neg m e =>
    if m = 0 then f.zero neg
    else
      let u := f.ulpExp m e
      let (q, _, _) := scaled m e u
      f.signed neg (min (f.codeOf q u) f.maxCode)

/-- SR of an FP32 value with a random word (R237). -/
def Fmt.sr (f : Fmt) (x : FVal) (r : Nat) : Nat :=
  match x with
  | .nan => f.cnan
  | .inf neg => f.over neg
  | .fin neg m e =>
    if m = 0 then f.zero neg
    else
      let u := f.ulpExp m e
      let v := Fmt.f32.ulpExp m e
      if u ≤ v then f.rn x
      else
        let k := (u - v).toNat
        let units := (scaled m e v).1
        let q := units >>> k
        let g := units - (q <<< k)
        let k' := min k 32
        let g' := g >>> (k - k')
        let q' := if g' + r % 2 ^ k' ≥ 2 ^ k' then q + 1 else q
        if q' = 0 then f.zero neg
        else
          let c := f.codeOf q' u
          if c > f.maxCode then f.over neg else f.signed neg c

/-- mix32 of R238. -/
def mix32 (x : Word) : Word :=
  let a := (x ^^^ (x >>> 16)) * 0x85EBCA6B
  let b := (a ^^^ (a >>> 13)) * 0xC2B2AE35
  b ^^^ (b >>> 16)

/-- The random word of element i (R238). -/
def randomWord (seed ctr : Word) (i : Nat) : Nat :=
  (mix32 (seed ^^^ (ctr + BitVec.ofNat 32 i * 0x9E3779B9))).toNat

/-! ## Exact operations -/

/-- A value with the other sign. -/
def FVal.neg : FVal → FVal
  | .nan => .nan
  | .inf n => .inf (!n)
  | .fin n m e => .fin (!n) m e

/-- The exact product (R235). -/
def FVal.mul : FVal → FVal → FVal
  | .nan, _ => .nan
  | _, .nan => .nan
  | .inf a, .inf b => .inf (a != b)
  | .inf a, .fin b m _ => if m = 0 then .nan else .inf (a != b)
  | .fin a m _, .inf b => if m = 0 then .nan else .inf (a != b)
  | .fin a m e, .fin b n d => .fin (a != b) (m * n) (e + d)

/-- The signed numerator over 2^lo of a finite value, lo being at most its exponent. -/
def numAt (lo : Int) (neg : Bool) (m : Nat) (e : Int) : Int :=
  let x : Int := ((m <<< (e - lo).toNat : Nat) : Int)
  if neg then -x else x

/-- The finite value of a numerator over 2^lo, with the sign a zero takes. -/
def ofNum (lo : Int) (n : Int) (zeroNeg : Bool) : FVal :=
  if n = 0 then .fin zeroNeg 0 lo else .fin (decide (n < 0)) n.natAbs lo

/-- The exact sum of two values; an exact zero is −0 only when both are −0 (R235). -/
def FVal.add : FVal → FVal → FVal
  | .nan, _ => .nan
  | _, .nan => .nan
  | .inf a, .inf b => if a = b then .inf a else .nan
  | .inf a, .fin _ _ _ => .inf a
  | .fin _ _ _, .inf b => .inf b
  | .fin a m e, .fin b n d =>
    let lo := min e d
    ofNum lo (numAt lo a m e + numAt lo b n d) (a && b && m == 0 && n == 0)

/-- The exact sum of a list that is not empty: −0 only when every term is −0 (R235). -/
def FVal.sum : List FVal → FVal
  | [] => .fin false 0 0
  | [x] => x
  | x :: rest => x.add (FVal.sum rest)

/-- An exact zero taken as +0 (R241). -/
def FVal.plusZero : FVal → FVal
  | .fin neg m e => if m = 0 then .fin false 0 e else .fin neg m e
  | x => x

/-- Whether a value is finite. -/
def FVal.finite : FVal → Bool
  | .fin _ _ _ => true
  | _ => false

/-- The order of two values, −0 equal to +0 (R290). -/
def FVal.cmp : FVal → FVal → FOrder
  | .nan, _ => .un
  | _, .nan => .un
  | .inf a, .inf b => if a = b then .eq else if a then .lt else .gt
  | .inf a, .fin _ _ _ => if a then .lt else .gt
  | .fin _ _ _, .inf b => if b then .gt else .lt
  | .fin a m e, .fin b n d =>
    let lo := min e d
    let x := numAt lo a m e
    let y := numAt lo b n d
    if x < y then .lt else if x = y then .eq else .gt

/-- The value of an FP32 register. -/
def f32Of (w : Word) : FVal := Fmt.f32.value w.toNat

/-- A value rounded RN to an FP32 register. -/
def toF32 (x : FVal) : Word := BitVec.ofNat 32 (Fmt.f32.rn x)

/-! ## FP32, packed and complex results (R288 to R294) -/

/-- `fadd` (R288). -/
def faddWord (a b : Word) : Word := toF32 ((f32Of a).add (f32Of b))
/-- `fsub` (R288). -/
def fsubWord (a b : Word) : Word := toF32 ((f32Of a).add (f32Of b).neg)
/-- `fmul` (R288). -/
def fmulWord (a b : Word) : Word := toF32 ((f32Of a).mul (f32Of b))
/-- `ffma` (R288). -/
def ffmaWord (a b d : Word) : Word := toF32 (((f32Of a).mul (f32Of b)).add (f32Of d))

/-- A bit pattern as a number that rises with −∞ < … < −0 < +0 < … < +∞ (R289). -/
def f32Key (w : Word) : Int :=
  if w.getLsbD 31 then -1 - ((w.toNat % 0x80000000 : Nat) : Int) else ((w.toNat : Nat) : Int)

/-- Whether an FP32 word is a NaN. -/
def isNanWord (w : Word) : Bool := f32Of w == .nan

/-- `fmin` (R289). -/
def fminWord (a b : Word) : Word :=
  if isNanWord a && isNanWord b then 0x7FC00000
  else if isNanWord a then b else if isNanWord b then a
  else if f32Key b < f32Key a then b else a

/-- `fmax` (R289). -/
def fmaxWord (a b : Word) : Word :=
  if isNanWord a && isNanWord b then 0x7FC00000
  else if isNanWord a then b else if isNanWord b then a
  else if f32Key a < f32Key b then b else a

/-- The condition of `fcmp` (R290). -/
def fcmpWord (c : FCond) (a b : Word) : Bool := fHolds c ((f32Of a).cmp (f32Of b))

/-- A packed operation on both 16-bit elements (R292). -/
def packed (g : Nat → Nat → Nat → Nat) (a b d : Word) : Word :=
  let one (k : Nat) : BitVec 16 :=
    BitVec.ofNat 16 (g (a.extractLsb' k 16).toNat (b.extractLsb' k 16).toNat (d.extractLsb' k 16).toNat)
  one 16 ++ one 0

/-- The packed sum in a format (R292). -/
def packedAdd (f : Fmt) (a b : Word) : Word := packed (fun x y _ => f.rn ((f.value x).add (f.value y))) a b 0
/-- The packed product in a format (R292). -/
def packedMul (f : Fmt) (a b : Word) : Word := packed (fun x y _ => f.rn ((f.value x).mul (f.value y))) a b 0
/-- The packed fused multiply-add in a format (R292). -/
def packedFma (f : Fmt) (a b d : Word) : Word :=
  packed (fun x y z => f.rn (((f.value x).mul (f.value y)).add (f.value z))) a b d

/-- The real part of a complex product as two terms (R293). -/
def reTerms (a b : DWord) : List FVal :=
  [(f32Of (loHalf a)).mul (f32Of (loHalf b)), ((f32Of (hiHalf a)).mul (f32Of (hiHalf b))).neg]
/-- The imaginary part as two terms (R293). -/
def imTerms (a b : DWord) : List FVal :=
  [(f32Of (loHalf a)).mul (f32Of (hiHalf b)), (f32Of (hiHalf a)).mul (f32Of (loHalf b))]

/-- Exact sum of terms with all NaN and infinity rules, then one rounding. -/
def roundSum (ts : List FVal) : Word := toF32 (FVal.sum ts)

/-- `cmul` (R293). -/
def cmulPair (a b : DWord) : DWord := pairOf (roundSum (reTerms a b)) (roundSum (imTerms a b))
/-- `cfma` (R293). -/
def cfmaPair (a b d : DWord) : DWord :=
  pairOf (roundSum (f32Of (loHalf d) :: reTerms a b)) (roundSum (f32Of (hiHalf d) :: imTerms a b))

/-- `twosum` (R294). -/
def twosumPair (a b : Word) : DWord :=
  let x := (f32Of a).add (f32Of b)
  let s := toF32 x
  pairOf s (if (f32Of s).finite then toF32 (x.add (f32Of s).neg).plusZero else 0)
/-- `twoprod` (R294). -/
def twoprodPair (a b : Word) : DWord :=
  let x := (f32Of a).mul (f32Of b)
  let p := toF32 x
  pairOf p (if (f32Of p).finite then toF32 (x.add (f32Of p).neg).plusZero else 0)

end Sys2Proof.Machine
end

