-- ==== Sys2Proof/Machine/CollBlock.lean ====
section
/-! DEFINITION. What a collective parameter block says (R334), and the elements that each rank sends and receives, with the reductions (R41,
R43, R336). -/

namespace Sys2Proof.Machine

/-! ## The parameter block (R334) -/

/-- A collective parameter block. -/
structure CollBlock where
  kind   : Nat
  fmt    : Nat
  op     : Nat
  lbit   : Nat
  gbit   : Nat
  root   : Nat
  group  : Nat
  ranks  : Nat
  stride : Nat
  first  : Nat
  buf    : Nat
  count  : Nat
  dst    : Nat
  /-- every byte the table marks zero is zero -/
  zeros  : Bool

/-- The fields of a block's 64 bytes. -/
def collBlock (bs : List Byte) : CollBlock :=
  let f (off n : Nat) : Nat := leNat ((bs.drop off).take n)
  { kind := f 0 1, fmt := f 1 1, op := f 2 1, lbit := f 3 1, gbit := f 4 1, root := f 6 2, group := f 8 4, ranks := f 0xC 2
    stride := f 0xE 2, first := f 0x10 2, buf := f 0x18 8, count := f 0x20 8, dst := f 0x28 8
    zeros := f 5 1 == 0 && f 0x12 6 == 0 && f 0x30 16 == 0 }

/-- Bytes of an element. -/
def CollBlock.elem (b : CollBlock) : Nat :=
  match b.fmt with
  | 0 | 5 | 6 => 4
  | 1 | 2 => 2
  | _ => 1

/-- A reduction. -/
def CollBlock.reduces (b : CollBlock) : Bool := b.kind ≤ 1

/-- A kind with a destination buffer of its own. -/
def CollBlock.hasDst (b : CollBlock) : Bool := 1 ≤ b.kind && b.kind ≤ 3

/-- Elements of the buffer. -/
def CollBlock.bufElems (b : CollBlock) : Nat := if b.kind = 1 || b.kind = 3 then b.ranks * b.count else b.count

/-- Elements of the destination. -/
def CollBlock.dstElems (b : CollBlock) : Nat := if b.kind = 1 then b.count else if b.hasDst then b.ranks * b.count else 0

/-- Whether a number is a power of two. -/
def isPow2 (n : Nat) : Bool := n != 0 && 2 ^ n.log2 == n

/-- Rank number of this device, when it is one. -/
def State.rankOf (s : State) (b : CollBlock) : Option Nat :=
  let n := s.fabric.deviceNum.toNat
  if n < b.first || (n - b.first) % b.stride ≠ 0 || (n - b.first) / b.stride ≥ b.ranks then none else some ((n - b.first) / b.stride)

/-- Where the results of a collective go: the address and the bytes (R336). -/
def CollBlock.outRange (b : CollBlock) : Nat × Nat :=
  if b.hasDst then (b.dst, b.dstElems * b.elem) else (b.buf, b.bufElems * b.elem)

/-! ## Reductions (R41) -/

/-- The number format of an element format below 5. -/
def collFmt (fmt : Nat) : Fmt :=
  match fmt with
  | 0 => Fmt.f32
  | 1 => Fmt.bf16
  | 2 => Fmt.f16
  | 3 => Fmt.e4m3
  | _ => Fmt.e5m2

/-- One pairwise combination of words: FP32 for the floating formats, the integer itself otherwise. -/
def collCombine (fmt op : Nat) (x y : Word) : Word :=
  if fmt ≤ 4 then
    match op with
    | 0 => faddWord x y
    | 1 => fminWord x y
    | _ => fmaxWord x y
  else
    match op with
    | 0 => x + y
    | 1 => if fmt = 5 then minS x y else minN x y
    | 2 => if fmt = 5 then maxS x y else maxN x y
    | 3 => x &&& y
    | 4 => x ||| y
    | _ => x ^^^ y

/-- A contribution widened to a word, exactly. -/
def collWiden (fmt code : Nat) : Word := if fmt ≤ 4 then toF32 ((collFmt fmt).value code) else BitVec.ofNat 32 code

/-- The final value rounded once to the element format, with its saturation; the minimum or maximum, which is one of the
contributions, comes back exactly, an infinity of E5M2 too. -/
def collNarrow (fmt op : Nat) (w : Word) : Nat :=
  if fmt ≤ 4 then
    match op, f32Of w with
    | 0, v => (collFmt fmt).rn v
    | _, .inf neg => if fmt = 4 then (if neg then 0xFC else 0x7C) else (collFmt fmt).rn (.inf neg)
    | _, v => (collFmt fmt).rn v
  else w.toNat

/-- The contributions combined in the order of a tree (R6, R41). -/
def combineTree (fmt op : Nat) (x : Nat → Word) : CombTree → Word
  | .leaf r => x r
  | .node l r => collCombine fmt op (combineTree fmt op x l) (combineTree fmt op x r)

/-- The ranks at the leaves of a tree. -/
def treeLeaves : CombTree → List Nat
  | .leaf r => [r]
  | .node l r => treeLeaves l ++ treeLeaves r

/-- A tree combines every rank once. -/
def treeOf (n : Nat) (t : CombTree) : Bool :=
  (treeLeaves t).length == n && (List.range n).all fun r => (treeLeaves t).contains r

/-- Element i of a buffer of elements of so many bytes. -/
def elemAt (size : Nat) (bs : List Byte) (i : Nat) : Nat := leNat ((bs.drop (i * size)).take size)

/-- Element i of the reduction over all ranks, `e r i` being element i of rank r's buffer. DESIGN CHOICE (log 36): one pairing and order
serves every element of a completion. -/
def CollBlock.reduced (b : CollBlock) (e : Nat → Nat → Nat) (t : CombTree) (i : Nat) : Nat :=
  collNarrow b.fmt b.op (combineTree b.fmt b.op (fun r => collWiden b.fmt (e r i)) t)

/-- The elements this participant receives: first element of the buffer written and their codes (R43, R336); `d` is its
rank, `e r i` element i of rank r's buffer. -/
def CollBlock.results (b : CollBlock) (d : Nat) (e : Nat → Nat → Nat) (t : CombTree) : List (Nat × Nat) :=
  match b.kind with
  | 0 => (List.range b.count).map fun i => (i, b.reduced e t i)
  | 1 => (List.range b.count).map fun i => (i, b.reduced e t (d * b.count + i))
  | 2 => (List.range b.ranks).flatMap fun j => (List.range b.count).map fun i => (j * b.count + i, e j i)
  | 3 => (List.range b.ranks).flatMap fun j => (List.range b.count).map fun i => (j * b.count + i, e j (d * b.count + i))
  | 4 => if d = b.root then [] else (List.range b.count).map fun i => (i, e b.root i)
  | _ =>
    ((List.range b.count).filter fun i => i.testBit b.lbit != d.testBit b.gbit).map fun i =>
      (i, e (d ^^^ 2 ^ b.gbit) (i ^^^ 2 ^ b.lbit))

/-- The elements that this participant sends: all of its buffer, at a broadcast those of the root alone, and at an exchange the half
that the partner takes (R43, R336). -/
def CollBlock.outgoing (b : CollBlock) (d : Nat) : List Nat :=
  match b.kind with
  | 4 => if d = b.root then List.range b.count else []
  | 5 => (List.range b.count).filter fun i => i.testBit b.lbit != d.testBit b.gbit
  | _ => List.range b.bufElems

/-- The rank that outgoing element i goes to; none where the leaf passes it to the tree of the group, or to every rank (R41 to R43, R336). -/
def CollBlock.goesTo (b : CollBlock) (d i : Nat) : Option Nat :=
  match b.kind with
  | 3 => some (i / b.count)
  | 5 => some (d ^^^ 2 ^ b.gbit)
  | _ => none

/-- The device of a rank (R334). -/
def CollBlock.device (b : CollBlock) (r : Nat) : Nat := b.first + r * b.stride

/-- Elements cut into runs of neighbours that belong together. -/
def runsOf (together : Nat → Nat → Bool) : List Nat → List (List Nat)
  | [] => []
  | i :: rest => match runsOf together rest with
    | (j :: g) :: gs => if together i j then (i :: j :: g) :: gs else [i] :: (j :: g) :: gs
    | gs => [i] :: gs

/-- The outgoing elements that leave in one packet each: those of one aligned block of 256 bytes of the buffer that go one way (R32; log 69). -/
def CollBlock.groups (b : CollBlock) (d : Nat) : List (List Nat) :=
  runsOf (fun i j => (b.buf + i * b.elem) / 256 == (b.buf + j * b.elem) / 256 && b.goesTo d i == b.goesTo d j) (b.outgoing d)

/-- The same with the number of outgoing elements up to the end of each. -/
def CollBlock.batches (b : CollBlock) (d : Nat) : List (Nat × List Nat) :=
  ((b.groups d).foldl (fun (x : Nat × List (Nat × List Nat)) g => (x.1 + g.length, x.2 ++ [(x.1 + g.length, g)])) (0, [])).2

/-- A batch leaves this device: its elements go to another rank (R43, R336). -/
def CollBlock.leaves (b : CollBlock) (d : Nat) (g : List Nat) : Bool :=
  b.ranks != 1 && (match g with | i :: _ => b.goesTo d i != some d | [] => false)

end Sys2Proof.Machine
end

