-- ==== Sys2Proof/Machine/Shares.lean ====
section
/-! DEFINITION. Shares and effective weights (R105), and the stride arbitration by PASS that dispatchers and link ports use (R106, R144). -/

namespace Sys2Proof.Machine

/-! ## Effective weights -/

/-- What a share table divides (R105). -/
inductive ShareOf where
  | core | link
deriving DecidableEq, Repr

/-- The SELF weight of a context. -/
def Ctx.selfWeight (c : Ctx) (k : ShareOf) : Nat := (if k = .core then c.coreSelf else c.linkSelf).toNat

/-- The weight that a context's parent gives it. -/
def Ctx.weight (c : Ctx) (k : ShareOf) : Nat := (if k = .core then c.coreWeight else c.linkWeight).toNat

/-- The live children of a context (R105). -/
def State.children (s : State) (n : Nat) : List (Nat × Ctx) :=
  s.ctxs.filter fun p => p.2.live && p.2.level != 0 && p.2.parent.toNat == n

/-- T(c): SELF and the weights of the live children (R105). -/
def State.totalOf (s : State) (k : ShareOf) (n : Nat) : Nat :=
  (s.children n).foldl (fun t p => t + p.2.weight k) ((s.ctx n).selfWeight k)

/-- S(c) as a fraction, from the root down along a chain given from the context up (R105). -/
def State.shareOf (s : State) (k : ShareOf) : List (Nat × Ctx) → Nat × Nat
  | [] => (1, 1)
  | (_, c) :: rest =>
    if rest.isEmpty then (1, 1)
    else
      let (n, d) := s.shareOf k rest
      (n * c.weight k, d * s.totalOf k c.parent.toNat)

/-- E(c), exactly, as a fraction (R105). -/
def State.exactWeight (s : State) (k : ShareOf) (n : Nat) : Nat × Nat :=
  let (a, b) := s.shareOf k (s.chainOf n)
  (a * (s.ctx n).selfWeight k, b * s.totalOf k n)

/-- E(c) as a dispatcher or link port holds it: a 24-bit fraction rounded toward zero, at least one unit (R105). -/
def State.effWeight (s : State) (k : ShareOf) (n : Nat) : Nat :=
  max 1 ((s.exactWeight k n).1 * 0x1000000 / (s.exactWeight k n).2)

/-- STRIDE (R144). -/
def State.stride (s : State) (k : ShareOf) (n : Nat) : Nat := 0x1000000000000 / s.effWeight k n

/-! ## Passes (R144) -/

/-- The record of a context at a unit, a core's dispatcher or a link port, in a table by unit × 4,096 + context. -/
def passOf (t : List (Nat × Disp)) (unit ctx : Nat) : Disp := (Table.find (unit * 4096 + ctx) t).getD {}

/-- The lowest PASS of the contexts given that are runnable. -/
def lowestPass (t : List (Nat × Disp)) (unit : Nat) (ctxs : List Nat) : Option Nat :=
  ctxs.foldl (fun m c =>
    let d := passOf t unit c
    if d.runnable then
      match m with
      | none => some d.pass.toNat
      | some x => some (min x d.pass.toNat)
    else m) none

/-- A context that becomes runnable takes the greater of its PASS and the lowest of those runnable then; one that is keeps its PASS. -/
def enterPass (unit : Nat) (runnable : List Nat) (t : List (Nat × Disp)) (c : Nat) : List (Nat × Disp) :=
  let d := passOf t unit c
  if d.runnable then t
  else
    let p := match lowestPass t unit runnable with | some x => max d.pass.toNat x | none => d.pass.toNat
    Table.put (unit * 4096 + c) { pass := BitVec.ofNat 64 p, runnable := true } t

/-- The records of a unit brought up to date with the contexts runnable now, which become so one after another in the order given. -/
def refreshPasses (t : List (Nat × Disp)) (unit : Nat) (runnable : List Nat) : List (Nat × Disp) :=
  runnable.foldl (enterPass unit runnable)
    (t.map fun p => if p.1 / 4096 = unit && !runnable.contains (p.1 % 4096) then (p.1, { p.2 with runnable := false }) else p)

/-- The context that goes next: the lowest PASS, then the lowest number. -/
def pickPass (t : List (Nat × Disp)) (unit : Nat) : List Nat → Option Nat
  | [] => none
  | c :: rest =>
    match pickPass t unit rest with
    | none => some c
    | some b =>
      let pc := (passOf t unit c).pass.toNat
      let pb := (passOf t unit b).pass.toNat
      if pc < pb || (pc = pb && c < b) then some c else some b

/-- A context's PASS grows. -/
def chargePass (t : List (Nat × Disp)) (unit ctx n : Nat) : List (Nat × Disp) :=
  let d := passOf t unit ctx
  Table.put (unit * 4096 + ctx) { d with pass := d.pass + BitVec.ofNat 64 n } t

/-- The contexts runnable at a unit, as its records have them. -/
def runnableAt (t : List (Nat × Disp)) (unit : Nat) : List Nat :=
  (t.filter fun p => p.1 / 4096 == unit && p.2.runnable).map fun p => p.1 % 4096

/-- The records of a unit with a context runnable among those that are (R106, R144). -/
def joinPasses (t : List (Nat × Disp)) (unit ctx : Nat) : List (Nat × Disp) := enterPass unit (runnableAt t unit) t ctx

/-- A link port charges a context for the flits that leave for it (R106; log 55). -/
def State.chargePort (s : State) (link ctx flits : Nat) : State :=
  { s with eng := { s.eng with ports := chargePass (joinPasses s.eng.ports link ctx) link ctx (flits * s.stride .link ctx) } }

end Sys2Proof.Machine
end

