-- ==== Sys2Proof/Machine/Start.lean ====
section
/-! DEFINITION. Power and the start sequence (R15 to R28): `MAIN_POWER_ON`, `MAIN_POWER_OFF`, `HOST_LINK_TRAINED`,
`FIRMWARE_LOADED`, `UNIT_TRAINED`, `FULL_SERVICE`, `RESET_GO`, `CLOCK_ADJUST`. -/

namespace Sys2Proof.Machine

/-- An event whose occasion stands only under a condition. -/
def whenever (c : Bool) (t : State) : Host.Outcome State Fault Refusal := if c then .next t else .refused .noOccasion

/-- Memory as a start or a loss of power leaves it: flash and the host's memory alone (R17, R20, R67). -/
def Mem.flashOnly (m : Mem) : Mem :=
  { ({} : Mem) with
    cells := m.cells.filter fun c => regionOf c.1 == .flash
    host := m.host, poison := m.poison.filter fun p => regionOf p.1 == .flash
    appends := m.appends, scrubs := m.scrubs, leaves := m.leaves, flashKey := m.flashKey }

/-- A storage location lies on HBM stack n or in SBM slice n (R57, R59). -/
def onUnit (n k : Nat) : Bool :=
  match regionOf k with
  | .hbm => k / 0x1000000000 == n
  | .sbm => ((k - 0x80000000000) >>> 8) % 1536 / 192 == n
  | _ => false

/-- HBM stack n and SBM slice n zeroed, as steps 4 and 5 of a start leave them (R18). -/
def Mem.zeroUnit (m : Mem) (n : Nat) : Mem :=
  { m with
    cells := m.cells.filter fun c => !onUnit n c.1
    poison := m.poison.filter fun p => !onUnit n p.1
    lines := m.lines.filter fun l => !onUnit n (64 * l.1)
    full := m.full.filter fun w => !onUnit n (0x80000000000 + 8 * w.1) }

/-- All leaves of the device identity key (R133). -/
def allLeaves : Nat := 0x100000

/-- A signature spends one leaf; none is left for the next when all are spent (R133). -/
def State.spendLeaf (s : State) : State :=
  { s with
    mem := { s.mem with leaves := s.mem.leaves + 1 }
    cfg := { s.cfg with sec := { s.cfg.sec with signExhausted := s.cfg.sec.signExhausted || decide (s.mem.leaves + 1 ≥ allLeaves) } } }

/-- What survives in `Power`: fuses and training records (R17). -/
def Power.kept (p : Power) (cold : Bool) : Power :=
  { ({} : Power) with serial := p.serial, rootKeyHash := p.rootKeyHash, rollback := p.rollback, records := p.records, coldAsked := cold }

/-- Which failure steps 1 and 2 find first: 0 loader signature, 1 rollback, 2 identity check (R18, R21, R135). -/
def bootFailure (p : Power) (b : Boot) : Option (BitVec 2) :=
  if !b.sigOk then some 0 else if b.version < p.rollback then some 1 else if !b.identityOk then some 2 else none

/-- A start from step 1 to the end of step 2 (R18, R20, R21, R27). `sec` is SEC_EVENT as it stands before. -/
def State.newStart (s : State) (cold : Bool) (sec : SecEvent) (b : Boot) : State :=
  let p := s.power.kept cold
  let sec1 : SecEvent := { sec with signExhausted := decide (s.mem.leaves ≥ allLeaves) }
  let base : State := { ({} : State) with mem := s.mem.flashOnly, stamp := s.stamp, freeCtr := s.freeCtr, input := s.input, agenda := s.agenda }
  match bootFailure s.power b with
  | none => { base with power := p, cfg := { base.cfg with sec := sec1 } }
  | some c =>
    { base with power := { p with stage := .failed, phase := 15 }
                cfg := { base.cfg with sec := { sec1 with bootFail := true, bootCause := c } } }

/-- `MAIN_POWER_ON` (R8, R17): a start, every register at its Reset value. -/
def execMainPowerOn (s : State) : Host.Outcome State Fault Refusal :=
  whenever (s.power.stage == .off) (s.newStart false {} s.input.boot)

/-- `MAIN_POWER_OFF` (R17). -/
def execMainPowerOff (s : State) : Host.Outcome State Fault Refusal :=
  whenever (s.power.stage != .off)
    { ({} : State) with
      power := { s.power.kept false with stage := .off }, mem := s.mem.flashOnly, stamp := s.stamp, freeCtr := s.freeCtr
      input := s.input, agenda := s.agenda }

/-- RESET_CTL written (R26, R27): GO begins a start; SEC_EVENT is preserved (R135). DESIGN CHOICE (log 56): COLD written without GO has no
effect, then or later. -/
def State.resetCtl (s : State) (cold go : Bool) : State := if go then s.newStart cold s.cfg.sec s.input.boot else s

/-- `RESET_GO` (R26, R27): the physical function alone, once its registers are visible. -/
def execResetGo (s : State) : Host.Outcome State Fault Refusal :=
  if s.power.stage == .off || s.power.stage == .hostLink then .refused .noOccasion
  else .next (if s.input.writer = .pf then s.resetCtl s.input.cold true else s)

/-- `HOST_LINK_TRAINED` (R18 step 3). -/
def execHostLinkTrained (s : State) : Host.Outcome State Fault Refusal :=
  whenever (s.power.stage == .hostLink) { s with power := { s.power with stage := .firmware, phase := 2 } }

/-- A finding is possible: only a stored record that no cold start passes over can verify (R19). -/
def Power.mayTrain (p : Power) (bit : Nat) (t : Train) : Bool := t != .verified || (!p.coldAsked && p.records.getLsbD bit)

/-- One part's training noted: record, WARM and settling (R19). DESIGN CHOICE (log 56): a part whose full training fails holds no record
afterwards, in a cold start that was asked for too. -/
def Power.note (p : Power) (bit : Nat) (t : Train) : Power :=
  let one : BitVec 27 := 1#27 <<< bit
  { p with
    records := match t with
      | .verified => p.records
      | .full => p.records ||| one
      | .failed => p.records &&& ~~~one
    warm := p.warm || t == .verified
    settled := p.settled ||| one }

/-- A stack in service, or not (R25). -/
def Power.stack (p : Power) (n : Nat) (t : Train) : Power :=
  let one : BitVec 8 := 1#8 <<< n
  { p.note n t with
    stackOk := if t == Train.failed then p.stackOk else p.stackOk ||| one
    stackTrained := if t == Train.full then p.stackTrained ||| one else p.stackTrained }

/-- `FIRMWARE_LOADED` (R18 step 4, R21, R28, R72). -/
def execFirmwareLoaded (s : State) : Host.Outcome State Fault Refusal :=
  let f := s.input.fw
  if s.power.stage != .firmware || !s.power.mayTrain 0 f.stack0 || !s.power.mayTrain 1 f.stack1 then .refused .noOccasion
  else if !f.sigOk || f.version < s.power.rollback then
    .next { s with power := { s.power with stage := .failed }
                   cfg := { s.cfg with sec := { s.cfg.sec with bootFail := true, bootCause := 3 } } }
  else
    let p := (s.power.stack 0 f.stack0).stack 1 f.stack1
    if f.stack0 = .failed || f.stack1 = .failed || !f.die0Ok then
      .next { s with power := { p with stage := .failed, phase := 15 }
                     cfg := { s.cfg with sec := { s.cfg.sec with bootFail := true } } }
    else
      .next { s with
        power := { p with stage := .parts, phase := 3, clk0 := 850 }
        mem := (s.mem.zeroUnit 0).zeroUnit 1
        cfg := { s.cfg with state := .open_, sec := { s.cfg.sec with keysErased := false } }
        fabric := { s.fabric with links := (List.range 16).map fun i => (i, { state := 1 }) } }

/-- The number of a part among the training records (R19). -/
def partBit : Part → Nat
  | .stack n => n.toNat
  | .flash n => 8 + n.toNat
  | .link n => 10 + n.toNat
  | .dieBoundary => 26

/-- Link i of the device. -/
def State.link (s : State) (i : Nat) : Link := (Table.find i s.fabric.links).getD {}
/-- Link i replaced. -/
def State.setLink (s : State) (i : Nat) (l : Link) : State := { s with fabric := { s.fabric with links := Table.put i l s.fabric.links } }

/-- Slots of OSF_PLANE_MAP that name a link out of service take one in service (R35, R48). DESIGN CHOICE (log 58): all of them take the
same, the one the event names, if it is in service, or else the lowest. -/
def State.remapPlanes (s : State) : State :=
  let up (i : Nat) : Bool := s.power.linkUp.getLsbD i
  let sub : Option (BitVec 4) :=
    if up s.input.repl.toNat then some s.input.repl else ((List.range 16).find? up).map (BitVec.ofNat 4)
  match sub with
  | none => s
  | some r => { s with fabric := { s.fabric with planeMap := s.fabric.planeMap.map fun x => if up x.toNat then x else r } }

/-- `UNIT_TRAINED` (R18 step 5, R19, R22, R25). DESIGN CHOICE (log 59): the STATE of a link that fails its training shows FAILED. -/
def execUnitTrained (s : State) : Host.Outcome State Fault Refusal :=
  let t := s.input.train
  let bit := partBit s.input.part
  if s.power.stage != .parts || s.power.settled.getLsbD bit || !s.power.mayTrain bit t then .refused .noOccasion
  else
    let ok := t != .failed
    match s.input.part with
    | .stack n => .next { s with power := s.power.stack n.toNat t, mem := s.mem.zeroUnit n.toNat }
    | .flash n =>
      let one : BitVec 2 := 1#2 <<< n.toNat
      .next { s with power := { s.power.note bit t with
        flashOk := if ok then s.power.flashOk ||| one else s.power.flashOk
        flashTrained := if t == Train.full then s.power.flashTrained ||| one else s.power.flashTrained } }
    | .link n =>
      let one : BitVec 16 := 1#16 <<< n.toNat
      let s1 := { s with power := { s.power.note bit t with
        linkUp := if ok then s.power.linkUp ||| one else s.power.linkUp
        linkTrained := if t == Train.full then s.power.linkTrained ||| one else s.power.linkTrained } }
      let s2 := s1.setLink n.toNat { s.link n.toNat with state := if ok then 2 else 4 }
      .next (if (List.range 16).all fun i => s2.power.settled.getLsbD (10 + i) then s2.remapPlanes else s2)
    | .dieBoundary => .next { s with power := { s.power.note bit t with die1Ok := ok } }

/-- `FULL_SERVICE` (R18 step 6, R22, R24). -/
def execFullService (s : State) : Host.Outcome State Fault Refusal :=
  whenever (s.power.stage == .parts && s.power.settled == BitVec.allOnes 27 && s.power.die1Ok && s.power.stackOk == 0xFF)
    { s with power := { s.power with stage := .full, phase := 4, clk0 := 1700, clk1 := 1700 } }

/-- `CLOCK_ADJUST` (R15): a clock moves by steps of 25 MHz; nothing else changes. DESIGN CHOICE (log 60): it may rise to 1.7 GHz in every
phase and fall to 0, where it stays. -/
def execClockAdjust (s : State) : Host.Outcome State Fault Refusal :=
  let old := if s.input.die1 then s.power.clk1 else s.power.clk0
  let d : Int := (s.input.mhz.toNat : Int) - (old.toNat : Int)
  if old = 0 || d % 25 ≠ 0 || s.input.mhz.toNat > 1700 then .refused .noOccasion
  else .next { s with power := if s.input.die1 then { s.power with clk1 := s.input.mhz } else { s.power with clk0 := s.input.mhz } }

end Sys2Proof.Machine
end

