-- ==== Sys2Proof/Machine/Links.lean ====
section
/-! DEFINITION. The links' sending directions (R31 to R35, R45 to R50): planes, keys and counters, packets that leave, and the accesses
that the engines and the CPX make to other devices. -/

namespace Sys2Proof.Machine

/-- A link in service: UP or KEY_EXHAUSTED. -/
def Link.serves (l : Link) : Bool := l.state == 2 || l.state == 3

/-- The next key taken, at a packet boundary: the counter restarts, the next slot empties, and the first packet will be marked (R46). -/
def Link.switchKey (l : Link) : Link := { l with keySlot := !l.keySlot, next := false, tx := 0, switched := true }

/-- The switch to the next key that is due before a packet: the counter has reached 2^47, or firmware asks (R46). -/
def Link.dueSwitch (l : Link) (early : Bool) : Link :=
  if l.next && (early || decide (0x800000000000 ≤ l.tx.toNat)) then l.switchKey else l

/-- The counter stays below 2^48 − 1 at the last of so many flits (R47). -/
def Link.fits (l : Link) (flits : Nat) : Bool := decide (l.tx.toNat + flits - 1 < 0xFFFFFFFFFFFF)

/-- A packet leaves under the current key, marked when it is the first since the switch, or the direction is exhausted (R45 to R47). -/
def Link.send (l : Link) (p : FarPacket) : Link × Bool :=
  if l.fits p.flits then
    ({ l with tx := l.tx + BitVec.ofNat 48 p.flits, sent := { p with fresh := l.switched } :: l.sent, switched := false }, true)
  else ({ l with state := 3 }, false)

/-- A packet leaves, or it is held without loss behind those that wait for a key (R46, R47). -/
def Link.sendOrHold (l : Link) (p : FarPacket) : Link :=
  if l.state == 2 && l.held.isEmpty then
    match (l.dueSwitch false).send p with
    | (l1, true) => l1
    | (l1, false) => { l1 with held := [p] }
  else { l with held := l.held ++ [p] }

/-- The packets held leave in order under a new key, as far as it goes (R47). -/
def Link.resume (l : Link) : Link :=
  l.held.foldl (fun x p => x.sendOrHold p) { l with held := [] }

/-- The slot index of a fabric address (R35). -/
def planeSlot (a : Nat) : Nat := bits a 11 8 ^^^ bits a 15 12 ^^^ bits a 19 16 ^^^ bits a 23 20

/-- The link that carries a request to an address (R35). -/
def State.planeOf (s : State) (a : Nat) : Nat := (s.fabric.planeMap.getD (planeSlot a) 0).toNat

/-- A link that takes new packets of this device now. -/
def State.linkOpen (s : State) (i : Nat) : Bool := (s.link i).state == 2 && decide ((s.link i).rxFails < 8) && (s.link i).held.isEmpty

/-- The bytes of a mask over a 64-byte block. -/
def maskCount (mask : Nat) : Nat := ((List.range 64).filter fun i => mask.testBit i).length

/-- Flits of a request (R32, R33; log 11): a header, and the bytes that a store's mask names or the operand of an atomic, in flits of
32 bytes. -/
def requestFlits (q : RemoteReq) : Nat :=
  match q.kind with
  | .load => 1
  | .store _ => 1 + (maskCount q.bytes + 31) / 32
  | .atom _ _ _ => 2

/-- Flits of an answer (R32, R36; log 11): a header and the returned bytes. -/
def answerFlits (a : FarAnswer) : Nat :=
  match a with
  | .done bs | .failed _ _ bs => 1 + (bs.length + 31) / 32
  | _ => 1

/-- A packet given to a link: it leaves, or the link is exhausted (R45 to R47). -/
def State.give (s : State) (i : Nat) (early : Bool) (p : FarPacket) : State × Bool :=
  let x := ((s.link i).dueSwitch early).send p
  (s.setLink i x.1, x.2)

/-! ## Accesses of the engines and the CPX to other devices -/

/-- A packet for a context leaves on a link, or its event waits for the link (R45 to R47, R106). -/
def State.sendPacket (s : State) (i ctx flits : Nat) (body : PacketBody) : State × Bool :=
  if !s.linkOpen i then ({ s with stall := some i }, false)
  else match s.give i false { flits := flits, body := body } with
    | (s1, false) => ({ s1 with stall := some i }, false)
    | (s1, true) => (s1.chargePort i ctx flits, true)

/-- The next end-to-end sequence number taken (R32). -/
def State.takeSeq (s : State) : State := { s with fabric := { s.fabric with nextSeq := s.fabric.nextSeq + 1 } }

/-- How an access to another device goes on: the request has left, and the state after it; it waits for its plane; it is a remote
miss of a KIND; or its data fail at their home. -/
inductive FarGo where
  | gone (s : State)
  | waits (s : State)
  | missed (s : State) (kind : BitVec 2)
  | failed (s : State) (cause : BitVec 8)

/-- The packet that a link sent last has been received well, as the answer to it shows: its direction has no failures in a row (R48). -/
def State.heard (s : State) (i : Nat) : State := s.setLink i { s.link i with txFails := 0 }

/-- The bytes that a request covers from its first on. -/
def requestSpan (q : RemoteReq) : Nat := (List.range 64).foldl (fun n i => if q.bytes.testBit i then i + 1 else n) 0

/-- A request of an engine, of the CPX, of a fetch or of a walk, for a context, to a fabric address, and what its answer says (R30, R35,
R38, R45 to R48, R69, R106, R128). It leaves in a packet of its own (log 11), and its answer comes in the same event (log 9). -/
def State.farGo (s : State) (ctx fa : Nat) (q : RemoteReq) : FarGo :=
  if !s.fabric.enable then .missed s 3
  else
    let q1 := { q with src := s.fabric.deviceNum, seq := s.fabric.nextSeq, dev := BitVec.ofNat 12 (fa / 0x100000000000) }
    match s.sendPacket (s.planeOf fa) ctx (requestFlits q1) (.request q1) with
    | (s1, false) => .waits s1
    | (s1, true) =>
      let s2 := s1.takeSeq.heard (s.planeOf fa)
      match s2.farMiss fa, s2.farFails fa (requestSpan q - fa % 64) with
      | some kind, _ => .missed s2 kind
      | none, some cause => .failed s2 cause
      | none, none => .gone s2

/-! ## Events that wait -/

/-- The links in service that an attempt finds exhausted: of the attempt t from s on, only that remains where an access of it has to wait
for its plane (R47). -/
def State.exhausted (s t : State) : List Nat := (List.range 16).filter fun i => (t.link i).state == 3 && (s.link i).state != 3

/-- Links that enter KEY_EXHAUSTED (R47). -/
def State.exhaust (s : State) (links : List Nat) : State := links.foldl (fun st i => st.setLink i { st.link i with state := 3 }) s

/-- The contexts for which an attempt has sent packets on a link, as the port's charges show. -/
def State.chargedOn (s t : State) (i : Nat) : List Nat :=
  ((t.eng.ports.filter fun p => p.1 / 4096 == i).map fun p => p.1 % 4096).filter fun c => (passOf t.eng.ports i c).pass != (passOf s.eng.ports i c).pass

/-- The contexts that compete at a port when an attempt has sent packets there: those runnable, and those it sent for. -/
def State.rivals (s t : State) (i : Nat) : List Nat := (runnableAt s.eng.ports i ++ s.chargedOn t i).eraseDups

/-- The port of a link gives its turn to a context that an attempt sent for, or the attempt sent nothing there (R106). -/
def State.turnOn (s t : State) (i : Nat) : Bool :=
  (s.chargedOn t i).isEmpty || (match pickPass ((s.chargedOn t i).foldl (fun p c => joinPasses p i c) s.eng.ports) i (s.rivals t i) with
    | some c => (s.chargedOn t i).contains c
    | none => true)

/-- The links whose ports do not give an attempt its turn. -/
def State.lateOn (s t : State) : List Nat := (List.range 16).filter fun i => !s.turnOn t i

/-- A context of an engine, the CPX or a fetch that waits at a port. -/
def State.waitsAt (s : State) (i c : Nat) : Bool := s.eng.portWait.any fun w => w.1 == i && w.2.1 == c

/-- The contexts that an attempt sent for wait at the ports that do not give it its turn, and are runnable there (R106). -/
def State.waitAt (s t : State) (links : List Nat) : State :=
  { s with eng := { s.eng with
      ports := links.foldl (fun p i => (s.chargedOn t i).foldl (fun x c => joinPasses x i c) p) s.eng.ports
      portWait := s.eng.portWait ++ links.flatMap fun i => ((s.chargedOn t i).filter fun c => !s.waitsAt i c).map fun c => (i, c, s.steps) } }

/-- The contexts that an attempt sent for wait no longer at the ports that it sent through. -/
def State.waitOver (s t : State) : State :=
  { t with eng := { t.eng with portWait := t.eng.portWait.filter fun w => !((s.chargedOn t w.1).contains w.2.1) } }

/-- An attempt that is no event of its own, an issue or an early fetch: it takes place, all its packets leaving in their turn, and true; else
what it leaves while one of them waits (R47, R106). -/
def State.attempt (s t : State) : State × Bool :=
  if t.stall.isSome then (s.exhaust (s.exhausted t), false)
  else if (s.lateOn t).isEmpty then (s.waitOver t, true)
  else (s.waitAt t (s.lateOn t), false)

/-- The link that an attempt has to wait for, as things stand: one that takes no packet, or whose port gives the turn to others while its
contexts wait there already. -/
def State.waitsFor (s t : State) : Option Nat :=
  match t.stall with
  | some i => if s.linkOpen i then none else some i
  | none => (s.lateOn t).find? fun i => (s.chargedOn t i).all (s.waitsAt i)

/-- The attempt of an event all of whose packets could leave: it takes place, in its turn at every port; else its contexts wait for
theirs (R106). -/
def State.inTurn (s t : State) : Host.Outcome State Fault Refusal :=
  if (s.lateOn t).isEmpty then .next (s.waitOver t)
  else if (s.lateOn t).all fun i => (s.chargedOn t i).all (s.waitsAt i) then .refused .noOccasion
  else .next (s.waitAt t (s.lateOn t))

/-- The meaning of an event whose packets may have to wait for their planes, or for their turns at the ports: while one waits, the event
does not take place, and only a link that its packet finds exhausted enters KEY_EXHAUSTED (R47, R106). -/
def throughLinks (eff : State → Host.Outcome State Fault Refusal) (s : State) : Host.Outcome State Fault Refusal :=
  match eff { s with stall := none } with
  | .next t =>
    if t.stall.isNone then s.inTurn t
    else if (s.exhausted t).isEmpty then .refused .noOccasion
    else .next (s.exhaust (s.exhausted t))
  | o => o

end Sys2Proof.Machine
end

