-- ==== Sys2Proof/Machine/Home.lean ====
section
/-! DEFINITION. What happens at a home unit (R57 to R70): reads and writes of HBM, SBM, flash and of MX windows, with their
errors (R68, R69) and tags (R127, R128); the atomic step (R311 to R313); a tamper-class alarm (R136). -/

namespace Sys2Proof.Machine

/-! ## Failures and counts -/

/-- The MEM_ERR register of a storage location (R70). -/
def memErrIndex (k : Nat) : Nat :=
  match regionOf k with
  | .sbm => ((k - 0x80000000000) >>> 8) % 1536 / 192
  | .flash => 8 + bits k 41 41
  | _ => k / 0x1000000000 % 8

/-- The UNIT code of MEM_ERR (R70). -/
def memErrUnit (k : Nat) : BitVec 2 :=
  match regionOf k with
  | .sbm => 1
  | .flash => 2
  | _ => 0

/-- MEM_ERR register i changed. -/
def State.modMemErr (s : State) (i : Nat) (f : MemErr → MemErr) : State :=
  { s with cfg := { s.cfg with memErr := Sparse.set {} i (f (Sparse.get {} i s.cfg.memErr)) s.cfg.memErr } }

/-- A correction counted (R68, R70). -/
def State.countCorrected (s : State) (k : Nat) : State :=
  s.modMemErr (memErrIndex k) fun e => { e with corrected := if e.corrected = 0xFFFF then 0xFFFF else e.corrected + 1 }

/-- The unit at a storage location is poisoned; `a` is its local address (R69, R70). -/
def State.poisonAt (s : State) (k a : Nat) : State :=
  let s1 := { s with mem := { s.mem with poison := Sparse.set false (poisonUnit k) true s.mem.poison } }
  s1.modMemErr (memErrIndex k) fun e =>
    if e.uncorr then { e with overflow := true }
    else { e with uncorr := true, unit := memErrUnit k, addr := BitVec.ofNat 44 (a - (k - poisonUnit k)) }

/-- Every key erased and every context stopped, when ERASE_EN is 1 (R136). -/
def State.tamperAlarmed (s : State) : State :=
  let s1 := { s with cfg := { s.cfg with sec := { s.cfg.sec with tamper := true } } }
  if !s.cfg.eraseEn then s1
  else
    let gens := (List.range 64).foldl (fun g w => Sparse.set 0 w (Sparse.get 0 w g + 1) g) s.mem.keyGen
    let stop : StopRec := { engine := 0, cause := Cause.cipherIntegrity }
    { s1 with
      cfg := { s1.cfg with erased := true, sec := { s1.cfg.sec with keysErased := true } }
      mem := { s1.mem with keyGen := gens }
      worlds := s1.worlds.map fun p => (p.1, { p.2 with key1 := false, key2 := false, kem := false })
      ctxs := s1.ctxs.map fun p =>
        if p.2.live then (p.1, { p.2 with halt := some { haltWith p.2.halt stop false none s.steps with tamper := true, saved := true } }) else p
      eng := { s1.eng with cmds := s1.eng.cmds.filter fun c => match c.kind with | .checkpoint _ _ _ => false | _ => true } }

/-! ## MX windows (R62 to R65) -/

/-- The descriptor of the window an address lies in. -/
def State.aliasOf (s : State) (a : Nat) : MxAlias := Sparse.get {} ((a - 0x90000000000) / 0x400000000) s.cfg.aliases

/-- The format of a descriptor's elements. -/
def MxAlias.format (d : MxAlias) : Fmt :=
  match d.fmt.toNat with
  | 0 => Fmt.e4m3
  | 1 => Fmt.e5m2
  | _ => Fmt.e2m1

/-- EMAX of R64. -/
def MxAlias.emax (d : MxAlias) : Int :=
  match d.fmt.toNat with
  | 0 => 8
  | 1 => 15
  | _ => 2

/-- A range of local addresses lies wholly in one part of HBM or SBM. -/
def inMemory (a n : Nat) : Bool :=
  let r := regionOf a
  (r == .hbm || r == .sbm) && (n == 0 || (regionOf (a + n - 1) == r && (r == .sbm || a / 0x1000000000 == (a + n - 1) / 0x1000000000)))

/-- Local address of the element array. -/
def MxAlias.dataAddr (d : MxAlias) : Nat := d.dataFrame.toNat * 4096

/-- The descriptor acts as enabled (R62). -/
def MxAlias.works (d : MxAlias) : Bool :=
  d.en && d.fmt != 3 && inMemory d.dataAddr (d.blocks.toNat * (if d.fmt = 2 then 16 else 32)) && inMemory d.scaleAddr.toNat d.blocks.toNat

/-- Local address of the byte that holds element e. -/
def MxAlias.elemAddr (d : MxAlias) (e : Nat) : Nat := d.dataAddr + (if d.fmt = 2 then e / 2 else e)

/-- The byte of this device's memory at a local address. -/
def State.byteAt (s : State) (inter a : Nat) : Nat := (s.mem.get (s.place inter a)).toNat

/-- The code of element e. -/
def State.aliasCode (s : State) (d : MxAlias) (inter e : Nat) : Nat :=
  let b := s.byteAt inter (d.elemAddr e)
  if d.fmt = 2 then (if e % 2 = 0 then b % 16 else b / 16) else b

/-- The exact value of element e under a scale code (R63). -/
def State.aliasVal (s : State) (d : MxAlias) (inter e : Nat) : FVal :=
  (d.format.value (s.aliasCode d inter e)).mul (scaleE8M0 (s.byteAt inter (d.scaleAddr.toNat + e / 32)))

/-- The BF16 image of element e (R63). -/
def State.aliasImage (s : State) (d : MxAlias) (inter e : Nat) : Nat := Fmt.bf16.rn (s.aliasVal d inter e)

/-- The place of a window address within its MX window (R63). -/
def mxOffset (a : Nat) : Nat := (a - 0x90000000000) % 0x400000000

/-- Whether a byte of an MX window holds an element of its array (R65). -/
def MxAlias.covers (d : MxAlias) (off : Nat) : Bool := d.works && decide (off / 2 < 32 * d.blocks.toNat)

/-- The local address of the memory that an access at an address reaches first: the element of an MX window, or its scale where the
event says so; none where the window has no element (R62, R68). -/
def State.reached (s : State) (a : Nat) : Option Nat :=
  if regionOf a == .mxWindow then
    let d := s.aliasOf a
    let off := mxOffset a
    if d.covers off then some (if s.input.atScale then d.scaleAddr.toNat + off / 64 else d.elemAddr (off / 2)) else none
  else some a

/-- What befalls the unit an access reaches, before it is performed (R68, R69, R128). A network tag failure is not of the
unit. -/
def State.befall (s : State) (inter a : Nat) (e : HomeEvent) : State :=
  match s.reached a with
  | none => s
  | some b =>
    let k := s.place inter b
    match e with
    | .corrected => s.countCorrected k
    | .uncorrectable => s.poisonAt k b
    | .tampered =>
      if regionOf b = .hbm then
        let tag : LineTag := Sparse.get {} (k / 64) s.mem.lines
        { s with mem := { s.mem with lines := Sparse.set {} (k / 64) { tag with broken := true } s.mem.lines } }
      else s
    | _ => s

/-- Everything that befalls the words of a range that such an access reaches. -/
def State.befallRange (s : State) (inter a n : Nat) : State := (wordsOf a n).foldl (fun st w => st.befall inter w (s.hitAt w)) s

/-- What spoils a byte of memory: poison, or a tag that fails (R69, R128). -/
def State.spoiled (s : State) (inter a : Nat) (w : BitVec 6) (c : BitVec 2) : Option (BitVec 8) :=
  let k := s.place inter a
  if s.mem.poisoned k then some Cause.eccUncorrectable
  else if !s.mem.tagOk k a w c then some Cause.cipherIntegrity else none

/-- The first failure among the element and scale bytes of a block (R64, R69). -/
def State.aliasSpoiled (s : State) (d : MxAlias) (inter : Nat) (w : BitVec 6) (c : BitVec 2) (b : Nat) : Option (BitVec 8) :=
  ((d.scaleAddr.toNat + b) :: (List.range 32).map fun j => d.elemAddr (32 * b + j)).findSome? fun a => s.spoiled inter a w c

/-- The scale code for a block of values (R64): amax through its exponent. -/
def aliasScale (emax : Int) (vals : List FVal) : Nat :=
  let top : Option Int := vals.foldl (fun t v => match v with
    | .fin _ m e => if m = 0 then t else
      let x := (m.log2 : Int) + e
      match t with
      | none => some x
      | some y => some (max x y)
    | _ => t) none
  match top with
  | none => 0
  | some x => (max 0 (min 254 (x - emax + 127))).toNat

/-- A value divided by 2^(c − 127). -/
def unscale (c : Nat) : FVal → FVal
  | .fin n m e => .fin n m (e - ((c : Int) - 127))
  | v => v

/-- One block with some bytes of its BF16 image written: the new values, scale code and element codes (R64). `put j old`
is the image of element j after the write, if its bytes are written. -/
def State.aliasBlock (s : State) (d : MxAlias) (inter b : Nat) (put : Nat → Nat → Option Nat) : Nat × List Nat :=
  let vals := (List.range 32).map fun j =>
    let v := s.aliasVal d inter (32 * b + j)
    match put j (Fmt.bf16.rn v) with
    | none => v
    | some img => Fmt.bf16.value img
  let c := aliasScale d.emax vals
  (c, vals.map fun v => d.format.rn (unscale c v))

/-- A block's codes and scale put back (R64). -/
def State.aliasStore (s : State) (d : MxAlias) (inter b c : Nat) (codes : List Nat) : State :=
  let s1 := s.writeLocal inter (d.scaleAddr.toNat + b) [BitVec.ofNat 8 c]
  if d.fmt = 2 then
    (List.range 16).foldl (fun st i =>
      st.writeLocal inter (d.elemAddr (32 * b + 2 * i)) [BitVec.ofNat 8 (codes.getD (2 * i) 0 + 16 * codes.getD (2 * i + 1) 0)]) s1
  else
    (List.range 32).foldl (fun st j => st.writeLocal inter (d.elemAddr (32 * b + j)) [BitVec.ofNat 8 (codes.getD j 0)]) s1

/-- OVERRUN of the descriptor of an address set (R65). -/
def State.overrun (s : State) (a : Nat) : State :=
  let n := (a - 0x90000000000) / 0x400000000
  { s with cfg := { s.cfg with aliases := Sparse.set {} n { Sparse.get {} n s.cfg.aliases with overrun := true } s.cfg.aliases } }

/-! ## Reads and writes at a home -/

/-- What a home answers: the state, the bytes read, and the failure. -/
structure HomeOut where
  s     : State
  bytes : List Byte
  fail  : Option (BitVec 8)

/-- A failure with its count (R128). -/
def State.homeFail (s : State) (n : Nat) (cause : BitVec 8) : HomeOut :=
  { s := s.countFailure cause, bytes := List.replicate n 0, fail := some cause }

/-- A read through an MX window (R63, R65). -/
def State.mxRead (s : State) (inter : Nat) (w : BitVec 6) (c : BitVec 2) (a n : Nat) : HomeOut :=
  let d := s.aliasOf a
  let off := mxOffset a
  let s1 := if (List.range n).all fun i => d.covers (off + i) then s else s.overrun a
  match (List.range n).findSome? fun i =>
      if d.covers (off + i) then
        ((s.spoiled inter (d.elemAddr ((off + i) / 2)) w c).orElse fun _ => s.spoiled inter (d.scaleAddr.toNat + (off + i) / 64) w c)
      else none with
  | some cause => s1.homeFail n cause
  | none =>
    { s := s1, fail := none, bytes := (List.range n).map fun i =>
        if d.covers (off + i) then BitVec.ofNat 8 (s.aliasImage d inter ((off + i) / 2) >>> (8 * ((off + i) % 2))) else 0 }

/-- The key that a world's compartment has for flash, while it holds it (R125, R127). -/
def State.flashKeyOf (s : State) (w : BitVec 6) (c : BitVec 2) : Option FlashKey :=
  if w = 0 then some {}
  else
    let x := (Table.find w.toNat s.worlds).getD {}
    if c = 0 then (if x.live then some ⟨some x.joint⟩ else none)
    else if c = 1 then (if x.key1 then some ⟨some x.key1Val⟩ else none)
    else if x.key2 then some ⟨some x.key2Val⟩ else none

/-- A read of flash: the bytes as appended where the access has the key of the page (R66, R69, R127). -/
def State.flashRead (s : State) (w : BitVec 6) (c : BitVec 2) (a n : Nat) : HomeOut :=
  if s.mem.poisoned a then s.homeFail n Cause.eccUncorrectable
  else
    let key : FlashKey := (Table.find (a / 4096) s.mem.flashKey).getD {}
    let own := s.flashKeyOf w c == some key
    { s := s, fail := none, bytes := (List.range n).map fun i => if own then s.mem.get (a + i) else Config.flashGarble (a + i) }

/-- The first failure among the aligned 8-byte words of a range (R69, R128). -/
def State.spoiledRange (s : State) (inter a n : Nat) (w : BitVec 6) (c : BitVec 2) : Option (BitVec 8) :=
  (List.range ((n + 7) / 8)).findSome? fun i => s.spoiled inter (a + 8 * i) w c

/-- n bytes at a local address, within 64 aligned bytes, read by an access with these tags (R57, R63, R65, R66, R69, R128). -/
def State.homeRead (s : State) (inter : Nat) (w : BitVec 6) (c : BitVec 2) (a n : Nat) : HomeOut :=
  match regionOf a with
  | .mxWindow => s.mxRead inter w c a n
  | .flash => s.flashRead w c a n
  | _ =>
    match s.spoiledRange inter a n w c with
    | some cause => s.homeFail n cause
    | none => { s := s, bytes := s.readLocal inter a n, fail := none }

/-- Which of the bytes of a masked write are written. -/
def wantsByte (data : List Byte) (mask i : Nat) : Bool := decide (i < data.length) && mask.testBit i

/-- The image that a window write gives element j of block b, whose image was old; none where it writes neither byte (R64). -/
def mxPut (off : Nat) (data : List Byte) (mask b j old : Nat) : Option Nat :=
  let byte (k : Nat) : Option Nat :=
    if off ≤ k && wantsByte data mask (k - off) then some (data.getD (k - off) 0).toNat else none
  match byte (64 * b + 2 * j), byte (64 * b + 2 * j + 1) with
  | none, none => none
  | x, y => some ((x.getD (old % 256)) + 256 * (y.getD (old / 256)))

/-- A write through an MX window (R64, R65). -/
def State.mxWrite (s : State) (inter : Nat) (w : BitVec 6) (c : BitVec 2) (a mask : Nat) (data : List Byte) : HomeOut :=
  let d := s.aliasOf a
  let off := mxOffset a
  let s1 := if (List.range data.length).all fun i => !wantsByte data mask i || d.covers (off + i) then s else s.overrun a
  if !((List.range data.length).any fun i => wantsByte data mask i && d.covers (off + i)) then { s := s1, bytes := [], fail := none }
  else
    match s.aliasSpoiled d inter w c (off / 64) with
    | some cause => s1.homeFail 0 cause
    | none =>
      let img := s.aliasBlock d inter (off / 64) (mxPut off data mask (off / 64))
      { s := s1.aliasStore d inter (off / 64) img.1 img.2, bytes := [], fail := none }

/-- The aligned 8-byte words of SBM that a masked write reaches: whether each is written whole. -/
def sbmWords (len mask : Nat) : List (Nat × Bool) :=
  ((List.range ((len + 7) / 8)).filter fun i => mask >>> (8 * i) % 256 != 0).map fun i =>
    (8 * i, decide (8 * i + 8 ≤ len) && mask >>> (8 * i) % 256 == 255)

/-- Masked bytes written at a location of HBM or SBM that verifies: poisoned units written whole are clean again, and a line of HBM
takes the tag of the write (R69, R127). `whole` says that the store covers whole the units it reaches. -/
def Mem.cellWrite (m : Mem) (k a mask : Nat) (w : BitVec 6) (c : BitVec 2) (data : List Byte) (whole : Bool) : Mem :=
  let clean (x : Mem) (j : Nat) : Mem := if x.poisoned j then { x with poison := Sparse.set false (poisonUnit j) false x.poison } else x
  if regionOf a == .sbm then
    (((sbmWords data.length mask).filter fun p => p.2 || whole).foldl (fun x p => clean x (k + p.1)) m).writeMasked k mask data
  else
    let m2 := (clean m k).writeMasked k mask data
    { m2 with lines := Sparse.set {} (k / 64) (m2.tagFor a w c) m2.lines }

/-- A write of HBM or SBM at its home (R69, R128): within one 32-byte sector of HBM, within 32 aligned bytes of SBM. -/
def State.cellWrite (s : State) (inter : Nat) (w : BitVec 6) (c : BitVec 2) (a mask : Nat) (data : List Byte)
    (sector line : Bool) : HomeOut :=
  let k := s.place inter a
  let spoilt := if regionOf a == .sbm then (sbmWords data.length mask).any fun p => s.mem.poisoned (k + p.1) && !p.2 && !sector
    else s.mem.poisoned k && !sector
  if spoilt then s.homeFail 0 Cause.eccUncorrectable
  else if !s.mem.tagOk k a w c && !line then s.homeFail 0 Cause.cipherIntegrity
  else { s := { s with mem := s.mem.cellWrite k a mask w c data sector }, bytes := [], fail := none }

/-- Masked bytes written at a local address, within 32 aligned bytes, by an access with these tags (R57, R64, R65, R69,
R128). `sector` says that the store covers whole the 32-byte sector or the SBM words it reaches, `line` that it covers the 64-byte line. -/
def State.homeWrite (s : State) (inter : Nat) (w : BitVec 6) (c : BitVec 2) (a mask : Nat) (data : List Byte)
    (sector line : Bool) : HomeOut :=
  match regionOf a with
  | .mxWindow => s.mxWrite inter w c a mask data
  | .flash => { s := s, bytes := [], fail := none }
  | _ => s.cellWrite inter w c a mask data sector line

/-! ## The atomic step (R311 to R313) -/

/-- f(old, v) of the atomics on 64-bit words (R311). -/
def AtomOp.apply64 (op : AtomOp) (old v cmp : DWord) : DWord :=
  match op with
  | .add => old + v
  | .and => old &&& v
  | .or => old ||| v
  | .xor => old ^^^ v
  | .minI => if v.slt old then v else old
  | .maxI => if old.slt v then v else old
  | .minN => if v.ult old then v else old
  | .maxN => if old.ult v then v else old
  | .swap => v
  | .cas => if old = cmp then v else old
  | .fadd | .fmax => old

/-- f(old, v) of the atomics on 32-bit words (R311). -/
def AtomOp.apply32 (op : AtomOp) (old v cmp : Word) : Word :=
  match op with
  | .add => old + v
  | .and => old &&& v
  | .or => old ||| v
  | .xor => old ^^^ v
  | .minI => minS old v
  | .maxI => maxS old v
  | .minN => Sys2Proof.Machine.minN old v
  | .maxN => Sys2Proof.Machine.maxN old v
  | .swap => v
  | .cas => if old = cmp then v else old
  | .fadd => faddWord old v
  | .fmax => fmaxWord old v

/-- f(old, v) at either width. -/
def AtomOp.apply (op : AtomOp) (w64 : Bool) (old v cmp : DWord) : DWord :=
  if w64 then op.apply64 old v cmp else (op.apply32 (loHalf old) (loHalf v) (loHalf cmp)).setWidth 64

/-- One pass of the pairwise tree: neighbours are summed, an odd last element is carried (R313). -/
def treePass : List Word → List Word
  | a :: b :: rest => faddWord a b :: treePass rest
  | l => l

/-- The tree of `atom.fadd`, with as many passes as needed (R313). -/
def treeSum : Nat → List Word → Word
  | 0, l => l.headD 0
  | n + 1, l => match l with
    | [] => 0
    | [x] => x
    | l => treeSum n (treePass l)

/-- The values that the lanes before each position return from `atom.fadd`, and the word it leaves (R313). -/
def faddRets (old : Word) : List Word → List Word → List Word
  | _, [] => []
  | before, v :: rest => (if before.isEmpty then old else faddWord old (treeSum 7 before)) :: faddRets old (before ++ [v]) rest

/-- The returned values and the final word of the lanes of one atomic, in lane order (R313). -/
def seqRets (op : AtomOp) (w64 : Bool) : DWord → List (DWord × DWord) → List DWord × DWord
  | cur, [] => ([], cur)
  | cur, (v, cmp) :: rest =>
    let (rs, last) := seqRets op w64 (op.apply w64 cur v cmp) rest
    (cur :: rs, last)

/-- The atomic step: the value returned to each lane, and the new word (R313). -/
def atomStep (op : AtomOp) (w64 : Bool) (old : DWord) (vals : List (DWord × DWord)) : List DWord × DWord :=
  if op = .fadd then
    let vs := vals.map fun p => loHalf p.1
    ((faddRets (loHalf old) [] vs).map fun r => r.setWidth 64, (faddWord (loHalf old) (treeSum 7 vs)).setWidth 64)
  else seqRets op w64 old vals

end Sys2Proof.Machine
end

