-- ==== Sys2Proof/Machine/Walk.lean ====
section
/-! DEFINITION. The walk of stage tables, the composed translation and the castling cache (R91 to R104, R121). -/

namespace Sys2Proof.Machine

/-- The parts of a stage entry (R97). -/
def entryValid (e : Nat) : Bool := e.testBit 0
/-- SIZE of an entry (R97). -/
def entrySize (e : Nat) : Nat := bits e 11 10
/-- FRAME of an entry, as an address (R97). -/
def entryFrame (e : Nat) : Nat := bits e 55 12 * 4096

/-- A leaf found by a walk: the entry, the address it maps to and its page size. -/
structure Leaf where
  entry : Nat
  addr  : Nat
  size  : Nat
  deps  : List Dep
deriving DecidableEq, Repr

/-- The stage entry that a walk of a context reads at a table level whose entries map 2^shift bytes each (R100). -/
def depAt (ctx va shift : Nat) : Dep := ⟨ctx, va / 2 ^ shift * 2 ^ (shift - 12), 2 ^ (shift - 12)⟩

/-- The sixteen entries of the group of a 64 KiB leaf are identical (R97). -/
def sameGroup (rd : Nat → Except Miss (Nat × List Dep)) (base e : Nat) : Nat → Bool
  | 0 => true
  | n + 1 =>
    (match rd (base + 8 * n) with
     | .ok (x, _) => x == e
     | .error _ => false) && sameGroup rd base e n

/-- The walk of one stage from a table on, with n table levels left (R96, R97). `rd` reads a table word at an address of the
space the tables lie in, `ok` refuses entries the stage treats as VALID clear, and `here` is the miss at this stage. -/
def walkStage (rd : Nat → Except Miss (Nat × List Dep)) (ok : Nat → Nat → Bool) (here : Miss) (ctx va : Nat) :
    Nat → Nat → Except Miss Leaf
  | 0, _ => .error here
  | n + 1, table =>
    let shift := 12 + 9 * n
    let index := if n = 4 then (va >>> 48) % 256 else (va >>> shift) % 512
    match rd (table + 8 * index) with
    | .error m => .error m
    | .ok (e, deps) =>
      if !entryValid e then .error here
      else
        let leaf (size : Nat) : Except Miss Leaf :=
          if ok e size then
            .ok { entry := e, addr := entryFrame e - entryFrame e % size + va % size, size := size, deps := depAt ctx va size.log2 :: deps }
          else .error here
        match entrySize e with
        | 0 =>
          if n = 0 || !ok e 0 then .error here
          else match walkStage rd ok here ctx va n (entryFrame e) with
            | .ok l => .ok { l with deps := l.deps ++ depAt ctx va shift :: deps }
            | .error m => .error m
        | 1 => if n ≥ 3 then .error here else leaf (2 ^ shift)
        | 2 => if n = 0 && sameGroup rd (table + 8 * (index - index % 16)) e 16 then leaf 65536 else .error here
        | _ => .error here

/-- An interleave scheme does not stripe beyond stacks 0 and 1 (R23). -/
def narrow (inter : Nat) : Bool := inter == 1 || inter == 2 || inter == 5 || inter == 6 || inter == 7

/-- Bytes of HBM or SBM are homed on stacks 0 and 1 and SBM slices 0 and 1 alone (R23). -/
def earlyService (inter a size : Nat) : Bool :=
  match regionOf a with
  | .hbm => narrow inter && (a + size - 1) / 0x1000000000 ≤ 1
  | .sbm => (List.range (min 1536 ((a % 256 + size + 255) / 256))).all fun i => ((a - 0x80000000000) / 256 + i) % 1536 / 192 ≤ 1
  | _ => true

/-- The elements and the scales that a part of an MX window leads to, as ranges of local addresses (R62, R63). -/
def State.aliasRanges (s : State) (a size : Nat) : List (Nat × Nat) :=
  let d := s.aliasOf a
  let first := mxOffset a / 2
  let last := min ((mxOffset a + size - 1) / 2) (32 * d.blocks.toNat - 1)
  if !d.covers (mxOffset a) then []
  else [(d.elemAddr first, d.elemAddr last - d.elemAddr first + 1), (d.scaleAddr.toNat + first / 32, last / 32 - first / 32 + 1)]

/-- A frame of this device is in service in the present phase: before PHASE 4 what is homed on stacks and slices 0 and 1 alone, the elements
and scales behind an MX window too, and never a flash stack that failed (R22, R23, R57, R64). -/
def State.inService (s : State) (inter a size : Nat) : Bool :=
  if s.power.phase == 4 then regionOf a != .flash || s.power.flashOk.getLsbD (bits a 41 41)
  else match regionOf a with
    | .mxWindow => narrow inter && (s.aliasRanges a size).all fun r => earlyService inter r.1 r.2
    | .flash => false
    | _ => earlyService inter a size

/-- What makes a root-stage entry count as VALID clear besides its bits: holes, regions that do not match FLASH and MXALIAS,
1 GiB SBM pages, parts not in service, compartments that do not exist (R22, R23, R52, R121). DESIGN CHOICE (log 61): so does a pointer
(size 0) that names flash, an MX window or another device, whatever its bits, and a ROOT_PTB that names no HBM or SBM maps nothing. -/
def State.rootEntryOk (s : State) (e size : Nat) : Bool :=
  let frame := entryFrame e
  let dev := frame / 0x100000000000
  let a := frame % 0x100000000000
  let world := bits e 61 56
  let comp := bits e 63 62
  let tags := if world = 0 then comp == 0 else comp != 3
  if size = 0 then
    s.isOwn dev && (regionOf a == .hbm || regionOf a == .sbm) && !e.testBit 5 && !e.testBit 6 && tags && s.inService plainPattern a 1
  else
    let a0 := a - a % size
    let a1 := a0 + size - 1
    let r := regionOf a0
    let inter := bits e 9 7
    r != .hole && regionOf a1 == r
      && (e.testBit 5 == (r == .flash)) && (e.testBit 6 == (r == .mxWindow))
      && !(r == .sbm && decide (size > 0x200000))
      && !(r == .hbm && decide (a0 / 0x1000000000 ≠ a1 / 0x1000000000))
      && tags
      && (!s.isOwn dev || s.inService inter a0 size)

/-- A table word read at its home under an access's tags (R57, R69, R128, R130). -/
def State.tableWord (s : State) (here : Miss) (inter : Nat) (w : BitVec 6) (c : BitVec 2) (a : Nat) : Except Miss Nat :=
  if s.netFails a 8 then .error { here with why := .tampered }
  else
    let o := s.homeRead inter w c a 8
    match o.fail with
    | some cause => .error { here with why := .spoiled cause }
    | none => .ok (leNat o.bytes)

/-- Reading a word of a root-stage table at the local address of a fabric address: a pointer's FRAME names this device, ROOT_PTB gives
the local address alone (R93, R95). DESIGN CHOICE (log 7): such reads use the plain pattern and the tags of world 0, under which the
host writes, since no entry leads to them. -/
def State.rootTableWord (s : State) (here : Miss) (a : Nat) : Except Miss (Nat × List Dep) :=
  (s.tableWord here plainPattern 0 0 (a % 0x100000000000)).map fun x => (x, [])

/-- The root stage of a context: context virtual address to fabric address and attributes (R95). -/
def State.rootWalk (s : State) (n : Nat) (c : Ctx) (va : Nat) : Except Miss Trans :=
  let here : Miss := { ctx := n, addr := va }
  if regionOf (c.ptb.toNat * 4096) != .hbm && regionOf (c.ptb.toNat * 4096) != .sbm then .error here
  else
    match walkStage (s.rootTableWord here) s.rootEntryOk here n va 5 (c.ptb.toNat * 4096) with
    | .error m => .error m
    | .ok l => .ok
      { dev := BitVec.ofNat 12 (l.addr / 0x100000000000), frame := l.addr % 0x100000000000 / 4096 * 4096, size := l.size
        read := l.entry.testBit 1, write := l.entry.testBit 2, exec := l.entry.testBit 3, pin := l.entry.testBit 4
        flash := l.entry.testBit 5, mx := l.entry.testBit 6, inter := BitVec.ofNat 3 (bits l.entry 9 7)
        world := BitVec.ofNat 6 (bits l.entry 61 56), comp := BitVec.ofNat 2 (bits l.entry 63 62), deps := l.deps }

/-- Reading a word of a child stage's table through the parent's composed translation: an entry that lacks READ makes the walk miss at
the stage whose table it is; a table on another device is read there (R37, R39, R95). -/
def State.childTableWord (s : State) (here : Miss) (r : Except Miss Trans) (a : Nat) : Except Miss (Nat × List Dep) :=
  match r with
  | .error m => .error m
  | .ok t =>
    let at' := t.frame + a % 4096
    if !t.read then .error here
    else if s.isOwn t.dev.toNat then (s.tableWord here t.inter.toNat t.world t.comp at').map fun x => (x, t.deps)
    else
      let fa := t.dev.toNat * 0x100000000000 + at'
      match s.farMiss fa, s.farFails fa 8 with
      | some kind, _ => .error { here with why := .far t.dev at' kind }
      | none, some cause => .error { here with why := .farFailed cause }
      | none, none => .ok (leNat (s.farBytes fa 8), t.deps)

/-- The composed translation of an address through a chain of stages (R95, R98). -/
def State.compose (s : State) : List (Nat × Ctx) → Nat → Except Miss Trans
  | [], va => .error { ctx := 0, addr := va }
  | (n, c) :: rest, va =>
    if rest.isEmpty then s.rootWalk n c va
    else
      let here : Miss := { ctx := n, addr := va }
      match walkStage (fun a => s.childTableWord here (s.compose rest a) a) (fun _ _ => true) here n va 5 c.tableVa.toNat with
      | .error m => .error m
      | .ok l =>
        match s.compose rest (l.addr % 0x100000000000000) with
        | .error m => .error m
        | .ok t => .ok
          { t with size := min l.size t.size, read := t.read && l.entry.testBit 1, write := t.write && l.entry.testBit 2
                   exec := t.exec && l.entry.testBit 3, pin := t.pin && l.entry.testBit 4, deps := l.deps ++ t.deps }

/-- A table word that a walk reads: in this device's memory, or on another device (R37, R57). -/
inductive TableRead where
  | home (a : Nat) (inter : Nat) (w : BitVec 6) (c : BitVec 2)
  | away (dev : BitVec 12) (a : Nat) (w : BitVec 6) (c : BitVec 2)

/-- The words that a walk of one stage reads from a table on, in their order, with n table levels left; `touch` gives what the read of a
word of the table takes. -/
def stageReads (rd : Nat → Except Miss (Nat × List Dep)) (ok : Nat → Nat → Bool) (touch : Nat → List TableRead) (va : Nat) :
    Nat → Nat → List TableRead
  | 0, _ => []
  | n + 1, table =>
    let index := if n = 4 then (va >>> 48) % 256 else (va >>> (12 + 9 * n)) % 512
    touch (table + 8 * index) ++ (match rd (table + 8 * index) with
      | .error _ => []
      | .ok (e, _) =>
        if !entryValid e then []
        else if entrySize e = 0 && n != 0 && ok e 0 then stageReads rd ok touch va n (entryFrame e)
        else if entrySize e = 2 && n = 0 then (List.range 16).flatMap fun i => touch (table + 8 * (index - index % 16 + i))
        else [])

/-- The words that the walk of a chain of stages reads, in their order: of a child's stage, those of its table pages' translations first
(R95). -/
def State.readsOf (s : State) : List (Nat × Ctx) → Nat → List TableRead
  | [], _ => []
  | (n, c) :: rest, va =>
    let here : Miss := { ctx := n, addr := va }
    if rest.isEmpty then
      stageReads (s.rootTableWord here) s.rootEntryOk (fun a => [.home (a % 0x100000000000) plainPattern 0 0]) va 5 (c.ptb.toNat * 4096)
    else
      let rd (a : Nat) := s.childTableWord here (s.compose rest a) a
      let word (a : Nat) : List TableRead := match s.compose rest a with
        | .ok t =>
          if !t.read then []
          else if s.isOwn t.dev.toNat then [.home (t.frame + a % 4096) t.inter.toNat t.world t.comp]
          else [.away t.dev (t.frame + a % 4096) t.world t.comp]
        | .error _ => []
      stageReads rd (fun _ _ => true) (fun a => s.readsOf rest a ++ word a) va 5 c.tableVa.toNat
        ++ (match walkStage rd (fun _ _ => true) here n va 5 c.tableVa.toNat with
          | .ok l => s.readsOf rest (l.addr % 0x100000000000000)
          | .error _ => [])

/-- Where an address of a context stands in the space of one of its ancestors, or in its own (R95). -/
def State.addrIn (s : State) (c : Nat) : List (Nat × Ctx) → Nat → Option Nat
  | [], _ => none
  | (n, x) :: rest, va =>
    if n = c then some va
    else if rest.isEmpty then none
    else
      let here : Miss := { ctx := n, addr := va }
      match walkStage (fun a => s.childTableWord here (s.compose rest a) a) (fun _ _ => true) here n va 5 x.tableVa.toNat with
      | .error _ => none
      | .ok l => s.addrIn c rest (l.addr % 0x100000000000000)

/-- The translation a walk started now finds (R95 to R99). -/
def State.walk (s : State) (ctx va : Nat) : Except Miss Trans := s.compose (s.chainOf ctx) va

/-- Translations of a page held since earlier walks (R100). -/
def State.cached (s : State) (ctx va : Nat) : List Trans :=
  (s.eng.castle.filter fun e => e.ctx == ctx && e.page == va / 4096).map CastEntry.tr

/-- The translation an access takes: the present one, or any cached one that a covering INVAL has not yet removed, by a free
choice of each access (R101). -/
def State.translate (s : State) (salt ctx va : Nat) : Except Miss Trans :=
  match s.cached ctx va with
  | [] => s.walk ctx va
  | olds =>
    let fresh := s.walk ctx va
    let stale := olds.filter fun t => match fresh with | .ok u => decide (t ≠ u) | .error _ => true
    match stale with
    | [] => fresh
    | _ =>
      match stale[Config.pickNat s.freeCtr salt % (stale.length + 1)]? with
      | some t => .ok t
      | none => fresh

/-- The castling cache with one translation more (R100). -/
def State.remember (s : State) (ctx va : Nat) (t : Trans) : State :=
  let e : CastEntry := ⟨ctx, va / 4096, t⟩
  if s.eng.castle.contains e then s else { s with eng := { s.eng with castle := e :: s.eng.castle } }

/-- Whether a stage entry translates, or leads to, a page of a range of a context's stage; zero pages stand for the whole space
(R102, R108). -/
def depCovered (ctx base pages : Nat) (d : Dep) : Bool :=
  d.ctx == ctx && (pages == 0 || (base / 4096 < d.page + d.pages && d.page < base / 4096 + pages))

/-- The castling cache without the entries that depend on a covered stage entry (R103). -/
def State.forget (s : State) (ctx base pages : Nat) : State :=
  { s with eng := { s.eng with castle := s.eng.castle.filter fun e => !e.tr.deps.any (depCovered ctx base pages) } }

/-- Compartment rights of R122: what an access does. `gate` is a write of a gate copy that R123 admits. -/
inductive Access where
  | load | store | fetch | gate
deriving DecidableEq, Repr

/-- Whether world and compartment rules admit an access by a context of a world through a translation (R122). -/
def worldAdmits (w : BitVec 6) (t : Trans) (k : Access) : Bool :=
  t.world == w && (w == 0 || (match k with
    | .load | .gate => true
    | .store => t.comp == 0
    | .fetch => t.comp == 1))

/-- Where a context virtual address leads once translated (R31, R309). -/
def State.targetOf (s : State) (t : Trans) (va : Nat) : Target :=
  if s.isOwn t.dev.toNat then .here (t.frame + va % 4096) t.inter t.world t.comp
  else .away t.dev (t.frame + va % 4096) t.world t.comp

/-! ## The other way: addresses that lead to a place (R38, R44) -/

/-- The addresses of a space that a stage's tables map to an address of the next space, with n table levels left (R96,
R97). -/
def mappedFrom (rd : Nat → Except Miss (Nat × List Dep)) (ok : Nat → Nat → Bool) (a : Nat) : Nat → Nat → Nat → List Nat
  | 0, _, _ => []
  | n + 1, table, va =>
    let shift := 12 + 9 * n
    (List.range (if n = 4 then 256 else 512)).flatMap fun i =>
      match rd (table + 8 * i) with
      | .error _ => []
      | .ok (e, _) =>
        let here := va + i * 2 ^ shift
        let leaf (size at' : Nat) : List Nat :=
          let base := entryFrame e - entryFrame e % size
          if ok e size && decide (base ≤ a) && decide (a < base + size) && decide ((a - base) / 2 ^ shift = at') then
            [here + (a - base) % 2 ^ shift] else []
        if !entryValid e then []
        else match entrySize e with
          | 0 => if n = 0 || !ok e 0 then [] else mappedFrom rd ok a n (entryFrame e) here
          | 1 => if n ≥ 3 then [] else leaf (2 ^ shift) 0
          | 2 => if n = 0 && sameGroup rd (table + 8 * (i - i % 16)) e 16 then leaf 65536 (i % 16) else []
          | _ => []

/-- The addresses of a context that translate to a local address of this device through its chain of stages. -/
def State.mapsTo (s : State) (a : Nat) : List (Nat × Ctx) → List Nat
  | [] => []
  | (n, c) :: rest =>
    if rest.isEmpty then
      mappedFrom (s.rootTableWord { ctx := n, addr := 0 }) s.rootEntryOk (s.fabric.deviceNum.toNat * 0x100000000000 + a) 5 (c.ptb.toNat * 4096) 0
    else
      (s.mapsTo a rest).flatMap fun b =>
        mappedFrom (fun x => s.childTableWord { ctx := n, addr := 0 } (s.compose rest x) x) (fun _ _ => true) b 5 c.tableVa.toNat 0

end Sys2Proof.Machine
end

