-- ==== Sys2Proof/Machine/Access.lean ====
section
/-! DEFINITION. Accesses to a context's memory by the CPX, the CSE and Tempo (R77, R83, R85, R89, R120, R157): in aligned pieces of
up to eight bytes, each translated, checked and performed at its home, or sent to the device it lies on. -/

namespace Sys2Proof.Machine

/-- Where a context virtual address leads for an access, if it may be made (R99, R122). -/
inductive Led where
  | ok (t : Trans)
  | miss (m : Miss)
  | refused (toRoot : Bool)

/-- Composed permission with the world and compartment rules, and flash (R66, R97, R122). DESIGN CHOICE (log 63): the CLE and the CPX, and
the host, read flash too. -/
def Trans.grants (t : Trans) (k : Access) : Bool :=
  match k with
  | .load => t.read
  | .store | .gate => t.write && !t.flash
  | .fetch => t.exec && !t.flash

/-- Translation and permission of one access (R95 to R99, R122). -/
def State.lead (s : State) (salt ctx va : Nat) (k : Access) : Led :=
  if va ≥ 0x100000000000000 then .refused false
  else match s.translate salt ctx va with
    | .error m => .miss m
    | .ok t =>
      let w := (s.ctx ctx).world
      if t.world != w then .refused true
      else if t.grants k && worldAdmits w t k then .ok t else .refused false

/-- The aligned pieces of up to eight bytes of a range; `fuel` bounds their number. -/
def pieces : Nat → Nat → Nat → List (Nat × Nat)
  | 0, _, _ => []
  | fuel + 1, va, n =>
    if n = 0 then []
    else (va, min n (8 - va % 8)) :: pieces fuel (va + min n (8 - va % 8)) (n - min n (8 - va % 8))

/-- The pieces of n bytes from an address on. -/
def piecesOf (va n : Nat) : List (Nat × Nat) := pieces (n / 8 + 2) va n

/-- The parts of a range within 64-byte lines; `fuel` bounds their number. -/
def lineParts : Nat → Nat → Nat → List (Nat × Nat)
  | 0, _, _ => []
  | fuel + 1, va, n =>
    if n = 0 then [] else (va, min n (64 - va % 64)) :: lineParts fuel (va + min n (64 - va % 64)) (n - min n (64 - va % 64))

/-- The parts of n bytes from an address on. -/
def linePartsOf (va n : Nat) : List (Nat × Nat) := lineParts (n / 64 + 2) va n

/-! ## What a walk leaves (R45 to R47, R68, R128, R130) -/

/-- The request for bytes of one aligned 64-byte block of another device, by a context with a SUBTREE: a load, or a store of the bytes
given. -/
def blockRequest (subtree : BitVec 16) (w : BitVec 6) (c : BitVec 2) (a n : Nat) (store : Option (List Byte)) : RemoteReq :=
  { src := 0, seq := 0, subtree := subtree, world := w, comp := c, addr := BitVec.ofNat 44 (a - a % 64)
    bytes := (2 ^ n - 1) * 2 ^ (a % 64)
    kind := match store with
      | none => .load
      | some bs => .store (List.replicate (a % 64) 0 ++ bs ++ List.replicate (64 - a % 64 - bs.length) 0) }

/-- One table word read by a walk for a context: what befalls it at its home, or the request to the device it lies on; and whether the walk
goes on. -/
def State.readTable (s : State) (ctx : Nat) (r : TableRead) : State × Bool :=
  match r with
  | .home a inter w c =>
    let s1 := s.befallRange inter a 8
    (s1, match s1.tableWord { ctx := 0, addr := 0 } inter w c a with | .ok _ => true | .error _ => false)
  | .away dev a w c =>
    match s.farGo ctx (fabricAddr dev a).toNat (blockRequest (s.subtreeOf ctx).1 w c a 8 none) with
    | .gone s1 => (s1, true)
    | .waits s1 | .missed s1 _ | .failed s1 _ => (s1, false)

/-- Table words read one after another, up to the first failure. -/
def State.readTables (ctx : Nat) : List TableRead → State → State
  | [], s => s
  | r :: rest, s => if (s.readTable ctx r).2 then State.readTables ctx rest (s.readTable ctx r).1 else (s.readTable ctx r).1

/-- The walk that an access to an address makes, for what it leaves: none while the page is in the castling cache. A root's walk reads this
device's memory alone, where without an event nothing befalls it. DESIGN CHOICE (log 68): each access that finds no translation cached
walks anew. -/
def State.walkFor (s : State) (ctx va : Nat) : State :=
  if va ≥ 0x100000000000000 || !(s.cached ctx va).isEmpty || (s.input.hits.isEmpty && (s.ctx ctx).level == 0) then s
  else State.readTables ctx (s.readsOf (s.chainOf ctx) va) s

/-! ## Reads while a collective is under way (R44) -/

/-- One piece of a context's memory on this device, as it stands. -/
def State.ownPiece (s : State) (ctx : Nat) (p : Nat × Nat) : List (Option Byte) :=
  match s.lead (0xC000000 + p.1 % 0x1000000) ctx p.1 .load with
  | .ok t => match s.targetOf t p.1 with
    | .here a inter w c =>
      let o := s.homeRead inter.toNat w c a p.2
      if o.fail.isSome then List.replicate p.2 none else o.bytes.map some
    | _ => List.replicate p.2 none
  | _ => List.replicate p.2 none

/-- The bytes of a range of a context's memory on this device, as they stand; none where there is no such byte. -/
def State.ownBytes (s : State) (ctx : Nat) (r : Nat × Nat) : List (Option Byte) := (piecesOf r.1 r.2).flatMap (s.ownPiece ctx)

/-- Element i of a rank's buffer: of this rank as it stands here, of the others as they come with the event (R336). -/
def State.elemOf (s : State) (ctx : Nat) (b : CollBlock) (d r i : Nat) : Nat :=
  if r = d then leNat ((s.ownBytes ctx (b.buf + i * b.elem, b.elem)).map fun x => x.getD 0)
  else elemAt b.elem (s.input.coll.bufs.getD r []) i

/-- The results that an operation has still to write, as far as the event at hand tells the other ranks' elements (R44, R188). -/
def State.coming (s : State) (o : CleOp) (b : CollBlock) : List (Nat × Nat) :=
  match o.left, s.rankOf b with
  | some rs, _ => rs
  | none, some d => b.results d (s.elemOf o.ctx.toNat b d) s.input.coll.tree
  | none, none => []

/-- The byte that an operation under way will put at an address of its context, if it puts one there. -/
def State.comingAt (s : State) (o : CleOp) (va : Nat) : Option Byte :=
  let b := collBlock o.block
  if va < o.outAt || o.outAt + o.outOld.length ≤ va then none
  else ((s.coming o b).find? fun x => x.1 == (va - o.outAt) / b.elem).map fun x =>
    BitVec.ofNat 8 (x.2 / 256 ^ ((va - o.outAt) % b.elem))

/-- The byte that a collective under way will put at a local address of this device, if one does. -/
def State.newByte (s : State) (a : Nat) : Option Byte :=
  s.eng.cle.findSome? fun o => (s.mapsTo a (s.chainOf o.ctx.toNat)).findSome? (s.comingAt o)

/-- A byte of this device will be replaced by a collective under way (R44). -/
def State.mixed (s : State) (a : Nat) : Bool := (s.newByte a).isSome

/-- A read by an agent at its home: where a collective under way will replace a byte, the old or the new one, by a free choice (R44). -/
def State.agentRead (s : State) (inter : Nat) (w : BitVec 6) (c : BitVec 2) (a n : Nat) : HomeOut :=
  let o := s.homeRead inter w c a n
  if s.eng.cle.isEmpty then o
  else { o with bytes := (List.range o.bytes.length).map fun i => match s.newByte (a + i) with
      | some x => if Config.pick s.freeCtr (0x1000000000000 + a + i) then x else o.bytes.getD i 0
      | none => o.bytes.getD i 0 }

/-! ## Accesses of the CPX, the CSE and Tempo -/

/-- What a read by the CPX leaves: the state, and the bytes unless it failed. -/
structure Got where
  s     : State
  bytes : Option (List Byte) := none

/-- The stop record of a context whose access by the CPX, the CSE or Tempo raises a stopping fault: the spec gives these units no
ENGINE_ID. DESIGN CHOICE (log 53). -/
def cpxStop (cause : BitVec 8) (addr : DWord) : StopRec := { engine := 0, cause := cause, addr := addr }

/-- A stopping fault of such an access (R39, R128, R130): REMOTE_PIN_MISS and CIPHER_INTEGRITY. A poisoned unit raises none, since
R69 names no access of these units, and the access fails (log 23). -/
def State.cpxFault (s : State) (ctx : Nat) (cause : BitVec 8) (addr : DWord) : State :=
  if cause = Cause.eccUncorrectable then s else s.raiseHalt ctx (cpxStop cause addr) false none

/-- A remote miss of such an access (R39, R40). -/
def State.cpxMiss (s : State) (ctx : Nat) (dev : BitVec 12) (a : Nat) (kind : BitVec 2) : State :=
  (s.recordOsf ctx dev false kind a).cpxFault ctx Cause.remotePinMiss (fabricAddr dev a)

/-- What a walk that misses leaves (R39, R69, R99, R128). -/
def State.cpxWalkMiss (s : State) (ctx va : Nat) (m : Miss) : State :=
  match m.why with
  | .absent => s
  | .spoiled cause => (s.cpxFault ctx cause (BitVec.ofNat 64 va)).countFailure cause
  | .far dev a kind => s.cpxMiss ctx dev a kind
  | .farFailed cause => s.cpxFault ctx cause (BitVec.ofNat 64 va)
  | .tampered => (s.cpxFault ctx Cause.cipherIntegrity (BitVec.ofNat 64 va)).tamperAlarmed

/-- What the walk of an address, already made, leaves where it missed. -/
def State.cpxMissed (s : State) (salt ctx va : Nat) : State :=
  if va ≥ 0x100000000000000 then s
  else match s.translate salt ctx va with
    | .error m => s.cpxWalkMiss ctx va m
    | .ok _ => s

/-- What a walk of the CPX that no access follows leaves. -/
def State.cpxProbe (s : State) (salt ctx va : Nat) : State := (s.walkFor ctx va).cpxMissed salt ctx va

/-- Taking the miss of a walk for the warp at issue: a recoverable page miss, or a stopping fault, imprecise, where the data of a table word
failed, here or on their device, its device refused the read, or its transfer failed on the network (R39, R69, R128, R130). -/
def Focus.missed (f : Focus) (m : Miss) (va : DWord) : State :=
  let stopped (cause : BitVec 8) : State := f.close.raiseHalt f.ctx (f.stopRec cause false va 0) false (some f.tid)
  match m.why with
  | .absent => f.pageMiss m
  | .spoiled cause => (stopped cause).countFailure cause
  | .far dev a kind =>
    (f.close.recordOsf f.ctx dev false kind a).raiseHalt f.ctx (f.stopRec Cause.remotePinMiss false (fabricAddr dev a) 0) false (some f.tid)
  | .farFailed cause => stopped cause
  | .tampered => (stopped Cause.cipherIntegrity).tamperAlarmed

/-- A number that tells the accesses of the CPX to one page apart from others (R101). -/
def cpxSalt (va : Nat) : Nat := 0x9000000 + va % 0x100000

/-- The end of an access of a context that another device answers: gone, waiting for its plane, refused there, or its data failed there
(R39, R128). -/
def State.cpxFar (s : State) (ctx va : Nat) (dev : BitVec 12) (a : Nat) (q : RemoteReq) (got : State → Option (List Byte)) : Got :=
  match s.farGo ctx (fabricAddr dev a).toNat q with
  | .gone s1 => { s := s1, bytes := got s1 }
  | .waits s1 => { s := s1, bytes := got s1 }
  | .missed s1 kind => { s := s1.cpxMiss ctx dev a kind }
  | .failed s1 cause => { s := s1.cpxFault ctx cause (BitVec.ofNat 64 va) }

/-- One piece read. -/
def State.readPiece (s0 : State) (ctx : Nat) (p : Nat × Nat) : Got :=
  let s := s0.walkFor ctx p.1
  match s.lead (cpxSalt p.1) ctx p.1 .load with
  | .miss m => { s := s.cpxWalkMiss ctx p.1 m }
  | .refused _ => { s := s }
  | .ok t => match s.targetOf t p.1 with
    | .here a inter w c =>
      if s.hitAt a == .networkTag then { s := (s.cpxFault ctx Cause.cipherIntegrity (BitVec.ofNat 64 p.1)).tamperAlarmed }
      else
        let o := (s.befall inter.toNat a (s.hitAt a)).agentRead inter.toNat w c a p.2
        match o.fail with
        | some cause => { s := o.s.cpxFault ctx cause (BitVec.ofNat 64 p.1) }
        | none => { s := o.s, bytes := some o.bytes }
    | .away dev a w c =>
      s.cpxFar ctx p.1 dev a (blockRequest (s.subtreeOf ctx).1 w c a p.2 none) fun t => some (t.farBytes (fabricAddr dev a).toNat p.2)
    | _ => { s := s }

/-- Pieces read one after another, up to the first failure. -/
def readPieces (ctx : Nat) : List (Nat × Nat) → Got → Got
  | [], g => g
  | p :: rest, g =>
    match g.bytes with
    | none => g
    | some bs =>
      let x := g.s.readPiece ctx p
      readPieces ctx rest { x with bytes := x.bytes.map fun y => bs ++ y }

/-- n bytes of a context's memory, or none when a piece fails translation, READ or at its home. -/
def State.readVa (s : State) (ctx va n : Nat) : Got := readPieces ctx (piecesOf va n) { s := s, bytes := some [] }

/-- Every piece of a range may be stored to. -/
def State.canWrite (s : State) (ctx va n : Nat) : Bool :=
  (piecesOf va n).all fun p => match s.lead (cpxSalt p.1) ctx p.1 .store with
    | .ok _ => true
    | _ => false

/-- What a write by the CPX, the CSE or Tempo leaves: the state, and whether all of it was performed or sent. -/
structure Put where
  s  : State
  ok : Bool := true

/-- The aligned span of so many bytes that an address lies in is wholly in a range of n bytes. -/
def spanIn (span va n a : Nat) : Bool := decide (va ≤ a - a % span) && decide (a - a % span + span ≤ va + n)

/-- The 64-byte line of an address lies wholly in a range of n bytes (R128). -/
def lineIn (va n a : Nat) : Bool := spanIn 64 va n a

/-- The unit that an error poisons at an address of HBM or SBM lies wholly in a range of n bytes (R69). -/
def unitIn (r : Region) (va n a : Nat) : Bool := spanIn (if r == .sbm then 8 else 32) va n a

/-- One piece written where its address leads: at its home, or sent to the device it lies on; `whole` is the range written with it, address
and bytes. -/
def State.putTarget (s : State) (ctx va : Nat) (x : Target) (bs : List Byte) (whole : Nat × Nat) : Put :=
  match x with
  | .here a inter w c =>
    if s.netFails a bs.length then { s := (s.cpxFault ctx Cause.cipherIntegrity (BitVec.ofNat 64 va)).tamperAlarmed, ok := false }
    else
      let o := (s.befallRange inter.toNat a bs.length).homeWrite inter.toNat w c a (2 ^ 64 - 1) bs (unitIn (regionOf a) whole.1 whole.2 va)
        (lineIn whole.1 whole.2 va)
      match o.fail with
      | some cause => { s := o.s.cpxFault ctx cause (BitVec.ofNat 64 va), ok := false }
      | none => { s := o.s }
  | .away dev a w c =>
    let g := s.cpxFar ctx va dev a (blockRequest (s.subtreeOf ctx).1 w c a bs.length (some bs)) fun _ => some []
    { s := g.s, ok := g.bytes.isSome }
  | _ => { s := s, ok := false }

/-- One piece written, translated first. -/
def State.writePiece (s0 : State) (ctx : Nat) (p : Nat × Nat) (bs : List Byte) (whole : Nat × Nat) : Put :=
  let s := s0.walkFor ctx p.1
  match s.lead (cpxSalt p.1) ctx p.1 .store with
  | .miss m => { s := s.cpxWalkMiss ctx p.1 m, ok := false }
  | .refused _ => { s := s, ok := false }
  | .ok t => s.putTarget ctx p.1 (s.targetOf t p.1) bs whole

/-- A target in an MX window, of this device or of another. -/
def Target.inWindow (x : Target) : Bool :=
  match x with
  | .here a _ _ _ | .away _ a _ _ => regionOf a == .mxWindow
  | _ => false

/-- An address of a context leads into an MX window. -/
def State.leadsToWindow (s : State) (salt ctx va : Nat) (k : Access) : Bool :=
  match s.lead salt ctx va k with
  | .ok t => (s.targetOf t va).inWindow
  | _ => false

/-- The parts that a range is written in: in an MX window each block at once, else pieces of up to eight bytes (R64, R213). -/
def State.partsAt (s : State) (ctx va n : Nat) : List (Nat × Nat) :=
  (linePartsOf va n).flatMap fun p => if s.leadsToWindow (cpxSalt p.1) ctx p.1 .store then [p] else piecesOf p.1 p.2

/-- Pieces of a range written one after another, each on its own. -/
def writePieces (ctx : Nat) (whole : Nat × Nat) : List (Nat × Nat) → List Byte → Put → Put
  | [], _, r => r
  | p :: rest, bs, r =>
    let x := r.s.writePiece ctx p (bs.take p.2) whole
    writePieces ctx whole rest (bs.drop p.2) { x with ok := r.ok && x.ok }

/-- Bytes written to a context's memory, as far as they may be. -/
def State.putVa (s : State) (ctx va : Nat) (bs : List Byte) : Put :=
  writePieces ctx (va, bs.length) (s.partsAt ctx va bs.length) bs { s := s }

/-- Bytes written to a context's memory. -/
def State.writeVa (s : State) (ctx va : Nat) (bs : List Byte) : State := (s.putVa ctx va bs).s

/-- A record written to a context's memory: bytes 0 to 3, which hold PHASE, after all others (R88, R120, R224). -/
def State.writeRecordVa (s : State) (ctx va : Nat) (bs : List Byte) : State :=
  (writePieces ctx (va, bs.length) (s.partsAt ctx (va + 4) (bs.length - 4) ++ [(va, 4)]) (bs.drop 4 ++ bs.take 4) { s := s }).s

/-- What the first piece of a range that may not be stored to leaves. -/
def State.writeFault (s : State) (ctx : Nat) : List (Nat × Nat) → State
  | [] => s
  | p :: rest => match s.lead (cpxSalt p.1) ctx p.1 .store with
    | .ok _ => s.writeFault ctx rest
    | .miss _ => s.cpxProbe (cpxSalt p.1) ctx p.1
    | .refused _ => s

/-- Bytes written to a context's memory when all of it may be stored to; else none is. -/
def State.tryWrite (s : State) (ctx va : Nat) (bs : List Byte) : Put :=
  if s.canWrite ctx va bs.length then s.putVa ctx va bs else { s := s.writeFault ctx (piecesOf va bs.length), ok := false }

/-! ## Rings -/

/-- The address of a ring: its base, 4 KiB aligned (R76). -/
def ringAddr (base : BitVec 56) : Nat := base.toNat - base.toNat % 4096

/-- The LOG2 fields of rings are within 4 to 16 (R78, R89, R120, R157). -/
def logOk (x : BitVec 5) : Bool := 4 ≤ x.toNat && x.toNat ≤ 16

/-! ## Subtrees on this device -/

/-- Context d is c or one of its descendants (R92, R94). -/
def State.within (s : State) (c d : Nat) : Bool := (s.chainOf d).any fun p => p.1 == c

/-- Context d is a descendant of c. -/
def State.below (s : State) (c d : Nat) : Bool := d != c && (s.ctx d).live && s.within c d

/-- The live contexts of c's subtree, ascending. -/
def State.subtree (s : State) (c : Nat) : List Nat :=
  (s.ctxs.filter fun p => p.2.live && s.within c p.1).map Prod.fst

/-- Two subtrees on this device overlap (R116). -/
def State.overlap (s : State) (c d : Nat) : Bool := s.within c d || s.within d c

/-- The member context of a subtree on this device (R38, R92). DESIGN CHOICE (log 52): of several contexts with one SUBTREE, the lowest-numbered. -/
def State.member (s : State) (t : BitVec 16) : Option Nat :=
  ((s.ctxs.filter fun p => p.2.live && (s.subtreeOf p.1).1 == t).map Prod.fst).head?

/-! ## Watchpoints (R206, R207) -/

/-- A watchpoint with its address translated now (R207). -/
def State.translateWatch (s : State) (c : Nat) (w : Watch) : Watch :=
  match s.walk c w.addr.toNat with
  | .ok t => { w with unmapped := false, fabric := some (t.dev ++ BitVec.ofNat 44 (t.frame + w.addr.toNat % 4096))
                      deps := t.deps.map fun d => (d.ctx, d.page, d.pages) }
  | .error m => { w with unmapped := true, fabric := none, deps := [(m.ctx, m.addr / 4096, 1)] }

/-- An INVAL of a range of a context's stage covers a watchpoint of context c: the whole space, which zero pages stand for, the place of
its address in that stage, a stage entry that its translation read, or the page of a stage that it missed (R102, R207). -/
def State.invalCovers (s : State) (d base pages c : Nat) (w : Watch) : Bool :=
  pages == 0 || w.deps.any (fun x => depCovered d base pages ⟨x.1, x.2.1, x.2.2⟩)
    || (match s.addrIn d (s.chainOf c) w.addr.toNat with
      | none => false
      | some a => base / 4096 ≤ a / 4096 && a / 4096 < base / 4096 + pages)

/-- The four watchpoints of a context, those that an INVAL covers translated again (R206, R207). -/
def State.refreshWatches (d base pages : Nat) (s : State) (c : Nat) : State :=
  (List.range 4).foldl (fun st k =>
    let w := (Table.find k (s.ctx c).watch).getD {}
    if s.invalCovers d base pages c w then st.modCtx c fun x => { x with watch := Table.put k (s.translateWatch c w) x.watch } else st) s

/-- The same for a context and its descendants, whose walks an INVAL of its stage reaches. -/
def State.refreshSubtree (s : State) (d base pages : Nat) : State := (s.subtree d).foldl (State.refreshWatches d base pages) s

/-- A byte mask of 16 for n bytes at an offset in a 16-byte range. -/
def byteSpan (off n : Nat) : BitVec 16 := BitVec.ofNat 16 ((2 ^ n - 1) * 2 ^ off)

/-- The bytes of a watch range that an access of n bytes at `a` reaches, when both lie in one address space (R207). -/
def watchHit (base : Nat) (mask : BitVec 16) (a n : Nat) : BitVec 16 :=
  let lo := base - base % 16
  if a + n ≤ lo || lo + 16 ≤ a then 0
  else
    let s := max a lo
    mask &&& byteSpan (s - lo) (min (a + n) (lo + 16) - s)

end Sys2Proof.Machine
end

