-- ==== Sys2Proof/Machine/Life.lean ====
section
/-! DEFINITION. What follows when a warp's waits end: parked threads continue (R161), barrier phases complete (R178), the stage counter
advances (R332), gates are released and open (R90, R320), grace periods start and end (R154, R155, R348), register pages are
served (R152), a team deadlocks (R164) or exits (R344). -/

namespace Sys2Proof.Machine

/-! ## Tokens (R172) -/

/-- The count of a token. -/
def Warp.token (w : Warp) (k : BitVec 3) : Nat := w.tokens.getD k.toNat 0

/-- One operation more bound to a token. -/
def Warp.bindTo (w : Warp) (k : BitVec 3) : Warp := { w with tokens := modifyAt (fun n => n + 1) k.toNat w.tokens }

/-- One operation of a token complete. -/
def Warp.lower (w : Warp) (k : BitVec 3) : Warp := { w with tokens := modifyAt (fun n => n - 1) k.toNat w.tokens }

/-- Every token of a mask holds 0. -/
def Warp.tokensZero (w : Warp) (m : Byte) : Bool := (List.range 8).all fun k => !m.getLsbD k || w.tokens.getD k 0 == 0

/-- A uniform register written by a completed `tst`, a later write leaving either value (R171, R338). -/
def PendCell.enter (ctr salt : Nat) (w : Warp) (c : PendCell) : Warp :=
  match c.val with
  | none => w
  | some x => if c.rewritten && Config.pick ctr (0xA000000 + salt * 0x200 + c.reg) then w else { w with uni := Sparse.set 0 c.reg x w.uni }

/-- What a `wait` on a mask makes readable: the results of `tst`, and the tile records of copy entries (R224, R338). -/
def Warp.passWait (ctr : Nat) (m : Byte) (w : Warp) : Warp :=
  let covers (k : BitVec 3) : Bool := m.getLsbD k.toNat
  let mine := w.pend.filter fun p => match p.tok with | some k => covers k | none => false
  let w1 := mine.foldl (fun x p => p.cells.foldl (PendCell.enter ctr mine.length) x) w
  { w1 with
    pend := w.pend.filter fun p => match p.tok with | some k => !covers k | none => true
    stale := w.stale.filter fun t => !covers t.tok }

/-! ## Stop requests (R196) -/

/-- A stop request stands on the warps of a team, or the team is not resident: its parked threads stay parked. -/
def State.stopStands (s : State) (tm : Team) : Bool := s.isFrozen (s.ctxOf tm) || tm.ask != .none || tm.place != .resident

/-! ## Rings -/

/-- The address of record i of a completion ring (R88). -/
def Queue.recPlace (q : Queue) (i : Word) : Nat := ringAddr q.crBase + i.toNat % 2 ^ q.crLog2.toNat * 32

/-- A completion ring is full before its record i: the difference equals its length (R89). -/
def Queue.fullAt (q : Queue) (i : Word) : Bool := (i - q.crRead).toNat == 2 ^ q.crLog2.toNat

/-- The ring of slot q can take a record behind the n that wait for it (R89). -/
def State.ringTakes (s : State) (q n : Nat) : Bool :=
  let x := s.queue q
  let i := x.crWrite + BitVec.ofNat 32 n
  match x.owner with
  | none => false
  | some c =>
    logOk x.crLog2 && (List.range (n + 1)).all (fun j => !x.fullAt (x.crWrite + BitVec.ofNat 32 j)) && s.canWrite c.toNat (x.recPlace i) 32

/-- The completion ring of a team's bundle has room for a `cpost` record (R89, R352). -/
def State.cpostRoom (s : State) (tm : Team) : Bool :=
  match s.bundle? tm.bundle with
  | none => false
  | some b => s.ringTakes b.ring.toNat (s.queue b.ring.toNat).waiting.length

/-- Room in a context's deferred-free queue (R156). -/
def State.dfreeRoom (s : State) (c : Nat) : Nat := 4096 - (s.ctx c).tempo.deferred.length

/-! ## Gates (R90, R320) -/

/-- Teams of a kernel's grid. -/
def Kernel.total (k : Kernel) : Nat := k.gridX * k.gridY * k.gridZ

/-- Every team of a bundle has released gate g or exited. -/
def State.released (s : State) (p g : Nat) : Bool :=
  match s.bundle? p with
  | none => true
  | some b => b.kernels.all (fun k => k.total ≤ k.nextTeam) && s.teams.all fun t => t.2.bundle != p || t.2.exited || t.2.gateRel.getLsbD g

/-- Gate g of a bundle is open. -/
def State.gateOpen (s : State) (b g : Nat) : Bool :=
  match s.bundle? b with
  | none => true
  | some x => match Table.find g x.binds with
    | none => true
    | some p => s.released p g

/-- Gates that every warp left of a team has executed `dlrel` for; all of them when none is left (R320). -/
def Team.dlrelMask (tm : Team) : BitVec 16 :=
  tm.warps.foldl (fun m w => if w.exited then m else m &&& w.dlrel) 0xFFFF

/-- A team's releases brought up to date. -/
def Team.releaseGates (tm : Team) : Team := { tm with gateRel := tm.gateRel ||| tm.dlrelMask }

/-! ## Barriers (R178, R316) -/

/-- A thread keeps a barrier's phase from completing. -/
def Thread.missing (n : Nat) (t : Thread) : Bool := t.alive && !t.arrived.getLsbD n

/-- Every thread of the team that has not exited has arrived at barrier n, and one is left. -/
def Team.phaseOver (tm : Team) (n : Nat) : Bool :=
  tm.warps.all (fun w => !(w.threads.any (Thread.missing n)) && (w.zug.isNone || w.exited)) && !tm.exited

/-- A barrier's phase completes: its phase bit inverts and its set empties. -/
def Team.completePhase (tm : Team) (n : Nat) : Team :=
  { tm with
    phase := tm.phase ^^^ (1#16 <<< n)
    warps := tm.warps.map fun w => w.mapThreads fun t => { t with arrived := t.arrived &&& ~~~(1#16 <<< n) } }

/-- Every phase that is over completes. -/
def Team.settleBarriers (tm : Team) : Team :=
  (List.range 16).foldl (fun t n => if t.phaseOver n then t.completePhase n else t) tm

/-! ## Exits (R344) -/

/-- A thread parked at a safe point. -/
def Thread.atSpt (t : Thread) : Bool :=
  match t.park with
  | .spt _ => true
  | _ => false

/-- An exiting thread may exit: results returned, tokens 0, the store queue drained. -/
def Warp.drained (w : Warp) : Bool := !w.outstanding && w.tokensZero 0xFF && w.mem.isEmpty

/-- The exiting threads of a drained warp that has lost no access (R39) exit; a warp left without threads owes no grace period (R155). -/
def Warp.finishExits (w : Warp) : Warp :=
  if w.drained && !w.lost then
    let w1 := w.mapThreads fun t => if t.park == .exiting then { t with park := .exited } else t
    if w1.exited then { w1 with owes := false, clearing := none, trailing := none } else w1
  else w

/-- A warp on which a stop request stands and whose threads left are all at safe points outside read-side sections passes its safe
point, also where the exit of another thread brings it there (R155, R196). -/
def Warp.passStopped (stands : Bool) (w : Warp) : Warp :=
  if stands && w.owes && w.clearing.isNone && !w.exited && w.rsec == 0 && w.threads.all fun t => !t.alive || t.atSpt then
    { w with clearing := some w.nextReq }
  else w

/-! ## Stages (R332) -/

/-- STAGE as the warps' counts give it: the least count of those not exited, or the greatest of all when none is left. -/
def Team.stageGoal (tm : Team) : Nat :=
  let live := tm.warps.filter fun w => !w.exited
  match live with
  | [] => tm.warps.foldl (fun n w => max n w.cstage) 0
  | w :: rest => rest.foldl (fun n x => min n x.cstage) w.cstage

/-- The value captured for a stage and register: by the lowest-numbered warp not exited that captured for the stage, else by
the lowest-numbered that did, else zero. -/
def Team.captured (tm : Team) (s r : Nat) : DWord :=
  let caps (w : Warp) : Bool := w.dyn.any fun d => d.1 == s
  let ws := (tm.warps.filter fun w => !w.exited && caps w) ++ tm.warps.filter caps
  match ws with
  | [] => 0
  | w :: _ => match w.dyn.find? fun d => d.1 == s && d.2.1 == r with
    | some d => d.2.2
    | none => 0

/-- The value an entry's DYN_REG adds to SRC. At stage 0 it is the pair as the arguments preload it. -/
def Team.dynOf (tm : Team) (e : SchedEntry) : DWord :=
  let r := e.dynReg.toNat
  if r < 128 then 0
  else if e.stage = 0 then pairOf ((tm.warp 0).uRaw (r - 128)) ((tm.warp 0).uRaw (r - 127))
  else tm.captured e.stage (r - 128)

/-- The operations bound for a stage complete. -/
def Team.stageDone (tm : Team) (s : Nat) : Team :=
  { tm with warps := tm.warps.map fun w =>
      let mine := w.bound.filter fun b => b.1 == s
      let w1 := mine.foldl (fun x b => x.lower b.2) w
      { w1 with bound := w.bound.filter fun b => b.1 != s } }

/-- The entries of one stage released, as work of warp `by` (R191, R332). -/
def State.releaseStage (s : State) (tid by' st : Nat) : State :=
  match s.team? tid with
  | none => s
  | some tm =>
    let k := s.kernelOf tm
    let idx := (List.range k.sched.length).filter fun i => match k.sched[i]? with | some e => e.stage == st | none => false
    let ops := idx.map fun i => (i, match k.sched[i]? with | some e => tm.dynOf e | none => 0)
    let tm1 := { tm with warps := tm.warps.map fun w => { w with dyn := w.dyn.filter fun d => d.1 != st } }
    if ops.isEmpty then s.setTeam tid (tm1.stageDone st)
    else
      let new := (List.range ops.length).filterMap fun j => (ops[j]?).map fun o =>
        ({ id := s.eng.nextId + j, team := tid, entry := o.1, stage := st, dyn := o.2, warp := by' } : TceOp)
      { s.setTeam tid tm1 with eng := { s.eng with tce := s.eng.tce ++ new, nextId := s.eng.nextId + ops.length } }

/-- The stage counter advances to what the warps' counts give, stage by stage. -/
def State.advanceStage (s : State) (tid by' : Nat) : State :=
  match s.team? tid with
  | none => s
  | some tm =>
    (List.range (tm.stageGoal - tm.stage)).foldl (fun st i => st.releaseStage tid by' (tm.stage + 1 + i))
      (s.setTeam tid { tm with stage := max tm.stage tm.stageGoal })

/-! ## Grace periods (R154 to R156, R348) -/

/-- Teams of a context. -/
def State.teamsOf (s : State) (c : Nat) : List (Nat × Team) := s.teams.filter fun p => s.ctxOf p.2 == c

/-- A team out of its core. -/
def Team.away (tm : Team) : Bool :=
  match tm.place with
  | .saved _ _ _ _ => true
  | _ => false

/-- Every thread left of a warp is parked at a safe point. -/
def Warp.atSpt (w : Warp) : Bool := w.threads.all fun t => !t.alive || t.atSpt

/-- A warp parked at `gpw`. -/
def Warp.atGpw (w : Warp) : Bool := w.threads.any fun t => t.park == .gpw

/-- Whether a warp owes a grace period that starts now (R155). -/
def owesNow (frozen out : Bool) (w : Warp) : Bool :=
  !w.exited && !(w.rsec == 0 && (out || w.zug.isSome || w.atGpw || (frozen && w.atSpt)))

/-- Every warp of a context changed. -/
def State.mapWarps (s : State) (c : Nat) (f : Team → Warp → Warp) : State :=
  { s with teams := s.teams.map fun p => if s.ctxOf p.2 == c then (p.1, { p.2 with warps := p.2.warps.map (f p.2) }) else p }

/-- A period starts (R154, R155). -/
def State.startPeriod (s : State) (c : Nat) : State :=
  (s.modCtx c fun x => { x with tempo := { x.tempo with running := true, wanted := false } }).mapWarps c fun tm w =>
    { w with owes := owesNow (s.isFrozen c) tm.away w, clearing := none, trailing := none }

/-- The tag a `gpw` or `dfree` takes, and the state with the period it starts or asks for (R154). -/
def State.takeTag (s : State) (c : Nat) : Nat × State :=
  let t := (s.ctx c).tempo
  if t.running then (t.gen + 2, s.modCtx c fun x => { x with tempo := { x.tempo with wanted := true } })
  else (t.gen + 1, s.startPeriod c)

/-- A warp that passes a quiescent point clears its debt once its earlier loads and atomics have returned (R155, R348). -/
def Warp.passQuiet (w : Warp) : Warp := if w.owes then { w with clearing := some w.nextReq } else w

/-- A debt whose loads and atomics have returned is cleared (R348). -/
def Warp.clearDebt (w : Warp) : Warp :=
  match w.clearing with
  | some n => if w.waitsRet n then w else { w with owes := false, clearing := none, trailing := some n }
  | none => w

/-- The accesses that a warp issued before its quiescent point are performed (R348). -/
def Warp.dropTrail (w : Warp) : Warp :=
  match w.trailing with
  | some n => if w.waitsPerf n then w else { w with trailing := none }
  | none => w

/-- The debt of a warp, and what it still owes the period's end, brought up to date (R348). -/
def Warp.settleDebt (w : Warp) : Warp := w.clearDebt.dropTrail

/-- A warp keeps a period from ending: it owes it, or accesses of it before its quiescent point are not performed (R155, R348). -/
def Warp.holdsPeriod (w : Warp) : Bool := w.owes || w.trailing.isSome

/-- The period in progress ends when no warp owes it and every access before a quiescent point is performed, and a tagged one starts (R154,
R155, R348). -/
def State.endPeriod (s : State) (c : Nat) : State :=
  let t := (s.ctx c).tempo
  if t.running && !((s.teamsOf c).any fun p => p.2.warps.any Warp.holdsPeriod) then
    let s1 := s.modCtx c fun x => { x with tempo := { x.tempo with gen := t.gen + 1, running := false } }
    if t.wanted then s1.startPeriod c else s1
  else s

/-- The debts of a context brought up to date; a period started on the way may end at once. -/
def State.settleTempo (s : State) (c : Nat) : State :=
  ((s.mapWarps c fun _ w => w.settleDebt).endPeriod c).endPeriod c

/-! ## Parked threads continue -/

/-- A parked thread goes on behind the instruction it is parked at. -/
def Thread.goOn (t : Thread) : Thread := { t with park := .none, pc := t.pc + 4 }

/-- One thread of a warp on which no stop request stands, the wait it is parked for being over (R155, R172, R203, R316, R319). -/
def State.wakeThread (s : State) (tm : Team) (w : Warp) (t : Thread) : Thread :=
  match t.park with
  | .spt _ => { t with park := .none }
  | .bar n => if t.arrived.getLsbD n then t else t.goOn
  | .gate g => if s.gateOpen tm.bundle g then t.goOn else t
  | .gpw => if w.gpwTag ≤ (s.ctx (s.ctxOf tm)).tempo.gen then t.goOn else t
  | .wait m => if w.tokensZero m then t.goOn else t
  | .cpost => if s.cpostRoom tm then { t with park := .none } else t
  | .dfree => if (w.threads.filter fun x => x.park == .dfree).length ≤ s.dfreeRoom (s.ctxOf tm) then { t with park := .none } else t
  | _ => t

/-- The mask of the waits that a warp's parked threads complete. -/
def Warp.waitMask (w : Warp) : Byte :=
  w.threads.foldl (fun m t => match t.park with
    | .wait x => if w.tokensZero x then m ||| x else m
    | _ => m) 0

/-- One warp of a team brought up to date. -/
def State.wakeWarp (s : State) (tm : Team) (w : Warp) : Warp :=
  if w.zug.isSome then w
  else
    let w1 := if w.waitMask = 0 then w else w.passWait s.freeCtr w.waitMask
    w1.mapThreads (s.wakeThread tm w)

/-- Every team on which no stop request stands brought up to date. -/
def State.wakeAll (s : State) : State :=
  { s with teams := s.teams.map fun p => if s.stopStands p.2 then p else (p.1, { p.2 with warps := p.2.warps.map (s.wakeWarp p.2) }) }

/-! ## Register pages (R152, R168) -/

/-- A team holds its core. -/
def Team.holds (tm : Team) : Bool := !tm.away

/-- A warp holds register pages of a slot. -/
def Warp.holdsPages (w : Warp) : Bool := !w.exited && w.zug.isNone

/-- Warps that hold pages of a slot of a core: team, warp number, lanes, record. -/
def State.slotWarps (s : State) (core slot : Nat) : List (Nat × Nat × Nat × Warp) :=
  s.teams.flatMap fun p => if !p.2.holds then [] else
    (List.range p.2.warps.length).filterMap fun n =>
      let w := p.2.warp n
      if w.core == core && w.slot == slot && w.holdsPages then some (p.1, n, (s.kernelOf p.2).lanes, w) else none

/-- Two aligned ranges of lanes share a lane octet. -/
def octetsMeet (a n b m : Nat) : Bool := decide (a < b + m) && decide (b < a + n)

/-- Pages in use of the lane octet that begins at a lane. -/
def octetUsed (ws : List (Nat × Nat × Nat × Warp)) (lane : Nat) : Nat :=
  ws.foldl (fun n x => if x.2.2.2.base ≤ lane && lane < x.2.2.2.base + x.2.2.1 then n + x.2.2.2.pages else n) 0

/-- A range of lanes has so many free pages in every octet. -/
def rangeFree (ws : List (Nat × Nat × Nat × Warp)) (base lanes pages : Nat) : Bool :=
  (List.range (lanes / 8)).all fun i => octetUsed ws (base + 8 * i) + pages ≤ 32

/-- A warp parked at `ralloc`. -/
def Warp.atRalloc (w : Warp) : Bool := w.threads.any fun t => t.park == .ralloc

/-- The priority of a team's bundle. -/
def State.priorityOf (s : State) (tm : Team) : Nat := ((s.bundle? tm.bundle).map Bundle.priority).getD 0

/-- A parked warp goes before another: PRIORITY, then the order of parking. -/
def parkedBefore (pa : Nat) (a : Warp) (pb : Nat) (b : Warp) : Bool := decide (pa > pb) || (pa == pb && decide (a.rallocAt < b.rallocAt))

/-- The warps parked at `ralloc` in a slot, in their order: team, warp number, priority, lanes, record. -/
def State.parkedRallocs (s : State) (core slot : Nat) : List (Nat × Nat × Nat × Nat × Warp) :=
  let all := (s.slotWarps core slot).filterMap fun x =>
    if x.2.2.2.atRalloc then
      match s.team? x.1 with
      | some tm => some (x.1, x.2.1, s.priorityOf tm, x.2.2.1, x.2.2.2)
      | none => none
    else none
  let before (a b : Nat × Nat × Nat × Nat × Warp) : Bool := parkedBefore a.2.2.1 a.2.2.2.2 b.2.2.1 b.2.2.2.2
  all.foldl (fun l x => (l.takeWhile fun y => before y x) ++ x :: l.dropWhile fun y => before y x) []

/-- A warp grown by its request: the new registers read zero (R168). -/
def Warp.grow (w : Warp) : Warp :=
  { w with pages := w.pages + w.rallocAsk, rallocAsk := 0, lastSpt := none, threads := w.threads.map fun t => if t.park == .ralloc then t.goOn else t }

/-- Parked warps served in their order; `held` are the ranges of those before that stay parked. A warp on which a stop request
stands stays parked, but for one whose `ralloc` issues at this moment, of order `fresh`. -/
def State.serveList (core slot fresh : Nat) : List (Nat × Nat × Nat × Nat × Warp) → List (Nat × Nat) → State → State
  | [], _, s => s
  | (t, n, _, lanes, w) :: rest, held, s =>
    let stuck := w.rallocAt != fresh && (match s.team? t with | some tm => s.stopStands tm | none => true)
    if !stuck && !(held.any fun h => octetsMeet h.1 h.2 w.base lanes) && rangeFree (s.slotWarps core slot) w.base lanes w.rallocAsk then
      State.serveList core slot fresh rest held (s.modWarp t n Warp.grow)
    else State.serveList core slot fresh rest ((w.base, lanes) :: held) s

/-- A slot's parked warps served (R152). -/
def State.serveSlot (s : State) (core slot fresh : Nat) : State :=
  State.serveList core slot fresh (s.parkedRallocs core slot) [] s

/-- Slots that hold a warp parked at `ralloc`. -/
def State.rallocSlots (s : State) : List (Nat × Nat) :=
  (s.teams.flatMap fun p => p.2.warps.filterMap fun w => if w.atRalloc then some (w.core, w.slot) else none).eraseDups

/-- Every such slot served. -/
def State.serveAll (s : State) : State := s.rallocSlots.foldl (fun st p => st.serveSlot p.1 p.2 0) s

/-! ## Deadlock (R164) -/

/-- A thread parked at the waiting part of a `bar` or at a marked branch. -/
def Thread.atMeeting (t : Thread) : Bool :=
  match t.park with
  | .bar _ | .marked _ => true
  | _ => false

/-- The offsets of threads parked at marked branches; another park counts as offset none. -/
def Thread.markedAt (t : Thread) : Option Word :=
  match t.park with
  | .marked _ => some t.pc
  | _ => none

/-- The threads left of a team. -/
def Team.left (tm : Team) : List Thread := tm.warps.flatMap fun w => w.threads.filter Thread.alive

/-- Every thread left is parked at a marked branch of one offset (R162). -/
def Team.meets (tm : Team) : Option Word :=
  match tm.left with
  | [] => none
  | t :: rest => match t.markedAt with
    | none => none
    | some pc => if rest.all fun x => x.markedAt == some pc then some pc else none

/-- The team is deadlocked: all its threads wait for one another, and no phase or rendezvous can complete. -/
def Team.deadlocked (tm : Team) : Bool := !tm.left.isEmpty && tm.left.all Thread.atMeeting && tm.meets.isNone

/-- The lowest lane's thread that is parked, of a list of threads. -/
def lowestParked (ts : List Thread) : Option Thread :=
  (ts.filter fun t => t.alive && t.park != .none).foldl (fun m t => match m with
    | none => some t
    | some x => if t.lane < x.lane then some t else some x) none

/-- TEAM_DEADLOCK raised when it holds (R164, R185). No check is made while the team is frozen, stopping or saved. -/
def State.checkDeadlock (s : State) (tid : Nat) : State :=
  match s.team? tid with
  | none => s
  | some tm =>
    if !tm.deadlocked || s.stopStands tm || s.isHalted (s.ctxOf tm) then s
    else match (List.range tm.warps.length).findSome? fun n => (lowestParked (tm.warp n).threads).map fun t => (n, t) with
      | none => s
      | some (n, t) =>
        s.raiseHalt (s.ctxOf tm)
          { engine := 0, cause := Cause.teamDeadlock, precise := true, unit := BitVec.ofNat 16 (tm.warp n).core, warp := BitVec.ofNat 16 n
            team := BitVec.ofNat 32 tm.index, userTag := (tm.warp n).userTag, pcOrOp := t.pc.setWidth 64 } false (some tid)

/-! ## After a change -/

/-- A team whose last warp has exited gives up everything it holds, once the copies it released are done (R344). -/
def State.reap (s : State) (tid : Nat) : State :=
  match s.team? tid with
  | none => s
  | some tm =>
    if tm.exited && !(s.eng.tce.any fun o => o.team == tid) then
      let s1 := match s.bundle? tm.bundle with
        | some b => s.setBundle tm.bundle { b with places := Table.put (tm.kernel * 0x100000000 + tm.index) tm.core b.places }
        | none => s
      { s1 with teams := Table.drop tid s1.teams }
    else s

/-- The exits of one warp of a team, and the stages that they reach, which are that warp's work (R191, R332, R344). -/
def State.settleWarp (tid : Nat) (s : State) (n : Nat) : State :=
  match s.team? tid with
  | none => s
  | some tm =>
    if tm.away then s
    else
      let w := (tm.warp n).finishExits.passStopped (s.stopStands tm)
      let s1 := s.setTeam tid (tm.setWarp n w)
      if w.exited && !(tm.warp n).exited then s1.advanceStage tid n else s1

/-- The exits, barriers, gates and stages of one team brought up to date, warp `by` having made the change. A stage without entries may
let a further warp exit, so that as many rounds are made as the team has warps. -/
def State.settleTeam (s : State) (tid by' : Nat) : State :=
  match s.team? tid with
  | none => s
  | some tm =>
    let ns := List.range tm.warps.length
    let s1 := ns.foldl (fun st _ => ns.foldl (State.settleWarp tid) st) (s.advanceStage tid by')
    s1.modTeam tid fun t => if t.away then t else t.settleBarriers.releaseGates

/-- A team still holds one of some cores for a PREEMPT: it is asked to stop, or it stops for a recoverable fault (R114, R151). -/
def State.stillVacating (s : State) (cores : List Nat) (tm : Team) : Bool :=
  tm.ask == .preempt
    || (tm.ask == .fault && tm.holds && (cores.contains tm.core || ((s.kernelOf tm).pair && cores.contains (tm.core + 1))))

/-- A PREEMPT completes when the cores it chose are vacated (R114, R151). -/
def State.settlePreempts (s : State) : State :=
  s.eng.cmds.foldl (fun st c =>
    match c.kind, c.queue with
    | .preempt cores, some (q, p) =>
      if st.teams.any fun t => st.stillVacating cores t.2 && st.within c.ctx.toNat (st.ctxOf t.2) then st
      else ({ st with eng := { st.eng with cmds := st.eng.cmds.filter fun x => x.id != c.id } } : State).complete q.toNat p Status.ok
        (BitVec.ofNat 128 cores.length)
    | _, _ => st) s

/-- What follows from a change of one warp: its team's exits, barriers, stages and gates, the context's grace periods, every
wait that is over, and a deadlock. -/
def State.after (s : State) (tid by' : Nat) : State :=
  match s.team? tid with
  | none => s
  | some tm => ((((((s.settleTeam tid by').settleTempo (s.ctxOf tm)).wakeAll).serveAll).checkDeadlock tid).reap tid).settlePreempts

end Sys2Proof.Machine
end

