-- ==== Sys2Proof/Machine/CrossLane.lean ====
section
/-! DEFINITION. Meanings of the cross-lane reads and of the PCOL, WRED and PFX groups (R299 to R303), whose results are outstanding
until they return, and of the return of a result (R170, R171). -/

namespace Sys2Proof.Machine

/-- The value of vector register r of lane j as the reader in lane L takes it: each reader chooses by itself (R171, R299). -/
def Focus.vFor (f : Focus) (reader j r : Nat) : Word := f.v (16 + reader) j r

/-- The outstanding result of a vector register of one lane. -/
def Focus.vCell (f : Focus) (d : Reg) (lane : Nat) (x : Word) : PendCell :=
  { lane := lane, uni := false, reg := f.wp.vIndex d.toNat, val := some x }

/-- The outstanding result of a uniform register. -/
def uCell (r : Nat) (x : Word) : PendCell := { lane := 0, uni := true, reg := r, val := some x }

/-- A result becomes outstanding (R170, R171). -/
def Warp.produce (w : Warp) (cells : List PendCell) : Warp := { w with pend := w.pend ++ [{ req := none, cells := cells }] }

/-- The issue of a producer inside the warp: nothing is outstanding when no thread takes part (R264). -/
def prodIssue (i : Instr) (h : Hdr) (cells : Focus → List Nat → List PendCell) (s : State) : Host.Outcome State Fault Refusal :=
  regIssue i h.s h.g (fun f part w => if part.isEmpty then w else w.produce (cells f part)) s

/-- A cross-lane read from the lane that `src` names for each reader, if it names one (R300). -/
def xlIssue (i : Instr) (h : Hdr) (d a : Reg) (src : Focus → Nat → Option Nat) (s : State) : Host.Outcome State Fault Refusal :=
  prodIssue i h (fun f part => part.map fun l =>
    let j := match src f l with
      | some j => if j < f.k.lanes && part.contains j then j else l
      | none => l
    f.vCell d l (f.vFor l j a.toNat)) s

/-- A uniform result of the predicates of the lanes that take part (R301). -/
def pcolIssue (i : Instr) (h : Hdr) (d : Reg) (a : PReg) (val : List Nat → List Nat → Word) (s : State) :
    Host.Outcome State Fault Refusal :=
  prodIssue i h (fun f part => [uCell d.toNat (val part (part.filter fun l => f.p l a))]) s

/-- A uniform result of the values of the lanes that take part, ascending (R302). -/
def wredIssue (i : Instr) (h : Hdr) (d a : Reg) (val : List Word → Word) (s : State) : Host.Outcome State Fault Refusal :=
  prodIssue i h (fun f part => [uCell d.toNat (val (part.map fun l => f.v 1 l a.toNat))]) s

/-- A fold over values, from the first one on; 0 for none. -/
def foldWords (op : Word → Word → Word) : List Word → Word
  | [] => 0
  | x :: rest => rest.foldl op x

/-- A prefix over the lanes that take part (R303). -/
def pfxIssue (i : Instr) (h : Hdr) (d a : Reg) (op : Word → Word → Word) (start : Word) (incl : Bool) (s : State) :
    Host.Outcome State Fault Refusal :=
  prodIssue i h (fun f part => part.map fun l =>
    f.vCell d l (((part.filter fun j => decide (j < l) || (incl && j == l)).map fun j => f.vFor l j a.toNat).foldl op start)) s

/-- `xl.idx` (R300): lane vB[5:0] of the reader's own lane. -/
def execXlIdx (h : Hdr) (d a b : Reg) (s : State) : Host.Outcome State Fault Refusal :=
  xlIssue (.xlIdx h d a b) h d a (fun f l => some ((f.v 2 l b.toNat).toNat % 64)) s

/-- `xl.xor` (R300): lane L XOR n. -/
def execXlXor (h : Hdr) (d a : Reg) (n : BitVec 6) (s : State) : Host.Outcome State Fault Refusal :=
  xlIssue (.xlXor h d a n) h d a (fun _ l => some (l ^^^ n.toNat)) s

/-- `xl.back` (R300): lane L − n. -/
def execXlBack (h : Hdr) (d a : Reg) (n : BitVec 6) (s : State) : Host.Outcome State Fault Refusal :=
  xlIssue (.xlBack h d a n) h d a (fun _ l => if n.toNat ≤ l then some (l - n.toNat) else none) s

/-- `xl.fwd` (R300): lane L + n. -/
def execXlFwd (h : Hdr) (d a : Reg) (n : BitVec 6) (s : State) : Host.Outcome State Fault Refusal :=
  xlIssue (.xlFwd h d a n) h d a (fun _ l => some (l + n.toNat)) s

/-- `pcol.mask` (R301): the 64-bit mask of the lanes whose predicate is 1, in a pair. -/
def execPcolMask (h : Hdr) (d : Reg) (a : PReg) (s : State) : Host.Outcome State Fault Refusal :=
  prodIssue (.pcolMask h d a) h (fun f part =>
    let m := laneMask (part.filter fun l => f.p l a)
    [uCell d.toNat (loHalf m), uCell (d.toNat + 1) (hiHalf m)]) s

/-- `pcol.any` (R301). -/
def execPcolAny (h : Hdr) (d : Reg) (a : PReg) (s : State) : Host.Outcome State Fault Refusal :=
  pcolIssue (.pcolAny h d a) h d a (fun _ set => boolWord (!set.isEmpty)) s

/-- `pcol.all` (R301). -/
def execPcolAll (h : Hdr) (d : Reg) (a : PReg) (s : State) : Host.Outcome State Fault Refusal :=
  pcolIssue (.pcolAll h d a) h d a (fun part set => boolWord (set.length == part.length)) s

/-- `pcol.cnt` (R301). -/
def execPcolCnt (h : Hdr) (d : Reg) (a : PReg) (s : State) : Host.Outcome State Fault Refusal :=
  pcolIssue (.pcolCnt h d a) h d a (fun _ set => BitVec.ofNat 32 set.length) s

/-- `wred.add` (R302). -/
def execWredAdd (h : Hdr) (d a : Reg) (s : State) : Host.Outcome State Fault Refusal :=
  wredIssue (.wredAdd h d a) h d a (foldWords (· + ·)) s

/-- `wred.min.i` (R302). -/
def execWredMinI (h : Hdr) (d a : Reg) (s : State) : Host.Outcome State Fault Refusal :=
  wredIssue (.wredMinI h d a) h d a (foldWords minS) s

/-- `wred.max.i` (R302). -/
def execWredMaxI (h : Hdr) (d a : Reg) (s : State) : Host.Outcome State Fault Refusal :=
  wredIssue (.wredMaxI h d a) h d a (foldWords maxS) s

/-- `wred.min.n` (R302). -/
def execWredMinN (h : Hdr) (d a : Reg) (s : State) : Host.Outcome State Fault Refusal :=
  wredIssue (.wredMinN h d a) h d a (foldWords minN) s

/-- `wred.max.n` (R302). -/
def execWredMaxN (h : Hdr) (d a : Reg) (s : State) : Host.Outcome State Fault Refusal :=
  wredIssue (.wredMaxN h d a) h d a (foldWords maxN) s

/-- `wred.and` (R302). -/
def execWredAnd (h : Hdr) (d a : Reg) (s : State) : Host.Outcome State Fault Refusal :=
  wredIssue (.wredAnd h d a) h d a (foldWords (· &&& ·)) s

/-- `wred.or` (R302). -/
def execWredOr (h : Hdr) (d a : Reg) (s : State) : Host.Outcome State Fault Refusal :=
  wredIssue (.wredOr h d a) h d a (foldWords (· ||| ·)) s

/-- `wred.xor` (R302). -/
def execWredXor (h : Hdr) (d a : Reg) (s : State) : Host.Outcome State Fault Refusal :=
  wredIssue (.wredXor h d a) h d a (foldWords (· ^^^ ·)) s

/-- `wred.fadd` (R302): the exact sum, one rounding. -/
def execWredFadd (h : Hdr) (d a : Reg) (s : State) : Host.Outcome State Fault Refusal :=
  wredIssue (.wredFadd h d a) h d a (fun xs => toF32 (FVal.sum (xs.map f32Of))) s

/-- `pfx.add.in` (R303). -/
def execPfxAddIn (h : Hdr) (d a : Reg) (s : State) : Host.Outcome State Fault Refusal :=
  pfxIssue (.pfxAddIn h d a) h d a (· + ·) 0 true s

/-- `pfx.add.ex` (R303). -/
def execPfxAddEx (h : Hdr) (d a : Reg) (s : State) : Host.Outcome State Fault Refusal :=
  pfxIssue (.pfxAddEx h d a) h d a (· + ·) 0 false s

/-- `pfx.xor.in` (R303). -/
def execPfxXorIn (h : Hdr) (d a : Reg) (s : State) : Host.Outcome State Fault Refusal :=
  pfxIssue (.pfxXorIn h d a) h d a (· ^^^ ·) 0 true s

/-- `pfx.xor.ex` (R303). -/
def execPfxXorEx (h : Hdr) (d a : Reg) (s : State) : Host.Outcome State Fault Refusal :=
  pfxIssue (.pfxXorEx h d a) h d a (· ^^^ ·) 0 false s

/-- `pfx.max.i.in` (R303). -/
def execPfxMaxIIn (h : Hdr) (d a : Reg) (s : State) : Host.Outcome State Fault Refusal :=
  pfxIssue (.pfxMaxIIn h d a) h d a maxS 0x80000000 true s

/-! ## The return of a result -/

/-- Writing an allocated vector register of one lane, if it is still allocated. -/
def Warp.putV (w : Warp) (lane idx : Nat) (x : Word) : Warp :=
  if idx < w.pages * 32 then
    { w with threads := w.threads.map fun t => if t.lane == lane then { t with regs := Sparse.set 0 idx x t.regs } else t }
  else w

/-- One register takes its result, unless a later write stands, by a free choice (R171). -/
def PendCell.deliver (ctr : Nat) (k : Nat) (w : Warp) (c : PendCell) : Warp :=
  match c.val with
  | none => w
  | some x =>
    if c.rewritten && Config.pick ctr (0x8000000 + k * 0x10000 + c.lane * 0x200 + c.reg) then w
    else if c.uni then { w with uni := Sparse.set 0 c.reg x w.uni } else w.putV c.lane c.reg x

/-- A cell of an earlier result whose register the returning one has written (R171). -/
def Pend.overBy (p q : Pend) : Pend :=
  { p with cells := p.cells.map fun c =>
      if q.cells.any fun d => d.uni == c.uni && d.reg == c.reg && (c.uni || d.lane == c.lane) then { c with rewritten := true } else c }

/-- The warp with outstanding result k returned. -/
def Warp.deliver (ctr : Nat) (k : Nat) (p : Pend) (w : Warp) : Warp :=
  let w1 := p.cells.foldl (PendCell.deliver ctr k) w
  { w1 with pend := (w.pend.take k).map (fun e => e.overBy p) ++ w.pend.drop (k + 1) }

/-- `RESULT_RETURN` (R170, R171): result `num` of a warp, once every part of it is known, goes to the registers named at issue.
The uniform registers of a `tst` wait for a `wait` on its token (R338). -/
def execResultReturn (s : State) : Host.Outcome State Fault Refusal :=
  match s.team? s.input.team with
  | none => .refused .noOccasion
  | some tm =>
    match (tm.warp s.input.warp).pend[s.input.num]? with
    | none => .refused .noOccasion
    | some p =>
      if p.tok.isSome || !p.cells.all (fun c => c.val.isSome) then .refused .noOccasion
      else .next ((({ s with freeCtr := s.freeCtr + 1 } : State).modWarp s.input.team s.input.warp
        (Warp.deliver s.freeCtr s.input.num p)).after s.input.team s.input.warp)

end Sys2Proof.Machine
end

