-- ==== Sys2Proof/Machine/HostRegs.lean ====
section
/-! DEFINITION. Registers of the host interface and of the doorbell aperture (R7, R16, R25 to R30, R35, R40, R49, R50, R55, R62, R70 to
R79, R93, R94, R104, R124, R132, R135, R136, R157, R181, R198, R206): what each write does and what each read yields. -/

namespace Sys2Proof

/-! ## Writes to the bytes of a register -/

/-- The bytes a write covers, as a mask. -/
def RegAcc.mask (x : RegAcc) : DWord :=
  match x.half with
  | .full => 0xFFFFFFFFFFFFFFFF
  | .lo => 0x00000000FFFFFFFF
  | .hi => 0xFFFFFFFF00000000

/-- The register's image with the written bytes in place. -/
def RegAcc.merge (x : RegAcc) (old : DWord) : DWord := (old &&& ~~~x.mask) ||| (x.data &&& x.mask)

/-- The written bytes alone: ones of W1C and WO fields. -/
def RegAcc.ones (x : RegAcc) : DWord := x.data &&& x.mask

/-- A write covers the low half. -/
def RegAcc.low (x : RegAcc) : Bool := x.half != .hi

/-- The context that a writer other than the physical function acts as. -/
def Writer.acts (w : Writer) : Option Nat :=
  match w with
  | .pf => none
  | .vf n => some n.toNat
  | .ctx c => some c.toNat

namespace Machine

/-- Bits [h:l] of an image. -/
def fld (x : DWord) (h l : Nat) : Nat := bits x.toNat h l

/-- A field placed at bit l of an image. -/
def at_ (l n : Nat) : Nat := n * 2 ^ l

/-- A Bool as a bit of an image. -/
def bitNat (b : Bool) : Nat := if b then 1 else 0

/-! ## Who reaches a register -/

/-- The physical function's registers answer (R21, R71, R136). -/
def State.pfAnswers (s : State) : Bool :=
  s.power.stage != .off && s.power.stage != .hostLink && s.power.phase != 15 && !s.cfg.erased

/-- A virtual function is visible (R74). -/
def State.vfVisible (s : State) (n : Nat) : Bool :=
  s.pfAnswers && s.cfg.state == .run && (s.ctx n).live && (s.ctx n).level == 0

/-- A writer other than the physical function is there: a visible function, or a live context. -/
def State.present (s : State) (w : Writer) : Bool :=
  match w with
  | .pf => s.pfAnswers
  | .vf n => s.vfVisible n.toNat
  | .ctx c => !s.cfg.erased && (s.ctx c.toNat).live

/-- A writer reaches a queue slot: a slot of its context or of a descendant (R76, R94). DESIGN CHOICE (log 52): a function that is not yet
visible, before RUN (R74), reaches no slot, so that a write there has no effect. -/
def State.reachesSlot (s : State) (w : Writer) (q : Nat) : Bool :=
  s.present w && (match w.acts, (s.queue q).owner with
    | some c, some o => s.within c o.toNat
    | _, _ => false)

/-- A writer reaches the block of a descendant (R40, R94, R198). -/
def State.reachesBelow (s : State) (w : Writer) (d : Nat) : Bool :=
  s.present w && (match w.acts with | some c => s.below c d | none => false)

/-- A writer reaches the block of its own context or of a descendant (R94, R206). -/
def State.reachesOwn (s : State) (w : Writer) (d : Nat) : Bool :=
  s.present w && (match w.acts with | some c => (s.ctx d).live && s.within c d | none => false)

/-- A writer acts as the root context c itself (R93, R132). -/
def State.isRoot (s : State) (w : Writer) (c : Nat) : Bool :=
  s.present w && w.acts == some c && (s.ctx c).level == 0

/-! ## Queue registers (R76 to R79) -/

/-- A handler record about a queue (R79, R120). -/
def queueRecord (c q : Nat) (status : BitVec 8) : HRec :=
  { kind := 3, cause := status, stage := 0, userTag := 0, ctx := BitVec.ofNat 16 c, origin := BitVec.ofNat 16 q, seq := 0
    addr := 0, image := 0, pc := 0, team := 0 }

/-- A queue enters ERROR: state, cause, a KIND 4 record and, for a context of level 1 to 3, a handler record (R78, R79). -/
def State.queueError (s : State) (q : Nat) (status : BitVec 8) (tag index : Word) : State :=
  let s1 := s.modQueue q fun x => { x with state := .error, cause := status }
  let s2 := s1.pushRec q { kind := 4, status := status, queue := BitVec.ofNat 10 q, tag := tag, userTag := 0, index := index
                           payload := 0, pkt := none }
  match (s.queue q).owner with
  | some c => if (s.ctx c.toNat).level != 0 then s2.pushHandler c.toNat (queueRecord c.toNat q status) else s2
  | none => s2

/-- E of R77. -/
def Queue.size (q : Queue) : Nat := 2 ^ q.cqLog2.toNat

/-- A freeze flag of the slot's context is set: the queue is in FROZEN, over the state that THAW restores (R78, R111, R112). -/
def State.queueFrozen (s : State) (q : Nat) : Bool :=
  match (s.queue q).owner with
  | some c => s.isFrozen c.toNat
  | none => false

/-- The queue is in a state of R76 other than FROZEN. -/
def State.queueIn (s : State) (q : Nat) (x : QState) : Bool := !s.queueFrozen q && (s.queue q).state == x

/-- A value that CQ_WRITE takes where it is checked (R77). -/
def Queue.widxOk (q : Queue) (w : Word) : Bool :=
  decide ((w - q.ridx).toNat ≤ q.size) && decide ((q.widx - q.ridx).toNat ≤ (w - q.ridx).toNat)

/-- CQ_WRITE written (R77): unchecked in IDLE; a bad value makes a queue that is not in ERROR, or in FROZEN over ERROR (log 54), enter
ERROR. -/
def State.putWidx (s : State) (q : Nat) (w : Word) : State :=
  let x := s.queue q
  if s.queueIn q .idle || x.widxOk w then s.modQueue q fun y => { y with widx := w }
  else if x.state == .error then s
  else s.queueError q Status.indexBad 0 x.ridx

/-- A ring of a tenant world lies elsewhere than in joint-compartment memory (R122): some page of it translates to another
world or compartment, or out of HBM and SBM. -/
def State.ringElsewhere (s : State) (c : Nat) (base : BitVec 56) (bytes : Nat) : Bool :=
  let w := (s.ctx c).world
  w != 0 && (List.range ((bytes + 4095) / 4096)).any fun i =>
    match s.walk c (ringAddr base + i * 4096) with
    | .ok t => t.world != w || t.comp != 0 || t.flash || t.mx || !s.isOwn t.dev.toNat
    | .error _ => false

/-- ENABLE set (R78, R122): in IDLE it starts the queue, in any other state it is only the bit. -/
def State.enableQueue (s : State) (q : Nat) : State :=
  let x := s.queue q
  if !s.queueIn q .idle then s.modQueue q fun y => { y with enable := true }
  else
    let s1 := s.modQueue q fun y => { y with enable := true, cur := none }
    let c := (x.owner.getD 0).toNat
    if !logOk x.cqLog2 || !logOk x.crLog2 || s.ringElsewhere c x.base (x.size * 64)
        || s.ringElsewhere c x.crBase (2 ^ x.crLog2.toNat * 32) then s1.queueError q Status.badConfig 0 x.ridx
    else if (x.widx - x.ridx).toNat > x.size then s1.queueError q Status.indexBad 0 x.ridx
    else s1.modQueue q fun y => { y with state := .run }

/-- ENABLE cleared: IDLE, a blocked packet completing ABORTED (R78). -/
def State.disableQueue (s : State) (q : Nat) : State :=
  let x := s.queue q
  let s1 := s.modQueue q fun y => { y with enable := false, state := .idle, cur := none }
  match x.state, x.cur with
  | .blocked, some p =>
    (s1.modQueue q fun y => { y with ridx := y.ridx + 1, open_ := y.open_ ++ [p.index] }).complete q p Status.aborted 0
  | _, _ => s1

/-- RESTART written (R79). DESIGN CHOICE (log 64): a mailbox packet that waits when its queue enters ERROR keeps its place until then, and
begins to wait anew after it. -/
def State.restartQueue (s : State) (q : Nat) : State :=
  if s.queueIn q .error then s.modQueue q fun y => { y with state := .run, cur := none } else s

/-- CQ_READ written (R76, R79): in IDLE and ERROR. -/
def State.putRidx (s : State) (q : Nat) (r : Word) : State :=
  let x := s.queue q
  if (s.queueIn q .idle || s.queueIn q .error) && (x.widx - r).toNat ≤ x.size then s.modQueue q fun y => { y with ridx := r, cur := none }
  else s

/-- CQ_CTL written: its LOG2 fields, then ENABLE and RESTART; a warp at `cpost` may find room (R76, R78, R79, R89). DESIGN CHOICE (log 65):
ENABLE acts before RESTART, which also leaves an ERROR that the enable has raised. -/
def State.putCqCtl (s : State) (q : Nat) (d : DWord) : State :=
  let s1 := s.modQueue q fun y => { y with cqLog2 := BitVec.ofNat 5 (fld d 4 0), crLog2 := BitVec.ofNat 5 (fld d 9 5) }
  let s2 := if d.getLsbD 10 then s1.enableQueue q else if (s1.queue q).enable then s1.disableQueue q else s1
  let s3 := if d.getLsbD 11 then s2.restartQueue q else s2
  s3.wakeAll

/-- A record of a packet of the queue is held, its ring taking none (R89). -/
def State.recordHeld (s : State) (q : Nat) : Bool :=
  s.queues.any fun x => (x.2.waiting.any fun r => match r.pkt with | some (p, _) => p == q | none => false) && !s.ringTakes x.1 0

/-- The code of CQ_STATUS.STATE: FROZEN while a freeze flag stands, BLOCKED while a record of a packet is held (R76, R78, R89,
R111). -/
def State.queueCode (s : State) (q : Nat) : Nat :=
  let x := s.queue q
  if s.queueFrozen q then 4
  else match x.state with
    | .idle => 0
    | .run => if s.recordHeld q then 2 else 1
    | .blocked => 2
    | .error => 3

/-- The image of a queue register (R76). -/
def State.queueImage (s : State) (q r : Nat) : DWord :=
  let x := s.queue q
  BitVec.ofNat 64 (match r with
    | 0 => x.base.toNat
    | 1 => x.cqLog2.toNat + at_ 5 x.crLog2.toNat + at_ 10 (bitNat x.enable)
    | 2 => x.widx.toNat
    | 3 => x.ridx.toNat
    | 4 => s.queueCode q + at_ 8 x.cause.toNat
    | 5 => x.crBase.toNat
    | 7 => x.crRead.toNat + at_ 32 x.crWrite.toNat
    | _ => 0)

/-- A write to queue register r (R76). -/
def State.putQueueReg (s : State) (q r : Nat) (a : RegAcc) : State :=
  let img := a.merge (s.queueImage q r)
  match r with
  | 0 => if s.queueIn q .run || s.queueIn q .blocked then s else s.modQueue q fun y => { y with base := BitVec.ofNat 56 (fld img 55 0) }
  | 1 => if a.low then s.putCqCtl q (img ||| (a.ones &&& 0x800)) else s
  | 2 => if a.low then s.putWidx q (BitVec.ofNat 32 (fld img 31 0)) else s
  | 3 => if a.low then s.putRidx q (BitVec.ofNat 32 (fld img 31 0)) else s
  | 5 => (s.modQueue q fun y => { y with crBase := BitVec.ofNat 56 (fld img 55 0) }).wakeAll
  | 7 => if a.low then (s.modQueue q fun y => { y with crRead := BitVec.ofNat 32 (fld img 31 0) }).wakeAll else s
  | _ => s

/-! ## Registers of contexts -/

/-- The image of OSF_ERR (R40). -/
def osfImage (e : OsfErr) : DWord :=
  BitVec.ofNat 64 (e.peer.toNat + at_ 12 (bitNat e.isTarget) + at_ 13 e.kind.toNat + at_ 15 (bitNat e.valid) + at_ 16 e.localAddr.toNat
    + at_ 60 (bitNat e.overflow))

/-- OSF_ERR written: VALID and OVERFLOW are W1C (R40). -/
def State.putOsfErr (s : State) (c : Nat) (a : RegAcc) : State :=
  s.modCtx c fun x => { x with osfErr := { x.osfErr with
    valid := x.osfErr.valid && !a.ones.getLsbD 15, overflow := x.osfErr.overflow && !a.ones.getLsbD 60 } }

/-- SAVE_AREA and SAVE_USED (R198). -/
def State.saveImage (s : State) (c r : Nat) : DWord :=
  let x := s.ctx c
  if r = 0 then BitVec.ofNat 64 (x.saveBase.toNat + at_ 56 x.saveLog2.toNat)
  else BitVec.ofNat 64 ((x.images.map Prod.snd).sum % 2 ^ 40)

/-- SAVE_AREA written (R198). -/
def State.putSaveArea (s : State) (c : Nat) (a : RegAcc) : State :=
  let img := a.merge (s.saveImage c 0)
  s.modCtx c fun x => { x with saveBase := BitVec.ofNat 56 (fld img 55 0), saveLog2 := BitVec.ofNat 6 (fld img 61 56) }

/-- Watchpoint k of a context. -/
def Ctx.watchAt (c : Ctx) (k : Nat) : Watch := (Table.find k c.watch).getD {}

/-- WATCH_ADDR (0) and WATCH_CTL (1) (R206). -/
def State.watchImage (s : State) (c k r : Nat) : DWord :=
  let w := (s.ctx c).watchAt k
  if r = 0 then w.addr.setWidth 64
  else BitVec.ofNat 64 (w.mask.toNat + at_ 16 (bitNat w.load) + at_ 17 (bitNat w.store) + at_ 18 (bitNat w.atomic) + at_ 19 (bitNat w.en)
    + at_ 20 (bitNat w.unmapped) + at_ 21 (bitNat w.late))

/-- A watchpoint register written, its address translated (R206, R207). -/
def State.putWatch (s : State) (c k r : Nat) (a : RegAcc) : State :=
  let img := a.merge (s.watchImage c k r)
  let w := (s.ctx c).watchAt k
  let w1 : Watch :=
    if r = 0 then { w with addr := BitVec.ofNat 56 (fld img 55 0) }
    else if a.low then
      { w with mask := BitVec.ofNat 16 (fld img 15 0), load := img.getLsbD 16, store := img.getLsbD 17, atomic := img.getLsbD 18
               en := img.getLsbD 19, late := w.late && !a.ones.getLsbD 21 }
    else w
  let w2 := s.translateWatch c w1
  s.modCtx c fun x => { x with watch := Table.put k w2 x.watch }

/-- TEMPO_RING (0) and TEMPO_GEN (1) (R157). -/
def State.tempoImage (s : State) (c r : Nat) : DWord :=
  let t := (s.ctx c).tempo
  if r = 0 then BitVec.ofNat 64 (t.ringBase.toNat + at_ 56 t.ringLog2.toNat)
  else if r = 1 then BitVec.ofNat 64 (t.gen % 2 ^ 32 + at_ 32 (t.deferred.length % 2 ^ 16))
  else 0

/-- TEMPO_RING written: the count of entries written restarts at 0 (R157). -/
def State.putTempoRing (s : State) (c : Nat) (a : RegAcc) : State :=
  let img := a.merge (s.tempoImage c 0)
  s.modCtx c fun x => { x with tempo := { x.tempo with
    ringBase := BitVec.ofNat 56 (fld img 55 0), ringLog2 := BitVec.ofNat 5 (fld img 60 56), written := 0 } }

/-- Bounce channel k of a root. -/
def Ctx.bounceAt (c : Ctx) (k : Nat) : Bounce := (Table.find k c.bounce).getD {}

/-- A channel runs only with COMP 1 or 2 (R132). -/
def Bounce.works (b : Bounce) : Bool := b.enable && (b.comp == 1 || b.comp == 2)

/-- A root context of a tenant world has bounce channels (R132). -/
def State.hasBounce (s : State) (c : Nat) : Bool := (s.ctx c).live && (s.ctx c).level == 0 && (s.ctx c).world != 0

/-- The image of a bounce register (R132). -/
def State.bounceImage (s : State) (c k r : Nat) : DWord :=
  let b := (s.ctx c).bounceAt k
  match r with
  | 0 => BitVec.ofNat 64 (b.comp.toNat + at_ 2 (bitNat b.dir) + at_ 3 (bitNat b.enable))
  | 1 => b.host
  | 2 => b.dev.setWidth 64
  | 4 => BitVec.ofNat 64 (b.state.toNat + at_ 32 b.done.toNat)
  | 5 => b.next
  | 6 => b.rec_
  | _ => 0

/-- A bounce register written (R132, R133). -/
def State.putBounce (s : State) (c k r : Nat) (a : RegAcc) : State :=
  if !s.hasBounce c then s
  else
    let img := a.merge (s.bounceImage c k r)
    let b := (s.ctx c).bounceAt k
    let b1 : Bounce :=
      match r with
      | 0 =>
        if a.low then
          { b with comp := BitVec.ofNat 2 (fld img 1 0), dir := img.getLsbD 2, enable := img.getLsbD 3
                   next := if img.getLsbD 3 && !b.enable then 0 else b.next
                   state := if a.ones.getLsbD 4 && b.state == 1 then 2 else b.state }
        else b
      | 1 => { b with host := img }
      | 2 => { b with dev := BitVec.ofNat 56 (fld img 55 0) }
      | 3 =>
        if a.low && b.works && b.state == 0 then
          let n := BitVec.ofNat 32 (fld a.data 31 0)
          { b with done := 0, chunks := n, state := if n = 0 then 0 else 1, first := b.next, world := (s.ctx c).world }
        else b
      | 6 => { b with rec_ := img }
      | _ => b
    s.modCtx c fun x => { x with bounce := Table.put k b1 x.bounce }

/-! ## The register page of a virtual function (R93) -/

/-- START_STATUS (R25). -/
def State.startImage (s : State) : DWord :=
  let p := s.power
  BitVec.ofNat 64 (p.phase.toNat + at_ 4 (bitNat p.warm) + at_ 5 p.stackOk.toNat + at_ 13 p.flashOk.toNat + at_ 15 (bitNat p.die1Ok)
    + at_ 16 p.linkUp.toNat + at_ 32 p.stackTrained.toNat + at_ 40 p.flashTrained.toNat + at_ 42 p.linkTrained.toNat)

/-- OSF_ID (R30). -/
def State.osfIdImage (s : State) : DWord := BitVec.ofNat 64 (s.fabric.deviceNum.toNat + at_ 12 (bitNat s.fabric.enable))

/-- A register of the page (R93). -/
def State.rootImage (s : State) (c off : Nat) : DWord :=
  let x := s.ctx c
  match off with
  | 0x00 => BitVec.ofNat 64 (at_ 12 x.ptb.toNat)
  | 0x08 => BitVec.ofNat 64 (x.hqLog2.toNat + (x.hqBase.toNat - x.hqBase.toNat % 4096))
  | 0x10 => BitVec.ofNat 64 (x.hqRead.toNat + at_ 32 x.hqWrite.toNat)
  | 0x18 =>
    let (t, f, n) := s.subtreeOf c
    BitVec.ofNat 64 (t.toNat + at_ 16 f.toNat + at_ 28 n.toNat)
  | 0x20 => s.saveImage c 0
  | 0x28 => s.saveImage c 1
  | 0x30 => s.startImage
  | 0x38 => osfImage x.osfErr
  | 0x40 => s.osfIdImage
  | _ => 0

/-- ROOT_PTB written: an INVAL of the whole root stage (R93, R104, R207). -/
def State.putPtb (s : State) (c : Nat) (img : DWord) : State :=
  ((s.modCtx c fun x => { x with ptb := BitVec.ofNat 32 (fld img 43 12) }).forget c 0 0).refreshSubtree c 0 0

/-- A write to a register of the page (R93). DESIGN CHOICE (log 52): a DEV_COUNT that is taken as 1 is held and reads back as 1, and a SUBTREE
that another context already has is taken as written (R92). -/
def State.putRootReg (s : State) (c off : Nat) (a : RegAcc) : State :=
  let img := a.merge (s.rootImage c off)
  match off with
  | 0x00 => s.putPtb c img
  | 0x08 => s.modCtx c fun x => { x with hqLog2 := BitVec.ofNat 5 (fld img 4 0), hqBase := BitVec.ofNat 64 (at_ 12 (fld img 63 12)) }
  | 0x10 => s.modCtx c fun x => { x with hqRead := BitVec.ofNat 32 (fld img 31 0) }
  | 0x18 =>
    if (s.ctx c).started then s
    else
      let first := fld img 27 16
      let n := fld img 40 28
      s.modCtx c fun x => { x with subtree := some (BitVec.ofNat 16 (fld img 15 0), BitVec.ofNat 12 first,
        if n = 0 || n > 4096 - first then 1 else BitVec.ofNat 13 n) }
  | 0x20 => s.putSaveArea c a
  | 0x38 => s.putOsfErr c a
  | _ => s

/-! ## World commands (R124 to R126) -/

/-- The image of WORLD_CMD (R124). -/
def State.worldImage (s : State) : DWord :=
  BitVec.ofNat 64 (s.cfg.wWorld.toNat + at_ 8 s.cfg.wComp.toNat + at_ 12 s.cfg.wAddr.toNat + at_ 56 s.cfg.wStatus.toNat)

/-- A world by number. -/
def State.world (s : State) (w : Nat) : World := (Table.find w s.worlds).getD {}

/-- The functions a world command names (R124). -/
def State.namedVfs (s : State) : List Nat := (List.range 128).filter fun n => s.cfg.wVfs.getLsbD n

/-- STATUS set (R124). -/
def State.worldStatus (s : State) (x : BitVec 3) (op : Option WorldOp) : State :=
  { s with cfg := { s.cfg with wStatus := x, wOp := op } }

/-- The live contexts of a world. -/
def State.worldContexts (s : State) (w : Nat) : List Nat := (s.ctxs.filter fun p => p.2.live && p.2.world.toNat == w).map Prod.fst

/-- A world command starts, or ends at once bad or denied (R124 to R126). DESIGN CHOICE (log 67): KEY and DESTROY of a world that was never
created end with STATUS 2. -/
def State.startWorld (s : State) (op : Nat) : State :=
  let w := s.cfg.wWorld.toNat
  let x := s.world w
  if s.cfg.state != .run || w = 0 then s.worldStatus 2 none
  else match op with
    | 1 =>
      if regionOf (s.cfg.wAddr.toNat * 4096 + 4096) != .hbm || regionOf (s.cfg.wAddr.toNat * 4096) != .hbm then s.worldStatus 2 none
      else if x.live || s.namedVfs.any fun n => (s.ctx n).world != 0 || (s.ctx n).started then s.worldStatus 3 none
      else s.worldStatus 1 (some .create)
    | 2 =>
      if (s.cfg.wComp != 1 && s.cfg.wComp != 2) || !x.live then s.worldStatus 2 none
      else if (s.cfg.wComp = 1 && x.key1) || (s.cfg.wComp = 2 && x.key2) then s.worldStatus 3 none
      else if !x.kem then s.worldStatus 2 none
      else s.worldStatus 1 (some .key)
    | _ =>
      if !x.live then s.worldStatus 2 none
      else ((s.worldContexts w).foldl State.stopForGood s).worldStatus 1 (some .destroy)

/-- WORLD_CMD written: ignored while busy (R124). -/
def State.putWorldCmd (s : State) (a : RegAcc) : State :=
  if s.cfg.wStatus = 1 then s
  else
    let img := a.merge s.worldImage
    let s1 := { s with cfg := { s.cfg with
      wWorld := BitVec.ofNat 6 (fld img 5 0), wComp := BitVec.ofNat 2 (fld img 9 8), wAddr := BitVec.ofNat 44 (fld img 55 12) } }
    let op := fld a.ones 7 6
    if op = 0 then s1 else s1.startWorld op

/-! ## Registers of the physical function (R71) -/

/-- The configuration is locked: writes to RW-L fields are rejected (R73). -/
def State.locked (s : State) : Bool := s.cfg.state == .locked || s.cfg.state == .run

/-- A rejected write is logged (R7, R73, R135). -/
def State.logLock (s : State) : State := { s with cfg := { s.cfg with sec := { s.cfg.sec with lockWrite := true } } }

/-- The RW-L writes: in CONFIG_OPEN they take effect, from CONFIG_LOCKED on they are rejected and logged (R7, R73); before
CONFIG_OPEN they are ignored. -/
def State.lockable (s : State) (reaches : Bool) (eff : State) : State :=
  if !reaches then s
  else if s.locked then s.logLock
  else if s.cfg.state = .open_ then eff else s

/-- The bytes of every HBM stack in service zeroed (R56). DESIGN CHOICE (log 10): the zeros stand under the tags of world 0 as after a
start, and no poison is left in them. -/
def State.zeroHbm (s : State) : State :=
  let hit (k : Nat) : Bool := regionOf k == .hbm && s.power.stackOk.getLsbD (k / 0x1000000000)
  { s with mem := { s.mem with
    cells := s.mem.cells.filter fun c => !hit c.1
    poison := s.mem.poison.filter fun c => !hit c.1
    lines := s.mem.lines.filter fun c => !hit (c.1 * 64) } }

/-- HASH_MASK_i written in CONFIG_OPEN (R55, R56). -/
def State.putHashMask (s : State) (i : Nat) (m : BitVec 26) : State :=
  if s.cfg.hashMask.getD i 0 = m then s
  else { s.zeroHbm with cfg := { s.cfg with hashMask := s.cfg.hashMask.set i m, zeroing := true } }

/-- CFG_CTL written (R72, R73, R74). -/
def State.putCfgCtl (s : State) (cmd : Nat) : State :=
  if cmd = 1 && s.cfg.state == .open_ then { s with cfg := { s.cfg with state := .locked } }
  else if cmd = 2 && s.cfg.state == .locked then { s with cfg := { s.cfg with moving := true } }
  else s

/-- CAP_W clamped (R16). -/
def capOf (n : Nat) : BitVec 12 := BitVec.ofNat 12 (max 600 (min 2200 n))

/-- SEC_EVENT (R135). -/
def State.secImage (s : State) : DWord :=
  let e := s.cfg.sec
  BitVec.ofNat 64 (bitNat e.lockWrite + at_ 1 (bitNat e.bootFail) + at_ 2 e.bootCause.toNat + at_ 4 (bitNat e.linkLost) + at_ 5 e.linkNum.toNat
    + at_ 9 (bitNat e.integrity) + at_ 10 (bitNat e.resync) + at_ 11 (bitNat e.tamper) + at_ 12 (bitNat e.keysErased)
    + at_ 13 (bitNat e.signExhausted) + at_ 16 e.intCount.toNat)

/-- SEC_EVENT written: the W1C fields (R135). -/
def State.putSec (s : State) (a : RegAcc) : State :=
  let e := s.cfg.sec
  let k (b : Bool) (n : Nat) : Bool := b && !a.ones.getLsbD n
  { s with cfg := { s.cfg with sec := { e with
      lockWrite := k e.lockWrite 0, bootFail := k e.bootFail 1, linkLost := k e.linkLost 4, integrity := k e.integrity 9
      resync := k e.resync 10, tamper := k e.tamper 11 } } }

/-- A MEM_ERR register (R70). -/
def memErrImage (e : MemErr) : DWord :=
  BitVec.ofNat 64 (e.corrected.toNat + at_ 16 (bitNat e.uncorr) + at_ 17 (bitNat e.overflow) + at_ 18 e.unit.toNat + at_ 20 e.addr.toNat)

/-- MX_ALIAS_A_n (R62). -/
def aliasImageA (d : MxAlias) : DWord :=
  BitVec.ofNat 64 (d.dataFrame.toNat + at_ 32 d.fmt.toNat + at_ 34 (bitNat d.en) + at_ 35 (bitNat d.overrun) + at_ 36 d.blocks.toNat)

/-- VF_CFG_n (R75). -/
def vfImage (v : VfCfg) : DWord := BitVec.ofNat 64 (v.qbase.toNat + at_ 10 v.qcount.toNat + at_ 21 (bitNat v.enable))

/-- OSF_PLANE_MAP (R35). -/
def planeImage (m : List (BitVec 4)) : DWord := BitVec.ofNat 64 (m.foldr (fun x n => x.toNat + 16 * n) 0)

/-- OWL_STATUS (R50). -/
def owlImage (l : Link) : DWord :=
  BitVec.ofNat 64 (l.state.toNat + at_ 3 (bitNat l.keySlot) + at_ 4 (bitNat l.next) + at_ 5 l.tx.toNat)

/-- The image of a physical-function register (R71). -/
def State.pfRead (s : State) (off : Nat) : DWord :=
  if off % 8 ≠ 0 then 0
  else if s.power.stage == .off || s.power.stage == .hostLink then 0
  else if off = 0x00 then s.startImage
  else if off = 0x20 then s.secImage
  else if !s.pfAnswers then 0
  else if off = 0x10 then BitVec.ofNat 64 (s.power.capW.toNat + at_ 16 s.power.clk0.toNat + at_ 28 s.power.clk1.toNat)
  else if off = 0x18 then
    BitVec.ofNat 64 (at_ 2 (match s.cfg.state with | .locked => 1 | .run => 2 | _ => 0) + at_ 4 (bitNat s.cfg.moving))
  else if off = 0x28 then BitVec.ofNat 64 (bitNat s.cfg.eraseEn)
  else if off = 0x30 then s.osfIdImage
  else if off = 0x40 then s.worldImage
  else if off = 0x48 then s.cfg.wVfs.extractLsb' 0 64
  else if off = 0x50 then s.cfg.wVfs.extractLsb' 64 64
  else if off = 0x58 then planeImage s.fabric.planeMap
  else if 0x80 ≤ off && off < 0xB0 then (s.cfg.hashMask.getD ((off - 0x80) / 8) 0).setWidth 64
  else if 0x100 ≤ off && off < 0x150 then memErrImage (Sparse.get {} ((off - 0x100) / 8) s.cfg.memErr)
  else if 0x200 ≤ off && off < 0x280 then owlImage (s.link ((off - 0x200) / 8))
  else if 0x400 ≤ off && off < 0x800 then vfImage (Sparse.get {} ((off - 0x400) / 8) s.cfg.vf)
  else if 0x800 ≤ off && off < 0xC00 then
    let d : MxAlias := Sparse.get {} ((off - 0x800) / 16) s.cfg.aliases
    if off % 16 = 0 then aliasImageA d else d.scaleAddr.setWidth 64
  else if 0x1000 ≤ off && off < 0x1600 then (Sparse.get 0 ((off - 0x1000) / 8) s.cfg.discard).setWidth 64
  else 0

/-- OWL_REKEY written (R49): a request for a link whose next slot is full is ignored. -/
def State.rekey (s : State) (links : Nat) : State :=
  (List.range 16).foldl (fun st i =>
    let l := st.link i
    if links.testBit i && !l.next then st.setLink i { l with asked := true } else st) s

/-- A write to a physical-function register by that function (R7, R71). -/
def State.pfWrite (s : State) (off : Nat) (a : RegAcc) : State :=
  if s.power.stage == .off || s.power.stage == .hostLink then s
  else if off = 0x08 then (if a.low then s.resetCtl (a.data.getLsbD 0) (a.data.getLsbD 1) else s)
  else if !s.pfAnswers then s
  else
    let img := a.merge (s.pfRead off)
    if off = 0x10 then (if a.low then { s with power := { s.power with capW := capOf (fld img 11 0) } } else s)
    else if off = 0x18 then (if a.low then s.putCfgCtl (fld a.data 1 0) else s)
    else if off = 0x20 then s.putSec a
    else if off = 0x28 then s.lockable a.low { s with cfg := { s.cfg with eraseEn := img.getLsbD 0 } }
    else if off = 0x30 then
      s.lockable a.low { s with fabric := { s.fabric with deviceNum := BitVec.ofNat 12 (fld img 11 0), enable := img.getLsbD 12 } }
    else if off = 0x38 then (if a.low then s.rekey (fld a.data 15 0) else s)
    else if off = 0x40 then s.putWorldCmd a
    else if off = 0x48 || off = 0x50 then
      (if s.cfg.wStatus = 1 then s
       else { s with cfg := { s.cfg with wVfs := if off = 0x48 then s.cfg.wVfs.extractLsb' 64 64 ++ img else img ++ s.cfg.wVfs.extractLsb' 0 64 } })
    else if off = 0x58 then
      s.lockable true { s with fabric := { s.fabric with planeMap := (List.range 16).map fun i => BitVec.ofNat 4 (fld img (4 * i + 3) (4 * i)) } }
    else if 0x80 ≤ off && off < 0xB0 then s.lockable a.low (s.putHashMask ((off - 0x80) / 8) (BitVec.ofNat 26 (fld img 25 0)))
    else if 0x100 ≤ off && off < 0x150 then
      (if a.low then s.modMemErr ((off - 0x100) / 8) fun e =>
        { e with corrected := BitVec.ofNat 16 (fld img 15 0), uncorr := e.uncorr && !a.ones.getLsbD 16, overflow := e.overflow && !a.ones.getLsbD 17 }
       else s)
    else if 0x400 ≤ off && off < 0x800 then
      let v : VfCfg := { qbase := BitVec.ofNat 10 (fld img 9 0), qcount := BitVec.ofNat 11 (fld img 20 10), enable := img.getLsbD 21 }
      s.lockable a.low { s with cfg := { s.cfg with vf := Sparse.set {} ((off - 0x400) / 8) v s.cfg.vf } }
    else if 0x800 ≤ off && off < 0xC00 then
      let n := (off - 0x800) / 16
      let d : MxAlias := Sparse.get {} n s.cfg.aliases
      let d1 : MxAlias :=
        if off % 16 = 0 then
          { d with dataFrame := BitVec.ofNat 32 (fld img 31 0), fmt := BitVec.ofNat 2 (fld img 33 32), en := img.getLsbD 34
                   overrun := d.overrun && !a.ones.getLsbD 35, blocks := BitVec.ofNat 28 (fld img 63 36) }
        else { d with scaleAddr := BitVec.ofNat 44 (fld img 43 0) }
      { s with cfg := { s.cfg with aliases := Sparse.set {} n d1 s.cfg.aliases } }
    else if 0x1000 ≤ off && off < 0x1600 then
      (if a.low then { s with cfg := { s.cfg with discard := Sparse.set 0 ((off - 0x1000) / 8) (BitVec.ofNat 32 (fld img 31 0)) s.cfg.discard } } else s)
    else s

/-- A register of the BAR of virtual function c (R76, R93, R132). -/
def State.vfRead (s : State) (c off : Nat) : DWord :=
  let w := Writer.vf (BitVec.ofNat 7 c)
  if !s.vfVisible c then 0
  else if off < 0x10000 then (if s.reachesSlot w (off / 64) then s.queueImage (off / 64) (off % 64 / 8) else 0)
  else if off < 0x11000 then s.rootImage c (off - 0x10000)
  else if off < 0x11100 then (if s.hasBounce c then s.bounceImage c ((off - 0x11000) / 64) (off % 64 / 8) else 0)
  else 0

/-- A write to the BAR of virtual function c (R76, R93, R132). -/
def State.vfWrite (s : State) (c off : Nat) (a : RegAcc) : State :=
  let w := Writer.vf (BitVec.ofNat 7 c)
  if off < 0x10000 then (if s.reachesSlot w (off / 64) then s.putQueueReg (off / 64) (off % 64 / 8) a else s)
  else if !s.vfVisible c then s
  else if off < 0x11000 then s.putRootReg c (off - 0x10000) a
  else if off < 0x11100 then s.putBounce c ((off - 0x11000) / 64) (off % 64 / 8) a
  else s

/-- An 8-byte write to the doorbell aperture by context c (R40, R94, R132, R157, R198, R206). -/
def State.doorWrite (s : State) (c off : Nat) (data : DWord) : State :=
  let w := Writer.ctx (BitVec.ofNat 12 c)
  let a : RegAcc := ⟨.full, data⟩
  if off < 0x10000 then (if s.reachesSlot w (off / 64) then s.putQueueReg (off / 64) (off % 64 / 8) a else s)
  else if off < 0x20000 then (if off = 0x10000 && s.present w then s.putTempoRing c a else s)
  else if off < 0x30000 then
    (if off % 16 = 0 && s.reachesBelow w ((off - 0x20000) / 16) then s.putSaveArea ((off - 0x20000) / 16) a else s)
  else if off < 0x70000 then
    (if s.reachesOwn w ((off - 0x30000) / 64) then s.putWatch ((off - 0x30000) / 64) (off % 64 / 16) (off % 16 / 8) a else s)
  else if 0x80000 ≤ off && off < 0x88000 then (if s.reachesBelow w ((off - 0x80000) / 8) then s.putOsfErr ((off - 0x80000) / 8) a else s)
  else if 0x90000 ≤ off && off < 0x90100 then (if s.isRoot w c then s.putBounce c ((off - 0x90000) / 64) (off % 64 / 8) a else s)
  else s

/-- What an aligned 8-byte load from the doorbell aperture reads (R40, R94, R132, R157, R198, R206). -/
def State.doorRead (s : State) (c off : Nat) : DWord :=
  let w := Writer.ctx (BitVec.ofNat 12 c)
  if off < 0x10000 then (if s.reachesSlot w (off / 64) then s.queueImage (off / 64) (off % 64 / 8) else 0)
  else if off < 0x20000 then (if off < 0x10010 && s.present w then s.tempoImage c (off % 16 / 8) else 0)
  else if off < 0x30000 then (if s.reachesBelow w ((off - 0x20000) / 16) then s.saveImage ((off - 0x20000) / 16) (off % 16 / 8) else 0)
  else if off < 0x70000 then
    (if s.reachesOwn w ((off - 0x30000) / 64) then s.watchImage ((off - 0x30000) / 64) (off % 64 / 16) (off % 16 / 8) else 0)
  else if 0x80000 ≤ off && off < 0x88000 then (if s.reachesBelow w ((off - 0x80000) / 8) then osfImage (s.ctx ((off - 0x80000) / 8)).osfErr else 0)
  else if 0x90000 ≤ off && off < 0x90100 then (if s.isRoot w c && s.hasBounce c then s.bounceImage c ((off - 0x90000) / 64) (off % 64 / 8) else 0)
  else 0

/-! ## The rows of the opcode table that write registers -/

/-- A register write by the physical function alone; any other writer's is ignored. -/
def pfOnly (s : State) (off : Nat) (a : RegAcc) : Host.Outcome State Fault Refusal :=
  if s.power.stage == .off || s.power.stage == .hostLink then .refused .noOccasion
  else .next (if s.input.writer = .pf then s.pfWrite off a else s)

/-- `POWER_CTL_WRITE` (R16). -/
def execPowerCtlWrite (s : State) : Host.Outcome State Fault Refusal := pfOnly s 0x10 s.input.acc

/-- `CFG_LOCK` (R72, R73). -/
def execCfgLock (s : State) : Host.Outcome State Fault Refusal := pfOnly s 0x18 ⟨.full, 1⟩

/-- `CFG_RUN` (R72, R74). -/
def execCfgRun (s : State) : Host.Outcome State Fault Refusal := pfOnly s 0x18 ⟨.full, 2⟩

/-- `HASH_MASK_WRITE` (R55, R56): register `index`, 0 to 5. -/
def execHashMaskWrite (s : State) : Host.Outcome State Fault Refusal :=
  if s.input.index.toNat > 5 then .refused .noOccasion
  else pfOnly s (0x80 + 8 * s.input.index.toNat) s.input.acc

/-- `HASH_MASK_ZEROING_DONE` (R56). -/
def execHashMaskZeroingDone (s : State) : Host.Outcome State Fault Refusal :=
  whenever s.cfg.zeroing { s with cfg := { s.cfg with zeroing := false } }

/-- `OWL_REKEY` (R49). -/
def execOwlRekey (s : State) : Host.Outcome State Fault Refusal := pfOnly s 0x38 s.input.acc

/-- Ranges of queue slots of two functions overlap (R75). -/
def slotsMeet (a b : VfCfg) : Bool :=
  a.qcount != 0 && b.qcount != 0 && decide (a.qbase.toNat < b.qbase.toNat + b.qcount.toNat) && decide (b.qbase.toNat < a.qbase.toNat + a.qcount.toNat)

/-- The functions that the move to RUN enables: ENABLE set, the range within slot 1,023 and clear of every lower-numbered
enabled function's (R75). -/
def enabledVfs (vf : List (Nat × VfCfg)) : Nat → List (Nat × VfCfg)
  | 0 => []
  | n + 1 =>
    let low := enabledVfs vf n
    let v := Sparse.get {} n vf
    if v.enable && v.qbase.toNat + v.qcount.toNat ≤ 1024 && !(low.any fun p => slotsMeet p.2 v) then low ++ [(n, v)] else low

/-- The bytes of the locked configuration: every register with an RW-L field, in the order of R71 (R74, R126). -/
def State.lockedBytes (s : State) : List Byte :=
  ([0x28, 0x30, 0x58, 0x80, 0x88, 0x90, 0x98, 0xA0, 0xA8] ++ (List.range 128).map fun n => 0x400 + 8 * n).flatMap fun o => leBytes 8 (s.pfRead o).toNat

/-- `CFG_RUN_DONE` (R74, R75, R91): firmware enables the functions, each a root context with its slots, and records the
locked configuration. -/
def execCfgRunDone (s : State) : Host.Outcome State Fault Refusal :=
  if !(s.cfg.moving && s.cfg.state == .locked) then .refused .noOccasion
  else
    let s1 := { s with cfg := { s.cfg with state := .run, moving := false, cfgDigest := Config.sha256 s.lockedBytes } }
    .next ((enabledVfs s.cfg.vf 128).foldl (fun st p =>
      let st1 := st.modCtx p.1 fun x => { x with live := true, level := 0 }
      (List.range p.2.qcount.toNat).foldl (fun u i => u.modQueue (p.2.qbase.toNat + i) fun q => { q with owner := some (BitVec.ofNat 12 p.1) }) st1) s1)

/-- A write to a queue register by whoever reaches the slot; from elsewhere it is ignored (R76, R94). -/
def slotWrite (s : State) (eff : Nat → State) : Host.Outcome State Fault Refusal :=
  .next (if s.reachesSlot s.input.writer s.input.slot.toNat then eff s.input.slot.toNat else s)

/-- `CQ_WRITE` (R77). -/
def execCqWrite (s : State) : Host.Outcome State Fault Refusal := slotWrite s fun q => s.putWidx q s.input.value

/-- `CQ_ENABLE` (R78, R122): CQ_CTL written with ENABLE set. -/
def execCqEnable (s : State) : Host.Outcome State Fault Refusal :=
  slotWrite s fun q => s.putCqCtl q (BitVec.ofNat 64 (s.input.cqLog2.toNat + at_ 5 s.input.crLog2.toNat + at_ 10 1))

/-- `CQ_DISABLE` (R78): CQ_CTL written with ENABLE clear. -/
def execCqDisable (s : State) : Host.Outcome State Fault Refusal :=
  slotWrite s fun q => s.putCqCtl q (BitVec.ofNat 64 (s.input.cqLog2.toNat + at_ 5 s.input.crLog2.toNat))

/-- `CQ_RESTART` (R79). -/
def execCqRestart (s : State) : Host.Outcome State Fault Refusal := slotWrite s fun q => s.restartQueue q

/-- `CQ_READ_WRITE` (R79). -/
def execCqReadWrite (s : State) : Host.Outcome State Fault Refusal := slotWrite s fun q => s.putRidx q s.input.value

/-- `CR_READ_WRITE` (R89). -/
def execCrReadWrite (s : State) : Host.Outcome State Fault Refusal :=
  slotWrite s fun q => s.putQueueReg q 7 ⟨.lo, s.input.value.setWidth 64⟩

/-- A write to the page of a root context by its function (R93). -/
def pageWrite (s : State) (off : Nat) (a : RegAcc) : Host.Outcome State Fault Refusal :=
  match s.input.writer with
  | .vf n => .next (if s.vfVisible n.toNat then s.putRootReg n.toNat off a else s)
  | _ => .refused .noOccasion

/-- `ROOT_PTB_WRITE` (R93, R104). -/
def execRootPtbWrite (s : State) : Host.Outcome State Fault Refusal := pageWrite s 0x00 s.input.acc

/-- `ROOT_HQ_IDX_WRITE` (R93). -/
def execRootHqIdxWrite (s : State) : Host.Outcome State Fault Refusal := pageWrite s 0x10 ⟨.lo, s.input.value.setWidth 64⟩

/-- `WORLD_CREATE` (R124, R125). -/
def execWorldCreate (s : State) : Host.Outcome State Fault Refusal :=
  pfOnly s 0x40 ⟨.full, (s.input.acc.data &&& ~~~0xC0#64) ||| 0x40⟩

/-- `WORLD_KEY` (R124, R125). -/
def execWorldKey (s : State) : Host.Outcome State Fault Refusal :=
  pfOnly s 0x40 ⟨.full, (s.input.acc.data &&& ~~~0xC0#64) ||| 0x80⟩

/-- `WORLD_DESTROY` (R124, R126). -/
def execWorldDestroy (s : State) : Host.Outcome State Fault Refusal :=
  pfOnly s 0x40 ⟨.full, s.input.acc.data ||| 0xC0⟩

/-- A write to a bounce register by the root context or its function (R132). -/
def bounceWrite (s : State) (r : Nat) (a : RegAcc) : Host.Outcome State Fault Refusal :=
  match s.input.writer.acts with
  | some c => .next (if s.isRoot s.input.writer c then s.putBounce c s.input.ch.toNat r a else s)
  | none => .refused .noOccasion

/-- `BCH_ENABLE` (R132): BCH_CTL written with ENABLE set, COMP and DIR as the event gives them. -/
def execBchEnable (s : State) : Host.Outcome State Fault Refusal := bounceWrite s 0 ⟨.full, (s.input.acc.data &&& 0x7) ||| 0x8⟩

/-- `BCH_GO` (R132). -/
def execBchGo (s : State) : Host.Outcome State Fault Refusal := bounceWrite s 3 ⟨.full, s.input.value.setWidth 64⟩

/-- `BCH_ABORT` (R132, R133): BCH_CTL written with ABORT, its other fields as they stand. -/
def execBchAbort (s : State) : Host.Outcome State Fault Refusal :=
  match s.input.writer.acts with
  | some c => bounceWrite s 0 ⟨.full, s.bounceImage c s.input.ch.toNat 0 ||| 0x10⟩
  | none => .refused .noOccasion

/-- `TEMPO_RING_WRITE` (R157). -/
def execTempoRingWrite (s : State) : Host.Outcome State Fault Refusal :=
  match s.input.writer with
  | .ctx c => .next (if s.present s.input.writer then s.putTempoRing c.toNat ⟨.full, s.input.acc.data⟩ else s)
  | _ => .refused .noOccasion

/-- `WATCH_WRITE` (R206, R207): register `index` (0 WATCH_ADDR, 1 WATCH_CTL) of watchpoint `ch` of a context. -/
def execWatchWrite (s : State) : Host.Outcome State Fault Refusal :=
  if s.input.index.toNat > 1 then .refused .noOccasion
  else .next (if s.reachesOwn s.input.writer s.input.ctx.toNat then
    s.putWatch s.input.ctx.toNat s.input.ch.toNat s.input.index.toNat ⟨.full, s.input.acc.data⟩ else s)

/-- A bus write lies on an aligned half or whole register (R71). -/
def busAcc (off n : Nat) (data : DWord) : Option (Nat × RegAcc) :=
  if n = 8 && off % 8 = 0 then some (off, ⟨.full, data⟩)
  else if n = 4 && off % 8 = 0 then some (off, ⟨.lo, data &&& 0xFFFFFFFF⟩)
  else if n = 4 && off % 8 = 4 then some (off - 4, ⟨.hi, data <<< 32⟩)
  else none

/-- What a read of n bytes at an offset of a reader's registers yields (R71, R94): the HIF reads a whole register or either half, the
doorbell aperture whole registers; any other access reads zero. -/
def State.regRead (s : State) (w : Writer) (off n : Nat) : DWord :=
  match busAcc off n 0 with
  | none => 0
  | some (base, a) =>
    let img := match w with
      | .pf => s.pfRead base
      | .vf c => s.vfRead c.toNat base
      | .ctx c => if n = 8 then s.doorRead c.toNat base else 0
    match a.half with
    | .full => img
    | .lo => img &&& 0xFFFFFFFF
    | .hi => img >>> 32

/-- `REGISTER_WRITE` (R7, R71, R93, R94): a write of n bytes at an offset of the writer's registers, field by field; the HIF
performs aligned 8- and 4-byte accesses, the doorbell aperture aligned 8-byte ones. -/
def execRegisterWrite (s : State) : Host.Outcome State Fault Refusal :=
  match busAcc s.input.off s.input.bytes s.input.acc.data with
  | none => .next s
  | some (off, a) =>
    match s.input.writer with
    | .pf => .next (s.pfWrite off a)
    | .vf n => .next (s.vfWrite n.toNat off a)
    | .ctx c => .next (if s.input.bytes = 8 then s.doorWrite c.toNat off s.input.acc.data else s)

end Machine

end Sys2Proof
end

