-- ==== Sys2Proof/Machine/Probe.lean ====
section
/-! DEFINITION. The probe stage (R173, R184, R304, R309) and the issue of the memory instructions: `ld`, `sld`, `st`, `sst`, the atomics
and `fence` (R305 to R315), which enter the warp's memory queue. -/

namespace Sys2Proof.Machine

/-- What a memory instruction does to memory, for permissions and watchpoints (R97, R207). -/
inductive AccKind where
  | load | store | atomic
deriving DecidableEq, Repr

/-- Where the aperture rules lead an address (R173, R304). -/
inductive Aperture where
  | ctx
  | door (off : Nat)
  | spm (off : Nat)

/-- The aperture rules; none is PERMISSION (R173, R304). -/
def apertureOf (spmBytes : Nat) (va : DWord) (n : Nat) : Option Aperture :=
  let off := va.toNat % 0x100000000000000
  match va.toNat / 0x100000000000000 with
  | 0x00 => some .ctx
  | 0xFE => some (.door off)
  | 0xFF => if off < 0x100000 && off + n ≤ spmBytes then some (.spm off) else none
  | _ => none

/-- Composed permission of a core access (R66, R97, R309). An atomic needs READ and WRITE. DESIGN CHOICE (log 62): a store or atomic to flash,
and an atomic to an MX window, is refused here on another device too, so that none leaves to become the miss of KIND 1 of R65 and
R66. -/
def Trans.allows (t : Trans) (k : AccKind) : Bool :=
  match k with
  | .load => t.read
  | .store => t.write && !t.flash
  | .atomic => t.read && t.write && !t.flash && !t.mx

/-- The compartment rule for a core access (R122). -/
def AccKind.world (k : AccKind) : Access := if k = .load then .load else .store

/-- The kind bit of a watchpoint (R206). -/
def Watch.watches (w : Watch) (k : AccKind) : Bool :=
  match k with
  | .load => w.load
  | .store => w.store
  | .atomic => w.atomic

/-- The bytes of a watchpoint that an access strikes (R207). -/
def Watch.struck (w : Watch) (k : AccKind) (va n : Nat) : BitVec 16 := if w.en && w.watches k then watchHit w.addr.toNat w.mask va n else 0

/-- The bytes of the first watchpoint of a context that accesses of several spans strike together, or 0 (R191, R207). -/
def Ctx.struckBy (c : Ctx) (k : AccKind) (spans : List (Nat × Nat)) : BitVec 16 :=
  c.watch.foldl (fun m p => if m != 0 then m else spans.foldl (fun x a => x ||| p.2.struck k a.1 a.2) 0) 0

/-- The bytes of the first watchpoint of a context that an access strikes, or 0 (R207). -/
def Ctx.struck (c : Ctx) (k : AccKind) (va n : Nat) : BitVec 16 := c.struckBy k [(va, n)]

/-- One lane's address after the probe. -/
structure Probed where
  lane : Nat
  va   : DWord
  tgt  : Target
  tr   : Option Trans

/-- The probe's answer. -/
inductive ProbeOut where
  | bad (s : State)
  | good (ls : List Probed)

/-- The aperture of a lane's address. -/
def Focus.aperture (f : Focus) (va : DWord) (n : Nat) : Option Aperture := apertureOf f.k.spmBytes va n

/-- The translation of one lane's address, for an address of the context's own space (R184 step 3). -/
def Focus.lead (f : Focus) (lane : Nat) (va : DWord) : Except Miss Trans := f.s.translate (0x6000000 + lane) f.ctx va.toNat

/-- The address check a lane fails at step 4: refused, and whether by another world's tag (R122, R184). -/
def Focus.refusal (f : Focus) (k : AccKind) (t : Trans) : Option Bool :=
  let w := (f.s.ctx f.ctx).world
  if t.world != w then some true
  else if t.allows k && worldAdmits w t k.world then none else some false

/-- One lane's address, translated, as it is performed. -/
def Focus.probeLane (f : Focus) (n : Nat) (l : Nat × DWord) : Option Probed :=
  match f.aperture l.2 n with
  | some (.door o) => some ⟨l.1, l.2, .door o, none⟩
  | some (.spm o) => some ⟨l.1, l.2, .spm o, none⟩
  | some .ctx => match f.lead l.1 l.2 with
    | .ok t => some ⟨l.1, l.2, f.s.targetOf t l.2.toNat, some t⟩
    | .error _ => none
  | none => none

/-- The five checks of the probe in their order, each over all lanes, the lowest failing lane naming the address (R184). -/
def Focus.probe (f : Focus) (k : AccKind) (n : Nat) (ls : List (Nat × DWord)) : ProbeOut :=
  match ls.find? fun l => l.2.toNat % n != 0 with
  | some l => .bad (f.stopAt Cause.misaligned l.2 0 false)
  | none =>
  match ls.find? fun l => (f.aperture l.2 n).isNone with
  | some l => .bad (f.stopAt Cause.permission l.2 0 false)
  | none =>
  match ls.findSome? fun l => match f.aperture l.2 n with
      | some .ctx => match f.lead l.1 l.2 with
        | .error m => some (l.2, m)
        | .ok _ => none
      | _ => none with
  | some (va, m) => .bad (f.missed m va)
  | none =>
  match ls.findSome? fun l => match f.aperture l.2 n with
      | some .ctx => match f.lead l.1 l.2 with
        | .ok t => (f.refusal k t).map fun r => (l.2, r)
        | .error _ => none
      | _ => none with
  | some (va, toRoot) => .bad (f.stopAt Cause.permission va 0 toRoot)
  | none =>
  match if f.wp.skipWatch then none else ls.findSome? fun l =>
      let m := (f.s.ctx f.ctx).struck k l.2.toNat n
      if m = 0 then none else some (l.2, m) with
  | some (va, m) => .bad ((f.withWarp { f.wp with skipWatch := true }).stopAt Cause.watch va m false)
  | none => .good (ls.filterMap (f.probeLane n))

/-- The translations an instruction used, remembered by the castling cache (R100). -/
def State.rememberAll (s : State) (ctx : Nat) (ls : List Probed) : State :=
  ls.foldl (fun st l => match l.tr with | some t => st.remember ctx l.va.toNat t | none => st) s

/-! ## Units of an access (R213, R215) -/

/-- A number for the place a target stands for: which memory, and where in it. -/
def State.keyOf (s : State) (t : Target) : Nat × Nat :=
  match t with
  | .here a inter _ _ => (0, s.place inter.toNat a)
  | .spm o => (1, o)
  | .door o => (2, o)
  | .away d a _ _ => (3 + d.toNat, a)

/-- A target some bytes further on. -/
def Target.plus (t : Target) (k : Nat) : Target :=
  match t with
  | .here a i w c => .here (a + k) i w c
  | .away d a w c => .away d (a + k) w c
  | .spm o => .spm (o + k)
  | .door o => .door (o + k)

/-- A target in an MX window, whose access is one step for each block (R64, R213). -/
def Target.isAlias (t : Target) : Bool :=
  match t with
  | .here a _ _ _ => regionOf a == .mxWindow
  | _ => false

/-- A target in flash, whose reads each come from one version of their page (R66). -/
def Target.isFlash (t : Target) : Bool :=
  match t with
  | .here a _ _ _ => regionOf a == .flash
  | _ => false

/-- Parts of a lane's access: its offsets and lengths (R66, R213). -/
def partsOf (t : Target) (n : Nat) : List (Nat × Nat) :=
  if n ≤ 8 || t.isAlias || t.isFlash then [(0, n)] else (List.range (n / 8)).map fun i => (8 * i, 8)

/-- Which bytes of a lane's part are stored: those that no higher lane of the instruction writes (R215). -/
def State.tieMask (s : State) (n : Nat) (higher : List Probed) (t : Target) (len : Nat) : Nat :=
  let (sp, k) := s.keyOf t
  (List.range len).foldl (fun m i =>
    if higher.any fun h =>
        let (hs, hk) := s.keyOf h.tgt
        hs == sp && decide (hk ≤ k + i) && decide (k + i < hk + n) then m else m + 2 ^ i) 0

/-- The units of a load or store, lane by lane; `data` gives a lane's bytes, and a store settles ties. -/
def State.unitsOf (s : State) (n : Nat) (store : Bool) (data : Nat → List Byte) : List Probed → List MemUnit
  | [] => []
  | l :: rest =>
    let bs := data l.lane
    (partsOf l.tgt n).map (fun p =>
      { lane := l.lane, off := p.1, va := l.va + BitVec.ofNat 64 p.1, tgt := l.tgt.plus p.1, len := p.2
        mask := if store then s.tieMask n rest (l.tgt.plus p.1) p.2 else 0
        size := n, data := (bs.drop p.1).take p.2, deps := (l.tr.map Trans.deps).getD [] })
    ++ s.unitsOf n store data rest

/-- Lanes of an atomic grouped by the address they name, in lane order (R33, R313). -/
def State.atomUnits (s : State) (n : Nat) (val : Nat → DWord × DWord) : List Probed → List MemUnit
  | [] => []
  | l :: rest =>
    let us := s.atomUnits n val rest
    let o := (l.lane, (val l.lane).1, (val l.lane).2)
    if us.any fun u => s.keyOf u.tgt == s.keyOf l.tgt then
      us.map fun u => if s.keyOf u.tgt == s.keyOf l.tgt then { u with lane := l.lane, va := l.va, ops := o :: u.ops } else u
    else { lane := l.lane, off := 0, va := l.va, tgt := l.tgt, len := n, size := n, ops := [o], deps := (l.tr.map Trans.deps).getD [] } :: us

/-! ## The issue of a memory instruction -/

/-- The waits before a memory instruction of u requests, one for each thread that takes part, issues (R308, R310, R315). -/
def memHold (u : Nat → Nat) (f : Focus) (part : List Nat) : Option Hold :=
  if part.isEmpty then none
  else if f.wp.memHeld then some .order
  else if f.s.coreRequests f.wp.core + u part.length > 4096 then some (.room (u part.length))
  else none

/-- The queue with a request more, and the results that it brings. -/
def Focus.enqueue (c : Focus) (ls : List Probed) (kind : ReqKind) (order : Order) (scope : Scope) (units : List MemUnit)
    (size : MSize) (cells : List PendCell) : State :=
  let id := c.wp.nextReq
  let w := { c.wp with
    nextReq := id + 1
    mem := c.wp.mem ++ [{ id := id, kind := kind, order := order, scope := scope, pc := c.pc, units := units }]
    pend := if cells.isEmpty then c.wp.pend
      else c.wp.pend ++ [{ req := some id, size := size, acq := order == .acq || order == .sc, cells := cells }] }
  (c.withWarp w).close.rememberAll c.ctx ls

/-- A memory instruction: its lanes with their addresses, the probe, and the entry into the queue. -/
def memIssue (i : Instr) (h : Hdr) (k : AccKind) (n : Nat) (u : Nat → Nat) (lanes : Focus → List Nat → List (Nat × DWord))
    (enter : Focus → Focus → List Probed → State) (s : State) : Host.Outcome State Fault Refusal :=
  coreIssue i h.s h.g (memHold u)
    (fun f part => if part.isEmpty then none else match f.probe k n (lanes f part) with
      | .bad t => some t
      | .good _ => none)
    (fun f part c => if part.isEmpty then c.close else match f.probe k n (lanes f part) with
      | .bad t => t
      | .good ls => enter f c ls) s

/-- The lanes of a vector memory instruction with their addresses (R304). -/
def vecLanes (a : Reg) (f : Focus) (part : List Nat) : List (Nat × DWord) := part.map fun l => (l, f.v2 1 l a.toNat)

/-- The one lane of a uniform access: the lowest that takes part (R304). -/
def uniLane (a : Reg) (f : Focus) (part : List Nat) : List (Nat × DWord) :=
  match part with
  | [] => []
  | l :: _ => [(l, f.u2 1 a.toNat)]

/-- The cells of a load's destination in one lane (R305). -/
def Focus.loadCells (f : Focus) (m : MSize) (d : Reg) (lane : Nat) : List PendCell :=
  (List.range m.regs).map fun i => { lane := lane, uni := false, reg := f.wp.vIndex (d.toNat + i), off := 4 * i }

/-- `ld` (R305, R306). -/
def execLd (h : Hdr) (d a : Reg) (m : MemMode) (s : State) : Host.Outcome State Fault Refusal :=
  memIssue (.ld h d a m) h .load m.size.bytes id (vecLanes a)
    (fun f c ls => c.enqueue ls .load m.order m.scope (f.s.unitsOf m.size.bytes false (fun _ => []) ls) m.size
      (ls.flatMap fun l => f.loadCells m.size d l.lane)) s

/-- `sld` (R305, R306). -/
def execSld (h : Hdr) (d a : Reg) (m : MemMode) (s : State) : Host.Outcome State Fault Refusal :=
  memIssue (.sld h d a m) h .load m.size.bytes (fun _ => 1) (uniLane a)
    (fun f c ls => c.enqueue ls .load m.order m.scope (f.s.unitsOf m.size.bytes false (fun _ => []) ls) m.size
      ((List.range m.size.regs).map fun i => { lane := 0, uni := true, reg := d.toNat + i, off := 4 * i })) s

/-- The bytes a store takes from registers (R305). -/
def storeBytes (m : MSize) (reg : Nat → Word) : List Byte :=
  ((List.range m.regs).flatMap fun i => leBytes 4 (reg i).toNat).take m.bytes

/-- `st` (R305, R307, R215). -/
def execSt (h : Hdr) (d a : Reg) (m : MemMode) (s : State) : Host.Outcome State Fault Refusal :=
  memIssue (.st h d a m) h .store m.size.bytes id (vecLanes a)
    (fun f c ls => c.enqueue ls .store m.order m.scope
      (f.s.unitsOf m.size.bytes true (fun l => storeBytes m.size fun i => f.v 0 l (d.toNat + i)) ls) m.size []) s

/-- `sst` (R305, R307). -/
def execSst (h : Hdr) (d a : Reg) (m : MemMode) (s : State) : Host.Outcome State Fault Refusal :=
  memIssue (.sst h d a m) h .store m.size.bytes (fun _ => 1) (uniLane a)
    (fun f c ls => c.enqueue ls .store m.order m.scope
      (f.s.unitsOf m.size.bytes true (fun _ => storeBytes m.size fun i => f.u 0 (d.toNat + i)) ls) m.size []) s

/-- Bytes of an atomic's word. -/
def atomBytes (m : AtomMode) : Nat := if m.w64 then 8 else 4

/-- The data of a lane: v, or new and cmp (R312). -/
def Focus.atomData (f : Focus) (op : AtomOp) (m : AtomMode) (d : Reg) (lane : Nat) : DWord × DWord :=
  let get (k : Nat) : DWord := if m.w64 then f.v2 0 lane (d.toNat + k) else (f.v 0 lane (d.toNat + k)).setWidth 64
  (get 0, if op = .cas then get (if m.w64 then 2 else 1) else 0)

/-- The cells of a returned old value (R312). -/
def Focus.atomCells (f : Focus) (m : AtomMode) (d : Reg) (lane : Nat) : List PendCell :=
  if !m.ret then []
  else (List.range (if m.w64 then 2 else 1)).map fun i => { lane := lane, uni := false, reg := f.wp.vIndex (d.toNat + i), off := 4 * i }

/-- The issue of an atomic (R311 to R314). -/
def atomIssue (i : Instr) (op : AtomOp) (h : Hdr) (d a : Reg) (m : AtomMode) (s : State) : Host.Outcome State Fault Refusal :=
  memIssue i h .atomic (atomBytes m) id (vecLanes a)
    (fun f c ls => c.enqueue ls (.atom op m.w64 m.ret) m.order m.scope (f.s.atomUnits (atomBytes m) (f.atomData op m d) ls)
      (if m.w64 then .w64 else .w32) (ls.flatMap fun l => f.atomCells m d l.lane)) s

/-- `atom.add` (R311). -/
def execAtomAdd (h : Hdr) (d a : Reg) (m : AtomMode) (s : State) : Host.Outcome State Fault Refusal := atomIssue (.atomAdd h d a m) .add h d a m s
/-- `atom.and` (R311). -/
def execAtomAnd (h : Hdr) (d a : Reg) (m : AtomMode) (s : State) : Host.Outcome State Fault Refusal := atomIssue (.atomAnd h d a m) .and h d a m s
/-- `atom.or` (R311). -/
def execAtomOr (h : Hdr) (d a : Reg) (m : AtomMode) (s : State) : Host.Outcome State Fault Refusal := atomIssue (.atomOr h d a m) .or h d a m s
/-- `atom.xor` (R311). -/
def execAtomXor (h : Hdr) (d a : Reg) (m : AtomMode) (s : State) : Host.Outcome State Fault Refusal := atomIssue (.atomXor h d a m) .xor h d a m s
/-- `atom.min.i` (R311). -/
def execAtomMinI (h : Hdr) (d a : Reg) (m : AtomMode) (s : State) : Host.Outcome State Fault Refusal := atomIssue (.atomMinI h d a m) .minI h d a m s
/-- `atom.max.i` (R311). -/
def execAtomMaxI (h : Hdr) (d a : Reg) (m : AtomMode) (s : State) : Host.Outcome State Fault Refusal := atomIssue (.atomMaxI h d a m) .maxI h d a m s
/-- `atom.min.n` (R311). -/
def execAtomMinN (h : Hdr) (d a : Reg) (m : AtomMode) (s : State) : Host.Outcome State Fault Refusal := atomIssue (.atomMinN h d a m) .minN h d a m s
/-- `atom.max.n` (R311). -/
def execAtomMaxN (h : Hdr) (d a : Reg) (m : AtomMode) (s : State) : Host.Outcome State Fault Refusal := atomIssue (.atomMaxN h d a m) .maxN h d a m s
/-- `atom.swap` (R311). -/
def execAtomSwap (h : Hdr) (d a : Reg) (m : AtomMode) (s : State) : Host.Outcome State Fault Refusal := atomIssue (.atomSwap h d a m) .swap h d a m s
/-- `atom.cas` (R312). -/
def execAtomCas (h : Hdr) (d a : Reg) (m : AtomMode) (s : State) : Host.Outcome State Fault Refusal := atomIssue (.atomCas h d a m) .cas h d a m s
/-- `atom.fadd` (R311, R313). -/
def execAtomFadd (h : Hdr) (d a : Reg) (m : AtomMode) (s : State) : Host.Outcome State Fault Refusal := atomIssue (.atomFadd h d a m) .fadd h d a m s
/-- `atom.fmax` (R311). -/
def execAtomFmax (h : Hdr) (d a : Reg) (m : AtomMode) (s : State) : Host.Outcome State Fault Refusal := atomIssue (.atomFmax h d a m) .fmax h d a m s

/-- `fence` (R217, R315): what earlier accesses later memory instructions of the warp wait for. -/
def execFence (h : Hdr) (o : FenceOrder) (c : Scope) (s : State) : Host.Outcome State Fault Refusal :=
  regIssue (.fence h o c) h.s h.g (fun _ part w =>
    if part.isEmpty then w
    else { w with fence :=
      { perf := (o != .acq) || (w.fence.perf && w.waitsPerf w.fence.upto)
        ret := (o != .rel) || (w.fence.ret && w.waitsRet w.fence.upto)
        upto := w.nextReq } }) s

end Sys2Proof.Machine
end

