-- ==== Sys2Proof/Machine/EngineMem.lean ====
section
/-! DEFINITION. Accesses to a context's memory by the TCE and the CLE (R183, R325, R329, R331, R334): aligned pieces, each translated,
checked and performed at its home, or sent to the device it lies on; and the stop records of engines (R187, R191). -/

namespace Sys2Proof.Machine

/-- A fault of an engine's access. -/
structure EFault where
  cause  : BitVec 8
  addr   : Nat
  toRoot : Bool := false
  /-- a remote miss: the device, the local address there and the KIND (R39, R40) -/
  far    : Option (BitVec 12 × Nat × BitVec 2) := none
  /-- a transfer whose tag failed on the network (R130) -/
  tamper : Bool := false
  /-- a table word whose tag failed, which SEC_EVENT counts (R128) -/
  counts : Bool := false
deriving DecidableEq, Repr

/-- What an engine's access leaves: the state, the bytes read and the fault. -/
structure EOut where
  s     : State
  bytes : List Byte := []
  fail  : Option EFault := none

/-- A remote miss of an engine's access (R39). -/
def farFault (dev : BitVec 12) (a : Nat) (kind : BitVec 2) : EFault :=
  { cause := Cause.remotePinMiss, addr := (fabricAddr dev a).toNat, far := some (dev, a, kind) }

/-- A number that tells the accesses of the engines to one address apart from others (R101). -/
def engineSalt (va : Nat) : Nat := 0xC000000 + va % 0x1000000

/-- The fault of an engine whose walk misses (R39, R69, R128, R130, R183). -/
def missFault (va : Nat) (m : Miss) : EFault :=
  match m.why with
  | .absent => { cause := Cause.pageMiss, addr := va }
  | .spoiled cause => { cause := cause, addr := va, counts := true }
  | .far dev a kind => farFault dev a kind
  | .farFailed cause => { cause := cause, addr := va }
  | .tampered => { cause := Cause.cipherIntegrity, addr := va, tamper := true }

/-- What an access reads or writes of a page it may reach. A walk that misses is a stopping fault (R183). -/
def State.engineLead (s : State) (ctx va : Nat) (k : Access) : Except EFault Trans :=
  match s.lead (engineSalt va) ctx va k with
  | .ok t => .ok t
  | .miss m => .error (missFault va m)
  | .refused r => .error { cause := Cause.permission, addr := va, toRoot := r }

/-- An access to another device by an engine, and what it brings (R30, R38, R47, R69, R128). -/
def State.engineFar (s : State) (ctx va : Nat) (dev : BitVec 12) (a : Nat) (q : RemoteReq) (got : State → List Byte) : EOut :=
  match s.farGo ctx (fabricAddr dev a).toNat q with
  | .gone t => { s := t, bytes := got t }
  | .waits t => { s := t }
  | .missed t kind => { s := t, fail := some (farFault dev a kind) }
  | .failed t cause => { s := t, fail := some { cause := cause, addr := va } }

/-- One piece read, under the permission of an access of kind k (R329). Bytes of another device come with the event (log 9). -/
def State.enginePiece (s0 : State) (ctx : Nat) (k : Access) (p : Nat × Nat) : EOut :=
  let s := s0.walkFor ctx p.1
  match s.engineLead ctx p.1 k with
  | .error e => { s := s, fail := some e }
  | .ok t => match s.targetOf t p.1 with
    | .here a inter w c =>
      if s.netFails a p.2 then { s := s, fail := some { cause := Cause.cipherIntegrity, addr := p.1, tamper := true } }
      else
        let o := (s.befallRange inter.toNat a p.2).agentRead inter.toNat w c a p.2
        { s := o.s, bytes := o.bytes, fail := o.fail.map fun x => { cause := x, addr := p.1 } }
    | .away dev a w c =>
      s.engineFar ctx p.1 dev a (blockRequest (s.subtreeOf ctx).1 w c a p.2 none) fun t => t.farBytes (fabricAddr dev a).toNat p.2
    | _ => { s := s }

/-- Pieces read one after another, up to the first fault. -/
def State.enginePieces (ctx : Nat) (k : Access) : List (Nat × Nat) → EOut → EOut
  | [], o => o
  | p :: rest, o =>
    match o.fail with
    | some _ => o
    | none =>
      let x := o.s.enginePiece ctx k p
      State.enginePieces ctx k rest { x with bytes := o.bytes ++ x.bytes }

/-- n bytes of a context's memory read by an engine. -/
def State.engineRead (s : State) (ctx va n : Nat) (k : Access) : EOut := State.enginePieces ctx k (piecesOf va n) { s := s }

/-- Masked bytes written at a local address by an engine, within an aligned 8-byte word, or a whole 32-byte sector, or from the start of a
64-byte block: through an MX window in one step, in HBM sector by sector (R64, R69, R128, R213). -/
def State.engineHome (s : State) (inter : Nat) (w : BitVec 6) (c : BitVec 2) (a mask : Nat) (bs : List Byte) : HomeOut :=
  if bs.length ≤ 32 || regionOf a == .mxWindow then s.homeWrite inter w c a mask bs (bs.length == 32) false
  else
    let o := s.homeWrite inter w c a (mask % 2 ^ 32) (bs.take 32) true true
    match o.fail with
    | some _ => o
    | none => o.s.homeWrite inter w c (a + 32) (mask >>> 32) (bs.drop 32) true true

/-- Masked bytes written by an engine, within an aligned 8-byte word, a 32-byte sector or a 64-byte block. A sector, and a block outside an MX
window, is written whole. -/
def State.enginePut (s0 : State) (ctx : Nat) (k : Access) (va mask : Nat) (bs : List Byte) : EOut :=
  let s := s0.walkFor ctx va
  match s.engineLead ctx va k with
  | .error e => { s := s, fail := some e }
  | .ok t => match s.targetOf t va with
    | .here a inter w c =>
      if s.netFails a bs.length then { s := s, fail := some { cause := Cause.cipherIntegrity, addr := va, tamper := true } }
      else
        let o := (s.befallRange inter.toNat a bs.length).engineHome inter.toNat w c a mask bs
        { s := o.s, fail := o.fail.map fun x => { cause := x, addr := va } }
    | .away dev a w c =>
      let q := blockRequest (s.subtreeOf ctx).1 w c a bs.length (some bs)
      s.engineFar ctx va dev a { q with bytes := (mask % 2 ^ bs.length) * 2 ^ (a % 64) } fun _ => []
    | _ => { s := s }

/-- The aligned groups of so many bytes that a table of bytes reaches, ascending. -/
def groupsOf (span : Nat) (t : List (Nat × Byte)) : List Nat := (t.map fun p => p.1 / span).eraseDups

/-- The mask and the bytes of one group of a table. -/
def groupBytes (span g : Nat) (t : List (Nat × Byte)) : Nat × List Byte :=
  ((List.range span).foldl (fun m i => if (Table.find (g * span + i) t).isSome then m + 2 ^ i else m) 0
  , (List.range span).map fun i => (Table.find (g * span + i) t).getD 0)

/-- The groups that the bytes of a 32-byte sector are written in: the sector where they cover it, else word by word. -/
def sectorGroups (t : List (Nat × Byte)) (h : Nat) : List (Nat × Nat) :=
  if (groupBytes 32 h t).1 = 2 ^ 32 - 1 then [(32, h)] else ((groupsOf 8 t).filter fun g => g / 4 == h).map fun g => (8, g)

/-- The groups that a table of bytes is written in: a block of an MX window whole, of this device or another, and all else by sectors and
words; as span and number. -/
def State.storeGroups (s : State) (ctx : Nat) (k : Access) (t : List (Nat × Byte)) : List (Nat × Nat) :=
  (groupsOf 64 t).flatMap fun b =>
    if s.leadsToWindow (engineSalt (64 * b)) ctx (64 * b) k then [(64, b)] else sectorGroups t (2 * b) ++ sectorGroups t (2 * b + 1)

/-- A table of bytes written by an engine, up to the first fault: each block of an MX window in one step, all else by sectors and words (R64,
R69, R213). -/
def State.engineStore (s : State) (ctx : Nat) (k : Access) (t : List (Nat × Byte)) : EOut :=
  (s.storeGroups ctx k t).foldl (fun o g => match o.fail with
    | some _ => o
    | none =>
      let x := groupBytes g.1 g.2 t
      o.s.enginePut ctx k (g.2 * g.1) x.1 x.2) { s := s }

/-- A stop record of an engine that works for a warp of a team (R191). -/
def engineStop (id : BitVec 8) (tm : Team) (wn : Nat) (cause : BitVec 8) (op : DWord) (addr : Nat) : StopRec :=
  { engine := id, cause := cause, unit := BitVec.ofNat 16 (tm.warp wn).core, team := BitVec.ofNat 32 tm.index
    userTag := (tm.warp wn).userTag, pcOrOp := op, addr := BitVec.ofNat 64 addr }

/-- What a fault of an engine's access leaves beside the stop: the count of a table word whose tag failed, and the alarm of a failed transfer
(R128, R130). -/
def State.faultMarks (s : State) (x : EFault) : State :=
  let s1 := if x.counts then s.countFailure x.cause else s
  if x.tamper then s1.tamperAlarmed else s1

/-- An engine's fault raises the halt line of its team's context; a remote miss is recorded in OSF_ERR, a table word whose tag failed is
counted, and a failed transfer raises the alarm (R39, R40, R128, R130, R183, R186). -/
def State.engineFault (s : State) (tid : Nat) (r : StopRec) (x : EFault) : State :=
  match s.team? tid with
  | none => s
  | some tm =>
    let c := s.ctxOf tm
    let s1 := match x.far with
      | some (dev, a, kind) => s.recordOsf c dev false kind a
      | none => s
    (s1.raiseHalt c r x.toRoot (some tid)).faultMarks x

end Sys2Proof.Machine
end

