-- ==== Sys2Proof/Machine/Control.lean ====
section
/-! DEFINITION. Meanings of the control instructions (R281 to R286), of `exit`, `trap` and `brk` (R344, R345), of barriers and gates
(R316 to R320), grace periods, safe points and `wait` (R324, R342, R346 to R348), special registers, register growth and `cpost`
(R349 to R352). -/

namespace Sys2Proof.Machine

/-- Threads of the given lanes changed. -/
def Warp.onLanes (w : Warp) (lanes : List Nat) (f : Thread → Thread) : Warp :=
  w.mapThreads fun t => if lanes.contains t.lane then f t else t

/-- Threads of the given lanes sent to code offsets of their own. -/
def Warp.goto (w : Warp) (lanes : List Nat) (target : Nat → Word) : Warp :=
  w.onLanes lanes fun t => { t with pc := target t.lane }

/-- Threads of the given lanes parked at the instruction whose offset is given. -/
def Warp.parkAt (w : Warp) (lanes : List Nat) (pc : Word) (p : Park) : Warp := w.onLanes lanes fun t => { t with park := p, pc := pc }

/-- The state with the focus put back, and what follows from the change of its warp. -/
def Focus.closeAfter (c : Focus) : State := c.close.after c.tid c.wn

/-- A wait before the issue while at least one thread takes part and a condition holds of the warp. -/
def holdWhile (h : Hold) (busy : Warp → Bool) (f : Focus) (part : List Nat) : Option Hold :=
  if part.isEmpty then none else if busy f.wp then some h else none

/-- The issue of an instruction that acts once for its warp, when at least one thread takes part (R264, R343). -/
def onceIssue (i : Instr) (h : Hdr) (hold : Focus → List Nat → Option Hold) (own : Focus → List Nat → Option State)
    (eff : Focus → List Nat → Focus → State) (s : State) : Host.Outcome State Fault Refusal :=
  coreIssue i h.s h.g hold (fun f part => if part.isEmpty then none else own f part)
    (fun f part c => if part.isEmpty then c.close else eff f part c) s

/-! ## Branches (R281 to R286) -/

/-- `nop` (R281). -/
def execNop (h : Hdr) (s : State) : Host.Outcome State Fault Refusal := regIssue (.nop h) h.s h.g (fun _ _ w => w) s

/-- `br` (R282): each thread that takes part goes to the target. -/
def execBr (h : Hdr) (o : BitVec 21) (s : State) : Host.Outcome State Fault Refusal :=
  regIssue (.br h o) h.s h.g (fun f part w => w.goto part fun _ => branchTarget f.pc o) s

/-- `call` (R282, R283): v127 of the window takes the offset of the next instruction. -/
def execCall (h : Hdr) (o : BitVec 21) (s : State) : Host.Outcome State Fault Refusal :=
  regIssue (.call h o) h.s h.g (fun f part w => (w.setV part 127 fun _ => f.pc + 4).goto part fun _ => branchTarget f.pc o) s

/-- The offset in a lane's vA, its two lowest bits ignored (R284). -/
def Focus.offsetIn (f : Focus) (a : Reg) (lane : Nat) : Word := f.v 1 lane a.toNat &&& 0xFFFFFFFC

/-- `brx` (R284). -/
def execBrx (h : Hdr) (a : Reg) (s : State) : Host.Outcome State Fault Refusal :=
  regIssue (.brx h a) h.s h.g (fun f part w => w.goto part fun l => f.offsetIn a l) s

/-- A marked branch (R162, R284): every active thread parks at it, with the target its guard chooses. -/
def markedIssue (i : Instr) (h : Hdr) (target : Focus → Nat → Word) (s : State) : Host.Outcome State Fault Refusal :=
  coreIssue i h.s 0 noHold noFault (fun f _ c =>
    (c.withWarp (c.wp.onLanes f.active fun t =>
      { t with pc := f.pc, park := .marked (if f.p t.lane h.g then target f t.lane else f.pc + 4) })).closeAfter) s

/-- `br.m` (R284). -/
def execBrM (h : Hdr) (o : BitVec 21) (s : State) : Host.Outcome State Fault Refusal :=
  markedIssue (.brM h o) h (fun f _ => branchTarget f.pc o) s

/-- `brx.m` (R284). -/
def execBrxM (h : Hdr) (a : Reg) (s : State) : Host.Outcome State Fault Refusal :=
  markedIssue (.brxM h a) h (fun f l => f.offsetIn a l) s

/-! ## exit, trap, brk -/

/-- `exit` (R344): the threads that take part wait for the warp's results, tokens and stores, and exit. -/
def execExit (h : Hdr) (s : State) : Host.Outcome State Fault Refusal :=
  onceIssue (.exit h) h noHold (fun _ _ => none)
    (fun f part c => (c.withWarp (c.wp.parkAt part f.pc .exiting)).closeAfter) s

/-- `trap` (R345): TRAP with CAUSE 0x80 + n, complete and precise. -/
def execTrap (h : Hdr) (a : Reg) (s : State) : Host.Outcome State Fault Refusal :=
  onceIssue (.trap h a) h noHold (fun _ _ => none) (fun _ _ c => c.stop (Cause.trap a)) s

/-- `brk` (R345): BREAK, complete and precise. -/
def execBrk (h : Hdr) (s : State) : Host.Outcome State Fault Refusal :=
  onceIssue (.brk h) h noHold (fun _ _ => none) (fun _ _ c => c.stop Cause.break_) s

/-! ## Barriers (R316, R317) -/

/-- The threads of the given lanes arrive at barrier n; a repeat in one phase does nothing. -/
def Warp.arrive (w : Warp) (lanes : List Nat) (n : Nat) : Warp :=
  w.onLanes lanes fun t => { t with arrived := t.arrived ||| (1#16 <<< n) }

/-- Arrival at a barrier by the focus' warp, its phase completing when it is over (R178). -/
def Focus.arrive (c : Focus) (lanes : List Nat) (n : Nat) : Focus :=
  let tm := (c.tm.setWarp c.wn (c.wp.arrive lanes n)).settleBarriers
  { c with tm := tm, wp := tm.warp c.wn }

/-- The threads of the given lanes that have arrived at barrier n park at it. -/
def Focus.await (c : Focus) (lanes : List Nat) (n : Nat) (pc : Word) : Focus :=
  c.withWarp (c.wp.onLanes lanes fun t => if t.arrived.getLsbD n then { t with park := .bar n, pc := pc } else t)

/-- `bar.join` (R316). The arrival waits for the warp's earlier accesses, which it releases (R224, R317). -/
def execBarJoin (h : Hdr) (a : Reg) (s : State) : Host.Outcome State Fault Refusal :=
  onceIssue (.barJoin h a) h (holdWhile .quiet fun w => !w.quiet) (fun _ _ => none)
    (fun f part c => ((c.arrive part a.toNat).await part a.toNat f.pc).closeAfter) s

/-- `bar.mark` (R316). -/
def execBarMark (h : Hdr) (a : Reg) (s : State) : Host.Outcome State Fault Refusal :=
  onceIssue (.barMark h a) h (holdWhile .quiet fun w => !w.quiet) (fun _ _ => none)
    (fun _ part c => (c.arrive part a.toNat).closeAfter) s

/-- `bar.hold` (R316). -/
def execBarHold (h : Hdr) (a : Reg) (s : State) : Host.Outcome State Fault Refusal :=
  onceIssue (.barHold h a) h noHold (fun _ _ => none) (fun f part c => (c.await part a.toNat f.pc).closeAfter) s

/-! ## Gates (R318 to R320) -/

/-- The gate masks of a team's bundle. -/
def Focus.gateMask (f : Focus) (sel : Bundle → BitVec 16) : BitVec 16 :=
  match f.s.bundle? f.tm.bundle with
  | some b => sel b
  | none => 0

/-- GATE_BAD where the bundle's mask has the gate's bit clear, whatever the guard (R318). -/
def gateFault (sel : Bundle → BitVec 16) (a : Reg) (f : Focus) (_ : List Nat) : Option State :=
  if (f.gateMask sel).getLsbD a.toNat then none else some (f.stop Cause.gateBad)

/-- `gate` (R319). -/
def execGate (h : Hdr) (a : Reg) (s : State) : Host.Outcome State Fault Refusal :=
  coreIssue (.gate h a) h.s h.g noHold (gateFault Bundle.gateWait a)
    (fun f part c =>
      if f.s.gateOpen f.tm.bundle a.toNat then c.close
      else (c.withWarp (c.wp.parkAt part f.pc (.gate a.toNat))).close) s

/-- `dlrel` (R320). It waits for the accesses that it releases (R224). -/
def execDlrel (h : Hdr) (a : Reg) (s : State) : Host.Outcome State Fault Refusal :=
  coreIssue (.dlrel h a) h.s h.g (holdWhile .quiet fun w => !w.quiet) (gateFault Bundle.gateRel a)
    (fun _ part c =>
      if part.isEmpty then c.close
      else (c.withWarp { c.wp with dlrel := c.wp.dlrel ||| (1#16 <<< a.toNat) }).closeAfter) s

/-! ## Grace periods (R346 to R348) -/

/-- `rsb` (R346). -/
def execRsb (h : Hdr) (s : State) : Host.Outcome State Fault Refusal :=
  regIssue (.rsb h) h.s h.g (fun _ part w => if part.isEmpty then w else { w with rsec := min (w.rsec + 1) 255 }) s

/-- `rse` (R346). -/
def execRse (h : Hdr) (s : State) : Host.Outcome State Fault Refusal :=
  regIssue (.rse h) h.s h.g (fun _ part w => if part.isEmpty then w else { w with rsec := w.rsec - 1 }) s

/-- The focus with the tag of a `gpw` or `dfree` taken, whatever it starts (R154). -/
def Focus.takeTag (c : Focus) : Nat × Focus :=
  let (tag, s1) := c.close.takeTag c.ctx
  match s1.team? c.tid with
  | some tm => (tag, { c with s := s1, tm := tm, wp := tm.warp c.wn })
  | none => (tag, c)

/-- `gpw` (R154, R155, R346, R348). -/
def execGpw (h : Hdr) (s : State) : Host.Outcome State Fault Refusal :=
  onceIssue (.gpw h) h (holdWhile .drain Warp.storesQueued)
    (fun f _ => if f.wp.rsec = 0 then none else some (f.stop Cause.illegalInstruction))
    (fun f part c =>
      let (tag, c1) := c.takeTag
      (c1.withWarp { (c1.wp.parkAt part f.pc .gpw).passQuiet with gpwTag := tag }).closeAfter) s

/-- `dfree` (R156, R347, R348). Short of room it parks, unissued, and runs again. -/
def execDfree (h : Hdr) (a : Reg) (s : State) : Host.Outcome State Fault Refusal :=
  onceIssue (.dfree h a) h (holdWhile .drain Warp.storesQueued)
    (fun f part =>
      if part.length ≤ f.s.dfreeRoom f.ctx then none
      else some (f.withWarp (f.wp.parkAt part f.pc .dfree)).close)
    (fun f part c =>
      let (tag, c1) := c.takeTag
      let new := part.map fun l => ((f.v2 1 l a.toNat).setWidth 56, tag)
      c1.close.modCtx c.ctx fun x => { x with tempo := { x.tempo with deferred := x.tempo.deferred ++ new } }) s

/-- `spt` (R195, R196, R342). -/
def execSpt (s' : Bool) (i : BitVec 17) (s : State) : Host.Outcome State Fault Refusal :=
  coreIssue (.spt s' i) s' 0 noHold noFault (fun f _ c =>
    let w := { c.wp with plyLeft := f.k.ply, lastSpt := some i.toNat }
    if f.s.stopStands f.tm then
      let w1 := w.onLanes f.active fun t => { t with park := .spt i.toNat }
      (c.withWarp (if w1.rsec == 0 && w1.atSpt then w1.passQuiet else w1)).closeAfter
    else (c.withWarp (if w.rsec == 0 then w.passQuiet else w)).closeAfter) s

/-- `wait` (R172, R324): the active threads park until every token of the mask holds 0. -/
def execWait (s' : Bool) (m : BitVec 8) (s : State) : Host.Outcome State Fault Refusal :=
  coreIssue (.wait s' m) s' 0 noHold noFault (fun f _ c =>
    if c.wp.tokensZero m then (c.withWarp (c.wp.passWait f.s.freeCtr m)).close
    else (c.withWarp (c.wp.parkAt f.active f.pc (.wait m))).close) s

/-! ## Special registers (R349) -/

/-- The value of a special register for the warp at issue. -/
def Focus.special (f : Focus) (n : Nat) : Word :=
  let k := f.k
  BitVec.ofNat 32 (match n with
    | 0 => f.tm.index % k.gridX
    | 1 => f.tm.index / k.gridX % k.gridY
    | 2 => f.tm.index / (k.gridX * k.gridY)
    | 3 => k.gridX
    | 4 => k.gridY
    | 5 => k.gridZ
    | 6 => f.wn
    | 7 => k.lanes
    | 8 => f.tm.warps.length
    | 9 => f.wp.core
    | 10 => f.wp.core / 96
    | 11 => f.s.fabric.deviceNum.toNat
    | 12 => f.ctx
    | 13 => (f.s.ctx f.ctx).level.toNat
    | 14 => f.wp.plyLeft
    | 15 => f.wp.issues.toNat
    | 16 => f.wp.issues.toNat / 0x100000000
    | 17 => f.tm.stage
    | 18 => f.wp.window
    | 19 => f.wp.pages
    | 20 => f.wp.rsec
    | 21 => k.argBytes
    | 22 => f.wp.userTag.toNat
    | _ => 0)

/-- `sysrd` (R349): the value before this issue is counted. -/
def execSysrd (h : Hdr) (d a : Reg) (s : State) : Host.Outcome State Fault Refusal :=
  uniIssue (.sysrd h d a) h d (fun f _ => f.special a.toNat) s

/-- `syswr` (R349): USER_TAG takes the uniform register; no other number is an instruction. -/
def execSyswr (h : Hdr) (d a : Reg) (s : State) : Host.Outcome State Fault Refusal :=
  regIssue (.syswr h d a) h.s h.g (fun f part w => if part.isEmpty then w else { w with userTag := f.u 1 a.toNat }) s

/-! ## Register growth, windows, completion records (R350 to R352) -/

/-- `ralloc` (R152, R350): the warp takes its place among the parked ones and is served at once when it can be. -/
def execRalloc (h : Hdr) (a : Reg) (s : State) : Host.Outcome State Fault Refusal :=
  onceIssue (.ralloc h a) h noHold
    (fun f _ => if !f.wp.freeRalloc && decide (f.wp.pages + a.toNat > 32) then some (f.stop Cause.regGrowImpossible) else none)
    (fun f part c =>
      if f.wp.freeRalloc then (c.withWarp { c.wp with freeRalloc := false }).close
      else
        (c.withWarp { (c.wp.parkAt part f.pc .ralloc) with rallocAsk := a.toNat, rallocAt := c.s.stamp, lastSpt := f.wp.lastSpt }).close.serveSlot
          c.wp.core c.wp.slot c.s.stamp) s

/-- Pages removed from the top, their contents and the results that come to them lost (R168). -/
def Warp.shrink (w : Warp) (n : Nat) : Warp :=
  let keep := w.pages - n
  { w with
    pages := keep
    threads := w.threads.map fun t => { t with regs := t.regs.takeWhile fun r => decide (r.1 < keep * 32) }
    pend := w.pend.map fun p => { p with cells := p.cells.filter fun c => c.uni || decide (c.reg < keep * 32) } }

/-- `rfree` (R350). -/
def execRfree (h : Hdr) (a : Reg) (s : State) : Host.Outcome State Fault Refusal :=
  onceIssue (.rfree h a) h noHold
    (fun f _ => if a.toNat ≥ f.wp.pages then some (f.stop Cause.regRange) else none)
    (fun _ _ c => (c.withWarp (c.wp.shrink a.toNat)).close.serveSlot c.wp.core c.wp.slot 0) s

/-- `wbase` (R351). -/
def execWbase (h : Hdr) (a : Reg) (s : State) : Host.Outcome State Fault Refusal :=
  regIssue (.wbase h a) h.s h.g (fun _ part w => if part.isEmpty then w else { w with window := a.toNat }) s

/-- `cpost` (R88, R89, R352). While the ring has no room it parks, unissued, and runs again. -/
def execCpost (h : Hdr) (d : Reg) (s : State) : Host.Outcome State Fault Refusal :=
  onceIssue (.cpost h d) h (holdWhile .quiet fun w => !w.quiet)
    (fun f part => if f.s.cpostRoom f.tm then none else some (f.withWarp (f.wp.parkAt part f.pc .cpost)).close)
    (fun f _ c =>
      match f.s.bundle? f.tm.bundle with
      | none => c.close
      | some b =>
        c.close.pushRec b.ring.toNat
          { kind := 3, status := Status.ok, queue := b.queue, tag := b.tag, userTag := f.wp.userTag, index := b.index
            payload := f.u 4 (d.toNat + 3) ++ f.u 3 (d.toNat + 2) ++ f.u 2 (d.toNat + 1) ++ f.u 1 d.toNat, pkt := none }) s

end Sys2Proof.Machine
end

