-- ==== Sys2Proof/Machine/FloatFun.lean ====
section
/-! DEFINITION. The unary functions (R245, R295 to R297) and the conversions (R239, R298). The two correctly rounded functions
are computed exactly. For a faithful function the lower neighbour of the exact result in magnitude is computed with
long integers, and which of the two neighbours is returned is a free value (log 13). -/

namespace Sys2Proof.Machine

/-- The square root rounded down, by bits from k − 1 on. -/
def isqrtFrom (n : Nat) : Nat → Nat → Nat
  | 0, r => r
  | k + 1, r => isqrtFrom n k (if (r + 2 ^ k) * (r + 2 ^ k) ≤ n then r + 2 ^ k else r)

/-- The square root rounded down. -/
def isqrt (n : Nat) : Nat := isqrtFrom n (n.log2 / 2 + 1) 0

/-- A result known to lie strictly between q and q + 1 units of 2^e, as an odd numerator between them, which rounds as the
result does. -/
def between (neg : Bool) (q : Nat) (e : Int) : FVal := .fin neg (2 * q + 1) (e - 1)

/-- A result that is q units of 2^e, or strictly between q and q + 1 of them. -/
def nearby (neg : Bool) (q : Nat) (e : Int) (exact : Bool) : FVal := if exact then .fin neg q e else between neg q e

/-- `frcp` of a finite value that is not zero (R245). -/
def rcpVal (neg : Bool) (m : Nat) (e : Int) : FVal :=
  let k := m.log2 + 40
  nearby neg (2 ^ k / m) (-e - (k : Int)) (2 ^ k % m == 0)

/-- `fsqrt` of a positive finite value (R245). -/
def sqrtVal (m : Nat) (e : Int) : FVal :=
  let m1 := if e % 2 = 0 then m else 2 * m
  let e1 := if e % 2 = 0 then e else e - 1
  let n := m1 <<< 64
  let r := isqrt n
  nearby false r (e1 / 2 - 32) (r * r == n)

/-- The answer of a faithful function whose exact result is not an FP32 value: the neighbour below in magnitude or the one
above, by the free value of the function and operand (R245). -/
def faithful (fn : Nat) (x : Word) (v : FVal) : Word :=
  let low := BitVec.ofNat 32 (Fmt.f32.rz v)
  if Config.faithfulUp fn x then low + 1 else low

/-- Bits of the fixed-point arithmetic of the faithful functions. -/
def fixBits : Nat := 420

/-- 2^f in fixed point for a fraction f of n bits, one bit at a time from the highest: `r` is 2^(2^−i). -/
def exp2Fix (f : Nat) : Nat → Nat → Nat → Nat
  | 0, _, acc => acc
  | n + 1, r, acc =>
    let r' := isqrt (r <<< fixBits)
    exp2Fix f n r' (if f.testBit n then (acc * r') >>> fixBits else acc)

/-- `fexp2` of a finite value that is not an integer, below 128 (R245). -/
def exp2Val (x : FVal) : FVal :=
  match x with
  | .fin neg m e =>
    let k := (-e).toNat
    let whole := m >>> k
    let part := m - (whole <<< k)
    -- x = n + f / 2^k with 0 < f < 2^k
    let n : Int := if neg then -(whole : Int) - 1 else whole
    let f := if neg then 2 ^ k - part else part
    if k > 60 then
      -- |x| < 2^-36: the result is next to 1
      (if neg then between false (2 ^ 40 - 1) (-40) else between false (2 ^ 40) (-40))
    else between false (exp2Fix f k (2 <<< fixBits) (1 <<< fixBits)) (n - (fixBits : Int))
  | v => v

/-- The fraction bits of log2 y for y in [1, 2), in fixed point, n bits. -/
def log2Fix : Nat → Nat → Nat → Nat
  | 0, _, acc => acc
  | n + 1, y, acc =>
    let z := (y * y) >>> fixBits
    if z ≥ 2 <<< fixBits then log2Fix n (z >>> 1) (2 * acc + 1) else log2Fix n z (2 * acc)

/-- `flog2` of a positive finite value that is no power of two (R245). -/
def log2Val (m : Nat) (e : Int) : FVal :=
  let p := m.log2
  let frac := log2Fix 120 (m <<< (fixBits - p)) 0
  let n : Int := ((p : Int) + e) * 2 ^ 120 + frac
  -- log2 x lies strictly between n and n + 1 units of 2^-120
  if n < 0 then between true ((-n - 1).toNat) (-120) else between false n.toNat (-120)

/-- arctan(1/q) in fixed point: n terms of its series from the power 1/q^(2i+1) on. -/
def arctanFix (q : Nat) : Nat → Nat → Nat → Int
  | 0, _, _ => 0
  | n + 1, i, pow => ((pow / (2 * i + 1) : Nat) : Int) - arctanFix q n (i + 1) (pow / (q * q))

/-- π in fixed point, by Machin's formula. -/
def piFix : Nat :=
  (16 * arctanFix 5 100 0 ((1 <<< fixBits) / 5) - 4 * arctanFix 239 40 0 ((1 <<< fixBits) / 239)).toNat

/-- sin θ in fixed point: n terms of its series from term θ^(2i+1)/(2i+1)! on. -/
def sinFix (sq : Nat) : Nat → Nat → Nat → Int
  | 0, _, _ => 0
  | n + 1, i, t => (t : Int) - sinFix sq n (i + 1) (((t * sq) >>> fixBits) / ((2 * i + 2) * (2 * i + 3)))

/-- sin(πt) for t = a / 2^k with 0 < t < 1/2. -/
def sinPiVal (neg : Bool) (a k : Nat) : FVal :=
  let th := (piFix * a) >>> k
  between neg (sinFix ((th * th) >>> fixBits) 70 0 th).toNat (-(fixBits : Int))

/-- sin(π r) for r = a / 2^k in [0, 2), by quadrants; integers and halves are exact. -/
def sinPiTurn (fn : Nat) (x : Word) (flip : Bool) (a k : Nat) : Word :=
  let half := 2 ^ (k - 1)
  let quad := a / half
  let rest := a % half
  let neg := flip != decide (quad ≥ 2)
  if rest = 0 then
    (if quad % 2 = 1 then (if neg then 0xBF800000 else 0x3F800000) else 0)
  else faithful fn x (sinPiVal neg (if quad % 2 = 1 then half - rest else rest) k)

/-- `frcp` (R245, R295). -/
def frcpWord (x : Word) : Word :=
  match f32Of x with
  | .nan => 0x7FC00000
  | .inf neg => if neg then 0x80000000 else 0
  | .fin neg m e => if m = 0 then (if neg then 0xFF800000 else 0x7F800000) else toF32 (rcpVal neg m e)

/-- `fsqrt` (R245, R295). -/
def fsqrtWord (x : Word) : Word :=
  match f32Of x with
  | .nan => 0x7FC00000
  | .inf neg => if neg then 0x7FC00000 else 0x7F800000
  | .fin neg m e => if m = 0 then x else if neg then 0x7FC00000 else toF32 (sqrtVal m e)

/-- `frsq` (R245, R295): exact at 4^n, and faithful elsewhere. -/
def frsqWord (x : Word) : Word :=
  match f32Of x with
  | .nan => 0x7FC00000
  | .inf neg => if neg then 0x7FC00000 else 0
  | .fin neg m e =>
    if m = 0 then (if neg then 0xFF800000 else 0x7F800000)
    else if neg then 0x7FC00000
    else
      let m1 := if e % 2 = 0 then m else 2 * m
      let e1 := if e % 2 = 0 then e else e - 1
      let n := 2 ^ 120 / m1
      let r := isqrt n
      if r * r * m1 = 2 ^ 120 then toF32 (.fin false r (-60 - e1 / 2))
      else faithful 1 x (between false r (-60 - e1 / 2))

/-- `fexp2` (R245, R295): exact at integers, and faithful elsewhere. -/
def fexp2Word (x : Word) : Word :=
  match f32Of x with
  | .nan => 0x7FC00000
  | .inf neg => if neg then 0 else 0x7F800000
  | .fin neg m e =>
    if m = 0 then 0x3F800000
    else if !neg && (m.log2 : Int) + e ≥ 7 then 0x7F800000
    else if neg && (m.log2 : Int) + e ≥ 8 then faithful 3 x (between false 0 (-150))
    else
      let (q, _, rest) := scaled m e 0
      if rest then faithful 3 x (exp2Val (.fin neg m e))
      else if neg && q > 149 then faithful 3 x (between false 0 (-150))
      else toF32 (.fin false 1 (if neg then -(q : Int) else q))

/-- `flog2` (R245, R295): exact at powers of two, and faithful elsewhere. -/
def flog2Word (x : Word) : Word :=
  match f32Of x with
  | .nan => 0x7FC00000
  | .inf neg => if neg then 0x7FC00000 else 0x7F800000
  | .fin neg m e =>
    if m = 0 then 0xFF800000
    else if neg then 0x7FC00000
    else if m = 2 ^ m.log2 then
      let n : Int := (m.log2 : Int) + e
      toF32 (.fin (decide (n < 0)) n.natAbs 0)
    else faithful 4 x (log2Val m e)

/-- `fsinp` (R245, R295): exact at integers and halves, and faithful elsewhere. -/
def fsinpWord (x : Word) : Word :=
  match f32Of x with
  | .fin neg m e =>
    let (_, _, rest) := scaled m e 0
    if !rest then (if neg then 0x80000000 else 0)
    else
      let k := (-e).toNat
      sinPiTurn 5 x neg (m % 2 ^ (k + 1)) k
  | _ => 0x7FC00000

/-- `fcosp` (R245, R295): exact at integers and halves, and faithful elsewhere; cos(πx) = sin(π(x + 1/2)). -/
def fcospWord (x : Word) : Word :=
  match f32Of x with
  | .fin _ m e =>
    let (q, _, rest) := scaled m e 0
    if !rest then (if q % 2 = 0 then 0x3F800000 else 0xBF800000)
    else
      let k := (-e).toNat
      sinPiTurn 6 x false ((m + 2 ^ (k - 1)) % 2 ^ (k + 1)) k
  | _ => 0x7FC00000

/-- The four roundings to an integer: floor, ceiling, toward zero, to nearest even (R296). -/
inductive IntRound where
  | floor | ceil | trunc | near
deriving DecidableEq, Repr

/-- The whole magnitude a rounding takes, from the whole part, the remainder's half and whether there is one. -/
def IntRound.take (r : IntRound) (neg : Bool) (q half : Nat) (rest : Bool) : Nat :=
  match r with
  | .floor => if neg && rest then q + 1 else q
  | .ceil => if !neg && rest then q + 1 else q
  | .trunc => q
  | .near => if half = 2 || (half = 1 && q % 2 = 1) then q + 1 else q

/-- `ffloor`, `fceil`, `ftrunc` and `frint` (R296). -/
def froundWord (r : IntRound) (x : Word) : Word :=
  match f32Of x with
  | .nan => 0x7FC00000
  | .inf _ => x
  | .fin neg m e =>
    if m = 0 then x
    else
      let (q, half, rest) := scaled m e 0
      if !rest then x else toF32 (.fin neg (r.take neg q half rest) 0)

/-- `fclass` (R297). -/
def fclassWord (x : Word) : Word :=
  match f32Of x with
  | .nan => 0x100
  | .inf neg => if neg then 0x001 else 0x080
  | .fin neg m _ =>
    if m = 0 then (if neg then 0x008 else 0x010)
    else if m < 2 ^ 23 then (if neg then 0x004 else 0x020)
    else if neg then 0x002 else 0x040

/-! ## Conversions (R239, R298) -/

/-- `cvt.f32.i32`. -/
def cvtF32I32Word (a : Word) : Word := toF32 (.fin (decide (a.toInt < 0)) a.toInt.natAbs 0)
/-- `cvt.f32.n32`. -/
def cvtF32N32Word (a : Word) : Word := toF32 (.fin false a.toNat 0)

/-- FP32 to an integer between two limits, saturating; a NaN gives 0 (R239). -/
def toIntSat (r : IntRound) (lo hi : Int) (x : Word) : Word :=
  match f32Of x with
  | .nan => 0
  | .inf neg => BitVec.ofInt 32 (if neg then lo else hi)
  | .fin neg m e =>
    let (q, half, rest) := scaled m e 0
    let n : Int := (r.take neg q half rest : Nat)
    BitVec.ofInt 32 (max lo (min hi (if neg then -n else n)))

/-- Narrowing of an FP32 element to a code of a format, RN (R239). -/
def narrowTo (f : Fmt) (x : Word) : Nat := f.rn (f32Of x)
/-- Widening of a code of a format to FP32, exact (R239). -/
def widenFrom (f : Fmt) (c : Nat) : Word := toF32 (f.value c)

/-- Two 16-bit codes in a word, element 0 low (R298). -/
def pack16 (lo hi : Nat) : Word := BitVec.ofNat 16 hi ++ BitVec.ofNat 16 lo
/-- Four 8-bit codes in a word, element 0 low (R298). -/
def pack8 (c : Nat → Nat) : Word :=
  BitVec.ofNat 8 (c 3) ++ BitVec.ofNat 8 (c 2) ++ BitVec.ofNat 8 (c 1) ++ BitVec.ofNat 8 (c 0)

end Sys2Proof.Machine
end

