-- ==== Sys2Proof/Machine/Tiles.lean ====
section
/-! DEFINITION. Shape records (R337), canonical tiles in scratchpad (R175), tile registers and accumulators (R176, R177), and exact matrix
accumulation (R240 to R244). -/

namespace Sys2Proof.Machine

/-! ## Scratchpad (R173, R201) -/

/-- The core whose scratchpad holds an offset of a team: a pair holds offsets below SPM_BYTES ÷ 2 on its even core (R174). -/
def Team.coreAt (tm : Team) (k : Kernel) (off : Nat) : Nat := if k.pair && decide (k.spmBytes / 2 ≤ off) then tm.core + 1 else tm.core

/-- A granule of scratchpad written since placement (R201). -/
def Team.soil (tm : Team) (off : Nat) : Team := { tm with dirty := Sparse.set false (off / 4096) true tm.dirty }

/-- Bytes of a team's scratchpad (R173). -/
def Team.spmRead (tm : Team) (off : Nat) : Nat → List Byte
  | 0 => []
  | n + 1 => Sparse.get 0 off tm.spm :: tm.spmRead (off + 1) n

/-- Masked bytes written to a team's scratchpad (R173). -/
def Team.spmWrite (tm : Team) (off mask : Nat) : List Byte → Team
  | [] => tm
  | b :: rest => (if mask.testBit 0 then { (tm.soil off) with spm := Sparse.set 0 off b tm.spm } else tm).spmWrite (off + 1) (mask / 2) rest

/-! ## Shape records (R337) -/

/-- The fields of a shape record. -/
structure Shape where
  base  : Nat
  rows  : Nat
  kext  : Nat
  fmt   : Nat
  scale : Nat
  band  : Nat
  valid : Bool
  zero  : Nat
deriving DecidableEq, Repr

/-- A record read field by field. -/
def shapeOf (r : BitVec 128) : Shape :=
  let x := r.toNat
  { base := bits x 15 0, rows := bits x 23 16, kext := bits x 35 24, fmt := bits x 39 36, scale := bits x 55 40
    band := bits x 71 56, valid := x.testBit 72, zero := bits x 127 73 }

/-- A valid record with these fields. -/
def shapeRecord (base rows kext fmt scale band : Nat) : BitVec 128 :=
  BitVec.ofNat 128 (base % 65536 + rows % 256 * 2 ^ 16 + kext % 4096 * 2 ^ 24 + fmt % 16 * 2 ^ 36 + scale % 65536 * 2 ^ 40
    + band % 65536 * 2 ^ 56 + 2 ^ 72)

/-- Bits of an element of a tile format (R175). -/
def elemBits (fmt : Nat) : Nat :=
  match fmt with
  | 0 => 32 | 1 => 16 | 2 => 16 | 3 => 8 | 4 => 8 | 5 => 4 | 6 => 64 | _ => 8

/-- Bytes of a row of k elements (R175). -/
def rowBytes (fmt k : Nat) : Nat := (k * elemBits fmt + 7) / 8

/-- The pitch of a row of d bytes in chunks (R175): the count of chunks rounded up to 1, 2 or 4, or to a multiple of 8.
DEDUCED (log 26): counts of 5 to 7 take 8. -/
def pitchOf (d : Nat) : Nat :=
  let nc := (d + 63) / 64
  if nc ≤ 1 then 1 else if nc ≤ 2 then 2 else if nc ≤ 4 then 4 else (nc + 7) / 8 * 8

/-- The byte offset of the element at bit `bit` of row r in a canonical tile of pitch p at a base (R175). -/
def tileByte (base p r bit : Nat) : Nat :=
  let b := bit / 8
  base + (r * p + ((b / 64) ^^^ (r % min p 8))) * 64 + b % 64

/-- KEXT limits of the matrix operands (R337). -/
def kextLimit (fmt : Nat) : Nat :=
  match fmt with
  | 0 => 16 | 1 => 64 | 2 => 64 | 3 => 128 | 4 => 128 | 5 => 256 | _ => 8

/-- The pitch of a shape's rows. -/
def Shape.pitch (h : Shape) : Nat := pitchOf (rowBytes h.fmt h.kext)

/-- The checks of R337 on a record, for a KEXT limit and a number of rows to be reached. -/
def Shape.good (h : Shape) (limit rows spm : Nat) : Bool :=
  h.valid && h.zero == 0 && decide (1 ≤ h.rows) && decide (h.rows ≤ 64) && decide (h.fmt ≤ 6) && decide (1 ≤ h.kext)
    && decide (h.kext ≤ limit) && decide (h.base * 64 + rows * h.pitch * 64 ≤ spm)
    && (h.fmt != 5 || decide (h.scale * 64 + h.rows * ((h.kext + 7) / 8) ≤ spm))

/-- The code of element k of row r of a tile in scratchpad (R175). -/
def Team.elem (tm : Team) (h : Shape) (r k : Nat) : Nat :=
  let bit := k * elemBits h.fmt
  let x := leNat (tm.spmRead (tileByte (h.base * 64) h.pitch r bit) (max 1 (elemBits h.fmt / 8)))
  if h.fmt = 5 then (if k % 2 = 0 then x % 16 else x / 16) else x

/-- The code of element k of row r stored. -/
def Team.putElem (tm : Team) (h : Shape) (r k code : Nat) : Team :=
  tm.spmWrite (tileByte (h.base * 64) h.pitch r (k * elemBits h.fmt)) 0xFF (leBytes (elemBits h.fmt / 8) code)

/-- The scale code of block j of row r of a pip4 tile. -/
def Team.scaleCode (tm : Team) (h : Shape) (r j : Nat) : Nat :=
  (Sparse.get 0 (h.scale * 64 + r * ((h.kext + 7) / 8) + j) tm.spm).toNat

/-- The number format of an element, FP32 for the parts of cf32. -/
def formatOf (fmt : Nat) : Fmt :=
  match fmt with
  | 1 => Fmt.bf16 | 2 => Fmt.f16 | 3 => Fmt.e4m3 | 4 => Fmt.e5m2 | 5 => Fmt.e2m1 | _ => Fmt.f32

/-! ## Tile registers and accumulators (R176, R177, R338) -/

/-- The stored record of tile register n of one half of a pair. -/
def Team.tile (tm : Team) (half n : Nat) : BitVec 128 := Sparse.get 0 (half * 16 + n) tm.tiles

/-- A tile register written. -/
def Team.setTile (tm : Team) (half n : Nat) (r : BitVec 128) : Team := { tm with tiles := Sparse.set 0 (half * 16 + n) r tm.tiles }

/-- The record a warp's operation captures from tile register n: that of its own latest `tld` still queued, else the stored
one, or, until it waits on a copy stage that rewrote the register, an earlier one by a free choice (R177, R323, R338). -/
def Focus.capture (f : Focus) (pos n : Nat) : BitVec 128 :=
  let mine := (f.s.eng.mxe.filter fun o => o.team == f.tid && o.warp == f.wn).reverse.findSome? fun o => match o.kind with
    | .tld t r => if t = n then some r else none
    | _ => none
  match mine with
  | some r => r
  | none =>
    let now := f.tm.tile (f.tm.half f.wp) n
    let olds := (f.wp.stale.filter fun x => x.tile == n).map StaleTile.old
    (olds[Config.pickNat f.s.freeCtr (0xB000000 + pos * 16 + n) % (olds.length + 1)]?).getD now

/-- Element i = 64m + n of accumulator a. -/
def Team.acc (tm : Team) (half a i : Nat) : Word := Sparse.get 0 ((half * 16 + a) * 4096 + i) tm.accs

/-- The elements of accumulator a all written. -/
def Team.setAcc (tm : Team) (half a : Nat) (val : Nat → Word) : Team :=
  let lo := (half * 16 + a) * 4096
  let new := (List.range 4096).filterMap fun i => let x := val i; if x = 0 then none else some (lo + i, x)
  { tm with accs := (tm.accs.takeWhile fun p => decide (p.1 < lo)) ++ new ++ tm.accs.dropWhile fun p => decide (p.1 < lo + 4096) }

/-! ## Matrix accumulation (R240 to R243) -/

/-- The exact sum of terms, an exact zero being +0 (R241). -/
def exactSum (ts : List FVal) : FVal := (FVal.sum ts).plusZero

/-- P of a real matrix operation for output element (m, n) (R240, R241). -/
def Team.product (tm : Team) (a b : Shape) (m n : Nat) : FVal :=
  if m ≥ a.rows || n ≥ b.rows then .fin false 0 0
  else
    let term (k : Nat) : FVal := ((formatOf a.fmt).value (tm.elem a m k)).mul ((formatOf b.fmt).value (tm.elem b n k))
    if a.fmt = 5 then
      let blk (j : Nat) : FVal := exactSum ((List.range (min 8 (a.kext - 8 * j))).map fun i => term (8 * j + i))
      let s := exactSum ((List.range ((a.kext + 7) / 8)).map fun j =>
        (blk j).mul ((scaleE3M5 (tm.scaleCode a m j)).mul (scaleE3M5 (tm.scaleCode b n j))))
      (s.mul ((Fmt.bf16.value a.band).mul (Fmt.bf16.value b.band))).plusZero
    else exactSum ((List.range a.kext).map term)

/-- A part of a cf32 element: the real part when `im` is false. -/
def Team.part (tm : Team) (h : Shape) (r k : Nat) (im : Bool) : FVal :=
  let x := tm.elem h r k
  Fmt.f32.value (if im then x / 0x100000000 else x % 0x100000000)

/-- Pre and Pim of a complex matrix operation for output element (m, n) (R243). -/
def Team.cproduct (tm : Team) (a b : Shape) (m n : Nat) (im : Bool) : FVal :=
  if m ≥ a.rows || n ≥ b.rows then .fin false 0 0
  else exactSum ((List.range a.kext).flatMap fun k =>
    if im then [(tm.part a m k false).mul (tm.part b n k true), (tm.part a m k true).mul (tm.part b n k false)]
    else [(tm.part a m k false).mul (tm.part b n k false), ((tm.part a m k true).mul (tm.part b n k true)).neg])

/-- The new hi and lo of one part (R243). -/
def compensate (hi lo : Word) (p : FVal) : Word × Word :=
  let x := (f32Of hi).add p
  let hi' := toF32 x
  (hi', if (f32Of hi').finite then toF32 ((f32Of lo).add (x.add (f32Of hi').neg).plusZero) else 0)

/-- `mma` and `mmz` on accumulator d (R240). -/
def Team.mma (tm : Team) (half d : Nat) (a b : Shape) (fresh : Bool) : Team :=
  tm.setAcc half d fun i => toF32 ((f32Of (if fresh then 0 else tm.acc half d i)).add (tm.product a b (i / 64) (i % 64)))

/-- `cmma` and `cmmz` on the quad d (R243). -/
def Team.cmma (tm : Team) (half d : Nat) (a b : Shape) (fresh : Bool) : Team :=
  let old (k i : Nat) : Word := if fresh then 0 else tm.acc half (d + k) i
  let new (im : Bool) (i : Nat) : Word × Word :=
    compensate (old (if im then 1 else 0) i) (old (if im then 3 else 2) i) (tm.cproduct a b (i / 64) (i % 64) im)
  (((tm.setAcc half d fun i => (new false i).1).setAcc half (d + 1) fun i => (new true i).1).setAcc half (d + 2)
    fun i => (new false i).2).setAcc half (d + 3) fun i => (new true i).2

/-- A folded part (R244). -/
def foldWord (hi lo : Word) : Word := toF32 ((f32Of hi).add (f32Of lo))

/-! ## Accumulator moves (R340, R341) -/

/-- The record FMT of a function of `acc.st`. -/
def stFmt (f : AccStFn) : Nat :=
  match f with
  | .f32 => 0 | .bf16Rn | .bf16Sr => 1 | .e4m3Rn | .e4m3Sr => 3 | .e5m2Rn => 4 | .cf32Fold | .cf32Split => 6

/-- The record FMT of a function of `acc.ld`. -/
def ldFmt (f : AccLdFn) : Nat :=
  match f with
  | .f32 => 0 | .bf16 => 1 | .e4m3 => 3 | .e5m2 => 4 | .cf32 => 6

/-- The code that a function of `acc.st` writes for element i (R340). -/
def Team.stCode (tm : Team) (half d : Nat) (f : AccStFn) (seed ctr : Word) (i : Nat) : Nat :=
  let x := tm.acc half d i
  match f with
  | .f32 => x.toNat
  | .bf16Rn => Fmt.bf16.rn (f32Of x)
  | .bf16Sr => Fmt.bf16.sr (f32Of x) (randomWord seed ctr i)
  | .e4m3Rn => Fmt.e4m3.rn (f32Of x)
  | .e4m3Sr => Fmt.e4m3.sr (f32Of x) (randomWord seed ctr i)
  | .e5m2Rn => Fmt.e5m2.rn (f32Of x)
  | .cf32Fold =>
    (foldWord x (tm.acc half (d + 2) i)).toNat + (foldWord (tm.acc half (d + 1) i) (tm.acc half (d + 3) i)).toNat * 0x100000000
  | .cf32Split => x.toNat + (tm.acc half (d + 1) i).toNat * 0x100000000

/-- The elements of a shape in row order. -/
def Shape.cells (h : Shape) : List (Nat × Nat) := (List.range h.rows).flatMap fun m => (List.range h.kext).map fun n => (m, n)

/-- `acc.st` (R340). -/
def Team.accSt (tm : Team) (half d : Nat) (f : AccStFn) (h : Shape) (seed ctr : Word) : Team :=
  let t1 := h.cells.foldl (fun t p => t.putElem h p.1 p.2 (tm.stCode half d f seed ctr (64 * p.1 + p.2))) tm
  if f = .cf32Split then
    h.cells.foldl (fun t p => t.putElem h (h.rows + p.1) p.2
      ((tm.acc half (d + 2) (64 * p.1 + p.2)).toNat + (tm.acc half (d + 3) (64 * p.1 + p.2)).toNat * 0x100000000)) t1
  else t1

/-- `acc.ld` (R341). -/
def Team.accLd (tm : Team) (half d : Nat) (f : AccLdFn) (h : Shape) : Team :=
  let inside (i : Nat) : Bool := decide (i / 64 < h.rows) && decide (i % 64 < h.kext)
  if f = .cf32 then
    let part (im : Bool) (i : Nat) : Word := if inside i then toF32 (tm.part h (i / 64) (i % 64) im) else 0
    (((tm.setAcc half d (part false)).setAcc half (d + 1) (part true)).setAcc half (d + 2) fun _ => 0).setAcc half (d + 3) fun _ => 0
  else tm.setAcc half d fun i => if inside i then widenFrom (formatOf h.fmt) (tm.elem h (i / 64) (i % 64)) else 0

/-- `acc.zero` (R341). -/
def Team.accZero (tm : Team) (half d n : Nat) : Team := (List.range n).foldl (fun t i => t.setAcc half (d + i) fun _ => 0) tm

end Sys2Proof.Machine
end

