-- ==== Sys2Proof/Machine/Matrix.lean ====
section
/-! DEFINITION. Meanings of the token forms of the matrix engine (R322, R323, R338 to R341), their completion, and `cstage` (R332). -/

namespace Sys2Proof.Machine

/-- The waits of a token form: a token that holds 63 (R172), and `busy` for the warp. -/
def tokHold (k : BitVec 3) (h : Hold) (busy : Warp → Bool) (f : Focus) (_ : List Nat) : Option Hold :=
  if f.wp.token k ≥ 63 then some (.token k) else if busy f.wp then some h else none

/-- The issue of a token form: never guarded, once for its warp (R172, R322). -/
def tokIssue (i : Instr) (hd : Hdr) (h : Hold) (busy : Warp → Bool) (own : Focus → Option State) (eff : Focus → Focus → State) (s : State) :
    Host.Outcome State Fault Refusal :=
  coreIssue i hd.s 0 (tokHold hd.g h busy) (fun f _ => own f) (fun f _ c => eff f c) s

/-- The focus with an operation more in the matrix engine's queue, bound to a token. -/
def Focus.engage (c : Focus) (k : BitVec 3) (kind : MxeKind) : Focus :=
  let op : MxeOp := { id := c.s.eng.nextId, team := c.tid, warp := c.wn, tok := k, pc := c.pc, kind := kind }
  { c with
    s := { c.s with eng := { c.s.eng with mxe := c.s.eng.mxe ++ [op], nextId := c.s.eng.nextId + 1 } }
    wp := c.wp.bindTo k }

/-- The issue of an operation of the matrix engine, the warp's scratchpad stores being drained (R180, R224). -/
def mxeIssue (i : Instr) (hd : Hdr) (own : Focus → Option State) (kind : Focus → MxeKind) (s : State) :
    Host.Outcome State Fault Refusal :=
  tokIssue i hd .spm Warp.spmQueued own (fun f c => (c.engage hd.g (kind f)).close) s

/-- The quad of uniform registers as 128 bits, the first register lowest. -/
def Focus.u4 (f : Focus) (r : Nat) : BitVec 128 := f.u 4 (r + 3) ++ f.u 3 (r + 2) ++ f.u 2 (r + 1) ++ f.u 1 r

/-- `tld` (R338). -/
def execTld (h : Hdr) (d a : Reg) (s : State) : Host.Outcome State Fault Refusal :=
  mxeIssue (.tld h d a) h (fun _ => none) (fun f => .tld d.toNat (f.u4 a.toNat)) s

/-- `tst` (R177, R338): the record is captured at issue, and the uniform registers are outstanding until a `wait` on the token. -/
def execTst (h : Hdr) (d a : Reg) (s : State) : Host.Outcome State Fault Refusal :=
  tokIssue (.tst h d a) h .spm Warp.spmQueued (fun _ => none)
    (fun f c =>
      let c1 := c.engage h.g (.tst d.toNat (f.capture 1 a.toNat))
      let cells : List PendCell := (List.range 4).map fun i => { lane := 0, uni := true, reg := d.toNat + i, off := 4 * i }
      (c1.withWarp { c1.wp with pend := c1.wp.pend ++ [{ req := none, tok := some h.g, cells := cells }] }).close) s

/-- The formats of A and B pair (R242). -/
def formatsPair (a b : Nat) (complex : Bool) : Bool :=
  if complex then a == 6 && b == 6
  else (a == b && a != 6) || ((a == 3 || a == 4) && (b == 3 || b == 4))

/-- The checks of R339 on the captured records, in their order. -/
def mmaFault (a b : Reg) (complex : Bool) (f : Focus) : Option State :=
  let ha := shapeOf (f.capture 1 a.toNat)
  let hb := shapeOf (f.capture 2 b.toNat)
  if !ha.good (kextLimit ha.fmt) ha.rows f.k.spmBytes || !hb.good (kextLimit hb.fmt) hb.rows f.k.spmBytes then
    some (f.stop Cause.shapeBad)
  else if !formatsPair ha.fmt hb.fmt complex then some (f.stop Cause.shapeMismatch)
  else if ha.kext ≠ hb.kext then some (f.stop Cause.shapeMismatch)
  else none

/-- `mma`, `mmz`, `cmma` and `cmmz` (R243, R339). -/
def matrixIssue (i : Instr) (h : Hdr) (d a b : Reg) (fresh complex : Bool) (s : State) : Host.Outcome State Fault Refusal :=
  mxeIssue i h (mmaFault a b complex) (fun f => .mma d.toNat (f.capture 1 a.toNat) (f.capture 2 b.toNat) fresh complex) s

/-- `mma` (R339). -/
def execMma (h : Hdr) (d a b : Reg) (s : State) : Host.Outcome State Fault Refusal := matrixIssue (.mma h d a b) h d a b false false s
/-- `mmz` (R339). -/
def execMmz (h : Hdr) (d a b : Reg) (s : State) : Host.Outcome State Fault Refusal := matrixIssue (.mmz h d a b) h d a b true false s
/-- `cmma` (R243). -/
def execCmma (h : Hdr) (d a b : Reg) (s : State) : Host.Outcome State Fault Refusal := matrixIssue (.cmma h d a b) h d a b false true s
/-- `cmmz` (R243). -/
def execCmmz (h : Hdr) (d a b : Reg) (s : State) : Host.Outcome State Fault Refusal := matrixIssue (.cmmz h d a b) h d a b true true s

/-- The checks of an accumulator move: R337 first, then the record's FMT (R340, R341). -/
def moveFault (t : BitVec 4) (fmt : Nat) (split : Bool) (f : Focus) : Option State :=
  let h := shapeOf (f.capture 1 t.toNat)
  if !h.good 64 (if split then 2 * h.rows else h.rows) f.k.spmBytes then some (f.stop Cause.shapeBad)
  else if h.fmt ≠ fmt then some (f.stop Cause.shapeMismatch)
  else none

/-- `acc.st` (R340). -/
def execAccSt (h : Hdr) (d a : Reg) (t : BitVec 4) (f : AccStFn) (s : State) : Host.Outcome State Fault Refusal :=
  mxeIssue (.accSt h d a t f) h (moveFault t (stFmt f) (f == .cf32Split))
    (fun c => .accSt d.toNat f (c.capture 1 t.toNat) (if f.random then c.u 1 a.toNat else 0) (if f.random then c.u 2 (a.toNat + 1) else 0)) s

/-- `acc.ld` (R341). -/
def execAccLd (h : Hdr) (d : Reg) (t : BitVec 4) (f : AccLdFn) (s : State) : Host.Outcome State Fault Refusal :=
  mxeIssue (.accLd h d t f) h (moveFault t (ldFmt f) false) (fun c => .accLd d.toNat f (c.capture 1 t.toNat)) s

/-- `acc.zero` (R341). -/
def execAccZero (h : Hdr) (d n : Reg) (s : State) : Host.Outcome State Fault Refusal :=
  mxeIssue (.accZero h d n) h (fun _ => none) (fun _ => .accZero d.toNat n.toNat) s

/-! ## Completion (R323) -/

/-- What an operation does to its team's tiles, accumulators and scratchpad. -/
def MxeKind.apply (k : MxeKind) (half : Nat) (tm : Team) : Team :=
  match k with
  | .mma d a b fresh false => tm.mma half d (shapeOf a) (shapeOf b) fresh
  | .mma d a b fresh true => tm.cmma half d (shapeOf a) (shapeOf b) fresh
  | .accSt d f r seed ctr => tm.accSt half d f (shapeOf r) seed ctr
  | .accLd d f r => tm.accLd half d f (shapeOf r)
  | .accZero d n => tm.accZero half d n
  | .tld t r => tm.setTile half t r
  | .tst _ _ => tm

/-- The first outstanding `tst` of a token into a register that has no value yet takes the record. -/
def fillTst (k : BitVec 3) (d : Nat) (r : BitVec 128) : List Pend → List Pend
  | [] => []
  | p :: rest =>
    if p.tok == some k && (p.cells.any fun c => c.reg == d && c.val.isNone) then
      { p with cells := p.cells.map fun c => { c with val := some (r.extractLsb' (32 * (c.reg - d)) 32) } } :: rest
    else p :: fillTst k d r rest

/-- An operation is the oldest of its warp in the engine's queue. -/
def oldestOf (o : MxeOp) (q : List MxeOp) : Bool :=
  match q.find? fun x => x.team == o.team && x.warp == o.warp with
  | some x => x.id == o.id
  | none => false

/-- An operation performed whole and its token lowered (R172, R176). -/
def State.finishMxe (s : State) (o : MxeOp) : State :=
  let s1 := { s with eng := { s.eng with mxe := s.eng.mxe.filter fun x => x.id != o.id } }
  match s1.team? o.team with
  | none => s1
  | some tm =>
    let half := tm.half (tm.warp o.warp)
    let w := (tm.warp o.warp).lower o.tok
    let w1 := match o.kind with
      | .tst d r => { w with pend := fillTst o.tok d r w.pend }
      | _ => w
    (s1.setTeam o.team ((o.kind.apply half tm).setWarp o.warp w1)).after o.team o.warp

/-- `MXE_OPERATION_COMPLETE` (R323): operation `num`, the oldest of its warp; none starts for a halted context (R187). -/
def execMxeOperationComplete (s : State) : Host.Outcome State Fault Refusal :=
  match s.eng.mxe.find? fun o => o.id == s.input.num with
  | none => .refused .noOccasion
  | some o =>
    match s.team? o.team with
    | none => .refused .noOccasion
    | some tm => if oldestOf o s.eng.mxe && !s.isHalted (s.ctxOf tm) && tm.holds then .next (s.finishMxe o) else .refused .noOccasion

/-! ## cstage (R332) -/

/-- The highest STAGE of a kernel's schedule, 0 for none. -/
def Kernel.topStage (k : Kernel) : Nat := k.sched.foldl (fun n e => max n e.stage) 0

/-- The pairs that DYN_REG fields of a stage's entries name, each once, ascending (R200, R332). -/
def Kernel.dynRegs (k : Kernel) (st : Nat) : List Nat :=
  (List.range 128).filter fun r => r % 2 == 0 && k.sched.any fun e => e.stage == st && e.dynReg.toNat == 128 + r

/-- `cstage` (R332, R333). It waits for the accesses that the advance releases (R224). -/
def execCstage (h : Hdr) (s : State) : Host.Outcome State Fault Refusal :=
  tokIssue (.cstage h) h .quiet (fun w => !w.quiet)
    (fun f => if f.wp.cstage + 1 > f.k.topStage then some (f.stop Cause.scheduleExhausted) else none)
    (fun f c =>
      let n := c.wp.cstage + 1
      let caps := (f.k.dynRegs n).map fun r => (n, r, f.u2 (1 + r) r)
      (c.withWarp { c.wp.bindTo h.g with cstage := n, bound := c.wp.bound ++ [(n, h.g)], dyn := c.wp.dyn ++ caps }).closeAfter) s

end Sys2Proof.Machine
end

