-- ==== Sys2Proof/Machine/Copy.lean ====
section
/-! DEFINITION. The copy engine (R325 to R331): the checks of an entry, the layout of its two sides, the paths from source to destination
elements, its write beats, and its completion. -/

namespace Sys2Proof.Machine

/-! ## Fields of an entry (R325, R326) -/

/-- FLAGS.TRANSPOSE. -/
def SchedEntry.transpose (e : SchedEntry) : Bool := e.flags.getLsbD 0
/-- FLAGS.REQUANTISE. -/
def SchedEntry.requantise (e : SchedEntry) : Bool := e.flags.getLsbD 1
/-- FLAGS.SR. -/
def SchedEntry.random (e : SchedEntry) : Bool := e.flags.getLsbD 2
/-- FLAGS.TILE. -/
def SchedEntry.tiled (e : SchedEntry) : Bool := e.flags.getLsbD 3
/-- SRC_FMT. -/
def SchedEntry.srcFmt (e : SchedEntry) : Nat := e.fmt.toNat % 16
/-- DST_FMT. -/
def SchedEntry.dstFmt (e : SchedEntry) : Nat := e.fmt.toNat / 16
/-- One SIZE. -/
def SchedEntry.dim (e : SchedEntry) (i : Nat) : Nat := e.size.getD i 0
/-- Elements of the box (R327). -/
def SchedEntry.count (e : SchedEntry) : Nat := e.dim 0 * e.dim 1 * e.dim 2 * e.dim 3

/-- Bits of an element of a copy format (R175, R326). -/
def copyBits (fmt : Nat) : Nat :=
  match fmt with
  | 9 => 4
  | n => elemBits n

/-- Elements of a block that share a scale: 8 for pip4, 32 for MX, 0 where no scale is. -/
def blockLen (fmt : Nat) : Nat :=
  match fmt with
  | 5 => 8
  | 7 | 8 | 9 => 32
  | _ => 0

/-- The formats whose elements have values. -/
def hasValue (fmt : Nat) : Bool := decide (fmt ≤ 5) || (7 ≤ fmt && fmt ≤ 9)

/-- The number format of an element's code. -/
def copyFmt (fmt : Nat) : Fmt :=
  match fmt with
  | 7 => Fmt.e4m3
  | 8 => Fmt.e5m2
  | 9 => Fmt.e2m1
  | n => formatOf n

/-- How destination elements are formed (R328). -/
inductive CopyPath where
  | bits | value | pip4 | mx
deriving DecidableEq, Repr

/-- The path of an entry, none where R326, R328 and R329 refuse it. -/
def SchedEntry.path (e : SchedEntry) : Option CopyPath :=
  let s := e.srcFmt
  let d := e.dstFmt
  let p : Option CopyPath :=
    if e.kind = 1 then
      if (d == 0 || d == 1 || d == 3 || d == 4) && hasValue s && !e.requantise && (e.random == (d != 0)) then some .value else none
    else if e.requantise then
      if d == 5 && hasValue s then some .pip4 else if (7 ≤ d && d ≤ 9) && s ≤ 4 then some .mx else none
    else if s == d then
      if e.transpose && (s == 5 || s == 9) then none else some .bits
    else if hasValue s && d ≤ 4 then some .value
    else none
  if e.random && !(d == 1 || d == 3 || d == 4) then none else p

/-! ## Sides (R327) -/

/-- One side of an entry: its place, its format and its extents. -/
structure Side where
  mem    : Bool
  tile   : Bool
  base   : Nat
  fmt    : Nat
  e0     : Nat
  e1     : Nat
  e2     : Nat
  e3     : Nat
  strides : List Int
  /-- address of the block scales -/
  scale  : Nat

/-- The side at an address, for a format; the destination of a transposing entry has its first two extents exchanged. -/
def SchedEntry.side (e : SchedEntry) (addr : DWord) (fmt : Nat) (dst : Bool) : Side :=
  let mem := decide (addr.toNat < 0x100000000000000)
  let base := addr.toNat % 0x100000000000000
  let swap := dst && e.transpose
  { mem := mem, tile := e.tiled && !mem, base := base, fmt := fmt
    e0 := e.dim (if swap then 1 else 0), e1 := e.dim (if swap then 0 else 1), e2 := e.dim 2, e3 := e.dim 3
    strides := e.stride
    scale := if mem then (((base : Int) + e.scaleOff) % 0x10000000000000000).toNat else e.scaleBase * 64 }

/-- Rows of a side over its dimensions 1 to 3. -/
def Side.rows (d : Side) : Nat := d.e1 * d.e2 * d.e3

/-- Scale bytes of a row. -/
def Side.rowScales (d : Side) : Nat := if blockLen d.fmt = 0 then 0 else (d.e0 + blockLen d.fmt - 1) / blockLen d.fmt

/-- The bit offset of an element inside its row, or inside a dense box. -/
def Side.pitch (d : Side) : Nat := pitchOf ((d.e0 * copyBits d.fmt + 7) / 8)

/-- The byte of element (i0, i1, i2, i3), and whether it is the upper nibble. -/
def Side.pos (d : Side) (i0 i1 i2 i3 : Nat) : Nat × Bool :=
  let w := copyBits d.fmt
  if d.mem then
    let st (n : Nat) : Int := d.strides.getD n 0
    ((((d.base : Int) + i1 * st 0 + i2 * st 1 + i3 * st 2 + ((i0 * w / 8 : Nat) : Int)) % 0x10000000000000000).toNat, decide (i0 * w % 8 = 4))
  else if d.tile then (tileByte d.base d.pitch i1 (i0 * w), decide (i0 * w % 8 = 4))
  else
    let bit := (i0 + d.e0 * (i1 + d.e1 * (i2 + d.e2 * i3))) * w
    (d.base + bit / 8, decide (bit % 8 = 4))

/-- The address of scale j of row r. -/
def Side.scaleAt (d : Side) (r j : Nat) : Nat :=
  let a := d.scale + r * d.rowScales + j
  if d.mem then a % 0x10000000000000000 else a

/-- One past the last byte that a scratchpad side reaches. -/
def Side.reach (d : Side) : Nat :=
  max (d.base + (if d.tile then d.rows * d.pitch * 64 else (d.rows * d.e0 * copyBits d.fmt + 7) / 8))
    (if d.fmt = 5 then d.scale + d.rows * d.rowScales else 0)

/-- A side that R326 and R331 refuse. -/
def Side.bad (d : Side) (spm : Nat) : Bool :=
  if d.mem then false
  else (7 ≤ d.fmt && d.fmt ≤ 9) || decide (d.reach > spm)
    || (d.tile && (d.base % 64 != 0 || decide (d.e1 > 64) || decide (d.e0 > 4095)))

/-- An address of neither a memory side nor a scratchpad side (R325). -/
def badPrefix (a : DWord) : Bool :=
  let p := a.toNat / 0x100000000000000
  p != 0 && p != 0xFF

/-- The faults of R331, the effective SRC being given. -/
def SchedEntry.bad (e : SchedEntry) (k : Kernel) (src : DWord) : Bool :=
  let s := e.side src e.srcFmt false
  let d := e.side e.dst e.dstFmt true
  decide (e.kind > 2) || decide (e.flags.toNat ≥ 16) || decide (e.srcFmt > 10) || decide (e.dstFmt > 10) || decide (e.tileReg.toNat ≥ 16)
    || e.rsv != 0 || (List.range 4).any (fun i => e.dim i == 0) || (e.dynReg.toNat ≥ 128 && e.dynReg.toNat % 2 == 1)
    || badPrefix src || badPrefix e.dst || e.path.isNone || s.bad k.spmBytes || d.bad k.spmBytes
    || (e.tiled && ((s.mem && d.mem) || decide (e.dim 2 > 1) || decide (e.dim 3 > 1))) || decide (e.tileReg.toNat ≥ k.tiles)
    || (e.kind == 2 && d.mem)
    || (e.path == some .pip4 && !(match Fmt.bf16.value e.band.toNat with | .fin false m _ => m != 0 | _ => false))

/-! ## Elements -/

/-- Element i of a box of the given extents, as indices. -/
def unlinear (e0 e1 e2 i : Nat) : Nat × Nat × Nat × Nat := (i % e0, i / e0 % e1, i / (e0 * e1) % e2, i / (e0 * e1 * e2))

/-- Codes read so far. -/
structure CopyIn where
  o     : EOut
  codes : List Nat := []

/-- n bytes at an address of a side read; the reader goes on only while nothing has failed. -/
def CopyIn.bytes (c : CopyIn) (tm : Team) (ctx : Nat) (mem : Bool) (a n : Nat) (take : List Byte → Nat) : CopyIn :=
  match c.o.fail with
  | some _ => c
  | none =>
    if mem then
      let o := c.o.s.engineRead ctx a n .load
      { o := o, codes := c.codes ++ [take o.bytes] }
    else { c with codes := c.codes ++ [take (tm.spmRead a n)] }

/-- The code of an element from its bytes. -/
def elemCode (bits : Nat) (hi : Bool) (bs : List Byte) : Nat :=
  let x := leNat bs
  if bits < 8 then (if hi then x / 16 % 16 else x % 16) else x

/-- Every element's code, in the order of the linear index. -/
def State.copyCodes (s : State) (tm : Team) (ctx : Nat) (d : Side) (n : Nat) : CopyIn :=
  (List.range n).foldl (fun c i =>
    let (i0, i1, i2, i3) := unlinear d.e0 d.e1 d.e2 i
    let (a, hi) := d.pos i0 i1 i2 i3
    c.bytes tm ctx d.mem a (max 1 (copyBits d.fmt / 8)) (elemCode (copyBits d.fmt) hi)) { o := { s := s } }

/-- Every block's scale code, row by row. -/
def CopyIn.scales (c : CopyIn) (tm : Team) (ctx : Nat) (d : Side) : CopyIn :=
  (List.range (d.rows * d.rowScales)).foldl (fun x i =>
    x.bytes tm ctx d.mem (d.scaleAt (i / d.rowScales) (i % d.rowScales)) 1 leNat) { c with codes := [] }

/-- The exact value of a code under its block's scale code (R328). -/
def copyValue (fmt : Nat) (band : Nat) (code scale : Nat) : FVal :=
  let v := (copyFmt fmt).value code
  if fmt = 5 then (v.mul (scaleE3M5 scale)).mul (Fmt.bf16.value band)
  else if blockLen fmt = 32 then v.mul (scaleE8M0 scale)
  else v

/-- A value divided by a positive one, as a value that rounds as the quotient does. -/
def FVal.over (x y : FVal) : FVal :=
  match x, y with
  | .fin n m e, .fin _ k d =>
    let q := (m <<< 96) / k
    if (m <<< 96) % k = 0 then .fin n q (e - d - 96) else .fin n (2 * q + 1) (e - d - 97)
  | v, _ => v

/-- The magnitude of a finite value. -/
def FVal.mag : FVal → FVal
  | .fin _ m e => .fin false m e
  | v => v

/-- The greatest finite magnitude of a list, +0 for none. -/
def amaxOf (vs : List FVal) : FVal :=
  vs.foldl (fun t v => if v.finite && (t.cmp v.mag == .lt) then v.mag else t) (.fin false 0 0)

/-- The E3M5 scale code of a block (R328). -/
def pip4Scale (band : FVal) (vs : List FVal) : Nat :=
  let a := amaxOf vs
  if a.cmp (.fin false 0 0) == .eq then 0
  else ((List.range 256).find? fun c => a.cmp (((FVal.fin false 3 1).mul band).mul (scaleE3M5 c)) != .gt).getD 255

/-- The E2M1 code of a value in a block (R328). -/
def pip4Code (band : FVal) (c : Nat) (v : FVal) : Nat :=
  if c = 0 || v == .nan then 0 else Fmt.e2m1.rn (v.over (band.mul (scaleE3M5 c)))

/-- SR of an exact value, which is first rounded to FP32 (R237). -/
def srExact (f : Fmt) (v : FVal) (r : Nat) : Nat := f.sr (Fmt.f32.value (Fmt.f32.rn v)) r

/-! ## Write beats -/

/-- One element, or one scale byte, to be written. -/
structure Item where
  addr : Nat
  hi   : Bool := false
  bits : Nat := 8
  code : Nat := 0
  /-- a value added to the element at its home, with its random word (R329) -/
  add  : Option (FVal × Option Nat) := none

/-- The element after the write, from the element before. -/
def Item.result (i : Item) (f : Fmt) (old : Nat) : Nat :=
  match i.add with
  | none => i.code
  | some (x, none) => f.rn ((f.value old).add x)
  | some (x, some r) => srExact f ((f.value old).add x) r

/-- Bytes of an item. -/
def Item.len (i : Item) : Nat := max 1 (i.bits / 8)

/-- The bytes after the write, from the bytes before. -/
def Item.bytes (i : Item) (f : Fmt) (old : List Byte) : List Byte :=
  let x := leNat old
  if i.bits < 8 then leBytes 1 (if i.hi then i.code % 16 * 16 + x % 16 else x / 16 * 16 + i.code % 16)
  else leBytes i.len (i.result f x)

/-- The write needs the bytes before. -/
def Item.reads (i : Item) : Bool := i.bits < 8 || i.add.isSome

/-- Items grouped by the 64-byte block of their first byte, ascending. -/
def beatsOf (is : List Item) : List (Nat × List Item) :=
  is.foldl (fun t i => Table.put (i.addr / 64) (((Table.find (i.addr / 64) t).getD []) ++ [i]) t) []

/-- A block written whole by items that need no byte before and stay inside it: its bytes. -/
def wholeBlock (block : Nat) (is : List Item) (f : Fmt) : Option (List Byte) :=
  if is.any fun i => i.add.isSome || decide (64 * block + 64 < i.addr + i.len) then none
  else
    let cover (a : Nat) : Nat := is.foldl (fun m i =>
      if i.bits < 8 then (if i.addr = a then m ||| (if i.hi then 0xF0 else 0x0F) else m)
      else if i.addr ≤ a && a < i.addr + i.len then 0xFF else m) 0
    let byte (a : Nat) : Byte := is.foldl (fun b i =>
      if i.bits < 8 then (if i.addr = a then (i.bytes f [b]).headD 0 else b)
      else if i.addr ≤ a && a < i.addr + i.len then (i.bytes f []).getD (a - i.addr) 0 else b) 0
    if (List.range 64).all fun k => cover (64 * block + k) == 0xFF then some ((List.range 64).map fun k => byte (64 * block + k)) else none

/-- The bytes of a beat formed so far. -/
structure BeatIn where
  o     : EOut
  bytes : List (Nat × Byte) := []

/-- Bytes put into a table from an address on. -/
def putBytes (a : Nat) : List Byte → List (Nat × Byte) → List (Nat × Byte)
  | [], t => t
  | b :: rest, t => putBytes (a + 1) rest (Table.put a b t)

/-- An item's bytes formed, over those of the items before and of memory (R329). -/
def BeatIn.item (ctx : Nat) (k : Access) (f : Fmt) (x : BeatIn) (i : Item) : BeatIn :=
  match x.o.fail with
  | some _ => x
  | none =>
    if !i.reads then { x with bytes := putBytes i.addr (i.bytes f []) x.bytes }
    else
      let r := x.o.s.engineRead ctx i.addr i.len k
      let old := (List.range i.len).map fun j => (Table.find (i.addr + j) x.bytes).getD (r.bytes.getD j 0)
      { o := r, bytes := if r.fail.isSome then x.bytes else putBytes i.addr (i.bytes f old) x.bytes }

/-- A beat performed on the memory side. -/
def State.memBeat (s : State) (ctx : Nat) (k : Access) (f : Fmt) (b : Nat × List Item) : EOut :=
  match wholeBlock b.1 b.2 f with
  | some bs => s.enginePut ctx k (64 * b.1) (2 ^ 64 - 1) bs
  | none =>
    let x := b.2.foldl (BeatIn.item ctx k f) { o := { s := s } }
    match x.o.fail with
    | some _ => x.o
    | none => x.o.s.engineStore ctx k x.bytes

/-- A beat performed in a team's scratchpad. -/
def Team.spmBeat (tm : Team) (f : Fmt) (b : Nat × List Item) : Team :=
  b.2.foldl (fun t i => t.spmWrite i.addr 0xFF (i.bytes f (t.spmRead i.addr i.len))) tm

/-- A write discarded and counted for a core (R181). -/
def State.countDiscard (s : State) (core : Nat) : State :=
  let n := Sparse.get 0 core s.cfg.discard
  { s with cfg := { s.cfg with discard := Sparse.set 0 core (if n = 0xFFFFFFFF then n else n + 1) s.cfg.discard } }

/-- The team that a multicast names: by linear index, of one kernel on this device (R330). -/
def State.mcastTeam (s : State) (tm : Team) (j : Nat) : Option (Nat × Team) :=
  s.teams.find? fun p => p.2.bundle == tm.bundle && p.2.kernel == tm.kernel && p.2.index == tm.index / 32 * 32 + j

/-- A live instance of a team: it holds its core, and a warp of it is left (R181, R344). -/
def Team.instanceLives (tm : Team) : Bool := tm.holds && !tm.exited

/-- A beat that arrives at the granules of a team: written while the team's instance lives, else discarded and counted for the core it
arrives at (R174, R181). -/
def State.arrive (s : State) (tid : Nat) (t : Team) (k : Kernel) (f : Fmt) (b : Nat × List Item) : State :=
  if t.instanceLives then s.setTeam tid (t.spmBeat f b) else s.countDiscard (t.coreAt k (64 * b.1))

/-- The core of a team that is no longer there: the one it held last, or that of the sender for a team not yet placed (log 35). -/
def State.lastCore (s : State) (tm : Team) (index : Nat) : Nat :=
  match s.bundle? tm.bundle with
  | some b => (Table.find (tm.kernel * 0x100000000 + index) b.places).getD tm.core
  | none => tm.core

/-- A beat performed in scratchpad: of the issuing team, or of each team a multicast names (R181, R330). -/
def State.spmBeats (s : State) (tid : Nat) (tm : Team) (e : SchedEntry) (f : Fmt) (b : Nat × List Item) : State :=
  let k := s.kernelOf tm
  if e.kind = 2 then
    (List.range 32).foldl (fun st j =>
      if !e.mcast.getLsbD j then st
      else match st.mcastTeam tm j with
        | some (q, t) => st.arrive q t k f b
        | none => st.countDiscard ({ tm with core := st.lastCore tm (tm.index / 32 * 32 + j) }.coreAt k (64 * b.1))) s
  else match s.team? tid with
    | some t => s.arrive tid t k f b
    | none => s

/-- The bytes of the first watchpoint that a beat strikes (R191, R207). -/
def Ctx.beatStruck (c : Ctx) (b : Nat × List Item) : BitVec 16 := c.struckBy .store (b.2.map fun i => (i.addr, i.len))

/-- How a run of beats ends. -/
structure CopyRun where
  s      : State
  done   : Nat
  fail   : Option EFault := none
  struck : Option (BitVec 16 × Nat) := none

/-- Beats performed one after another, until one fails or strikes a watchpoint, which is performed (R209). -/
def State.runBeats (ctx tid : Nat) (k : Access) (tm : Team) (e : SchedEntry) (d : Side) (watch : Bool) : List (Nat × List Item) → CopyRun → CopyRun
  | [], r => r
  | b :: rest, r =>
    let f := copyFmt d.fmt
    if d.mem then
      let o := r.s.memBeat ctx k f b
      match o.fail with
      | some x => { r with s := o.s, fail := some x }
      | none =>
        let m := (o.s.ctx ctx).beatStruck b
        if watch && m != 0 then { r with s := o.s, done := r.done + 1, struck := some (m, 64 * b.1) }
        else State.runBeats ctx tid k tm e d watch rest { r with s := o.s, done := r.done + 1 }
    else State.runBeats ctx tid k tm e d watch rest { r with s := r.s.spmBeats tid tm e f b, done := r.done + 1 }

/-! ## One entry -/

/-- The blocks of a row of values. -/
def blocksOf (len : Nat) : Nat → List FVal → List (List FVal)
  | 0, _ => []
  | n + 1, vs => if vs.isEmpty then [] else vs.take len :: blocksOf len n (vs.drop len)

/-- Values of the destination's rows, each of e0 elements. -/
def rowsOf (e0 : Nat) : Nat → List FVal → List (List FVal)
  | 0, _ => []
  | n + 1, vs => vs.take e0 :: rowsOf e0 n (vs.drop e0)

/-- The destination's linear index of source element i (R327). -/
def SchedEntry.destOf (e : SchedEntry) (i : Nat) : Nat :=
  if e.transpose then
    let (i0, i1, i2, i3) := unlinear (e.dim 0) (e.dim 1) (e.dim 2) i
    i1 + e.dim 1 * (i0 + e.dim 0 * (i2 + e.dim 2 * i3))
  else i

/-- The source element of destination element i. -/
def SchedEntry.srcOf (e : SchedEntry) (i : Nat) : Nat :=
  if e.transpose then
    let (i1, i0, i2, i3) := unlinear (e.dim 1) (e.dim 0) (e.dim 2) i
    i0 + e.dim 0 * (i1 + e.dim 1 * (i2 + e.dim 2 * i3))
  else i

/-- The item of destination element i. -/
def Side.item (d : Side) (i : Nat) (code : Nat) (add : Option (FVal × Option Nat)) : Item :=
  let (i0, i1, i2, i3) := unlinear d.e0 d.e1 d.e2 i
  let (a, hi) := d.pos i0 i1 i2 i3
  { addr := a, hi := hi, bits := copyBits d.fmt, code := code, add := add }

/-- The items of an entry, from its source's codes and scales (R328, R329). -/
def SchedEntry.items (e : SchedEntry) (ctr : Nat) (s d : Side) (codes scales : List Nat) : List Item :=
  let n := e.count
  let val (i : Nat) : FVal :=
    copyValue s.fmt e.band.toNat (codes.getD i 0) (if s.rowScales = 0 then 0 else scales.getD (i / s.e0 * s.rowScales + i % s.e0 / blockLen s.fmt) 0)
  let rnd (i : Nat) : Nat := randomWord e.seed e.ctr i
  let scaleItems (cs : List Nat) : List Item :=
    (List.range cs.length).map fun j => { addr := d.scaleAt (j / d.rowScales) (j % d.rowScales), code := cs.getD j 0 }
  match e.path with
  | some .bits =>
    ((List.range n).map fun i => d.item i (codes.getD (e.srcOf i) 0) none)
      ++ (if d.rowScales = 0 then []
          else if e.transpose then scaleItems ((List.range (d.rows * d.rowScales)).map fun j => Config.pickNat ctr (0xD000000 + j) % 256)
          else scaleItems scales)
  | some .value =>
    (List.range n).map fun i =>
      let k := e.srcOf i
      let f := copyFmt d.fmt
      if e.kind = 1 then d.item i 0 (some (val k, if e.random then some (rnd k) else none))
      else d.item i (if e.random then srExact f (val k) (rnd k) else f.rn (val k)) none
  | some .pip4 =>
    let band := Fmt.bf16.value e.band.toNat
    let rows := rowsOf d.e0 d.rows ((List.range n).map fun i => val (e.srcOf i))
    let coded := rows.map fun r => (blocksOf 8 (d.e0 / 8 + 1) r).map fun b =>
      let c := pip4Scale band b
      (c, b.map (pip4Code band c))
    let flat := coded.flatMap fun r => r.flatMap Prod.snd
    ((List.range n).map fun i => d.item i (flat.getD i 0) none) ++ scaleItems (coded.flatMap fun r => r.map Prod.fst)
  | some .mx =>
    let f := copyFmt d.fmt
    let emax : Int := if d.fmt = 7 then 8 else if d.fmt = 8 then 15 else 2
    let rows := rowsOf d.e0 d.rows ((List.range n).map fun i => val (e.srcOf i))
    let coded := rows.map fun r => (blocksOf 32 (d.e0 / 32 + 1) r).map fun b =>
      let c := aliasScale emax b
      (c, b.map fun v => f.rn (unscale c v))
    let flat := coded.flatMap fun r => r.flatMap Prod.snd
    ((List.range n).map fun i => d.item i (flat.getD i 0) none) ++ scaleItems (coded.flatMap fun r => r.map Prod.fst)
  | none => []

/-- The operand PC_OR_OP of a copy entry (R191). -/
def tceOp (entry beat : Nat) : DWord := BitVec.ofNat 64 (entry % 65536 + beat % 2 ^ 32 * 65536)

/-- The effective source address. -/
def TceOp.src (o : TceOp) (e : SchedEntry) : DWord := e.src + o.dyn

/-- The warps of a team remember the record that a tile register held, until they wait on the stage's token (R338). -/
def Team.remember (tm : Team) (stage n : Nat) (w : Warp) : Warp :=
  { w with stale := w.stale ++ (w.bound.filter fun b => b.1 == stage).map fun b => { tile := n, old := tm.tile (tm.half w) n, tok := b.2 } }

/-- The tile record an entry writes as its last step (R327), on both halves of a pair (log 27). -/
def Team.entryTile (tm : Team) (e : SchedEntry) (pair : Bool) : Team :=
  let d := e.side e.dst e.dstFmt true
  if !d.tile then tm
  else
    let n := e.tileReg.toNat
    let r := shapeRecord (d.base / 64) d.e1 d.e0 d.fmt e.scaleBase e.band.toNat
    let tm1 := { tm with warps := tm.warps.map (tm.remember e.stage n) }
    if pair then (tm1.setTile 0 n r).setTile 1 n r else tm1.setTile 0 n r

/-- An entry complete: its tile record, the end of its stage, and what follows (R327, R332). -/
def State.finishTce (s : State) (o : TceOp) (e : SchedEntry) (pair : Bool) : State :=
  let s1 := (s.modTeam o.team fun t => t.entryTile e pair)
  let s2 := { s1 with eng := { s1.eng with tce := s1.eng.tce.filter fun x => x.id != o.id } }
  let s3 := if s2.eng.tce.any fun x => x.team == o.team && x.stage == o.stage then s2
    else s2.modTeam o.team fun t => t.stageDone o.stage
  s3.after o.team o.warp

/-- The progress of an entry kept (R188). -/
def State.setBeats (s : State) (id n : Nat) : State :=
  { s with eng := { s.eng with tce := s.eng.tce.map fun x => if x.id = id then { x with beats := n } else x } }

/-- The source of an entry read. -/
def State.readEntry (s : State) (tm : Team) (ctx : Nat) (e : SchedEntry) (sd : Side) : CopyIn × CopyIn :=
  let c := s.copyCodes tm ctx sd e.count
  (c, c.scales tm ctx sd)

/-- A fault of the copy engine (R183, R191, R331). -/
def State.tceFault (s : State) (tm : Team) (o : TceOp) (beat : Nat) (x : EFault) (mask : BitVec 16) (skid : Nat) : State :=
  s.engineFault o.team { engineStop 1 tm o.warp x.cause (tceOp o.entry beat) x.addr with byteMask := mask, skid := BitVec.ofNat 8 skid } x

/-- The addresses of a memory side: the first and the last byte of each element, which may lie in two granules, and its block scales. -/
def Side.addrs (d : Side) (n : Nat) : List Nat :=
  ((List.range n).flatMap fun i =>
    let (i0, i1, i2, i3) := unlinear d.e0 d.e1 d.e2 i
    [(d.pos i0 i1 i2 i3).1, (d.pos i0 i1 i2 i3).1 + (max 1 (copyBits d.fmt / 8) - 1)])
    ++ (List.range (d.rows * d.rowScales)).map fun i => d.scaleAt (i / d.rowScales) (i % d.rowScales)

/-- The addresses of a list, with their compartments, that a copy of a tenant world may write only as a gate copy (R123). -/
def State.gated (s : State) (ctx : Nat) (as : List Nat) : List (Nat × BitVec 2) :=
  if (s.ctx ctx).world = 0 then []
  else as.filterMap fun a => match s.engineLead ctx a .gate with
    | .ok t => if t.comp = 0 then none else some (a, t.comp)
    | .error _ => none

/-- A granule that a gate copy reads is admitted for a destination compartment: HBM of this device in compartment 0, of a tensor that a
gate names (R123). -/
def State.gateOk (s : State) (ctx : Nat) (c : BitVec 2) (a : Nat) : Bool :=
  match s.engineLead ctx a .load with
  | .error _ => true
  | .ok t => match s.targetOf t a with
    | .here b _ _ sc => regionOf b == .hbm && sc == 0
        && ((Table.find (s.ctx ctx).world.toNat s.worlds).getD {}).gates.any fun g => g.dst.toNat == c.toNat && g.tensor == (s.mem.tensorAt b).id
    | _ => false

/-- What R123 makes of an entry: an access of a gate copy, a plain one, or a refusal before any byte is written. DESIGN CHOICE (log 66): a
copy from scratchpad reads no granule, and is admitted as a gate copy. -/
def State.gateOf (s : State) (ctx : Nat) (sd dd : Side) (n : Nat) : Except EFault Access :=
  match if dd.mem then s.gated ctx (dd.addrs n) else [] with
  | [] => .ok .store
  | g :: rest =>
    if (g :: rest).all fun x => !sd.mem || (sd.addrs n).all (s.gateOk ctx x.2) then .ok .gate
    else .error { cause := Cause.permission, addr := g.1 }

/-- An entry performed from its first beat not yet performed on; `most` bounds the beats, and watchpoints are looked at when
`watch` is set. -/
def State.copyEntry (s : State) (tm : Team) (ctx : Nat) (o : TceOp) (e : SchedEntry) (most : Option Nat) (watch : Bool) : CopyRun × Nat :=
  let sd := e.side (o.src e) e.srcFmt false
  let dd := e.side e.dst e.dstFmt true
  let (c, sc) := s.readEntry tm ctx e sd
  match sc.o.fail with
  | some x => ({ s := sc.o.s, done := o.beats, fail := some x }, 0)
  | none =>
    let bs := beatsOf (e.items s.freeCtr sd dd c.codes sc.codes)
    let todo := bs.drop o.beats
    match s.gateOf ctx sd dd e.count with
    | .error x => ({ s := sc.o.s, done := o.beats, fail := some x }, 0)
    | .ok k =>
      let run := State.runBeats ctx o.team k tm e dd watch (match most with | some n => todo.take n | none => todo)
        { s := sc.o.s, done := o.beats }
      (run, bs.length)

/-- Entry operation `num` is performed and completes, or faults. -/
def runTceEntry (s : State) : Host.Outcome State Fault Refusal :=
  match s.eng.tce.find? fun o => o.id == s.input.num with
  | none => .refused .noOccasion
  | some o =>
    match s.team? o.team with
    | none => .refused .noOccasion
    | some tm =>
      let k := s.kernelOf tm
      let ctx := s.ctxOf tm
      match k.sched[o.entry]? with
      | none => .refused .noOccasion
      | some e =>
        if s.isHalted ctx || !tm.holds then .refused .noOccasion
        else if e.bad k (o.src e) then .next (s.tceFault tm o 0 { cause := Cause.paramBad, addr := 0 } 0 0)
        else
          let s0 := { s with freeCtr := s.freeCtr + 1 }
          let (r, total) := s0.copyEntry tm ctx o e none true
          match r.fail, r.struck with
          | some x, _ => .next ((r.s.setBeats o.id r.done).tceFault tm o r.done x 0 0)
          | none, some (mask, addr) =>
            let more := Config.pickNat s.freeCtr 0xE000000 % (min 8 (total - r.done) + 1)
            let o1 := { o with beats := r.done }
            let (r1, _) := r.s.copyEntry tm ctx o1 e (some more) false
            let s2 := (r1.s.setBeats o.id r1.done).tceFault tm o (r.done - 1) { cause := Cause.watch, addr := addr } mask (r1.done - r.done)
            .next (match r1.fail with
              | some x => s2.faultMarks x
              | none => if r1.done = total then s2.finishTce o e k.pair else s2)
          | none, none => .next (r.s.finishTce o e k.pair)

/-- `TCE_ENTRY_COMPLETE` (R209, R327 to R331): entry operation `num` is performed and completes, or faults; it waits while an access to
another device waits for its plane (R47). -/
def execTceEntryComplete (s : State) : Host.Outcome State Fault Refusal := throughLinks runTceEntry s

end Sys2Proof.Machine
end

