-- ==== Sys2Proof/Machine/Perform.lean ====
section
/-! DEFINITION. `HOME_PERFORM`: one part of a memory instruction is performed at its home, in the order that R216, R217 and R308 give,
or forwarded from the warp's own store queue (R57, R181, R188, R213 to R217, R306 to R314). -/

namespace Sys2Proof.Machine

/-- Two byte ranges of places meet. -/
def spansMeet (a : Nat × Nat) (n : Nat) (b : Nat × Nat) (m : Nat) : Bool :=
  a.1 == b.1 && decide (a.2 < b.2 + m) && decide (b.2 < a.2 + n)

/-- A target on another device. -/
def Target.isAway (t : Target) : Bool :=
  match t with
  | .away _ _ _ _ => true
  | _ => false

/-- A unit has left the queue: performed, or sent to another device. -/
def MemUnit.gone (u : MemUnit) : Bool := u.done || u.sent

/-- A store to CQ_WRITE in the doorbell aperture, a release by its warp at system scope (R224). -/
def MemReq.rings (r : MemReq) : Bool :=
  r.kind == .store && r.units.any fun u => match u.tgt with
    | .door off => decide (off < 0x10000) && off % 64 == 0x10
    | _ => false

/-- An access may be performed now, the earlier requests of its warp being given: a release or sc access after all of them, a
load after earlier loads, a store or atomic after earlier loads and after earlier stores have left the queue (R216, R217, R224,
R308). -/
def mayPerform (earlier : List MemReq) (r : MemReq) : Bool :=
  if r.order == .sc || r.order == .rel || r.rings then earlier.all fun e => e.units.all fun u => u.done
  else earlier.all fun e =>
    match e.kind with
    | .load => e.units.all fun u => u.done || u.tgt.isAway
    | _ => if r.kind == .load then true else e.units.all MemUnit.gone

/-- What a load finds in its warp's queue: nothing, the bytes to forward, or an overlap it waits for (R216). -/
inductive Forwarded where
  | home
  | bytes (bs : List Byte)
  | waits

/-- Where the whole access of a unit's lane begins. -/
def State.wholeOf (s : State) (u : MemUnit) : Nat × Nat := ((s.keyOf u.tgt).1, (s.keyOf u.tgt).2 - u.off)

/-- A unit stores the byte at a place. -/
def State.storesAt (s : State) (x : MemUnit) (space k : Nat) : Bool :=
  (s.keyOf x.tgt).1 == space && decide ((s.keyOf x.tgt).2 ≤ k) && decide (k < (s.keyOf x.tgt).2 + x.len)
    && x.mask.testBit (k - (s.keyOf x.tgt).2)

/-- The units of an earlier store or atomic that write a byte of a load's whole access, or of its block in an MX window, and are still
queued: not performed, or, on another device, not sent (R216). -/
def State.overlapping (s : State) (u : MemUnit) (e : MemReq) : List MemUnit :=
  if e.kind == .load then []
  else e.units.filter fun x =>
    !(if u.tgt.isAway then x.gone else x.done)
      && (((x.tgt.isAlias || u.tgt.isAlias) && (s.keyOf x.tgt).1 == (s.keyOf u.tgt).1)
        || (List.range u.size).any fun i => s.storesAt x (s.wholeOf u).1 ((s.wholeOf u).2 + i))

/-- The byte that units store at a place. -/
def State.storedByte (s : State) (xs : List MemUnit) (space k : Nat) : Byte :=
  match xs.find? fun x => s.storesAt x space k with
  | some x => x.data.getD (k - (s.keyOf x.tgt).2) 0
  | none => 0

/-- A target whose loads may take their bytes from the queue: memory of this device or scratchpad, which the rules of R216 cover. -/
def Target.forwards (t : Target) : Bool :=
  match t with
  | .here _ _ _ _ => !t.isAlias
  | .spm _ => true
  | _ => false

/-- What a load finds in the youngest overlapping entry of the queue, the earlier requests given youngest first: one lane's store that
covers its whole access, or an entry it waits for (R216). -/
def State.forward (s : State) (u : MemUnit) : List MemReq → Forwarded
  | [] => .home
  | e :: rest =>
    match s.overlapping u e with
    | [] => s.forward u rest
    | x :: more =>
      let mine := (x :: more).filter fun y => y.lane == x.lane
      let w := s.wholeOf u
      if e.kind == .store && u.tgt.forwards && !x.tgt.isAlias
          && (List.range u.size).all fun i => mine.any fun y => s.storesAt y w.1 (w.2 + i) then
        .bytes ((List.range u.len).map fun i => s.storedByte mine w.1 (w.2 + u.off + i))
      else .waits

/-- An imprecise fault of a memory instruction of a warp: a core stop record without PRECISE (R188, R191). -/
def State.imprecise (s : State) (tid wn : Nat) (cause : BitVec 8) (pc : Word) (addr : DWord) : State :=
  match s.team? tid with
  | none => s
  | some tm =>
    let w := tm.warp wn
    s.raiseHalt (s.ctxOf tm)
      { engine := 0, cause := cause, unit := BitVec.ofNat 16 w.core, warp := BitVec.ofNat 16 wn, team := BitVec.ofNat 32 tm.index
        userTag := w.userTag, pcOrOp := pc.setWidth 64, addr := addr } false (some tid)

/-- The word at an offset of returned bytes, as the size extends it (R305). -/
def loadWord (m : MSize) (off : Nat) (bs : List Byte) : Word :=
  match m with
  | .x8 => BitVec.ofNat 32 (leNat (bs.take 1))
  | .sx8 => (BitVec.ofNat 8 (leNat (bs.take 1))).signExtend 32
  | .x16 => BitVec.ofNat 32 (leNat (bs.take 2))
  | .sx16 => (BitVec.ofNat 16 (leNat (bs.take 2))).signExtend 32
  | _ => BitVec.ofNat 32 (leNat ((bs.drop off).take 4))

/-- The cells that a part's bytes fill. -/
def Pend.fill (id lane off : Nat) (bs : List Byte) (p : Pend) : Pend :=
  if p.req = some id then
    { p with cells := p.cells.map fun c =>
        if (c.uni || c.lane == lane) && decide (off ≤ c.off) && decide (c.off < off + max 1 bs.length) then
          { c with val := some (loadWord p.size (c.off - off) bs) } else c }
  else p

/-- Zero in the whole destination of lanes of a request (R188). -/
def Pend.zero (id : Nat) (lanes : List Nat) (p : Pend) : Pend :=
  if p.req = some id then { p with cells := p.cells.map fun c => if c.uni || lanes.contains c.lane then { c with val := some 0 } else c }
  else p

/-- Units of a request performed: marked done, and a request with every part done leaves the queue. -/
def Warp.finishAll (w : Warp) (id : Nat) (uis : List Nat) : Warp :=
  let mark (u : MemUnit) : MemUnit := { u with done := true, sent := false }
  let mem := w.mem.map fun r => if r.id = id then { r with units := uis.foldl (fun us i => modifyAt mark i us) r.units } else r
  { w with mem := mem.filter fun r => !(r.units.all MemUnit.done) }

/-- A part performed. -/
def Warp.finish (w : Warp) (id ui : Nat) : Warp := w.finishAll id [ui]

/-- The units of a request that a failure of some of them ends: of a load, every part of their lanes; else themselves (R188). -/
def MemReq.failed (r : MemReq) (uis : List Nat) : List Nat :=
  if r.kind == .load then
    let lanes := uis.flatMap fun i => ((r.units[i]?).map MemUnit.lanes).getD []
    (List.range r.units.length).filter fun i => ((r.units[i]?).map fun u => lanes.contains u.lane).getD false
  else uis

/-- Units of a request whose data fail: their lanes' destinations read zero, and they are done (R188, R306, R314). -/
def Warp.fail (w : Warp) (r : MemReq) (uis : List Nat) : Warp :=
  let lanes := uis.flatMap fun i => ((r.units[i]?).map MemUnit.lanes).getD []
  let w1 := if r.kind == .store || uis.isEmpty then w else { w with pend := w.pend.map (Pend.zero r.id lanes) }
  w1.finishAll r.id (r.failed uis)

/-- What the home gives back for a part. -/
structure Performed where
  s    : State
  /-- bytes for lanes: lane and bytes -/
  rets : List (Nat × List Byte)
  fail : Option (BitVec 8)

/-- The old value of an atomic's word as bytes of lanes, and the word stored. -/
def atomRets (op : AtomOp) (w64 : Bool) (old : List Byte) (u : MemUnit) : List (Nat × List Byte) × List Byte :=
  let n := if w64 then 8 else 4
  let (rs, new) := atomStep op w64 (BitVec.ofNat 64 (leNat old)) (u.ops.map Prod.snd)
  ((u.ops.map Prod.fst).zip (rs.map fun r => leBytes n r.toNat), leBytes n new.toNat)

/-- A part performed at its place (R57, R94, R173, R309). `whole` and `line` say that the store covers the poisoned unit or the failing
line whole (R69, R128). -/
def State.performAt (s : State) (tid : Nat) (tm : Team) (ctx : Nat) (r : MemReq) (u : MemUnit) (whole line : Bool) : Performed :=
  match u.tgt with
  | .here a inter w c =>
    match r.kind with
    | .load =>
      let o := s.agentRead inter.toNat w c a u.len
      { s := o.s, rets := [(u.lane, o.bytes)], fail := o.fail }
    | .store =>
      let o := s.homeWrite inter.toNat w c a u.mask u.data whole line
      { s := o.s, rets := [], fail := o.fail }
    | .atom op w64 _ =>
      let o := s.agentRead inter.toNat w c a u.len
      match o.fail with
      | some x => { s := o.s, rets := [], fail := some x }
      | none =>
        let (rets, new) := atomRets op w64 o.bytes u
        { s := (o.s.homeWrite inter.toNat w c a 0xFF new false false).s, rets := rets, fail := none }
  | .spm off =>
    match r.kind with
    | .load => { s := s, rets := [(u.lane, tm.spmRead off u.len)], fail := none }
    | .store => { s := s.setTeam tid (tm.spmWrite off u.mask u.data), rets := [], fail := none }
    | .atom op w64 _ =>
      let (rets, new) := atomRets op w64 (tm.spmRead off u.len) u
      { s := s.setTeam tid (tm.spmWrite off 0xFF new), rets := rets, fail := none }
  | .door off =>
    match r.kind with
    | .load => { s := s, fail := none
                 rets := [(u.lane, if u.size = 8 then leBytes 8 (s.doorRead ctx off).toNat else List.replicate u.len 0)] }
    | .store => { s := if u.size = 8 && u.mask = 0xFF then s.doorWrite ctx off (BitVec.ofNat 64 (leNat u.data)) else s, rets := [], fail := none }
    | .atom _ _ _ => { s := s, rets := u.lanes.map fun l => (l, List.replicate u.len 0), fail := none }
  | .away _ _ _ _ => { s := s, rets := [], fail := none }

/-- The results of a part enter the warp's outstanding results, and the part is done. -/
def State.settle (s : State) (tid wn id ui off : Nat) (rets : List (Nat × List Byte)) : State :=
  s.modWarp tid wn fun w =>
    let w1 := rets.foldl (fun x p => { x with pend := x.pend.map (Pend.fill id p.1 off p.2) }) w
    w1.finish id ui

/-! ## Stores that make failing data good (R69, R128) -/

/-- Positions of the units of a store that reach the aligned span of a local address under the same pattern and tags. -/
def MemReq.mates (r : MemReq) (a : Nat) (inter : BitVec 3) (w : BitVec 6) (c : BitVec 2) (span : Nat) : List Nat :=
  (List.range r.units.length).filter fun i => match r.units[i]? with
    | some v => match v.tgt with
      | .here b i' w' c' => b / span == a / span && i' == inter && w' == w && c' == c
      | _ => false
    | none => false

/-- The lanes of a store cover an aligned span whole. -/
def MemReq.covers (r : MemReq) (a span : Nat) (is : List Nat) : Bool :=
  let base := a - a % span
  (List.range span).all fun k => is.any fun i => match r.units[i]? with
    | some v => match v.tgt with
      | .here b _ _ _ => decide (b ≤ base + k) && decide (base + k < b + v.len) && v.mask.testBit (base + k - b)
      | _ => false
    | none => false

/-- The units performed in one step with unit `ui` of a store, and whether they cover whole a poisoned unit or a failing line: what a
store instruction covers counts for all its lanes (log 21). -/
def State.joined (s : State) (r : MemReq) (ui : Nat) (u : MemUnit) : List Nat × Bool × Bool :=
  match u.tgt with
  | .here a inter w c =>
    let k := s.place inter.toNat a
    let span := if regionOf a == .sbm then 8 else 32
    let fresh (is : List Nat) : List Nat := is.filter fun i => ((r.units[i]?).map fun v => !v.done).getD false
    let all := r.mates a inter w c 64
    let part := r.mates a inter w c span
    if r.kind != .store || (regionOf a != .hbm && regionOf a != .sbm) then ([ui], false, false)
    else if !s.mem.tagOk k a w c && r.covers a 64 all then (fresh all, true, true)
    else if s.mem.poisoned k && r.covers a span part then (fresh part, true, false)
    else ([ui], false, false)
  | _ => ([ui], false, false)

/-- Units of a request performed in one step, up to the first failure; each result enters as it comes. -/
def State.performAll (tid wn ctx : Nat) (r : MemReq) (whole line : Bool) : List Nat → State → Performed
  | [], s => { s := s, rets := [], fail := none }
  | i :: rest, s =>
    match r.units[i]?, s.team? tid with
    | some u, some tm =>
      let o := s.performAt tid tm ctx r u whole line
      match o.fail with
      | some x => { s := o.s.modWarp tid wn fun w => w.fail r [i], rets := [], fail := some x }
      | none => State.performAll tid wn ctx r whole line rest (o.s.settle tid wn r.id i u.off o.rets)
    | _, _ => State.performAll tid wn ctx r whole line rest s

/-- A failure of a memory instruction's data raises its imprecise fault (R69, R128, R188). -/
def State.blame (s : State) (tid wn : Nat) (r : MemReq) (u : MemUnit) (fail : Option (BitVec 8)) : State :=
  match fail with
  | some cause => s.imprecise tid wn cause r.pc u.va
  | none => s

/-- `HOME_PERFORM` (R57, R68, R69, R128, R130, R213 to R217, R308): part `unit` of a request is performed, `home` saying what
befalls it. A part on another device is not performed here. -/
def execHomePerform (s : State) : Host.Outcome State Fault Refusal :=
  let x := s.input.unit
  match s.team? x.team with
  | none => .refused .noOccasion
  | some tm =>
    let w := tm.warp x.warp
    match w.mem.find? fun r => r.id == x.req with
    | none => .refused .noOccasion
    | some r =>
      match r.units[x.unit]? with
      | none => .refused .noOccasion
      | some u =>
        let earlier := w.mem.takeWhile fun e => e.id != r.id
        if u.done || u.tgt.isAway || !mayPerform earlier r then .refused .noOccasion
        else
          let s0 := { s with freeCtr := s.freeCtr + 1 }
          match if r.kind == .load then s.forward u earlier.reverse else .home with
          | .waits => .refused .noOccasion
          | .bytes bs => .next ((s0.settle x.team x.warp r.id x.unit u.off [(u.lane, bs)]).after x.team x.warp)
          | .home =>
            match u.tgt, s.input.home with
            | .here _ _ _ _, .networkTag =>
              let s1 := s0.modWarp x.team x.warp fun v => v.fail r [x.unit]
              .next ((s1.blame x.team x.warp r u (some Cause.cipherIntegrity)).tamperAlarmed.after x.team x.warp)
            | t, ev =>
              let s1 := match t with | .here a inter _ _ => s0.befall inter.toNat a ev | _ => s0
              let g := s1.joined r x.unit u
              let o := State.performAll x.team x.warp (s.ctxOf tm) r g.2.1 g.2.2 g.1 s1
              .next ((o.s.blame x.team x.warp r u o.fail).after x.team x.warp)

end Sys2Proof.Machine
end

