-- ==== Sys2Proof/Machine/Fabric.lean ====
section
/-! DEFINITION. The fabric (R29 to R40, R45 to R49, R131): requests to other devices and what comes back for them, requests of other
devices and the target check, link keys, tag failures and the loss of a link. -/

namespace Sys2Proof.Machine

/-! ## Links (R45 to R50) -/

/-- Device and local address of a target on another device. -/
def Target.remote (t : Target) : Option (BitVec 12 × Nat) :=
  match t with
  | .away d a _ _ => some (d, a)
  | _ => none

/-- A unit whose packet left on a link and is not answered is sent again on the replacement plane (R48). -/
def State.unsend (s : State) (link : Nat) : State :=
  let redo (u : MemUnit) : MemUnit :=
    match u.tgt.remote with
    | some (_, a) => if s.planeOf a = link then { u with sent := false } else u
    | none => u
  { s with teams := s.teams.map fun p => (p.1, { p.2 with warps := p.2.warps.map fun w =>
      { w with mem := w.mem.map fun r => { r with units := r.units.map redo } } }) }

/-- A link leaves service until the next start (R48, R135): what was sent on it is sent again elsewhere, and what arrived on it and is
not yet presented, or not yet answered, comes again. -/
def State.failLink (s : State) (i : Nat) : State :=
  let s1 := (s.unsend i).setLink i { s.link i with state := 4, sent := [], held := [], answers := [] }
  ({ s1 with
      power := { s1.power with linkUp := s1.power.linkUp &&& ~~~(1#16 <<< i) }
      fabric := { s1.fabric with
        presented := s1.fabric.presented.filter fun p => p.1 % 16 != i
        reorder := s1.fabric.reorder.filter fun p => p.2.1.toNat != i }
      cfg := { s1.cfg with sec := { s1.cfg.sec with linkLost := true, linkNum := BitVec.ofNat 4 i } } } : State).remapPlanes

/-- `LINK_KEY_INSTALLED` (R46, R47, R49, R131, R133): the key agreed for a link that was asked for one, this device's share signed; a
direction held in KEY_EXHAUSTED switches at once and resumes. Once every leaf is spent no share can be signed. -/
def execLinkKeyInstalled (s : State) : Host.Outcome State Fault Refusal :=
  let i := s.input.link.toNat
  let l := s.link i
  if !l.serves || !l.asked || l.next || allLeaves ≤ s.mem.leaves then .refused .noOccasion
  else
    let l1 := { l with next := true, rxNext := true, asked := false }
    .next (s.spendLeaf.setLink i (if l.state = 3 then { l1.switchKey with state := 2 }.resume else l1))

/-- A packet that comes on a link is taken up: the fabric is enabled, the link is in service, its receiving direction has not failed for
good, and there are keys (R30, R48, R136). -/
def State.takesPacket (s : State) (i : Nat) : Bool :=
  s.fabric.enable && !s.cfg.erased && (s.link i).serves && decide ((s.link i).rxFails < 8)

/-- A link whose packet has been taken up: no failures in a row, and the peer's next key in use from the packet on that its mark names (R46,
R48). -/
def State.tookPacket (s : State) (i : Nat) : State :=
  s.setLink i { s.link i with rxFails := 0, rxNext := (s.link i).rxNext && !s.input.newKey }

/-- `LINK_TAG_FAILURE` (R48): a packet received is discarded, and a retransmission is asked for. -/
def execLinkTagFailure (s : State) : Host.Outcome State Fault Refusal :=
  let i := s.input.link.toNat
  let l := s.link i
  whenever (l.serves && decide (l.rxFails < 8)) (s.setLink i { l with rxFails := l.rxFails + 1 })

/-- `LINK_FAILED` (R48): the eighth consecutive failure takes the link out of service. -/
def execLinkFailed (s : State) : Host.Outcome State Fault Refusal :=
  let i := s.input.link.toNat
  whenever ((s.link i).serves && decide (8 ≤ (s.link i).rxFails)) (s.failLink i)

/-- `RETRANSMISSION_REQUEST` (R45, R47, R48): packet `num` of those sent on a link, 0 the latest, is sent again under fresh counter
values, or held for a key; the eighth consecutive failure takes the link out of service. -/
def execRetransmissionRequest (s : State) : Host.Outcome State Fault Refusal :=
  let i := s.input.link.toNat
  let l := s.link i
  match l.sent[s.input.num]? with
  | none => .refused .noOccasion
  | some p =>
    if !l.serves then .refused .noOccasion
    else if l.txFails + 1 ≥ 8 then .next ((s.setLink i { l with txFails := 8 }).failLink i)
    else .next (s.setLink i (({ l with txFails := l.txFails + 1 }.dueSwitch s.input.flag).sendOrHold p))

/-! ## Requests of this device (R33 to R39) -/

/-- A request of a warp and one of its units. -/
structure Sending where
  tm : Team
  wp : Warp
  r  : MemReq
  u  : MemUnit
  dev : BitVec 12
  addr : Nat

/-- The unit of another device's memory that an event names. -/
def State.sending? (s : State) : Option Sending :=
  let x := s.input.unit
  match s.team? x.team with
  | none => none
  | some tm =>
    let w := tm.warp x.warp
    match w.mem.find? fun r => r.id == x.req with
    | none => none
    | some r =>
      match r.units[x.unit]? with
      | none => none
      | some u => match u.tgt.remote with
        | none => none
        | some (d, a) => if u.done then none else some ⟨tm, w, r, u, d, a⟩

/-- Two units of one request travel in one packet: lanes of a load or store in one aligned 64-byte block of one device; each
address of an atomic is a request of its own (R33). -/
def Sending.together (x : Sending) (v : MemUnit) : Bool :=
  match v.tgt.remote with
  | none => false
  | some (d, a) =>
    match x.r.kind with
    | .atom _ _ _ => d == x.dev && a == x.addr
    | _ => d == x.dev && a / 64 == x.addr / 64

/-- Positions of the units of the packet that a test admits. -/
def Sending.packet (x : Sending) (p : MemUnit → Bool) : List Nat :=
  (List.range x.r.units.length).filter fun i => match x.r.units[i]? with
    | some v => !v.done && x.together v && p v
    | none => false

/-- Units of a warp's request changed. -/
def Warp.onUnits (w : Warp) (id : Nat) (is : List Nat) (f : MemUnit → MemUnit) : Warp :=
  { w with mem := w.mem.map fun r =>
      if r.id = id then { r with units := is.foldl (fun us i => modifyAt f i us) r.units } else r }

/-- Cells of a lane of a request removed: the load returns no value (R39). -/
def Warp.dropCells (w : Warp) (id lane : Nat) : Warp :=
  let cut (p : Pend) : Pend := if p.req = some id then { p with cells := p.cells.filter fun c => !(c.uni || c.lane == lane) } else p
  { w with pend := (w.pend.map cut).filter fun p => p.req != some id || !p.cells.isEmpty }

/-- A packet's units end without effect, the source context is halted, and no `exit` of the warp completes any more
(R39, R344; log 31). -/
def State.sourceMiss (s : State) (x : Sending) (is : List Nat) (kind : BitVec 2) : State :=
  let n := s.input.unit
  let lanes := is.flatMap fun i => match x.r.units[i]? with
    | some v => if v.ops.isEmpty then [v.lane] else v.ops.map Prod.fst
    | none => []
  let s1 := s.modWarp n.team n.warp fun w =>
    { is.foldl (fun v i => v.finish x.r.id i) (lanes.foldl (fun v l => v.dropCells x.r.id l) w) with lost := true }
  ((s1.recordOsf (s.ctxOf x.tm) x.dev false kind x.addr).imprecise n.team n.warp Cause.remotePinMiss x.r.pc (fabricAddr x.dev x.addr)).after
    n.team n.warp

/-- The bytes of a unit within its 64-byte block, as a mask: of a store, those it writes (R33). -/
def MemUnit.blockMask (v : MemUnit) (store : Bool) (a : Nat) : Nat :=
  ((if store then v.mask else 2 ^ v.len - 1) % 2 ^ v.len) * 2 ^ (a % 64)

/-- The function code of an atomic (R251, R311). -/
def AtomOp.code (op : AtomOp) : Nat :=
  0x1D + [AtomOp.add, .and, .or, .xor, .minI, .maxI, .minN, .maxN, .swap, .cas, .fadd, .fmax].idxOf op

/-- The address of a unit on another device. -/
def MemUnit.farAddr (v : MemUnit) : Nat := (v.tgt.remote.map Prod.snd).getD 0

/-- The request of the packet's units: the device, the byte mask of a block and the bytes stored, or the operands of an atomic's lanes, with
the order and scope of the instruction (R32, R33). -/
def Sending.request (x : Sending) (s : State) (seq : Nat) (is : List Nat) : RemoteReq :=
  let us := is.filterMap fun i => x.r.units[i]?
  let w := match x.u.tgt with | .away _ _ w _ => w | _ => 0
  let c := match x.u.tgt with | .away _ _ _ c => c | _ => 0
  let store := x.r.kind == .store
  let mask := us.foldl (fun m v => m ||| v.blockMask store v.farAddr) 0
  let base (bytes : Nat) (addr : Nat) (k : RemoteKind) : RemoteReq :=
    { src := s.fabric.deviceNum, seq := seq, subtree := (s.subtreeOf (s.ctxOf x.tm)).1, world := w, comp := c
      addr := BitVec.ofNat 44 addr, bytes := bytes, kind := k, order := x.r.order, scope := x.r.scope, dev := x.dev }
  match x.r.kind with
  | .load => base mask (x.addr - x.addr % 64) .load
  | .store =>
    base mask (x.addr - x.addr % 64) (.store ((List.range 64).map fun k =>
      match us.find? fun v => (v.blockMask true v.farAddr).testBit k with
      | some v => v.data.getD (k - v.farAddr % 64) 0
      | none => 0))
  | .atom op w64 _ =>
    base (2 ^ (if w64 then 8 else 4) - 1) x.addr (.atom (BitVec.ofNat 7 op.code) w64 (x.u.ops.map Prod.snd))

/-- A unit waits behind an earlier access of its warp to the same bytes that has not left (R214, R216, R219). -/
def State.remoteHeld (s : State) (earlier : List MemReq) (u : MemUnit) : Bool :=
  earlier.any fun e => e.units.any fun v => !v.gone && spansMeet (s.keyOf v.tgt) v.len (s.keyOf u.tgt) u.len

/-- The sequence numbers of packets that a lost link leaves to be sent again, on one plane (R48). -/
def State.resends (s : State) (link : Nat) : List Nat :=
  s.teams.flatMap fun p => p.2.warps.flatMap fun w => w.mem.flatMap fun r => r.units.filterMap fun u =>
    if u.gone || s.planeOf u.farAddr != link then none else u.seq

/-- A packet's turn among those to be sent again: in their original order, before any new one (R48). -/
def resendTurn (waiting : List Nat) (seq : Option Nat) : Bool :=
  match seq with
  | some n => waiting.all fun m => decide (n ≤ m)
  | none => waiting.isEmpty

/-- The unit of a warp's request may leave now, its link apart. -/
def State.sendable (s : State) (w : Warp) (r : MemReq) (u : MemUnit) : Bool :=
  let earlier := w.mem.takeWhile fun e => e.id != r.id
  u.tgt.isAway && !u.gone && mayPerform earlier r && !s.remoteHeld earlier u

/-- The contexts whose warps have requests queued on a link (R106). -/
def State.queuedOn (s : State) (link : Nat) : List Nat :=
  let waiting := s.resends link
  ((s.teams.filter fun p => p.2.warps.any fun w => w.mem.any fun r => r.units.any fun u =>
    s.sendable w r u && s.planeOf u.farAddr == link && resendTurn waiting u.seq).map fun p => s.ctxOf p.2).eraseDups

/-- The contexts with traffic queued on a link: requests of warps, accesses of engines, the CPX and fetches that wait for their turn, and
answers (R106). -/
def State.rivalsOn (s : State) (link : Nat) : List Nat :=
  (s.queuedOn link ++ ((s.eng.portWait.filter fun w => w.1 == link).map fun w => w.2.1) ++ (s.link link).answers.map Prod.fst).eraseDups

/-- The oldest answer of a context on a link leaves, or is held for a key (R36, R45, R47, R106). -/
def State.sendAnswer (s : State) (i c : Nat) (p : FarPacket) : State :=
  (s.setLink i ({ s.link i with answers := (s.link i).answers.eraseP fun x => x.1 == c }.sendOrHold p)).chargePort i c p.flits

/-- The answers on a link leave, while its port gives the turn to a context that has one; `fuel` bounds their number (R106). -/
def State.drainAnswers (i : Nat) : Nat → State → State
  | 0, s => s
  | fuel + 1, s =>
    let ports := refreshPasses s.eng.ports i (s.rivalsOn i)
    match pickPass ports i (s.rivalsOn i) with
    | none => s
    | some c => match (s.link i).answers.find? fun x => x.1 == c with
      | none => s
      | some x => State.drainAnswers i fuel (({ s with eng := { s.eng with ports := ports } } : State).sendAnswer i c x.2)

/-- The link ports brought up to date: a context that has waited 4,096 steps without coming back waits no longer (log 70), and the answers
whose turn it is leave (R106). -/
def State.refreshPort (s : State) (i : Nat) : State :=
  let s1 := { s with eng := { s.eng with portWait := s.eng.portWait.filter fun w => w.1 != i || decide (s.steps < w.2.2 + 4096) } }
  State.drainAnswers i (s1.link i).answers.length
    { s1 with eng := { s1.eng with ports := refreshPasses s1.eng.ports i (s1.rivalsOn i) } }

/-- `REMOTE_REQUEST_SEND` (R30 to R37, R45 to R48, R106): the packet of the unit named leaves, with every unit of its request that travels
in it, none of which waits behind an earlier access. With FABRIC_EN 0 it is a miss of no route. -/
def execRemoteRequestSend (s : State) : Host.Outcome State Fault Refusal :=
  match s.sending? with
  | none => .refused .noOccasion
  | some x =>
    let n := s.input.unit
    let earlier := x.wp.mem.takeWhile fun e => e.id != x.r.id
    let is := x.packet fun v => !v.sent
    if x.u.sent || !mayPerform earlier x.r || is.any (fun i => ((x.r.units[i]?).map (s.remoteHeld earlier)).getD false) then .refused .noOccasion
    else
      let s0 := { s with freeCtr := s.freeCtr + 1 }
      if !s.fabric.enable then .next (s0.sourceMiss x is 3)
      else
        let i := s.planeOf x.addr
        let ports := refreshPasses s.eng.ports i (s.rivalsOn i)
        if !s.linkOpen i || !resendTurn (s.resends i) x.u.seq || pickPass ports i (s.rivalsOn i) != some (s.ctxOf x.tm) then .refused .noOccasion
        else
          let q := x.request s (x.u.seq.getD s.fabric.nextSeq) is
          match ({ s0 with eng := { s0.eng with ports := ports } } : State).give i s.input.flag { flits := requestFlits q, body := .request q } with
          | (s1, false) => .next s1
          | (s1, true) =>
            let s2 := if x.u.seq.isSome then s1 else { s1 with fabric := { s1.fabric with nextSeq := s1.fabric.nextSeq + 1 } }
            .next ((s2.chargePort i (s.ctxOf x.tm) (requestFlits q)).modWarp n.team n.warp fun w =>
              w.onUnits x.r.id is fun v => { v with sent := true, seq := some q.seq })

/-- The answers of a packet's units: returned bytes in the order of the units (R36), the old word of an atomic, from which
each lane's value is rebuilt (R33, R313). -/
def Sending.answers (x : Sending) : List Nat → List Byte → List (Nat × Nat × List (Nat × List Byte))
  | [], _ => []
  | i :: rest, bs =>
    match x.r.units[i]? with
    | none => x.answers rest bs
    | some v =>
      let mine := (bs ++ List.replicate v.len 0).take v.len
      let rets := match x.r.kind with
        | .load => [(v.lane, mine)]
        | .store => []
        | .atom op w64 _ => (atomRets op w64 mine v).1
      (i, v.off, rets) :: x.answers rest (bs.drop v.len)

/-- The unit at a position is sound under a mask of its block's bytes: the failure that an answer reports does not touch it (R306). -/
def Sending.sound (x : Sending) (mask i : Nat) : Bool :=
  match x.r.units[i]? with
  | some v => (v.blockMask (x.r.kind == .store) v.farAddr) &&& mask == v.blockMask (x.r.kind == .store) v.farAddr
  | none => false

/-- An answer taken in for the units of a packet: what it brings for the sound ones, and zero in the lanes of the others (R33, R188,
R306). -/
def State.takeAnswer (s : State) (x : Sending) (is : List Nat) (bs : List Byte) (bad : List Nat) : State :=
  let n := s.input.unit
  (((x.answers is bs).filter fun o => !bad.contains o.1).foldl (fun st o => st.settle n.team n.warp x.r.id o.1 o.2.1 o.2.2) s).modWarp n.team
    n.warp fun w => w.fail x.r bad

/-- `REMOTE_ACK` (R33, R36, R37, R46, R48, R69, R306, R314): the answer to the packet of the unit named, on link `link`; `home` says that data
failed at their home, but for the bytes in `sound`, which halts this end alone. -/
def execRemoteAck (s : State) : Host.Outcome State Fault Refusal :=
  match s.sending? with
  | none => .refused .noOccasion
  | some x =>
    if !x.u.sent || !s.takesPacket s.input.link.toNat then .refused .noOccasion
    else
      let n := s.input.unit
      let s0 := (({ s with freeCtr := s.freeCtr + 1 } : State).tookPacket s.input.link.toNat).heard (s.planeOf x.addr)
      let is := x.packet MemUnit.sent
      match answerFailure s.input.home with
      | some cause =>
        let bad := is.filter fun i => !x.sound s.input.sound i
        let u := ((bad.head?).bind fun i => x.r.units[i]?).getD x.u
        .next (((s0.takeAnswer x is s.input.ext bad).blame n.team n.warp x.r u (some cause)).after n.team n.warp)
      | none => .next ((s0.takeAnswer x is s.input.ext []).after n.team n.warp)

/-- A stop record of an engine operation whose access another device refused (R39, R191). -/
def State.engineMiss (s : State) (e : EngineRef) (addr : DWord) : Option (Nat × StopRec) :=
  let rec' (id : BitVec 8) (team warp : Nat) (op : DWord) : Option (Nat × StopRec) :=
    (s.team? team).map fun tm => (team,
      { engine := id, cause := Cause.remotePinMiss, unit := BitVec.ofNat 16 (tm.warp warp).core, team := BitVec.ofNat 32 tm.index
        userTag := (tm.warp warp).userTag, pcOrOp := op, addr := addr })
  match e with
  | .tce n => match s.eng.tce.find? fun o => o.id == n with
    | some o => rec' 1 o.team o.warp (BitVec.ofNat 64 (o.entry + o.beats * 0x10000))
    | none => none
  | .cle n => match s.eng.cle.find? fun o => o.id == n with
    | some o => rec' 3 o.team o.warp (o.pc.setWidth 64)
    | none => none
  | .mxe _ => none

/-- A miss that another device or the leaf answers with, on link `link`: of a memory instruction's packet, or, with `flag`, of an access of an
engine operation to the fabric address in the event (R34, R39, R46, R48). -/
def remoteMiss (s : State) (kind : BitVec 2) : Host.Outcome State Fault Refusal :=
  if !s.takesPacket s.input.link.toNat then .refused .noOccasion
  else if s.input.flag then
    let a := s.input.acc.data
    match s.engineMiss s.input.engine a with
    | none => .refused .noOccasion
    | some (t, r) =>
      .next (((s.tookPacket s.input.link.toNat).heard (s.planeOf a.toNat)).engineFault t r
        (farFault (BitVec.ofNat 12 (a.toNat / 0x100000000000)) (a.toNat % 0x100000000000) kind))
  else
    match s.sending? with
    | none => .refused .noOccasion
    | some x =>
      if x.u.sent then .next (((s.tookPacket s.input.link.toNat).heard (s.planeOf x.addr)).sourceMiss x (x.packet MemUnit.sent) kind)
      else .refused .noOccasion

/-- `REMOTE_MISS_REPLY` (R38, R39, R40): the failure reply of the target, of KIND 0 to 2. -/
def execRemoteMissReply (s : State) : Host.Outcome State Fault Refusal :=
  if s.input.kind = 3 then .refused .noOccasion else remoteMiss s s.input.kind

/-- `UNDELIVERABLE` (R34, R38): the leaf returns a packet, a miss of KIND 3. -/
def execUndeliverable (s : State) : Host.Outcome State Fault Refusal := remoteMiss s 3

/-! ## Requests of other devices (R36, R38 to R40) -/

/-- The composed entries of a context that lead to a local address: those a walk finds now, or older ones that a covering
INVAL has not removed (R38, R98, R101). -/
def State.entriesTo (s : State) (c a : Nat) : List Trans :=
  let leads (t : Trans) : Bool := s.isOwn t.dev.toNat && t.frame == a - a % 4096
  let old := (s.eng.castle.filter fun e => e.ctx == c && leads e.tr).map fun e => e.page * 4096
  ((s.mapsTo a (s.chainOf c) ++ old).filterMap fun va => match s.translate 0xD000000 c va with
    | .ok t => if leads t then some t else none
    | .error _ => none)

/-- The kind of a remote request for permissions and watchpoints. -/
def remoteAcc (k : RemoteKind) : AccKind :=
  match k with
  | .load => .load
  | .store _ => .store
  | .atom _ _ _ => .atomic

/-- The target check: the entry through which the access passes, or the KIND of the first check it fails (R38). -/
def State.targetCheck (s : State) (m : Nat) (q : RemoteReq) : Except (BitVec 2) Trans :=
  let pinned := (s.entriesTo m q.addr.toNat).filter fun t => t.pin
  let tagged := pinned.filter fun t => t.world == q.world && t.comp == q.comp
  if pinned.isEmpty then .error 0
  else if tagged.isEmpty then .error 2
  else match tagged.find? fun t => t.allows (remoteAcc q.kind) with
    | some t => .ok t
    | none => .error 1

/-- The atomic of a function code (R251, R311). -/
def atomOfCode (n : Nat) : Option AtomOp :=
  [AtomOp.add, .and, .or, .xor, .minI, .maxI, .minN, .maxN, .swap, .cas, .fadd, .fmax][n - 0x1D]?

/-- Offsets of the bytes a request covers. -/
def remoteBytes (q : RemoteReq) : List Nat :=
  match q.kind with
  | .atom _ w64 _ => List.range (if w64 then 8 else 4)
  | _ => (List.range 64).filter fun i => q.bytes.testBit i

/-- A request performed at its home, and the answer to its source. -/
structure Served where
  s   : State
  ans : FarAnswer

/-- How far a request has been performed: the state, the bytes read, the bytes found sound as a mask, and the first failure. -/
structure Serving where
  s     : State
  bytes : List Byte := []
  sound : Nat := 0
  fail  : Option (BitVec 8) := none

/-- One part of a request performed, which covers the bytes of a mask; a further failure of the same cause is not counted again (R128,
R306). -/
def Serving.take (x : Serving) (mask : Nat) (o : HomeOut) : Serving :=
  match o.fail with
  | none => { x with s := o.s, bytes := x.bytes ++ o.bytes, sound := x.sound ||| mask }
  | some c =>
    { x with s := if x.fail == some c then x.s else o.s, bytes := x.bytes ++ o.bytes, fail := some (x.fail.getD c) }

/-- The answer to a request performed. -/
def Serving.answer (x : Serving) : FarAnswer :=
  match x.fail with
  | some c => .failed c x.sound x.bytes
  | none => .done x.bytes

/-- The parts of a masked store to a block: a half that it covers whole, else the 8-byte words that it reaches; as offset and length. -/
def storeParts (mask : Nat) : List (Nat × Nat) :=
  [0, 32].flatMap fun h =>
    if mask >>> h % 2 ^ 32 = 2 ^ 32 - 1 then [(h, 32)]
    else ([h, h + 8, h + 16, h + 24].filter fun w => mask >>> w % 256 != 0).map fun w => (w, 8)

/-- A request that has passed is performed at its home, a block of an MX window in one step; failures there are counted and answered to
the source (R36, R57, R64, R68, R69). -/
def State.serve (s : State) (t : Trans) (q : RemoteReq) : Served :=
  let i := t.inter.toNat
  let a := q.addr.toNat
  match q.kind with
  | .load =>
    let x := (remoteBytes q).foldl (fun (x : Serving) k => x.take (2 ^ k) (x.s.agentRead i t.world t.comp (a + k) 1)) { s := s }
    { s := x.s, ans := x.answer }
  | .store data =>
    let mask := q.bytes % 2 ^ 64
    let parts := if regionOf a == .mxWindow then [(0, 64)] else storeParts mask
    let x := parts.foldl (fun (x : Serving) p =>
      x.take ((mask >>> p.1 % 2 ^ p.2) * 2 ^ p.1) (x.s.homeWrite i t.world t.comp (a + p.1) (mask >>> p.1 % 2 ^ p.2) ((data.drop p.1).take p.2)
        (p.2 == 32) (mask == 2 ^ 64 - 1))) { s := s }
    { s := x.s, ans := x.answer }
  | .atom code w64 vals =>
    match atomOfCode code.toNat with
    | none => { s := s, ans := .done [] }
    | some op =>
      let n := if w64 then 8 else 4
      let o := s.agentRead i t.world t.comp a n
      match o.fail with
      | some x => { s := o.s, ans := .failed x 0 [] }
      | none =>
        let new := (atomStep op w64 (BitVec.ofNat 64 (leNat o.bytes)) vals).2
        { s := (o.s.homeWrite i t.world t.comp a 0xFF (leBytes n new.toNat) false false).s, ans := .done o.bytes }

/-- The bytes of a watchpoint that a remote access strikes, compared by fabric address (R207). -/
def State.remoteStruck (s : State) (q : RemoteReq) (w : Watch) : BitVec 16 :=
  match w.fabric with
  | none => 0
  | some f =>
    if !w.en || !w.watches (remoteAcc q.kind) then 0
    else
      let base := (fabricAddr s.fabric.deviceNum q.addr.toNat).toNat
      (remoteBytes q).foldl (fun m i => m ||| watchHit f.toNat w.mask (base + i) 1) 0

/-- The watchpoints of one context that a remote access strikes: LATE of each while the context is halted, else WATCH for the first, with a
record of the home unit (R190, R207, R209). -/
def State.remoteWatch (unit : Nat) (q : RemoteReq) (s : State) (c : Nat) : State :=
  let hits := (s.ctx c).watch.filter fun w => s.remoteStruck q w.2 != 0
  match hits with
  | [] => s
  | w :: _ =>
    if (s.ctx c).halt.isSome then
      s.modCtx c fun y => { y with watch := y.watch.map fun p => if s.remoteStruck q p.2 != 0 then (p.1, { p.2 with late := true }) else p }
    else
      s.raiseHalt c
        { engine := 4, cause := Cause.watch, unit := BitVec.ofNat 16 unit, pcOrOp := q.src.setWidth 64
          addr := fabricAddr s.fabric.deviceNum (q.addr.toNat + (remoteBytes q).headD 0), byteMask := s.remoteStruck q w.2 } false none

/-- Every context whose watchpoints a remote access strikes. -/
def State.remoteWatches (s : State) (unit : Nat) (q : RemoteReq) : State :=
  ((s.ctxs.filter fun p => p.2.live).map Prod.fst).foldl (State.remoteWatch unit q) s

/-- A remote miss at this target: OSF_ERR, and, unless the member is halted already, a KIND 4 record and a halt (R39, R190). DESIGN CHOICE
(log 25): TEAM of the record is 0xFFFFFFFF, since no team has the miss. -/
def State.targetMiss (s : State) (m : Nat) (q : RemoteReq) (kind : BitVec 2) : State :=
  let s1 := s.recordOsf m q.src true kind q.addr.toNat
  if (s.ctx m).halt.isSome then s1
  else
    let fa := fabricAddr s.fabric.deviceNum q.addr.toNat
    (s1.pushHandler m
      { kind := 4, cause := kind.setWidth 8, stage := 0, userTag := 0, ctx := BitVec.ofNat 16 m, origin := 0, seq := 0, addr := fa
        image := 0, pc := 0, team := 0xFFFFFFFF }).raiseHalt m
      { engine := 4, cause := Cause.remotePinMiss, pcOrOp := q.src.setWidth 64, addr := fa } false none

/-- A packet that answers another device on a link: it waits for the turn of the member context at the port, and leaves at once where there is
no member (R36, R45, R47, R106; log 70). After the erase of R136 no key is left to send it. -/
def State.postAnswer (s : State) (i : Nat) (m : Option Nat) (p : FarPacket) : State :=
  if s.cfg.erased then s
  else match m with
    | some c => s.setLink i { s.link i with answers := (s.link i).answers ++ [(c, p)] }
    | none => s.setLink i ((s.link i).sendOrHold p)

/-- The answer to a request that came on a link (R36). -/
def State.answer (s : State) (i : Nat) (m : Option Nat) (q : RemoteReq) (a : FarAnswer) : State :=
  s.postAnswer i m { flits := answerFlits a, body := .reply q.src q.seq a }

/-- A request that reaches the memory side: checked, performed once, and answered; `e` says what befalls it at its home (R36, R38 to R40,
R48, R130, R190, R209). -/
def State.receive (s : State) (i : Nat) (q : RemoteReq) (e : HomeEvent) : State :=
  match s.fabric.seen.find? fun p => p.1 == q.src.toNat && p.2.1 == q.seq with
  | some p => s.answer i (s.member q.subtree) q p.2.2
  | none =>
    let done (t : State) (a : FarAnswer) : State :=
      ({ t with fabric := { t.fabric with seen := (q.src.toNat, q.seq, a) :: t.fabric.seen } } : State).answer i (t.member q.subtree) q a
    match s.member q.subtree with
    | none => done s (.miss 0)
    | some m =>
      match s.targetCheck m q with
      | .error kind => done (s.targetMiss m q kind) (.miss kind)
      | .ok t =>
        if e == .networkTag then done s.tamperAlarmed (.failed Cause.cipherIntegrity 0 [])
        else
          let x := (s.befall t.inter.toNat (q.addr.toNat + (remoteBytes q).headD 0) e).serve t q
          done (x.s.remoteWatches (homeUnit (s.place t.inter.toNat q.addr.toNat)) q) x.ans

/-- The key of a source and plane among the counts of requests presented (R36). -/
def planeKey (src : BitVec 12) (i : Nat) : Nat := src.toNat * 16 + i

/-- Requests of a source presented so far on a plane. -/
def State.presentedOn (s : State) (src : BitVec 12) (i : Nat) : Nat := Sparse.get 0 (planeKey src i) s.fabric.presented

/-- A request presented to the memory side in its turn. -/
def State.presentOne (s : State) (i : Nat) (q : RemoteReq) (e : HomeEvent) : State :=
  ({ s with
      freeCtr := s.freeCtr + 1
      fabric := { s.fabric with presented := Sparse.set 0 (planeKey q.src i) (s.presentedOn q.src i + 1) s.fabric.presented } } : State).receive i q e

/-- The requests that wait in the reorder buffer for the one just presented, presented in their turn; `fuel` bounds their number. -/
def State.drainReorder (src : BitVec 12) (i : Nat) : Nat → State → State
  | 0, s => s
  | fuel + 1, s =>
    let next (p : RemoteReq × BitVec 4 × HomeEvent) : Bool := p.1.src == src && p.2.1.toNat == i && p.1.place == s.presentedOn src i
    match s.fabric.reorder.find? next with
    | none => s
    | some p =>
      State.drainReorder src i fuel
        (({ s with fabric := { s.fabric with reorder := s.fabric.reorder.filter fun x => !next x } } : State).presentOne i p.1 p.2.2)

/-- `REMOTE_REQUEST_ARRIVE` (R30 to R32, R36, R38 to R40, R46, R48, R190, R209): a request of another device to this one on link `link`;
`newKey` marks the first packet under the next key. It waits in the reorder buffer for those that its source sent before it on the plane, and a request
presented already is only answered again. -/
def execRemoteRequestArrive (s : State) : Host.Outcome State Fault Refusal :=
  let q := s.input.remote
  let i := s.input.link.toNat
  if !s.takesPacket i || s.isOwn q.src.toNat || !s.isOwn q.dev.toNat then .refused .noOccasion
  else
    let s0 := s.tookPacket i
    let turn := s.presentedOn q.src i
    if turn < q.place then
      .next (if s.fabric.reorder.any fun p => p.1.src == q.src && p.1.seq == q.seq && p.2.1.toNat == i then s0
        else { s0 with fabric := { s0.fabric with reorder := s0.fabric.reorder ++ [(q, s.input.link, s.input.home)] } })
    else if q.place < turn then .next (if s.fabric.seen.any fun p => p.1 == q.src.toNat && p.2.1 == q.seq then s0.receive i q .plain else s0)
    else .next (State.drainReorder q.src i s.fabric.reorder.length (s0.presentOne i q s.input.home))

end Sys2Proof.Machine
end

