-- ==== Sys2Proof/Machine/Coll.lean ====
section
/-! DEFINITION. The collective engine (R41, R43, R44, R334 to R336): `coll`, and the completion of a collective at this participant. -/

namespace Sys2Proof.Machine

/-! ## The checks of a block (R334) -/

/-- Every rank's device lies in the device range of a context (R92). -/
def State.ranksInRange (s : State) (ctx : Nat) (b : CollBlock) : Bool :=
  let (_, lo, n) := s.subtreeOf ctx
  let last := b.first + (b.ranks - 1) * b.stride
  last ≤ 4095 && lo.toNat ≤ b.first && decide (last < lo.toNat + n.toNat)

/-- What makes a block PARAM_BAD (R334). -/
def State.collBad (s : State) (ctx : Nat) (b : CollBlock) : Bool :=
  decide (b.kind > 5) || decide (b.fmt > 7) || (b.reduces && decide (b.op > 5)) || !b.zeros
    || b.ranks = 0 || decide (b.ranks > 4096) || b.stride = 0 || decide (b.stride > 4095) || b.count = 0
    || (b.kind == 4 && decide (b.root ≥ b.ranks))
    || (b.kind == 5 && (decide (2 ^ b.lbit ≥ b.count) || decide (2 ^ b.gbit ≥ b.ranks) || !isPow2 b.ranks || !isPow2 b.count))
    || (!b.hasDst && b.dst != 0) || b.buf % b.elem != 0 || (b.hasDst && b.dst % b.elem != 0)
    || (b.reduces && ((b.fmt ≤ 4 && decide (b.op ≥ 3)) || b.fmt == 7))
    || (b.hasDst && decide (b.buf < b.dst + b.dstElems * b.elem) && decide (b.dst < b.buf + b.bufElems * b.elem))
    || !s.ranksInRange ctx b || (s.rankOf b).isNone

/-- A fault of the collective engine (R183, R191, R334). -/
def State.cleFault (s : State) (tid wn : Nat) (tm : Team) (pc : Word) (x : EFault) (mask : BitVec 16) : State :=
  s.engineFault tid { engineStop 3 tm wn x.cause (pc.setWidth 64) x.addr with byteMask := mask } x

/-- The number of an issue of a GROUP in a context, and the count raised (R335). -/
def State.takeInstance (s : State) (ctx group : Nat) : Nat × State :=
  let n := (Table.find group (s.ctx ctx).collCount).getD 0
  (n, s.modCtx ctx fun x => { x with collCount := Table.put group (n + 1) x.collCount })

/-- `coll` (R334, R335): the block is read once, and the collective is bound to the token. It waits for the warp's earlier
accesses, which its completion releases (R44, R224; log 8). The bytes that its results will replace are kept, so that its completion
knows what was stored there in between (R44). -/
def execColl (h : Hdr) (a : Reg) (s : State) : Host.Outcome State Fault Refusal :=
  tokIssue (.coll h a) h .quiet (fun w => !w.quiet) (fun _ => none)
    (fun f c =>
      let va := (f.u2 1 a.toNat).toNat
      let c1 := c.withWarp (c.wp.bindTo h.g)
      let r := c1.close.engineRead c.ctx va 64 .load
      let bs := if r.fail.isSome || va % 64 ≠ 0 then [] else r.bytes
      let b := collBlock bs
      let (n, s1) := if bs.isEmpty then (0, r.s) else r.s.takeInstance c.ctx b.group
      let bad := va % 64 ≠ 0 || r.fail.isSome || s1.collBad c.ctx b
      let op : CleOp := { id := s1.eng.nextId, ctx := BitVec.ofNat 12 c.ctx, team := c.tid, warp := c.wn, tok := h.g, pc := f.pc
                          userTag := f.wp.userTag, block := bs, inst := n, outAt := if bad then 0 else b.outRange.1
                          outOld := if bad then [] else s1.ownBytes c.ctx b.outRange }
      let s2 := { s1 with eng := { s1.eng with cle := s1.eng.cle ++ [op], nextId := s1.eng.nextId + 1 } }
      let wrong : EFault := { cause := Cause.paramBad, addr := va }
      if va % 64 ≠ 0 then s2.cleFault c.tid c.wn c1.tm f.pc wrong 0
      else match r.fail with
        | some x => s2.cleFault c.tid c.wn c1.tm f.pc x 0
        | none => if bad then s2.cleFault c.tid c.wn c1.tm f.pc wrong 0 else s2) s

/-! ## Completion (R44, R188, R336, R354) -/

/-- How far a run of a collective has come: the state, the operation with its progress, and the fault that ends it. -/
structure CollRun where
  s    : State
  o    : CleOp
  fail : Option EFault := none

/-- One outgoing element read; what was read before is kept (R188, R354). -/
def takeElem (b : CollBlock) (r : CollRun) (i : Nat) : CollRun :=
  match r.fail with
  | some _ => r
  | none =>
    let x := r.s.engineRead r.o.ctx.toNat (b.buf + i * b.elem) b.elem .load
    match x.fail with
    | some e => { r with s := x.s, fail := some e }
    | none => { r with s := x.s, o := { r.o with taken := r.o.taken ++ [leNat x.bytes] } }

/-- A packet with elements of an operation, with their codes, as it leaves from the place t of its first element (R32, R41 to R43). -/
def State.elementPacket (s : State) (o : CleOp) (b : CollBlock) (d : Nat) (t : Trans) (va : Nat) (elems : List (Nat × Nat)) : CollElems :=
  { dst := ((elems.head?).bind fun e => b.goesTo d e.1).map fun r => BitVec.ofNat 12 (b.device r)
    subtree := (s.subtreeOf o.ctx.toNat).1, world := t.world, comp := t.comp, addr := t.dev ++ BitVec.ofNat 44 (t.frame + va % 4096)
    group := b.group, inst := o.inst, elems := elems }

/-- Elements sent in one packet on the plane that R35 gives the fabric address where the first is read (log 69), or that wait for it
(R30, R45 to R47, R106). -/
def State.sendElements (s : State) (o : CleOp) (b : CollBlock) (d : Nat) (elems : List (Nat × Nat)) : State :=
  let va := b.buf + (elems.headD (0, 0)).1 * b.elem
  match s.engineLead o.ctx.toNat va .load with
  | .error _ => s
  | .ok t =>
    let p := s.elementPacket o b d t va elems
    let x := s.sendPacket (s.planeOf p.addr.toNat) o.ctx.toNat (1 + (elems.length * b.elem + 31) / 32)
      (.element s.fabric.deviceNum s.fabric.nextSeq p)
    if x.2 then x.1.takeSeq else x.1

/-- One batch of outgoing elements read and sent, unless that has been done; one that a fault cuts short goes on where it stands (R43, R188,
R354). -/
def takeBatch (b : CollBlock) (d : Nat) (r : CollRun) (g : Nat × List Nat) : CollRun :=
  if r.fail.isSome || g.1 ≤ r.o.taken.length then r
  else
    let at' := g.1 - g.2.length
    let x := (g.2.drop (r.o.taken.length - at')).foldl (takeElem b) r
    if x.fail.isSome || !b.leaves d g.2 then x
    else { x with s := x.s.sendElements x.o b d (g.2.zip (x.o.taken.drop at')) }

/-- The outgoing elements not yet read, read and sent one batch after another. -/
def takeElems (b : CollBlock) (d : Nat) (r : CollRun) : CollRun := (b.batches d).foldl (takeBatch b d) r

/-- The planes of the packets that an operation has sent are heard from: all its elements are acknowledged (R48, R336). -/
def State.acked (s t : State) (ctx : Nat) : State := ((List.range 16).filter fun i => (s.chargedOn t i).contains ctx).foldl State.heard t

/-- The byte that a result leaves: where another agent has stored since the issue, the byte that stands there, that of the issue or the new
one, by a free choice (R44). -/
def CleOp.mixedByte (o : CleOp) (ctr i : Nat) (now : List (Option Byte)) (new : Byte) : Byte :=
  match (now[i]?).join, (o.outOld[i]?).join with
  | some a, some old =>
    if a = old then new
    else match Config.pickNat ctr (0xF000000 + i) % 3 with
      | 0 => new
      | 1 => a
      | _ => old
  | _, _ => new

/-- The code that a result leaves at an element, byte by byte (R44). -/
def CleOp.mixedCode (o : CleOp) (ctr size : Nat) (now : List (Option Byte)) (x : Nat × Nat) : Nat × Nat :=
  (x.1, leNat ((List.range size).map fun k => o.mixedByte ctr (x.1 * size + k) now (BitVec.ofNat 8 (x.2 / 256 ^ k))))

/-- The results of an operation, once every outgoing element is read; own elements come from those read, the others from their
ranks. -/
def collResults (s : State) (o : CleOp) (b : CollBlock) (d : Nat) : List (Nat × Nat) :=
  let mine := (b.outgoing d).zip o.taken
  let e (r i : Nat) : Nat := if r = d then (Table.find i mine).getD 0 else elemAt b.elem (s.input.coll.bufs.getD r []) i
  (b.results d e s.input.coll.tree).map (o.mixedCode s.freeCtr b.elem (s.ownBytes o.ctx.toNat b.outRange))

/-- The bytes that results put into memory. -/
def resultBytes (size base : Nat) (rs : List (Nat × Nat)) : List (Nat × Byte) :=
  rs.flatMap fun x => (List.range size).map fun k => (base + x.1 * size + k, BitVec.ofNat 8 (x.2 / 256 ^ k))

/-- The results that go to each 64-byte line, line by line. -/
def resultLines (size base : Nat) (rs : List (Nat × Nat)) : List (List (Nat × Nat)) :=
  ((rs.map fun x => (base + x.1 * size) / 64).eraseDups).map fun l => rs.filter fun x => (base + x.1 * size) / 64 == l

/-- The results of one line written: as a whole line where they cover it (R128). -/
def State.putResults (s : State) (ctx size base : Nat) (rs : List (Nat × Nat)) : EOut :=
  let t := resultBytes size base rs
  let l := t.head?.elim 0 fun p => p.1 / 64
  let g := groupBytes 64 l t
  if g.1 = 2 ^ 64 - 1 then s.enginePut ctx .store (64 * l) g.1 g.2 else s.engineStore ctx .store t

/-- The results written line by line, up to the first fault; those of lines not written stay with the operation (R188). -/
def writeResults (size base : Nat) : List (List (Nat × Nat)) → CollRun → CollRun
  | [], r => { r with o := { r.o with left := some [] } }
  | x :: rest, r =>
    let w := r.s.putResults r.o.ctx.toNat size base x
    match w.fail with
    | some e => { s := w.s, o := { r.o with left := some (x ++ rest.flatten) }, fail := some e }
    | none => writeResults size base rest { r with s := w.s }

/-- An operation reads and sends what it sends, and writes what it receives, from where it was stopped (R43, R188, R336, R354). -/
def collMove (s : State) (o : CleOp) (b : CollBlock) (d : Nat) : CollRun :=
  let put (rs : List (Nat × Nat)) : CollRun → CollRun := writeResults b.elem b.outRange.1 (resultLines b.elem b.outRange.1 rs)
  match o.left with
  | some rs => put rs { s := s, o := o }
  | none =>
    let r := takeElems b d { s := s, o := o }
    if r.fail.isSome then r else put (collResults r.s r.o b d) { r with s := s.acked r.s o.ctx.toNat }

/-- Every piece of a range lies in pages that every stage pins (R38, R335). -/
def State.pinned (s : State) (ctx va n : Nat) : Bool :=
  (piecesOf va n).all fun p => match s.walk ctx p.1 with
    | .ok t => t.pin
    | .error _ => false

/-- An operation out of the engine. -/
def State.dropCle (s : State) (id : Nat) : State := { s with eng := { s.eng with cle := s.eng.cle.filter fun x => x.id != id } }

/-- An operation put back with its progress. -/
def State.keepCle (s : State) (o : CleOp) : State := { s with eng := { s.eng with cle := s.eng.cle ++ [o] } }

/-- A collective complete at this participant: its token lowered (R172, R336). -/
def State.finishColl (s : State) (o : CleOp) : State :=
  ((s.dropCle o.id).modWarp o.team o.warp fun w => w.lower o.tok).after o.team o.warp

/-- The spans that results reach. -/
def resultSpans (b : CollBlock) (rs : List (Nat × Nat)) : List (Nat × Nat) := rs.map fun x => (b.outRange.1 + x.1 * b.elem, b.elem)

/-- The end of a run: a fault halts with the progress kept; a watchpoint that the results struck raises WATCH once all are written (R188,
R191, R207, R209). -/
def collEnd (tm : Team) (b : CollBlock) (spans : List (Nat × Nat)) (r : CollRun) : State :=
  let o := r.o
  match r.fail with
  | some x => (r.s.keepCle o).cleFault o.team o.warp tm o.pc x 0
  | none =>
    let m := (r.s.ctx o.ctx.toNat).struckBy .store spans
    let at' := (spans.find? fun p => (r.s.ctx o.ctx.toNat).struck .store p.1 p.2 != 0).getD (b.outRange.1, 0)
    (if m = 0 then r.s else r.s.cleFault o.team o.warp tm o.pc { cause := Cause.watch, addr := at'.1 } m).finishColl o

/-- The buffers of an operation of several ranks lie in pinned pages (R38, R335). -/
def State.collPinned (s : State) (ctx : Nat) (b : CollBlock) : Bool :=
  b.ranks == 1 || (s.pinned ctx b.buf (b.bufElems * b.elem) && (!b.hasDst || s.pinned ctx b.dst (b.dstElems * b.elem)))

/-- The completion of an operation whose block is b, at rank d. Its occasion needs pinned buffers and, for a reduction, an order
of combination over all ranks. DESIGN CHOICE (log 36): with the fabric disabled the miss names the lowest other rank's device and the
buffer's address. -/
def collRun (s : State) (o : CleOp) (tm : Team) (b : CollBlock) (d : Nat) : Host.Outcome State Fault Refusal :=
  let ctx := o.ctx.toNat
  if b.ranks > 1 && !s.fabric.enable then
    let peer := b.first + (if d = 0 then 1 else 0) * b.stride
    .next (s.cleFault o.team o.warp tm o.pc (farFault (BitVec.ofNat 12 peer) (b.buf % 0x100000000000) 3) 0)
  else if !s.collPinned ctx b || (b.reduces && !treeOf b.ranks s.input.coll.tree) then .refused .noOccasion
  else
    let spans := resultSpans b (b.results d (fun _ _ => 0) (.leaf 0))
    .next (collEnd tm b spans (collMove (s.dropCle o.id) o b d))

/-- A collective at this participant: operation `num` completes, faults, or turns out bad (R335). -/
def runColl (s : State) : Host.Outcome State Fault Refusal :=
  match s.eng.cle.find? fun o => o.id == s.input.num with
  | none => .refused .noOccasion
  | some o =>
    match s.team? o.team with
    | none => .refused .noOccasion
    | some tm =>
      let b := collBlock o.block
      if s.isHalted o.ctx.toNat then .refused .noOccasion
      else if o.block.isEmpty || s.collBad o.ctx.toNat b || !s.input.coll.agree then
        .next (s.cleFault o.team o.warp tm o.pc { cause := Cause.paramBad, addr := 0 } 0)
      else match s.rankOf b with
        | none => .refused .noOccasion
        | some d => collRun { s with freeCtr := s.freeCtr + 1 } o tm b d

/-- `COLL_COMPLETE` (R41, R43 to R47, R188, R334 to R336, R354): operation `num` completes here, its own elements sent, `coll` holding what the
other ranks bring. -/
def execCollComplete (s : State) : Host.Outcome State Fault Refusal := throughLinks runColl s

/-! ## Stopping (R187) -/

/-- The batches that an operation reaches when a halt stops it after at most so many further packets. -/
def State.lastBatches (s : State) (o : CleOp) (b : CollBlock) (d n : Nat) : List (Nat × List Nat) :=
  if o.block.isEmpty || s.collBad o.ctx.toNat b || o.left.isSome || !s.fabric.enable || !s.collPinned o.ctx.toNat b then []
  else ((b.batches d).filter fun g => decide (o.taken.length < g.1) && b.leaves d g.2).take n

/-- The collective engine stops an operation after at most two further packets: the run, and how many it has sent (R187, R188). -/
def State.stopColl (s : State) (o : CleOp) (n : Nat) : CollRun × Nat :=
  let b := collBlock o.block
  match s.rankOf b with
  | none => ({ s := s, o := o }, 0)
  | some d =>
    let last := s.lastBatches o b d (min n 2)
    let r := ((b.batches d).filter fun g => last.any fun x => decide (g.1 ≤ x.1)).foldl (takeBatch b d) { s := s, o := o }
    (r, (last.filter fun x => decide (x.1 ≤ r.o.taken.length)).length)

end Sys2Proof.Machine
end

