-- ==== Sys2Proof/Machine/FloatArith.lean ====
section
/-! DEFINITION. Meanings of the floating-point, packed, complex, error-free, FUN and CVT instructions (R287 to R298). -/

namespace Sys2Proof.Machine

/-- `fadd` (R288). -/
def execFadd (h : Hdr) (d a b : Reg) (s : State) : Host.Outcome State Fault Refusal :=
  vecIssue (.fadd h d a b) h d (fun f l => faddWord (f.v 1 l a.toNat) (f.v 2 l b.toNat)) s

/-- `fsub` (R288). -/
def execFsub (h : Hdr) (d a b : Reg) (s : State) : Host.Outcome State Fault Refusal :=
  vecIssue (.fsub h d a b) h d (fun f l => fsubWord (f.v 1 l a.toNat) (f.v 2 l b.toNat)) s

/-- `fmul` (R288). -/
def execFmul (h : Hdr) (d a b : Reg) (s : State) : Host.Outcome State Fault Refusal :=
  vecIssue (.fmul h d a b) h d (fun f l => fmulWord (f.v 1 l a.toNat) (f.v 2 l b.toNat)) s

/-- `ffma` (R288): one rounding. -/
def execFfma (h : Hdr) (d a b : Reg) (s : State) : Host.Outcome State Fault Refusal :=
  vecIssue (.ffma h d a b) h d (fun f l => ffmaWord (f.v 1 l a.toNat) (f.v 2 l b.toNat) (f.v 0 l d.toNat)) s

/-- `fmin` (R289). -/
def execFmin (h : Hdr) (d a b : Reg) (s : State) : Host.Outcome State Fault Refusal :=
  vecIssue (.fmin h d a b) h d (fun f l => fminWord (f.v 1 l a.toNat) (f.v 2 l b.toNat)) s

/-- `fmax` (R289). -/
def execFmax (h : Hdr) (d a b : Reg) (s : State) : Host.Outcome State Fault Refusal :=
  vecIssue (.fmax h d a b) h d (fun f l => fmaxWord (f.v 1 l a.toNat) (f.v 2 l b.toNat)) s

/-- `fcmp.c` (R290). -/
def execFcmp (h : Hdr) (c : FCond) (p : PReg) (a b : Reg) (s : State) : Host.Outcome State Fault Refusal :=
  predIssue (.fcmp h c p a b) h p (fun f l => fcmpWord c (f.v 1 l a.toNat) (f.v 2 l b.toNat)) s

/-- `fadd.vs` (R291). -/
def execFaddVs (h : Hdr) (d a b : Reg) (s : State) : Host.Outcome State Fault Refusal :=
  vecIssue (.faddVs h d a b) h d (fun f l => faddWord (f.v 1 l a.toNat) (f.u 2 b.toNat)) s

/-- `fmul.vs` (R291). -/
def execFmulVs (h : Hdr) (d a b : Reg) (s : State) : Host.Outcome State Fault Refusal :=
  vecIssue (.fmulVs h d a b) h d (fun f l => fmulWord (f.v 1 l a.toNat) (f.u 2 b.toNat)) s

/-- `ffma.vs` (R291). -/
def execFfmaVs (h : Hdr) (d a b : Reg) (s : State) : Host.Outcome State Fault Refusal :=
  vecIssue (.ffmaVs h d a b) h d (fun f l => ffmaWord (f.v 1 l a.toNat) (f.u 2 b.toNat) (f.v 0 l d.toNat)) s

/-- `fcmp.vs.c` (R291). -/
def execFcmpVs (h : Hdr) (c : FCond) (p : PReg) (a b : Reg) (s : State) : Host.Outcome State Fault Refusal :=
  predIssue (.fcmpVs h c p a b) h p (fun f l => fcmpWord c (f.v 1 l a.toNat) (f.u 2 b.toNat)) s

/-- `badd2` (R292). -/
def execBadd2 (h : Hdr) (d a b : Reg) (s : State) : Host.Outcome State Fault Refusal :=
  vecIssue (.badd2 h d a b) h d (fun f l => packedAdd .bf16 (f.v 1 l a.toNat) (f.v 2 l b.toNat)) s

/-- `bmul2` (R292). -/
def execBmul2 (h : Hdr) (d a b : Reg) (s : State) : Host.Outcome State Fault Refusal :=
  vecIssue (.bmul2 h d a b) h d (fun f l => packedMul .bf16 (f.v 1 l a.toNat) (f.v 2 l b.toNat)) s

/-- `bfma2` (R292). -/
def execBfma2 (h : Hdr) (d a b : Reg) (s : State) : Host.Outcome State Fault Refusal :=
  vecIssue (.bfma2 h d a b) h d (fun f l => packedFma .bf16 (f.v 1 l a.toNat) (f.v 2 l b.toNat) (f.v 0 l d.toNat)) s

/-- `hadd2` (R292). -/
def execHadd2 (h : Hdr) (d a b : Reg) (s : State) : Host.Outcome State Fault Refusal :=
  vecIssue (.hadd2 h d a b) h d (fun f l => packedAdd .f16 (f.v 1 l a.toNat) (f.v 2 l b.toNat)) s

/-- `hmul2` (R292). -/
def execHmul2 (h : Hdr) (d a b : Reg) (s : State) : Host.Outcome State Fault Refusal :=
  vecIssue (.hmul2 h d a b) h d (fun f l => packedMul .f16 (f.v 1 l a.toNat) (f.v 2 l b.toNat)) s

/-- `hfma2` (R292). -/
def execHfma2 (h : Hdr) (d a b : Reg) (s : State) : Host.Outcome State Fault Refusal :=
  vecIssue (.hfma2 h d a b) h d (fun f l => packedFma .f16 (f.v 1 l a.toNat) (f.v 2 l b.toNat) (f.v 0 l d.toNat)) s

/-- `cmul` (R293). -/
def execCmul (h : Hdr) (d a b : Reg) (s : State) : Host.Outcome State Fault Refusal :=
  vecIssue2 (.cmul h d a b) h d (fun f l => cmulPair (f.v2 1 l a.toNat) (f.v2 2 l b.toNat)) s

/-- `cfma` (R293). -/
def execCfma (h : Hdr) (d a b : Reg) (s : State) : Host.Outcome State Fault Refusal :=
  vecIssue2 (.cfma h d a b) h d (fun f l => cfmaPair (f.v2 1 l a.toNat) (f.v2 2 l b.toNat) (f.v2 0 l d.toNat)) s

/-- `twosum` (R294). -/
def execTwosum (h : Hdr) (d a b : Reg) (s : State) : Host.Outcome State Fault Refusal :=
  vecIssue2 (.twosum h d a b) h d (fun f l => twosumPair (f.v 1 l a.toNat) (f.v 2 l b.toNat)) s

/-- `twoprod` (R294). -/
def execTwoprod (h : Hdr) (d a b : Reg) (s : State) : Host.Outcome State Fault Refusal :=
  vecIssue2 (.twoprod h d a b) h d (fun f l => twoprodPair (f.v 1 l a.toNat) (f.v 2 l b.toNat)) s

/-- `frcp` (R245, R295). -/
def execFrcp (h : Hdr) (d a : Reg) (s : State) : Host.Outcome State Fault Refusal :=
  vecIssue (.frcp h d a) h d (fun f l => frcpWord (f.v 1 l a.toNat)) s

/-- `frsq` (R245, R295). -/
def execFrsq (h : Hdr) (d a : Reg) (s : State) : Host.Outcome State Fault Refusal :=
  vecIssue (.frsq h d a) h d (fun f l => frsqWord (f.v 1 l a.toNat)) s

/-- `fsqrt` (R245, R295). -/
def execFsqrt (h : Hdr) (d a : Reg) (s : State) : Host.Outcome State Fault Refusal :=
  vecIssue (.fsqrt h d a) h d (fun f l => fsqrtWord (f.v 1 l a.toNat)) s

/-- `fexp2` (R245, R295). -/
def execFexp2 (h : Hdr) (d a : Reg) (s : State) : Host.Outcome State Fault Refusal :=
  vecIssue (.fexp2 h d a) h d (fun f l => fexp2Word (f.v 1 l a.toNat)) s

/-- `flog2` (R245, R295). -/
def execFlog2 (h : Hdr) (d a : Reg) (s : State) : Host.Outcome State Fault Refusal :=
  vecIssue (.flog2 h d a) h d (fun f l => flog2Word (f.v 1 l a.toNat)) s

/-- `fsinp` (R245, R295). -/
def execFsinp (h : Hdr) (d a : Reg) (s : State) : Host.Outcome State Fault Refusal :=
  vecIssue (.fsinp h d a) h d (fun f l => fsinpWord (f.v 1 l a.toNat)) s

/-- `fcosp` (R245, R295). -/
def execFcosp (h : Hdr) (d a : Reg) (s : State) : Host.Outcome State Fault Refusal :=
  vecIssue (.fcosp h d a) h d (fun f l => fcospWord (f.v 1 l a.toNat)) s

/-- `fabs` (R295): bit 31 cleared. -/
def execFabs (h : Hdr) (d a : Reg) (s : State) : Host.Outcome State Fault Refusal :=
  vecIssue (.fabs h d a) h d (fun f l => (f.v 1 l a.toNat) &&& 0x7FFFFFFF) s

/-- `fneg` (R295): bit 31 inverted. -/
def execFneg (h : Hdr) (d a : Reg) (s : State) : Host.Outcome State Fault Refusal :=
  vecIssue (.fneg h d a) h d (fun f l => (f.v 1 l a.toNat) ^^^ 0x80000000) s

/-- `ffloor` (R296). -/
def execFfloor (h : Hdr) (d a : Reg) (s : State) : Host.Outcome State Fault Refusal :=
  vecIssue (.ffloor h d a) h d (fun f l => froundWord .floor (f.v 1 l a.toNat)) s

/-- `fceil` (R296). -/
def execFceil (h : Hdr) (d a : Reg) (s : State) : Host.Outcome State Fault Refusal :=
  vecIssue (.fceil h d a) h d (fun f l => froundWord .ceil (f.v 1 l a.toNat)) s

/-- `ftrunc` (R296). -/
def execFtrunc (h : Hdr) (d a : Reg) (s : State) : Host.Outcome State Fault Refusal :=
  vecIssue (.ftrunc h d a) h d (fun f l => froundWord .trunc (f.v 1 l a.toNat)) s

/-- `frint` (R296). -/
def execFrint (h : Hdr) (d a : Reg) (s : State) : Host.Outcome State Fault Refusal :=
  vecIssue (.frint h d a) h d (fun f l => froundWord .near (f.v 1 l a.toNat)) s

/-- `fclass` (R297). -/
def execFclass (h : Hdr) (d a : Reg) (s : State) : Host.Outcome State Fault Refusal :=
  vecIssue (.fclass h d a) h d (fun f l => fclassWord (f.v 1 l a.toNat)) s

/-- `cvt.f32.i32` (R298). -/
def execCvtF32I32 (h : Hdr) (d a : Reg) (s : State) : Host.Outcome State Fault Refusal :=
  vecIssue (.cvtF32I32 h d a) h d (fun f l => cvtF32I32Word (f.v 1 l a.toNat)) s

/-- `cvt.f32.n32` (R298). -/
def execCvtF32N32 (h : Hdr) (d a : Reg) (s : State) : Host.Outcome State Fault Refusal :=
  vecIssue (.cvtF32N32 h d a) h d (fun f l => cvtF32N32Word (f.v 1 l a.toNat)) s

/-- `cvt.i32.f32` (R298). -/
def execCvtI32F32 (h : Hdr) (d a : Reg) (s : State) : Host.Outcome State Fault Refusal :=
  vecIssue (.cvtI32F32 h d a) h d (fun f l => toIntSat .near (-0x80000000) 0x7FFFFFFF (f.v 1 l a.toNat)) s

/-- `cvt.n32.f32` (R298). -/
def execCvtN32F32 (h : Hdr) (d a : Reg) (s : State) : Host.Outcome State Fault Refusal :=
  vecIssue (.cvtN32F32 h d a) h d (fun f l => toIntSat .near 0 0xFFFFFFFF (f.v 1 l a.toNat)) s

/-- `cvt.i32.f32.rz` (R298). -/
def execCvtI32F32Rz (h : Hdr) (d a : Reg) (s : State) : Host.Outcome State Fault Refusal :=
  vecIssue (.cvtI32F32Rz h d a) h d (fun f l => toIntSat .trunc (-0x80000000) 0x7FFFFFFF (f.v 1 l a.toNat)) s

/-- `cvt.bf16x2.f32` (R298): the even register low. -/
def execCvtBf16x2F32 (h : Hdr) (d a : Reg) (s : State) : Host.Outcome State Fault Refusal :=
  vecIssue (.cvtBf16x2F32 h d a) h d (fun f l => pack16 (narrowTo .bf16 (f.v 1 l a.toNat)) (narrowTo .bf16 (f.v 1 l (a.toNat + 1)))) s

/-- `cvt.f32.bf16x2` (R298): exact. -/
def execCvtF32Bf16x2 (h : Hdr) (d a : Reg) (s : State) : Host.Outcome State Fault Refusal :=
  vecIssue2 (.cvtF32Bf16x2 h d a) h d (fun f l =>
    pairOf (widenFrom .bf16 ((f.v 1 l a.toNat).extractLsb' 0 16).toNat) (widenFrom .bf16 ((f.v 1 l a.toNat).extractLsb' 16 16).toNat)) s

/-- `cvt.f16x2.f32` (R298): the even register low. -/
def execCvtF16x2F32 (h : Hdr) (d a : Reg) (s : State) : Host.Outcome State Fault Refusal :=
  vecIssue (.cvtF16x2F32 h d a) h d (fun f l => pack16 (narrowTo .f16 (f.v 1 l a.toNat)) (narrowTo .f16 (f.v 1 l (a.toNat + 1)))) s

/-- `cvt.f32.f16x2` (R298): exact. -/
def execCvtF32F16x2 (h : Hdr) (d a : Reg) (s : State) : Host.Outcome State Fault Refusal :=
  vecIssue2 (.cvtF32F16x2 h d a) h d (fun f l =>
    pairOf (widenFrom .f16 ((f.v 1 l a.toNat).extractLsb' 0 16).toNat) (widenFrom .f16 ((f.v 1 l a.toNat).extractLsb' 16 16).toNat)) s

/-- `cvt.e4m3x4.f32` (R298). -/
def execCvtE4m3x4F32 (h : Hdr) (d a : Reg) (s : State) : Host.Outcome State Fault Refusal :=
  vecIssue (.cvtE4m3x4F32 h d a) h d (fun f l => pack8 fun i => narrowTo .e4m3 (f.v 1 l (a.toNat + i))) s

/-- `cvt.f32.e4m3x4` (R298): exact. -/
def execCvtF32E4m3x4 (h : Hdr) (d a : Reg) (s : State) : Host.Outcome State Fault Refusal :=
  vecIssue4 (.cvtF32E4m3x4 h d a) h d (fun f l i => widenFrom .e4m3 ((f.v 1 l a.toNat).extractLsb' (8 * i) 8).toNat) s

/-- `cvt.e5m2x4.f32` (R298). -/
def execCvtE5m2x4F32 (h : Hdr) (d a : Reg) (s : State) : Host.Outcome State Fault Refusal :=
  vecIssue (.cvtE5m2x4F32 h d a) h d (fun f l => pack8 fun i => narrowTo .e5m2 (f.v 1 l (a.toNat + i))) s

/-- `cvt.f32.e5m2x4` (R298): exact. -/
def execCvtF32E5m2x4 (h : Hdr) (d a : Reg) (s : State) : Host.Outcome State Fault Refusal :=
  vecIssue4 (.cvtF32E5m2x4 h d a) h d (fun f l i => widenFrom .e5m2 ((f.v 1 l a.toNat).extractLsb' (8 * i) 8).toNat) s

end Sys2Proof.Machine
end

