-- ==== Sys2Proof/Decode.lean ====
section
/-! DEFINITION. Instruction words: the fields of R246 and R247, decoding from the opcode map (R249) and the function codes
(R251, R252), total on every word and refusing by name, and the encoder written from the same tables. -/

namespace Sys2Proof

/-- Bit 31, the switch marker (R246). -/
def fS (w : Word) : Bool := w.getLsbD 31
/-- Bits [30:28] (R246). -/
def fG (w : Word) : BitVec 3 := w.extractLsb' 28 3
/-- Bits [27:21], the major opcode (R246). -/
def fOp (w : Word) : BitVec 7 := w.extractLsb' 21 7
/-- Bits [20:14] (R247). -/
def fD (w : Word) : Reg := w.extractLsb' 14 7
/-- Bits [13:7] (R247). -/
def fA (w : Word) : Reg := w.extractLsb' 7 7
/-- Bits [6:0], B, F or imm7 (R247). -/
def fB (w : Word) : Reg := w.extractLsb' 0 7
/-- Bits [20:0], the offset of format BR (R247). -/
def fLow (w : Word) : BitVec 21 := w.extractLsb' 0 21
/-- The 17-bit immediate of format LI: bits [30:28] above bits [13:0] (R247). -/
def fImm (w : Word) : BitVec 17 := w.extractLsb' 28 3 ++ w.extractLsb' 0 14
/-- The condition field D[6:3] of a compare (R252). -/
def condBits (w : Word) : BitVec 4 := w.extractLsb' 17 4
/-- The destination predicate D[2:0] of a compare (R252). -/
def predBits (w : Word) : PReg := w.extractLsb' 14 3

/-- Order codes of format MEM (R247). -/
def orderOf (b : BitVec 2) : Order :=
  match b.toNat with | 0 => .rlx | 1 => .acq | 2 => .rel | _ => .sc
/-- The code of an order (R247). -/
def Order.bits : Order → BitVec 2 | .rlx => 0 | .acq => 1 | .rel => 2 | .sc => 3
/-- Order codes of `fence`; 0 is none (R251). -/
def fenceOrderOf (b : BitVec 2) : Option FenceOrder :=
  match b.toNat with | 1 => some .acq | 2 => some .rel | 3 => some .sc | _ => none
/-- The code of an order of `fence` (R315). -/
def FenceOrder.bits : FenceOrder → BitVec 2 | .acq => 1 | .rel => 2 | .sc => 3
/-- Scope codes (R247). -/
def scopeOf (b : BitVec 2) : Scope :=
  match b.toNat with | 0 => .team | 1 => .dev | 2 => .fab | _ => .sys
/-- The code of a scope (R247). -/
def Scope.bits : Scope → BitVec 2 | .team => 0 | .dev => 1 | .fab => 2 | .sys => 3
/-- Size codes of the loads and stores (R305). -/
def sizeOf3 (b : BitVec 3) : MSize :=
  match b.toNat with
  | 0 => .x8 | 1 => .sx8 | 2 => .x16 | 3 => .sx16 | 4 => .w32 | 5 => .w64 | 6 => .w128 | _ => .w256
/-- The code of a size (R305). -/
def MSize.bits : MSize → BitVec 3
  | .x8 => 0 | .sx8 => 1 | .x16 => 2 | .sx16 => 3 | .w32 => 4 | .w64 => 5 | .w128 => 6 | .w256 => 7
/-- Field B of a load or store (R247). -/
def memModeOf (b : Reg) : MemMode :=
  { order := orderOf (b.extractLsb' 5 2), scope := scopeOf (b.extractLsb' 3 2), size := sizeOf3 (b.extractLsb' 0 3) }
/-- Field B of a load or store from its parts (R247). -/
def MemMode.bits (m : MemMode) : Reg := m.order.bits ++ m.scope.bits ++ m.size.bits
/-- Field B of an atomic (R247, R311). -/
def atomModeOf (b : Reg) : AtomMode :=
  { order := orderOf (b.extractLsb' 5 2), scope := scopeOf (b.extractLsb' 3 2), w64 := b.getLsbD 2, ret := b.getLsbD 1 }
/-- Field B of an atomic from its parts; B[0] is zero (R311). -/
def AtomMode.bits (m : AtomMode) : Reg :=
  m.order.bits ++ m.scope.bits ++ BitVec.ofBool m.w64 ++ BitVec.ofBool m.ret ++ 0#1
/-- Integer conditions (R252). -/
def iCondOf (b : BitVec 4) : Option ICond :=
  match b.toNat with
  | 0 => some .eq | 1 => some .ne | 2 => some .ltI | 3 => some .leI | 4 => some .gtI | 5 => some .geI
  | 6 => some .ltN | 7 => some .leN | 8 => some .gtN | 9 => some .geN | _ => none
/-- The code of an integer condition (R252). -/
def ICond.bits : ICond → BitVec 4
  | .eq => 0 | .ne => 1 | .ltI => 2 | .leI => 3 | .gtI => 4 | .geI => 5
  | .ltN => 6 | .leN => 7 | .gtN => 8 | .geN => 9
/-- Floating conditions (R252). -/
def fCondOf (b : BitVec 4) : Option FCond :=
  match b.toNat with
  | 0 => some .oeq | 1 => some .one | 2 => some .olt | 3 => some .ole | 4 => some .ogt | 5 => some .oge
  | 6 => some .ord | 7 => some .uno | 8 => some .ueq | 9 => some .une | 10 => some .ult | 11 => some .ule
  | 12 => some .ugt | 13 => some .uge | _ => none
/-- The code of a floating condition (R252). -/
def FCond.bits : FCond → BitVec 4
  | .oeq => 0 | .one => 1 | .olt => 2 | .ole => 3 | .ogt => 4 | .oge => 5 | .ord => 6 | .uno => 7
  | .ueq => 8 | .une => 9 | .ult => 10 | .ule => 11 | .ugt => 12 | .uge => 13
/-- The functions of `acc.st` (R340). -/
def accStFnOf (b : BitVec 3) : AccStFn :=
  match b.toNat with
  | 0 => .f32 | 1 => .bf16Rn | 2 => .bf16Sr | 3 => .e4m3Rn | 4 => .e4m3Sr | 5 => .e5m2Rn | 6 => .cf32Fold | _ => .cf32Split
/-- The code of a function of `acc.st` (R340). -/
def AccStFn.bits : AccStFn → BitVec 3
  | .f32 => 0 | .bf16Rn => 1 | .bf16Sr => 2 | .e4m3Rn => 3 | .e4m3Sr => 4 | .e5m2Rn => 5 | .cf32Fold => 6 | .cf32Split => 7
/-- The functions of `acc.ld`; codes 5 to 7 are none (R341). -/
def accLdFnOf (b : BitVec 3) : Option AccLdFn :=
  match b.toNat with
  | 0 => some .f32 | 1 => some .bf16 | 2 => some .e4m3 | 3 => some .e5m2 | 4 => some .cf32 | _ => none
/-- The code of a function of `acc.ld` (R341). -/
def AccLdFn.bits : AccLdFn → BitVec 3
  | .f32 => 0 | .bf16 => 1 | .e4m3 => 2 | .e5m2 => 3 | .cf32 => 4

/-- What the decoder answers: the instruction, or the check of R253 that refuses the word. -/
inductive Decoded where
  | ok (i : Instr)
  | bad (c : DecodeCheck)
deriving DecidableEq, Repr

/-- Check 2 of R253: the instruction when its must-be-zero fields are zero. -/
def zeroOr (z : Bool) (i : Instr) : Decoded :=
  if z then .ok i else .bad .mustBeZero

/-- A word from its fields: S, G, OP, D, A and B (R246, R247). -/
def word (s : Bool) (g : BitVec 3) (op d a b : BitVec 7) : Word :=
  BitVec.ofBool s ++ g ++ op ++ d ++ a ++ b

/-- A word of format LI (R247). -/
def wordLI (s : Bool) (op : BitVec 7) (d : Reg) (i : BitVec 17) : Word :=
  BitVec.ofBool s ++ i.extractLsb' 14 3 ++ op ++ d ++ i.extractLsb' 0 14

/-- A word of format BR (R247). -/
def wordBR (h : Hdr) (op : BitVec 7) (o : BitVec 21) : Word :=
  BitVec.ofBool h.s ++ h.g ++ op ++ o


/-- Decoding of the SYS group, OP 0x01, by its function code F (R251). -/
def decodeSys (w : Word) : Decoded :=
  match (fB w).toNat with
  | 0x00 => zeroOr (fD w == 0 && fA w == 0) (.exit ⟨fS w, fG w⟩)
  | 0x01 => zeroOr (fD w == 0) (.trap ⟨fS w, fG w⟩ (fA w))
  | 0x02 => zeroOr (fD w == 0 && fA w == 0) (.brk ⟨fS w, fG w⟩)
  | 0x03 => zeroOr (fD w == 0 && fA w == 0) (.rsb ⟨fS w, fG w⟩)
  | 0x04 => zeroOr (fD w == 0 && fA w == 0) (.rse ⟨fS w, fG w⟩)
  | 0x05 => zeroOr (fD w == 0 && fA w == 0) (.gpw ⟨fS w, fG w⟩)
  | 0x06 => zeroOr (fD w == 0) (.dfree ⟨fS w, fG w⟩ (fA w))
  | 0x07 => zeroOr (fD w == 0) (.gate ⟨fS w, fG w⟩ (fA w))
  | 0x08 => zeroOr (fD w == 0) (.dlrel ⟨fS w, fG w⟩ (fA w))
  | 0x09 => .ok (.sysrd ⟨fS w, fG w⟩ (fD w) (fA w))
  | 0x0A => .ok (.syswr ⟨fS w, fG w⟩ (fD w) (fA w))
  | 0x0B => zeroOr (fD w == 0) (.ralloc ⟨fS w, fG w⟩ (fA w))
  | 0x0C => zeroOr (fD w == 0) (.rfree ⟨fS w, fG w⟩ (fA w))
  | 0x0D => zeroOr (fD w == 0) (.wbase ⟨fS w, fG w⟩ (fA w))
  | 0x0E => zeroOr (fA w == 0) (.cpost ⟨fS w, fG w⟩ (fD w))
  | _ => .ok (.illegalInstruction)

/-- Decoding of `brx` and `brx.m`, OP 0x07, by its function code F (R251). -/
def decodeBrx (w : Word) : Decoded :=
  match (fB w).toNat with
  | 0x00 => zeroOr (fD w == 0) (.brx ⟨fS w, fG w⟩ (fA w))
  | 0x01 => zeroOr (fD w == 0) (.brxM ⟨fS w, fG w⟩ (fA w))
  | _ => .ok (.illegalInstruction)

/-- Decoding of `bar`, OP 0x08, by its function code F (R251). -/
def decodeBar (w : Word) : Decoded :=
  match (fB w).toNat with
  | 0x00 => zeroOr (fD w == 0) (.barJoin ⟨fS w, fG w⟩ (fA w))
  | 0x01 => zeroOr (fD w == 0) (.barMark ⟨fS w, fG w⟩ (fA w))
  | 0x02 => zeroOr (fD w == 0) (.barHold ⟨fS w, fG w⟩ (fA w))
  | _ => .ok (.illegalInstruction)

/-- Decoding of the VUN group, OP 0x58, by its function code F (R251). -/
def decodeVun (w : Word) : Decoded :=
  match (fB w).toNat with
  | 0x00 => .ok (.mov ⟨fS w, fG w⟩ (fD w) (fA w))
  | 0x01 => .ok (.mov64 ⟨fS w, fG w⟩ (fD w) (fA w))
  | 0x02 => .ok (.popc ⟨fS w, fG w⟩ (fD w) (fA w))
  | 0x03 => .ok (.clz ⟨fS w, fG w⟩ (fD w) (fA w))
  | 0x04 => .ok (.brev ⟨fS w, fG w⟩ (fD w) (fA w))
  | 0x05 => .ok (.ineg ⟨fS w, fG w⟩ (fD w) (fA w))
  | 0x06 => .ok (.iabs ⟨fS w, fG w⟩ (fD w) (fA w))
  | 0x07 => zeroOr (fA w == 0) (.laneid ⟨fS w, fG w⟩ (fD w))
  | 0x08 => .ok (.bcast ⟨fS w, fG w⟩ (fD w) (fA w))
  | 0x09 => .ok (.rdl ⟨fS w, fG w⟩ (fD w) (fA w))
  | 0x10 => zeroOr ((fD w).extractLsb' 3 4 == 0 && !(fA w).getLsbD 3) (.pand ⟨fS w, fG w⟩ ((fD w).setWidth 3) ((fA w).extractLsb' 4 3) ((fA w).setWidth 3))
  | 0x11 => zeroOr ((fD w).extractLsb' 3 4 == 0 && !(fA w).getLsbD 3) (.por ⟨fS w, fG w⟩ ((fD w).setWidth 3) ((fA w).extractLsb' 4 3) ((fA w).setWidth 3))
  | 0x12 => zeroOr ((fD w).extractLsb' 3 4 == 0 && !(fA w).getLsbD 3) (.pxor ⟨fS w, fG w⟩ ((fD w).setWidth 3) ((fA w).extractLsb' 4 3) ((fA w).setWidth 3))
  | 0x13 => zeroOr ((fD w).extractLsb' 3 4 == 0 && !(fA w).getLsbD 3) (.pandn ⟨fS w, fG w⟩ ((fD w).setWidth 3) ((fA w).extractLsb' 4 3) ((fA w).setWidth 3))
  | 0x14 => zeroOr ((fD w).extractLsb' 3 4 == 0 && (fA w).extractLsb' 3 4 == 0) (.pnot ⟨fS w, fG w⟩ ((fD w).setWidth 3) ((fA w).setWidth 3))
  | 0x15 => zeroOr ((fD w).extractLsb' 3 4 == 0) (.pset ⟨fS w, fG w⟩ ((fD w).setWidth 3) (fA w))
  | 0x16 => zeroOr (fA w == 0) (.tidx ⟨fS w, fG w⟩ (fD w))
  | 0x17 => zeroOr (fA w == 0) (.tidy ⟨fS w, fG w⟩ (fD w))
  | 0x18 => zeroOr (fA w == 0) (.tidz ⟨fS w, fG w⟩ (fD w))
  | _ => .ok (.illegalInstruction)

/-- Decoding of the PCOL group, OP 0x5D, by its function code F (R251). -/
def decodePcol (w : Word) : Decoded :=
  match (fB w).toNat with
  | 0x00 => zeroOr ((fA w).extractLsb' 3 4 == 0) (.pcolMask ⟨fS w, fG w⟩ (fD w) ((fA w).setWidth 3))
  | 0x01 => zeroOr ((fA w).extractLsb' 3 4 == 0) (.pcolAny ⟨fS w, fG w⟩ (fD w) ((fA w).setWidth 3))
  | 0x02 => zeroOr ((fA w).extractLsb' 3 4 == 0) (.pcolAll ⟨fS w, fG w⟩ (fD w) ((fA w).setWidth 3))
  | 0x03 => zeroOr ((fA w).extractLsb' 3 4 == 0) (.pcolCnt ⟨fS w, fG w⟩ (fD w) ((fA w).setWidth 3))
  | _ => .ok (.illegalInstruction)

/-- Decoding of the WRED group, OP 0x5E, by its function code F (R251). -/
def decodeWred (w : Word) : Decoded :=
  match (fB w).toNat with
  | 0x00 => .ok (.wredAdd ⟨fS w, fG w⟩ (fD w) (fA w))
  | 0x01 => .ok (.wredMinI ⟨fS w, fG w⟩ (fD w) (fA w))
  | 0x02 => .ok (.wredMaxI ⟨fS w, fG w⟩ (fD w) (fA w))
  | 0x03 => .ok (.wredMinN ⟨fS w, fG w⟩ (fD w) (fA w))
  | 0x04 => .ok (.wredMaxN ⟨fS w, fG w⟩ (fD w) (fA w))
  | 0x05 => .ok (.wredAnd ⟨fS w, fG w⟩ (fD w) (fA w))
  | 0x06 => .ok (.wredOr ⟨fS w, fG w⟩ (fD w) (fA w))
  | 0x07 => .ok (.wredXor ⟨fS w, fG w⟩ (fD w) (fA w))
  | 0x08 => .ok (.wredFadd ⟨fS w, fG w⟩ (fD w) (fA w))
  | _ => .ok (.illegalInstruction)

/-- Decoding of the PFX group, OP 0x5F, by its function code F (R251). -/
def decodePfx (w : Word) : Decoded :=
  match (fB w).toNat with
  | 0x00 => .ok (.pfxAddIn ⟨fS w, fG w⟩ (fD w) (fA w))
  | 0x01 => .ok (.pfxAddEx ⟨fS w, fG w⟩ (fD w) (fA w))
  | 0x02 => .ok (.pfxXorIn ⟨fS w, fG w⟩ (fD w) (fA w))
  | 0x03 => .ok (.pfxXorEx ⟨fS w, fG w⟩ (fD w) (fA w))
  | 0x04 => .ok (.pfxMaxIIn ⟨fS w, fG w⟩ (fD w) (fA w))
  | _ => .ok (.illegalInstruction)

/-- Decoding of the FUN group, OP 0x70, by its function code F (R251). -/
def decodeFun (w : Word) : Decoded :=
  match (fB w).toNat with
  | 0x00 => .ok (.frcp ⟨fS w, fG w⟩ (fD w) (fA w))
  | 0x01 => .ok (.frsq ⟨fS w, fG w⟩ (fD w) (fA w))
  | 0x02 => .ok (.fsqrt ⟨fS w, fG w⟩ (fD w) (fA w))
  | 0x03 => .ok (.fexp2 ⟨fS w, fG w⟩ (fD w) (fA w))
  | 0x04 => .ok (.flog2 ⟨fS w, fG w⟩ (fD w) (fA w))
  | 0x05 => .ok (.fsinp ⟨fS w, fG w⟩ (fD w) (fA w))
  | 0x06 => .ok (.fcosp ⟨fS w, fG w⟩ (fD w) (fA w))
  | 0x07 => .ok (.fabs ⟨fS w, fG w⟩ (fD w) (fA w))
  | 0x08 => .ok (.fneg ⟨fS w, fG w⟩ (fD w) (fA w))
  | 0x09 => .ok (.ffloor ⟨fS w, fG w⟩ (fD w) (fA w))
  | 0x0A => .ok (.fceil ⟨fS w, fG w⟩ (fD w) (fA w))
  | 0x0B => .ok (.ftrunc ⟨fS w, fG w⟩ (fD w) (fA w))
  | 0x0C => .ok (.frint ⟨fS w, fG w⟩ (fD w) (fA w))
  | 0x0D => .ok (.fclass ⟨fS w, fG w⟩ (fD w) (fA w))
  | _ => .ok (.illegalInstruction)

/-- Decoding of the CVT group, OP 0x71, by its function code F (R251). -/
def decodeCvt (w : Word) : Decoded :=
  match (fB w).toNat with
  | 0x00 => .ok (.cvtF32I32 ⟨fS w, fG w⟩ (fD w) (fA w))
  | 0x01 => .ok (.cvtF32N32 ⟨fS w, fG w⟩ (fD w) (fA w))
  | 0x02 => .ok (.cvtI32F32 ⟨fS w, fG w⟩ (fD w) (fA w))
  | 0x03 => .ok (.cvtN32F32 ⟨fS w, fG w⟩ (fD w) (fA w))
  | 0x04 => .ok (.cvtI32F32Rz ⟨fS w, fG w⟩ (fD w) (fA w))
  | 0x05 => .ok (.cvtBf16x2F32 ⟨fS w, fG w⟩ (fD w) (fA w))
  | 0x06 => .ok (.cvtF32Bf16x2 ⟨fS w, fG w⟩ (fD w) (fA w))
  | 0x07 => .ok (.cvtF16x2F32 ⟨fS w, fG w⟩ (fD w) (fA w))
  | 0x08 => .ok (.cvtF32F16x2 ⟨fS w, fG w⟩ (fD w) (fA w))
  | 0x09 => .ok (.cvtE4m3x4F32 ⟨fS w, fG w⟩ (fD w) (fA w))
  | 0x0A => .ok (.cvtE5m2x4F32 ⟨fS w, fG w⟩ (fD w) (fA w))
  | 0x0B => .ok (.cvtF32E4m3x4 ⟨fS w, fG w⟩ (fD w) (fA w))
  | 0x0C => .ok (.cvtF32E5m2x4 ⟨fS w, fG w⟩ (fD w) (fA w))
  | _ => .ok (.illegalInstruction)

/-- Decoding of the SUN group, OP 0x7E, by its function code F (R251). -/
def decodeSun (w : Word) : Decoded :=
  match (fB w).toNat with
  | 0x00 => .ok (.smov ⟨fS w, fG w⟩ (fD w) (fA w))
  | 0x01 => .ok (.smov64 ⟨fS w, fG w⟩ (fD w) (fA w))
  | 0x02 => .ok (.spopc ⟨fS w, fG w⟩ (fD w) (fA w))
  | 0x03 => .ok (.sclz ⟨fS w, fG w⟩ (fD w) (fA w))
  | 0x04 => .ok (.sneg ⟨fS w, fG w⟩ (fD w) (fA w))
  | _ => .ok (.illegalInstruction)

/-- The instruction a word holds: checks 1 and 2 of R253. A word that check 1 refuses is the event
`ILLEGAL_INSTRUCTION`; a word whose must-be-zero field is not zero is refused by name. -/
def decode (w : Word) : Decoded :=
  match (fOp w).toNat with
  | 0x00 => zeroOr (fLow w == 0) (.nop ⟨fS w, fG w⟩)
  | 0x01 => decodeSys w
  | 0x02 => zeroOr (fD w == 0) (.spt (fS w) (fImm w))
  | 0x03 => zeroOr (fD w == 0 && (fImm w).extractLsb' 8 9 == 0) (.wait (fS w) ((fImm w).setWidth 8))
  | 0x04 => .ok (.br ⟨fS w, fG w⟩ (fLow w))
  | 0x05 => .ok (.brM ⟨fS w, fG w⟩ (fLow w))
  | 0x06 => .ok (.call ⟨fS w, fG w⟩ (fLow w))
  | 0x07 => decodeBrx w
  | 0x08 => decodeBar w
  | 0x09 => match fenceOrderOf ((fB w).extractLsb' 5 2) with
    | some o => zeroOr (fD w == 0 && fA w == 0 && (fB w).extractLsb' 0 3 == 0) (.fence ⟨fS w, fG w⟩ o (scopeOf ((fB w).extractLsb' 3 2)))
    | none => .ok (.illegalInstruction)
  | 0x0A => zeroOr (fLow w == 0) (.cstage ⟨fS w, fG w⟩)
  | 0x0B => zeroOr (fD w == 0 && fB w == 0) (.coll ⟨fS w, fG w⟩ (fA w))
  | 0x0C => zeroOr (fB w == 0) (.tld ⟨fS w, fG w⟩ (fD w) (fA w))
  | 0x0D => zeroOr (fB w == 0) (.tst ⟨fS w, fG w⟩ (fD w) (fA w))
  | 0x0E => .ok (.mma ⟨fS w, fG w⟩ (fD w) (fA w) (fB w))
  | 0x0F => .ok (.mmz ⟨fS w, fG w⟩ (fD w) (fA w) (fB w))
  | 0x10 => .ok (.cmma ⟨fS w, fG w⟩ (fD w) (fA w) (fB w))
  | 0x11 => .ok (.cmmz ⟨fS w, fG w⟩ (fD w) (fA w) (fB w))
  | 0x12 => .ok (.accSt ⟨fS w, fG w⟩ (fD w) (fA w) ((fB w).extractLsb' 3 4) (accStFnOf ((fB w).extractLsb' 0 3)))
  | 0x13 => match accLdFnOf ((fB w).extractLsb' 0 3) with
    | some f => zeroOr (fA w == 0) (.accLd ⟨fS w, fG w⟩ (fD w) ((fB w).extractLsb' 3 4) f)
    | none => .ok (.illegalInstruction)
  | 0x14 => zeroOr (fA w == 0) (.accZero ⟨fS w, fG w⟩ (fD w) (fB w))
  | 0x15 => .ok (.vlil (fS w) (fD w) (fImm w))
  | 0x16 => .ok (.vlih (fS w) (fD w) (fImm w))
  | 0x17 => .ok (.slil (fS w) (fD w) (fImm w))
  | 0x18 => .ok (.slih (fS w) (fD w) (fImm w))
  | 0x19 => .ok (.ld ⟨fS w, fG w⟩ (fD w) (fA w) (memModeOf (fB w)))
  | 0x1A => .ok (.st ⟨fS w, fG w⟩ (fD w) (fA w) (memModeOf (fB w)))
  | 0x1B => .ok (.sld ⟨fS w, fG w⟩ (fD w) (fA w) (memModeOf (fB w)))
  | 0x1C => .ok (.sst ⟨fS w, fG w⟩ (fD w) (fA w) (memModeOf (fB w)))
  | 0x1D => zeroOr (!(fB w).getLsbD 0) (.atomAdd ⟨fS w, fG w⟩ (fD w) (fA w) (atomModeOf (fB w)))
  | 0x1E => zeroOr (!(fB w).getLsbD 0) (.atomAnd ⟨fS w, fG w⟩ (fD w) (fA w) (atomModeOf (fB w)))
  | 0x1F => zeroOr (!(fB w).getLsbD 0) (.atomOr ⟨fS w, fG w⟩ (fD w) (fA w) (atomModeOf (fB w)))
  | 0x20 => zeroOr (!(fB w).getLsbD 0) (.atomXor ⟨fS w, fG w⟩ (fD w) (fA w) (atomModeOf (fB w)))
  | 0x21 => zeroOr (!(fB w).getLsbD 0) (.atomMinI ⟨fS w, fG w⟩ (fD w) (fA w) (atomModeOf (fB w)))
  | 0x22 => zeroOr (!(fB w).getLsbD 0) (.atomMaxI ⟨fS w, fG w⟩ (fD w) (fA w) (atomModeOf (fB w)))
  | 0x23 => zeroOr (!(fB w).getLsbD 0) (.atomMinN ⟨fS w, fG w⟩ (fD w) (fA w) (atomModeOf (fB w)))
  | 0x24 => zeroOr (!(fB w).getLsbD 0) (.atomMaxN ⟨fS w, fG w⟩ (fD w) (fA w) (atomModeOf (fB w)))
  | 0x25 => zeroOr (!(fB w).getLsbD 0) (.atomSwap ⟨fS w, fG w⟩ (fD w) (fA w) (atomModeOf (fB w)))
  | 0x26 => zeroOr (!(fB w).getLsbD 0) (.atomCas ⟨fS w, fG w⟩ (fD w) (fA w) (atomModeOf (fB w)))
  | 0x27 => zeroOr (!(fB w).getLsbD 0) (.atomFadd ⟨fS w, fG w⟩ (fD w) (fA w) (atomModeOf (fB w)))
  | 0x28 => zeroOr (!(fB w).getLsbD 0) (.atomFmax ⟨fS w, fG w⟩ (fD w) (fA w) (atomModeOf (fB w)))
  | 0x29 => .ok (.sand ⟨fS w, fG w⟩ (fD w) (fA w) (fB w))
  | 0x2A => .ok (.sor ⟨fS w, fG w⟩ (fD w) (fA w) (fB w))
  | 0x2B => .ok (.sxor ⟨fS w, fG w⟩ (fD w) (fA w) (fB w))
  | 0x2C => .ok (.sshr ⟨fS w, fG w⟩ (fD w) (fA w) (fB w))
  | 0x2D => .ok (.ssar ⟨fS w, fG w⟩ (fD w) (fA w) (fB w))
  | 0x2E => .ok (.sminN ⟨fS w, fG w⟩ (fD w) (fA w) (fB w))
  | 0x2F => .ok (.smaxN ⟨fS w, fG w⟩ (fD w) (fA w) (fB w))
  | 0x30 => .ok (.iadd ⟨fS w, fG w⟩ (fD w) (fA w) (fB w))
  | 0x31 => .ok (.isub ⟨fS w, fG w⟩ (fD w) (fA w) (fB w))
  | 0x32 => .ok (.imul ⟨fS w, fG w⟩ (fD w) (fA w) (fB w))
  | 0x33 => .ok (.imulhI ⟨fS w, fG w⟩ (fD w) (fA w) (fB w))
  | 0x34 => .ok (.imulhN ⟨fS w, fG w⟩ (fD w) (fA w) (fB w))
  | 0x35 => .ok (.imad ⟨fS w, fG w⟩ (fD w) (fA w) (fB w))
  | 0x36 => .ok (.iand ⟨fS w, fG w⟩ (fD w) (fA w) (fB w))
  | 0x37 => .ok (.ior ⟨fS w, fG w⟩ (fD w) (fA w) (fB w))
  | 0x38 => .ok (.ixor ⟨fS w, fG w⟩ (fD w) (fA w) (fB w))
  | 0x39 => .ok (.iandn ⟨fS w, fG w⟩ (fD w) (fA w) (fB w))
  | 0x3A => .ok (.ishl ⟨fS w, fG w⟩ (fD w) (fA w) (fB w))
  | 0x3B => .ok (.ishr ⟨fS w, fG w⟩ (fD w) (fA w) (fB w))
  | 0x3C => .ok (.isar ⟨fS w, fG w⟩ (fD w) (fA w) (fB w))
  | 0x3D => .ok (.iminI ⟨fS w, fG w⟩ (fD w) (fA w) (fB w))
  | 0x3E => .ok (.imaxI ⟨fS w, fG w⟩ (fD w) (fA w) (fB w))
  | 0x3F => .ok (.iminN ⟨fS w, fG w⟩ (fD w) (fA w) (fB w))
  | 0x40 => .ok (.imaxN ⟨fS w, fG w⟩ (fD w) (fA w) (fB w))
  | 0x41 => .ok (.clmul ⟨fS w, fG w⟩ (fD w) (fA w) (fB w))
  | 0x42 => .ok (.clmulh ⟨fS w, fG w⟩ (fD w) (fA w) (fB w))
  | 0x43 => .ok (.iadd64 ⟨fS w, fG w⟩ (fD w) (fA w) (fB w))
  | 0x44 => .ok (.isub64 ⟨fS w, fG w⟩ (fD w) (fA w) (fB w))
  | 0x45 => .ok (.imulwN ⟨fS w, fG w⟩ (fD w) (fA w) (fB w))
  | 0x46 => .ok (.bfeN ⟨fS w, fG w⟩ (fD w) (fA w) (fB w))
  | 0x47 => .ok (.bfeI ⟨fS w, fG w⟩ (fD w) (fA w) (fB w))
  | 0x48 => .ok (.bfi ⟨fS w, fG w⟩ (fD w) (fA w) (fB w))
  | 0x49 => .ok (.perm ⟨fS w, fG w⟩ (fD w) (fA w) (fB w))
  | 0x4A => .ok (.sel ⟨fS w, fG w⟩ (fD w) (fA w) (fB w))
  | 0x4B => match iCondOf (condBits w) with
    | some c => .ok (.icmp ⟨fS w, fG w⟩ c (predBits w) (fA w) (fB w))
    | none => .ok (.illegalInstruction)
  | 0x4C => .ok (.iaddi ⟨fS w, fG w⟩ (fD w) (fA w) (fB w))
  | 0x4D => zeroOr ((fB w).extractLsb' 5 2 == 0) (.ishli ⟨fS w, fG w⟩ (fD w) (fA w) ((fB w).setWidth 5))
  | 0x4E => zeroOr ((fB w).extractLsb' 5 2 == 0) (.ishri ⟨fS w, fG w⟩ (fD w) (fA w) ((fB w).setWidth 5))
  | 0x4F => zeroOr ((fB w).extractLsb' 5 2 == 0) (.isari ⟨fS w, fG w⟩ (fD w) (fA w) ((fB w).setWidth 5))
  | 0x50 => .ok (.iaddVs ⟨fS w, fG w⟩ (fD w) (fA w) (fB w))
  | 0x51 => .ok (.imulVs ⟨fS w, fG w⟩ (fD w) (fA w) (fB w))
  | 0x52 => .ok (.imadVs ⟨fS w, fG w⟩ (fD w) (fA w) (fB w))
  | 0x53 => .ok (.iandVs ⟨fS w, fG w⟩ (fD w) (fA w) (fB w))
  | 0x54 => .ok (.ishlVs ⟨fS w, fG w⟩ (fD w) (fA w) (fB w))
  | 0x55 => .ok (.ishrVs ⟨fS w, fG w⟩ (fD w) (fA w) (fB w))
  | 0x56 => match iCondOf (condBits w) with
    | some c => .ok (.icmpVs ⟨fS w, fG w⟩ c (predBits w) (fA w) (fB w))
    | none => .ok (.illegalInstruction)
  | 0x57 => .ok (.iadd64Vs ⟨fS w, fG w⟩ (fD w) (fA w) (fB w))
  | 0x58 => decodeVun w
  | 0x59 => .ok (.xlIdx ⟨fS w, fG w⟩ (fD w) (fA w) (fB w))
  | 0x5A => zeroOr (!(fB w).getLsbD 6) (.xlXor ⟨fS w, fG w⟩ (fD w) (fA w) ((fB w).setWidth 6))
  | 0x5B => zeroOr (!(fB w).getLsbD 6) (.xlBack ⟨fS w, fG w⟩ (fD w) (fA w) ((fB w).setWidth 6))
  | 0x5C => zeroOr (!(fB w).getLsbD 6) (.xlFwd ⟨fS w, fG w⟩ (fD w) (fA w) ((fB w).setWidth 6))
  | 0x5D => decodePcol w
  | 0x5E => decodeWred w
  | 0x5F => decodePfx w
  | 0x60 => .ok (.fadd ⟨fS w, fG w⟩ (fD w) (fA w) (fB w))
  | 0x61 => .ok (.fsub ⟨fS w, fG w⟩ (fD w) (fA w) (fB w))
  | 0x62 => .ok (.fmul ⟨fS w, fG w⟩ (fD w) (fA w) (fB w))
  | 0x63 => .ok (.ffma ⟨fS w, fG w⟩ (fD w) (fA w) (fB w))
  | 0x64 => .ok (.fmin ⟨fS w, fG w⟩ (fD w) (fA w) (fB w))
  | 0x65 => .ok (.fmax ⟨fS w, fG w⟩ (fD w) (fA w) (fB w))
  | 0x66 => match fCondOf (condBits w) with
    | some c => .ok (.fcmp ⟨fS w, fG w⟩ c (predBits w) (fA w) (fB w))
    | none => .ok (.illegalInstruction)
  | 0x67 => .ok (.faddVs ⟨fS w, fG w⟩ (fD w) (fA w) (fB w))
  | 0x68 => .ok (.fmulVs ⟨fS w, fG w⟩ (fD w) (fA w) (fB w))
  | 0x69 => .ok (.ffmaVs ⟨fS w, fG w⟩ (fD w) (fA w) (fB w))
  | 0x6A => .ok (.badd2 ⟨fS w, fG w⟩ (fD w) (fA w) (fB w))
  | 0x6B => .ok (.bmul2 ⟨fS w, fG w⟩ (fD w) (fA w) (fB w))
  | 0x6C => .ok (.bfma2 ⟨fS w, fG w⟩ (fD w) (fA w) (fB w))
  | 0x6D => .ok (.cmul ⟨fS w, fG w⟩ (fD w) (fA w) (fB w))
  | 0x6E => .ok (.cfma ⟨fS w, fG w⟩ (fD w) (fA w) (fB w))
  | 0x6F => .ok (.twosum ⟨fS w, fG w⟩ (fD w) (fA w) (fB w))
  | 0x70 => decodeFun w
  | 0x71 => decodeCvt w
  | 0x72 => .ok (.twoprod ⟨fS w, fG w⟩ (fD w) (fA w) (fB w))
  | 0x73 => match fCondOf (condBits w) with
    | some c => .ok (.fcmpVs ⟨fS w, fG w⟩ c (predBits w) (fA w) (fB w))
    | none => .ok (.illegalInstruction)
  | 0x74 => .ok (.hadd2 ⟨fS w, fG w⟩ (fD w) (fA w) (fB w))
  | 0x75 => .ok (.hmul2 ⟨fS w, fG w⟩ (fD w) (fA w) (fB w))
  | 0x76 => .ok (.hfma2 ⟨fS w, fG w⟩ (fD w) (fA w) (fB w))
  | 0x77 => .ok (.sadd ⟨fS w, fG w⟩ (fD w) (fA w) (fB w))
  | 0x78 => .ok (.ssub ⟨fS w, fG w⟩ (fD w) (fA w) (fB w))
  | 0x79 => .ok (.smul ⟨fS w, fG w⟩ (fD w) (fA w) (fB w))
  | 0x7A => .ok (.sshl ⟨fS w, fG w⟩ (fD w) (fA w) (fB w))
  | 0x7B => match iCondOf (condBits w) with
    | some c => .ok (.scmp ⟨fS w, fG w⟩ c (predBits w) (fA w) (fB w))
    | none => .ok (.illegalInstruction)
  | 0x7C => .ok (.sadd64 ⟨fS w, fG w⟩ (fD w) (fA w) (fB w))
  | 0x7D => .ok (.saddi ⟨fS w, fG w⟩ (fD w) (fA w) (fB w))
  | 0x7E => decodeSun w
  | _ => .ok (.illegalInstruction)

/-- The word of an instruction (R246, R247, R249, R251); the events have none. -/
def encode : Instr → Option Word
  | .nop h => some (word h.s h.g 0x00 0 0 0)
  | .exit h => some (word h.s h.g 0x01 0 0 0x00)
  | .trap h a => some (word h.s h.g 0x01 0 a 0x01)
  | .brk h => some (word h.s h.g 0x01 0 0 0x02)
  | .rsb h => some (word h.s h.g 0x01 0 0 0x03)
  | .rse h => some (word h.s h.g 0x01 0 0 0x04)
  | .gpw h => some (word h.s h.g 0x01 0 0 0x05)
  | .dfree h a => some (word h.s h.g 0x01 0 a 0x06)
  | .gate h a => some (word h.s h.g 0x01 0 a 0x07)
  | .dlrel h a => some (word h.s h.g 0x01 0 a 0x08)
  | .sysrd h d a => some (word h.s h.g 0x01 d a 0x09)
  | .syswr h d a => some (word h.s h.g 0x01 d a 0x0A)
  | .ralloc h a => some (word h.s h.g 0x01 0 a 0x0B)
  | .rfree h a => some (word h.s h.g 0x01 0 a 0x0C)
  | .wbase h a => some (word h.s h.g 0x01 0 a 0x0D)
  | .cpost h d => some (word h.s h.g 0x01 d 0 0x0E)
  | .spt s i => some (wordLI s 0x02 0 i)
  | .wait s m => some (wordLI s 0x03 0 (m.setWidth 17))
  | .br h o => some (wordBR h 0x04 o)
  | .brM h o => some (wordBR h 0x05 o)
  | .call h o => some (wordBR h 0x06 o)
  | .brx h a => some (word h.s h.g 0x07 0 a 0x00)
  | .brxM h a => some (word h.s h.g 0x07 0 a 0x01)
  | .barJoin h a => some (word h.s h.g 0x08 0 a 0x00)
  | .barMark h a => some (word h.s h.g 0x08 0 a 0x01)
  | .barHold h a => some (word h.s h.g 0x08 0 a 0x02)
  | .fence h o c => some (word h.s h.g 0x09 0 0 (o.bits ++ c.bits ++ 0#3))
  | .cstage h => some (word h.s h.g 0x0A 0 0 0)
  | .coll h a => some (word h.s h.g 0x0B 0 a 0)
  | .tld h d a => some (word h.s h.g 0x0C d a 0)
  | .tst h d a => some (word h.s h.g 0x0D d a 0)
  | .mma h d a b => some (word h.s h.g 0x0E d a b)
  | .mmz h d a b => some (word h.s h.g 0x0F d a b)
  | .cmma h d a b => some (word h.s h.g 0x10 d a b)
  | .cmmz h d a b => some (word h.s h.g 0x11 d a b)
  | .accSt h d a t f => some (word h.s h.g 0x12 d a (t ++ f.bits))
  | .accLd h d t f => some (word h.s h.g 0x13 d 0 (t ++ f.bits))
  | .accZero h d n => some (word h.s h.g 0x14 d 0 n)
  | .vlil s d i => some (wordLI s 0x15 d i)
  | .vlih s d i => some (wordLI s 0x16 d i)
  | .slil s d i => some (wordLI s 0x17 d i)
  | .slih s d i => some (wordLI s 0x18 d i)
  | .ld h d a m => some (word h.s h.g 0x19 d a m.bits)
  | .st h d a m => some (word h.s h.g 0x1A d a m.bits)
  | .sld h d a m => some (word h.s h.g 0x1B d a m.bits)
  | .sst h d a m => some (word h.s h.g 0x1C d a m.bits)
  | .atomAdd h d a m => some (word h.s h.g 0x1D d a m.bits)
  | .atomAnd h d a m => some (word h.s h.g 0x1E d a m.bits)
  | .atomOr h d a m => some (word h.s h.g 0x1F d a m.bits)
  | .atomXor h d a m => some (word h.s h.g 0x20 d a m.bits)
  | .atomMinI h d a m => some (word h.s h.g 0x21 d a m.bits)
  | .atomMaxI h d a m => some (word h.s h.g 0x22 d a m.bits)
  | .atomMinN h d a m => some (word h.s h.g 0x23 d a m.bits)
  | .atomMaxN h d a m => some (word h.s h.g 0x24 d a m.bits)
  | .atomSwap h d a m => some (word h.s h.g 0x25 d a m.bits)
  | .atomCas h d a m => some (word h.s h.g 0x26 d a m.bits)
  | .atomFadd h d a m => some (word h.s h.g 0x27 d a m.bits)
  | .atomFmax h d a m => some (word h.s h.g 0x28 d a m.bits)
  | .sand h d a b => some (word h.s h.g 0x29 d a b)
  | .sor h d a b => some (word h.s h.g 0x2A d a b)
  | .sxor h d a b => some (word h.s h.g 0x2B d a b)
  | .sshr h d a b => some (word h.s h.g 0x2C d a b)
  | .ssar h d a b => some (word h.s h.g 0x2D d a b)
  | .sminN h d a b => some (word h.s h.g 0x2E d a b)
  | .smaxN h d a b => some (word h.s h.g 0x2F d a b)
  | .iadd h d a b => some (word h.s h.g 0x30 d a b)
  | .isub h d a b => some (word h.s h.g 0x31 d a b)
  | .imul h d a b => some (word h.s h.g 0x32 d a b)
  | .imulhI h d a b => some (word h.s h.g 0x33 d a b)
  | .imulhN h d a b => some (word h.s h.g 0x34 d a b)
  | .imad h d a b => some (word h.s h.g 0x35 d a b)
  | .iand h d a b => some (word h.s h.g 0x36 d a b)
  | .ior h d a b => some (word h.s h.g 0x37 d a b)
  | .ixor h d a b => some (word h.s h.g 0x38 d a b)
  | .iandn h d a b => some (word h.s h.g 0x39 d a b)
  | .ishl h d a b => some (word h.s h.g 0x3A d a b)
  | .ishr h d a b => some (word h.s h.g 0x3B d a b)
  | .isar h d a b => some (word h.s h.g 0x3C d a b)
  | .iminI h d a b => some (word h.s h.g 0x3D d a b)
  | .imaxI h d a b => some (word h.s h.g 0x3E d a b)
  | .iminN h d a b => some (word h.s h.g 0x3F d a b)
  | .imaxN h d a b => some (word h.s h.g 0x40 d a b)
  | .clmul h d a b => some (word h.s h.g 0x41 d a b)
  | .clmulh h d a b => some (word h.s h.g 0x42 d a b)
  | .iadd64 h d a b => some (word h.s h.g 0x43 d a b)
  | .isub64 h d a b => some (word h.s h.g 0x44 d a b)
  | .imulwN h d a b => some (word h.s h.g 0x45 d a b)
  | .bfeN h d a b => some (word h.s h.g 0x46 d a b)
  | .bfeI h d a b => some (word h.s h.g 0x47 d a b)
  | .bfi h d a b => some (word h.s h.g 0x48 d a b)
  | .perm h d a b => some (word h.s h.g 0x49 d a b)
  | .sel h d a b => some (word h.s h.g 0x4A d a b)
  | .icmp h c p a b => some (word h.s h.g 0x4B (c.bits ++ p) a b)
  | .iaddi h d a i => some (word h.s h.g 0x4C d a i)
  | .ishli h d a i => some (word h.s h.g 0x4D d a (0#2 ++ i))
  | .ishri h d a i => some (word h.s h.g 0x4E d a (0#2 ++ i))
  | .isari h d a i => some (word h.s h.g 0x4F d a (0#2 ++ i))
  | .iaddVs h d a b => some (word h.s h.g 0x50 d a b)
  | .imulVs h d a b => some (word h.s h.g 0x51 d a b)
  | .imadVs h d a b => some (word h.s h.g 0x52 d a b)
  | .iandVs h d a b => some (word h.s h.g 0x53 d a b)
  | .ishlVs h d a b => some (word h.s h.g 0x54 d a b)
  | .ishrVs h d a b => some (word h.s h.g 0x55 d a b)
  | .icmpVs h c p a b => some (word h.s h.g 0x56 (c.bits ++ p) a b)
  | .iadd64Vs h d a b => some (word h.s h.g 0x57 d a b)
  | .mov h d a => some (word h.s h.g 0x58 d a 0x00)
  | .mov64 h d a => some (word h.s h.g 0x58 d a 0x01)
  | .popc h d a => some (word h.s h.g 0x58 d a 0x02)
  | .clz h d a => some (word h.s h.g 0x58 d a 0x03)
  | .brev h d a => some (word h.s h.g 0x58 d a 0x04)
  | .ineg h d a => some (word h.s h.g 0x58 d a 0x05)
  | .iabs h d a => some (word h.s h.g 0x58 d a 0x06)
  | .laneid h d => some (word h.s h.g 0x58 d 0 0x07)
  | .bcast h d a => some (word h.s h.g 0x58 d a 0x08)
  | .rdl h d a => some (word h.s h.g 0x58 d a 0x09)
  | .pand h d b a => some (word h.s h.g 0x58 (0#4 ++ d) (b ++ 0#1 ++ a) 0x10)
  | .por h d b a => some (word h.s h.g 0x58 (0#4 ++ d) (b ++ 0#1 ++ a) 0x11)
  | .pxor h d b a => some (word h.s h.g 0x58 (0#4 ++ d) (b ++ 0#1 ++ a) 0x12)
  | .pandn h d b a => some (word h.s h.g 0x58 (0#4 ++ d) (b ++ 0#1 ++ a) 0x13)
  | .pnot h d a => some (word h.s h.g 0x58 (0#4 ++ d) (0#4 ++ a) 0x14)
  | .pset h d a => some (word h.s h.g 0x58 (0#4 ++ d) a 0x15)
  | .tidx h d => some (word h.s h.g 0x58 d 0 0x16)
  | .tidy h d => some (word h.s h.g 0x58 d 0 0x17)
  | .tidz h d => some (word h.s h.g 0x58 d 0 0x18)
  | .xlIdx h d a b => some (word h.s h.g 0x59 d a b)
  | .xlXor h d a n => some (word h.s h.g 0x5A d a (0#1 ++ n))
  | .xlBack h d a n => some (word h.s h.g 0x5B d a (0#1 ++ n))
  | .xlFwd h d a n => some (word h.s h.g 0x5C d a (0#1 ++ n))
  | .pcolMask h d a => some (word h.s h.g 0x5D d (0#4 ++ a) 0x00)
  | .pcolAny h d a => some (word h.s h.g 0x5D d (0#4 ++ a) 0x01)
  | .pcolAll h d a => some (word h.s h.g 0x5D d (0#4 ++ a) 0x02)
  | .pcolCnt h d a => some (word h.s h.g 0x5D d (0#4 ++ a) 0x03)
  | .wredAdd h d a => some (word h.s h.g 0x5E d a 0x00)
  | .wredMinI h d a => some (word h.s h.g 0x5E d a 0x01)
  | .wredMaxI h d a => some (word h.s h.g 0x5E d a 0x02)
  | .wredMinN h d a => some (word h.s h.g 0x5E d a 0x03)
  | .wredMaxN h d a => some (word h.s h.g 0x5E d a 0x04)
  | .wredAnd h d a => some (word h.s h.g 0x5E d a 0x05)
  | .wredOr h d a => some (word h.s h.g 0x5E d a 0x06)
  | .wredXor h d a => some (word h.s h.g 0x5E d a 0x07)
  | .wredFadd h d a => some (word h.s h.g 0x5E d a 0x08)
  | .pfxAddIn h d a => some (word h.s h.g 0x5F d a 0x00)
  | .pfxAddEx h d a => some (word h.s h.g 0x5F d a 0x01)
  | .pfxXorIn h d a => some (word h.s h.g 0x5F d a 0x02)
  | .pfxXorEx h d a => some (word h.s h.g 0x5F d a 0x03)
  | .pfxMaxIIn h d a => some (word h.s h.g 0x5F d a 0x04)
  | .fadd h d a b => some (word h.s h.g 0x60 d a b)
  | .fsub h d a b => some (word h.s h.g 0x61 d a b)
  | .fmul h d a b => some (word h.s h.g 0x62 d a b)
  | .ffma h d a b => some (word h.s h.g 0x63 d a b)
  | .fmin h d a b => some (word h.s h.g 0x64 d a b)
  | .fmax h d a b => some (word h.s h.g 0x65 d a b)
  | .fcmp h c p a b => some (word h.s h.g 0x66 (c.bits ++ p) a b)
  | .faddVs h d a b => some (word h.s h.g 0x67 d a b)
  | .fmulVs h d a b => some (word h.s h.g 0x68 d a b)
  | .ffmaVs h d a b => some (word h.s h.g 0x69 d a b)
  | .badd2 h d a b => some (word h.s h.g 0x6A d a b)
  | .bmul2 h d a b => some (word h.s h.g 0x6B d a b)
  | .bfma2 h d a b => some (word h.s h.g 0x6C d a b)
  | .cmul h d a b => some (word h.s h.g 0x6D d a b)
  | .cfma h d a b => some (word h.s h.g 0x6E d a b)
  | .twosum h d a b => some (word h.s h.g 0x6F d a b)
  | .frcp h d a => some (word h.s h.g 0x70 d a 0x00)
  | .frsq h d a => some (word h.s h.g 0x70 d a 0x01)
  | .fsqrt h d a => some (word h.s h.g 0x70 d a 0x02)
  | .fexp2 h d a => some (word h.s h.g 0x70 d a 0x03)
  | .flog2 h d a => some (word h.s h.g 0x70 d a 0x04)
  | .fsinp h d a => some (word h.s h.g 0x70 d a 0x05)
  | .fcosp h d a => some (word h.s h.g 0x70 d a 0x06)
  | .fabs h d a => some (word h.s h.g 0x70 d a 0x07)
  | .fneg h d a => some (word h.s h.g 0x70 d a 0x08)
  | .ffloor h d a => some (word h.s h.g 0x70 d a 0x09)
  | .fceil h d a => some (word h.s h.g 0x70 d a 0x0A)
  | .ftrunc h d a => some (word h.s h.g 0x70 d a 0x0B)
  | .frint h d a => some (word h.s h.g 0x70 d a 0x0C)
  | .fclass h d a => some (word h.s h.g 0x70 d a 0x0D)
  | .cvtF32I32 h d a => some (word h.s h.g 0x71 d a 0x00)
  | .cvtF32N32 h d a => some (word h.s h.g 0x71 d a 0x01)
  | .cvtI32F32 h d a => some (word h.s h.g 0x71 d a 0x02)
  | .cvtN32F32 h d a => some (word h.s h.g 0x71 d a 0x03)
  | .cvtI32F32Rz h d a => some (word h.s h.g 0x71 d a 0x04)
  | .cvtBf16x2F32 h d a => some (word h.s h.g 0x71 d a 0x05)
  | .cvtF32Bf16x2 h d a => some (word h.s h.g 0x71 d a 0x06)
  | .cvtF16x2F32 h d a => some (word h.s h.g 0x71 d a 0x07)
  | .cvtF32F16x2 h d a => some (word h.s h.g 0x71 d a 0x08)
  | .cvtE4m3x4F32 h d a => some (word h.s h.g 0x71 d a 0x09)
  | .cvtE5m2x4F32 h d a => some (word h.s h.g 0x71 d a 0x0A)
  | .cvtF32E4m3x4 h d a => some (word h.s h.g 0x71 d a 0x0B)
  | .cvtF32E5m2x4 h d a => some (word h.s h.g 0x71 d a 0x0C)
  | .twoprod h d a b => some (word h.s h.g 0x72 d a b)
  | .fcmpVs h c p a b => some (word h.s h.g 0x73 (c.bits ++ p) a b)
  | .hadd2 h d a b => some (word h.s h.g 0x74 d a b)
  | .hmul2 h d a b => some (word h.s h.g 0x75 d a b)
  | .hfma2 h d a b => some (word h.s h.g 0x76 d a b)
  | .sadd h d a b => some (word h.s h.g 0x77 d a b)
  | .ssub h d a b => some (word h.s h.g 0x78 d a b)
  | .smul h d a b => some (word h.s h.g 0x79 d a b)
  | .sshl h d a b => some (word h.s h.g 0x7A d a b)
  | .scmp h c p a b => some (word h.s h.g 0x7B (c.bits ++ p) a b)
  | .sadd64 h d a b => some (word h.s h.g 0x7C d a b)
  | .saddi h d a i => some (word h.s h.g 0x7D d a i)
  | .smov h d a => some (word h.s h.g 0x7E d a 0x00)
  | .smov64 h d a => some (word h.s h.g 0x7E d a 0x01)
  | .spopc h d a => some (word h.s h.g 0x7E d a 0x02)
  | .sclz h d a => some (word h.s h.g 0x7E d a 0x03)
  | .sneg h d a => some (word h.s h.g 0x7E d a 0x04)
  | .mainPowerOn => none
  | .mainPowerOff => none
  | .hostLinkTrained => none
  | .firmwareLoaded => none
  | .unitTrained => none
  | .fullService => none
  | .resetGo => none
  | .clockAdjust => none
  | .powerCtlWrite => none
  | .registerWrite => none
  | .cfgLock => none
  | .cfgRun => none
  | .cfgRunDone => none
  | .hashMaskWrite => none
  | .hashMaskZeroingDone => none
  | .owlRekey => none
  | .linkKeyInstalled => none
  | .remoteRequestSend => none
  | .linkTagFailure => none
  | .linkFailed => none
  | .remoteRequestArrive => none
  | .undeliverable => none
  | .remoteMissReply => none
  | .remoteAck => none
  | .homePerform => none
  | .resultReturn => none
  | .cqWrite => none
  | .cqEnable => none
  | .cqDisable => none
  | .cqRestart => none
  | .cqReadWrite => none
  | .crReadWrite => none
  | .packetStart => none
  | .launch => none
  | .mboxPut => none
  | .mboxTake => none
  | .mboxWaitServed => none
  | .write => none
  | .faultDone => none
  | .flogAppend => none
  | .flogAppendCommit => none
  | .childCreate => none
  | .setShare => none
  | .freeze => none
  | .freezeComplete => none
  | .thaw => none
  | .checkpoint => none
  | .checkpointCommit => none
  | .revoke => none
  | .revokeComplete => none
  | .preempt => none
  | .inval => none
  | .invalComplete => none
  | .rootPtbWrite => none
  | .forwardedCommand => none
  | .tensorDeclare => none
  | .tensorRevise => none
  | .tensorRetire => none
  | .scrub => none
  | .completionRecordWrite => none
  | .bundleRetire => none
  | .handlerRecordWrite => none
  | .rootHqIdxWrite => none
  | .worldCreate => none
  | .worldKey => none
  | .worldDestroy => none
  | .worldCmdDone => none
  | .bchEnable => none
  | .bchGo => none
  | .bchChunk => none
  | .bchAbort => none
  | .bchStatusRecord => none
  | .tamperAlarm => none
  | .teamPlace => none
  | .teamImageCommit => none
  | .teamReentry => none
  | .engineHaltStop => none
  | .haltSaveComplete => none
  | .zugzwangSwap => none
  | .zugzwangReentry => none
  | .ripeEntryWrite => none
  | .tempoRingWrite => none
  | .markedBranchRendezvous => none
  | .tceEntryComplete => none
  | .mxeOperationComplete => none
  | .collComplete => none
  | .watchWrite => none
  | .illegalInstruction => none
  | .forwardedCommandAnswer => none
  | .retransmissionRequest => none

/-- Decoding with checks 2 to 5 of R253: the instruction, or the name of the first check the word fails. -/
def decodeChecked (w : Word) : Decoded :=
  match decode w with
  | .bad c => .bad c
  | .ok i => match i.failedCheck with
    | some c => .bad c
    | none => .ok i

/-- The word whose four bytes, lowest address first, are given (R2). -/
def wordOfBytes (b0 b1 b2 b3 : Byte) : Word := b3 ++ b2 ++ b1 ++ b0

/-- Decoding of the bytes at a code address: the instruction and the bytes after it, none when fewer than four are
left or check 2 refuses the word. -/
def decodeBytes : List Byte → Option (Instr × List Byte)
  | b0 :: b1 :: b2 :: b3 :: rest =>
    match decode (wordOfBytes b0 b1 b2 b3) with
    | .ok i => some (i, rest)
    | .bad _ => none
  | _ => none

/-- The instruction the decoder reads from an instruction whose bits are `w`, numbered as the opcode table numbers them:
an instruction is one little-endian word (R246), so bits above the 32 do not exist. -/
def decodeTableWord (nbits w : Nat) : Option Instr :=
  if nbits ≤ 32 then
    match decode (BitVec.ofNat 32 w) with
    | .ok i => some i
    | .bad _ => none
  else none

end Sys2Proof
end

