-- ==== Sys2Proof/Machine/Sched.lean ====
section
/-! DEFINITION. From the issue slot to the instruction: which warps can issue (R144, R161), the order among them (R145), the choice of
the active set (R147), the fetch of the word (R248), and what the device may do next by itself. -/

namespace Sys2Proof.Machine

/-! ## Which warps can issue -/

/-- Whether what the warp waited for before its next issue has ended. -/
def State.holdOver (s : State) (w : Warp) : Bool :=
  match w.hold with
  | none => true
  | some .marker => !w.outstanding
  | some (.token k) => decide (w.tokens.getD k.toNat 0 < 63)
  | some (.room n) => decide (s.coreRequests w.core + n ≤ 4096)
  | some .order => !w.memHeld
  | some .drain => !w.storesQueued
  | some .quiet => w.quiet
  | some .spm => !w.spmQueued
  | some (.plane i) => s.linkOpen i

/-- A thread parked where its whole warp waits: `wait`, `gpw`, `cpost`, `ralloc` and a `dfree` short of room act for the
warp (R152, R324, R346, R347, R352). DEDUCED (log 12). -/
def Thread.parksWarp (t : Thread) : Bool :=
  match t.park with
  | .wait _ | .gpw | .cpost | .ralloc | .dfree => true
  | _ => false

/-- A warp that can issue on its slot (R144, R161). -/
def State.canIssue (s : State) (t : Nat) (tm : Team) (w : Warp) : Bool :=
  tm.place == .resident && tm.ask != .fault && !s.isHalted (s.ctxOf tm) && w.zug.isNone
    && s.holdOver w && (w.threads.any Thread.eligible) && !(w.threads.any Thread.parksWarp)
    && !((s.kernelOf tm).entryStage && s.eng.tce.any fun o => o.team == t && o.stage == 0)

/-- A warp on offer: team, warp number, context, priority and record. -/
structure Offer where
  team : Nat
  wn   : Nat
  ctx  : Nat
  prio : Nat
  wp   : Warp

/-- The warps of one core that can issue. -/
def State.offers (s : State) (core : Nat) : List Offer :=
  s.teams.flatMap fun p =>
    let ctx := s.ctxOf p.2
    let prio := ((s.bundle? p.2.bundle).map Bundle.priority).getD 0
    (List.range p.2.warps.length).filterMap fun n =>
      let w := p.2.warp n
      if w.core == core && s.canIssue p.1 p.2 w then some ⟨p.1, n, ctx, prio, w⟩ else none

/-- Whether offer a goes before offer b: one passed over 1,024 times first, then priority, then the one that issued least
recently, those that have not issued since placement first, by placement and warp number (R145). -/
def Offer.before (a b : Offer) : Bool :=
  let sa := decide (a.wp.overlooked ≥ 1024)
  let sb := decide (b.wp.overlooked ≥ 1024)
  if sa != sb then sa
  else if a.prio ≠ b.prio then decide (a.prio > b.prio)
  else if a.wp.lastIssue ≠ b.wp.lastIssue then decide (a.wp.lastIssue < b.wp.lastIssue)
  else if a.wp.placed ≠ b.wp.placed then decide (a.wp.placed < b.wp.placed)
  else decide (a.wn < b.wn)

/-- The offer that goes first. -/
def pickOffer : List Offer → Option Offer
  | [] => none
  | a :: rest =>
    match pickOffer rest with
    | none => some a
    | some b => if a.before b then some a else some b

/-- The offset the warp issues from (R147): the lowest among eligible threads, unless one has been passed over 64 times. -/
def Warp.selectPc (w : Warp) : Option Word :=
  let el := w.threads.filter Thread.eligible
  let starved := el.filter fun t => decide (t.passed ≥ 64)
  match starved with
  | [] => el.foldl (fun m t => match m with
      | none => some t.pc
      | some p => if t.pc.ult p then some t.pc else some p) none
  | _ =>
    let top := starved.foldl (fun m t => max m t.passed) 0
    (starved.filter fun t => t.passed == top).foldl (fun m t => match m with
      | none => some t.pc
      | some p => if t.pc.ult p then some t.pc else some p) none

/-- The lanes of a list in ascending order. -/
def insertLane (x : Nat) : List Nat → List Nat
  | [] => [x]
  | y :: rest => if x ≤ y then x :: y :: rest else y :: insertLane x rest

/-- The active lanes at an offset, ascending (R147). -/
def Warp.activeAt (w : Warp) (pc : Word) : List Nat :=
  (w.threads.filter fun t => t.eligible && t.pc == pc).foldl (fun l t => insertLane t.lane l) []

/-- The outcome of an issue opportunity before the instruction runs. -/
inductive Prep where
  /-- no warp can issue, or the fetch faulted -/
  | done (s : State)
  /-- the instruction of the warp at issue -/
  | run (i : Instr) (s : State)

/-- The words a fetch may yield: the present one and those fetched earlier (R248). -/
def Kernel.words (k : Kernel) (off : Nat) : List Word := (k.code.filter fun p => p.1 == off).map Prod.snd

/-- A fetched word remembered for later issues (R248). -/
def State.rememberWord (s : State) (b kn off : Nat) (w : Word) : State :=
  match s.bundle? b with
  | none => s
  | some x => s.setBundle b { x with kernels := modifyAt (fun k =>
      if k.code.contains (off, w) then k else { k with code := (off, w) :: k.code }) kn x.kernels }

/-- The outcome of a fetch (R248). -/
inductive Fetched where
  | word (s : State) (w : Word) (t : Trans)
  | miss (s : State) (m : Miss)
  | refused (s : State) (toRoot : Bool)
  /-- the data failed at their home, or the transfer on the network (R69, R128, R130) -/
  | failed (s : State) (cause : BitVec 8)
  /-- a remote miss of a KIND, at an address of a device (R39) -/
  | far (s : State) (dev : BitVec 12) (addr : Nat) (kind : BitVec 2)
  /-- the plane takes no packet now (R47) -/
  | waits (s : State)

/-- The word at an offset of a kernel, fetched now at its home, or from the device it lies on (R31, R57, R63, R66, R128, R248). An address
beyond 56 bits has EXEC clear. -/
def State.fetch (s0 : State) (ctx : Nat) (k : Kernel) (off : Word) : Fetched :=
  let va := k.codeBase.toNat + off.toNat
  let s := s0.walkFor ctx va
  if s.stall.isSome then .waits s
  else match s.lead 0x7000000 ctx va .fetch with
  | .miss m => .miss s m
  | .refused toRoot => .refused s toRoot
  | .ok t => match s.targetOf t va with
    | .here a inter w c =>
      if s.netFails a 4 then .failed s.tamperAlarmed Cause.cipherIntegrity
      else
        let o := (s.befallRange inter.toNat a 4).agentRead inter.toNat w c a 4
        match o.fail with
        | some cause => .failed o.s cause
        | none => .word o.s (BitVec.ofNat 32 (leNat o.bytes)) t
    | .away dev a w c =>
      match s.farGo ctx (fabricAddr dev a).toNat (blockRequest (s.subtreeOf ctx).1 w c a 4 none) with
      | .gone s1 => .word s1 (BitVec.ofNat 32 (leNat (s1.farBytes (fabricAddr dev a).toNat 4))) t
      | .waits s1 => .waits s1
      | .missed s1 kind => .far s1 dev a kind
      | .failed s1 cause => .failed s1 cause
    | _ => .refused s false

/-- The word an issue uses: the one fetched now, or any fetched earlier at this offset, by a free choice (R248). -/
def State.chooseWord (s : State) (k : Kernel) (off : Nat) (w : Word) : Word :=
  match (k.words off).filter fun x => x != w with
  | [] => w
  | olds => (olds[Config.pickNat s.freeCtr 0x7200000 % (olds.length + 1)]?).getD w

/-- A fetch whose data fail stops the context, imprecisely (R69, R128, R130; log 23). -/
def Focus.fetchFault (f : Focus) (cause : BitVec 8) (va : Nat) : State :=
  f.close.raiseHalt f.ctx (f.stopRec cause false (BitVec.ofNat 64 va) 0) false (some f.tid)

/-- The fetch and decoding for the warp at issue. -/
def State.fetchAndDecode (s : State) : Prep :=
  match s.focus? with
  | none => .done s
  | some f =>
    let va := f.k.codeBase.toNat + f.pc.toNat
    match s.fetch f.ctx f.k f.pc with
    | .miss s1 m => .done ({ f with s := s1 }.missed m (BitVec.ofNat 64 va))
    | .refused s1 toRoot => .done ({ f with s := s1 }.stopAt Cause.permission (BitVec.ofNat 64 va) 0 toRoot)
    | .failed s1 cause => .done ({ f with s := s1 }.fetchFault cause va)
    | .far s1 dev a kind => .done ({ f with s := s1 }.missed { ctx := f.ctx, addr := va, why := .far dev a kind } (BitVec.ofNat 64 va))
    | .waits s1 => .done s1
    | .word s1 now t =>
      let w := s.chooseWord f.k f.pc.toNat now
      let s2 := (s1.remember f.ctx va t).rememberWord f.tm.bundle f.tm.kernel f.pc.toNat now
      match decode w with
      | .ok i => .run i s2
      | .bad _ => .run .illegalInstruction s2

/-- The instruction of a warp made ready: its active set chosen, its word fetched and decoded. -/
def State.prepare (s : State) (t wn : Nat) (w : Warp) : Prep :=
  match w.selectPc with
  | none => .done s
  | some pc => State.fetchAndDecode { s with issue := some { team := t, warp := wn, active := w.activeAt pc, pc := pc } }

/-! ## Records kept up to date (R106, R144) -/

/-- The cores that hold a warp or a dispatcher record. -/
def State.busyCores (s : State) : List Nat :=
  let held : List Nat := s.teams.flatMap fun p => p.2.warps.map Warp.core
  let kept : List Nat := s.eng.disp.map fun p => p.1 / 4096
  (held ++ kept).eraseDups

/-- The contexts that are runnable on some slot of a core. -/
def State.runnableOn (s : State) (core : Nat) : List Nat := ((s.offers core).map Offer.ctx).eraseDups

/-- The dispatchers take note of the contexts that are runnable now. -/
def State.refreshDisp (s : State) : State :=
  { s with eng := { s.eng with disp := s.busyCores.foldl (fun t c => refreshPasses t c (s.runnableOn c)) s.eng.disp } }

/-- The link ports take note of the contexts that have traffic queued now, and the answers whose turn it is leave. -/
def State.refreshPorts (s : State) : State := (List.range 16).foldl State.refreshPort s

/-- The slots on which some warp can issue. -/
def State.readySlots (s : State) : List (Nat × Nat) :=
  s.teams.flatMap fun p => p.2.warps.filterMap fun w => if s.canIssue p.1 p.2 w then some (w.core, w.slot) else none

/-- The slot that takes the next opportunity when the agenda names none: the slots take turns. DESIGN CHOICE (log 4). -/
def State.readySlot (s : State) : Option (Nat × Nat) :=
  match s.readySlots with
  | [] => none
  | c :: rest => (c :: rest)[s.stamp % (rest.length + 1)]?

/-- An early fetch of a code word of a running bundle, in its turn: a later issue may use it (R106, R248). One that fails leaves nothing. -/
def State.prefetch (s : State) (b kn off : Nat) : State :=
  match s.bundle? b with
  | none => s
  | some x =>
    match ({ s with stall := none } : State).fetch x.ctx.toNat (x.kernels.getD kn {}) (BitVec.ofNat 32 off) with
    | .word s1 w _ => (s.attempt (s1.rememberWord b kn off w)).1
    | .waits s1 => (s.attempt s1).1
    | _ => s

/-! ## What the device does by itself -/

/-- The units of a warp's memory queue that may be performed, or sent to another device, next, as events. -/
def Warp.memEvents (w : Warp) (t wn : Nat) : List (Instr × Input) :=
  w.mem.flatMap fun r => (List.range r.units.length).filterMap fun u =>
    match r.units[u]? with
    | some x =>
      if x.done then none
      else match x.tgt with
        | .away _ _ _ _ => if x.sent then none else some (.remoteRequestSend, { unit := ⟨t, wn, r.id, u⟩ })
        | _ => some (.homePerform, { unit := ⟨t, wn, r.id, u⟩ })
    | none => none

/-- The event of a packet by its TYPE (R80, R129). -/
def Packet.event (p : Packet) : Instr :=
  match p.head % 256 with
  | 1 => .launch | 2 => .mboxPut | 3 => .mboxTake | 4 => .write | 5 => .faultDone | 6 => .flogAppend
  | 7 => .childCreate | 8 => .setShare | 9 => .freeze | 10 => .thaw | 11 => .checkpoint | 12 => .revoke
  | 13 => .preempt | 14 => .inval
  | 15 => if p.field 32 1 = 1 then .tensorDeclare else if p.field 32 1 = 2 then .tensorRevise else .tensorRetire
  | _ => .scrub

/-- A collective that needs nothing from another device: of one rank, or of several while the fabric is disabled (R30, R335). -/
def State.aloneColl (s : State) (o : CleOp) : Bool := leNat ((o.block.drop 0xC).take 2) == 1 || !s.fabric.enable

/-- Events the device may make next by itself, in the order it tries them when the agenda is empty. DESIGN CHOICE (log 4). -/
def State.ownEvents (s : State) : List (Instr × Input) :=
  (s.teams.flatMap fun p => (List.range p.2.warps.length).flatMap fun n =>
      (p.2.warp n).memEvents p.1 n ++ (List.range (p.2.warp n).pend.length).map fun k =>
        (.resultReturn, { team := p.1, warp := n, num := k }))
  ++ (s.eng.mxe.map fun o => (.mxeOperationComplete, { num := o.id }))
  ++ (s.eng.tce.map fun o => (.tceEntryComplete, { num := o.id }))
  ++ ((s.eng.cle.filter s.aloneColl).map fun o => (.collComplete, { num := o.id, coll := ⟨true, [], .leaf 0⟩ }))
  ++ (s.teams.flatMap fun p => [(.markedBranchRendezvous, { team := p.1 }), (.teamImageCommit, { team := p.1 }), (.teamReentry, { team := p.1 })])
  ++ (s.teams.flatMap fun p => (List.range p.2.warps.length).map fun n => (.zugzwangReentry, { team := p.1, warp := n }))
  ++ (s.rallocSlots.map fun p => (.zugzwangSwap, { core := BitVec.ofNat 8 p.1, coreSlot := BitVec.ofNat 2 p.2 }))
  ++ (s.eng.tce.map fun o => (.engineHaltStop, { engine := .tce o.id }))
  ++ (s.eng.mxe.map fun o => (.engineHaltStop, { engine := .mxe o.id }))
  ++ (s.eng.cle.map fun o => (.engineHaltStop, { engine := .cle o.id }))
  ++ (s.bundles.map fun p => (.bundleRetire, { num := p.1 }))
  ++ (s.queues.filterMap fun p => if p.2.waiting.isEmpty then none else some (.completionRecordWrite, { slot := BitVec.ofNat 10 p.1 }))
  ++ (s.ctxs.flatMap fun p =>
      (if p.2.hqWaiting.isEmpty then [] else [(.handlerRecordWrite, { ctx := BitVec.ofNat 12 p.1 })])
      ++ (if p.2.tempo.deferred.isEmpty then [] else [(.ripeEntryWrite, { ctx := BitVec.ofNat 12 p.1 })])
      ++ (p.2.bounce.flatMap fun b => [(.bchChunk, { ctx := BitVec.ofNat 12 p.1, ch := BitVec.ofNat 2 b.1, flag := true }),
            (.bchStatusRecord, { ctx := BitVec.ofNat 12 p.1, ch := BitVec.ofNat 2 b.1 })])
      ++ (if p.2.halt.isSome then [(.haltSaveComplete, { ctx := BitVec.ofNat 12 p.1 })] else []))
  ++ (s.queues.flatMap fun p => match p.2.cur with
      | some k => [(k.event, { slot := BitVec.ofNat 10 p.1, flag := true }), (.mboxWaitServed, { slot := BitVec.ofNat 10 p.1 })]
      | none => [(.packetStart, { slot := BitVec.ofNat 10 p.1 })])
  ++ (s.eng.cmds.flatMap fun c => [(.freezeComplete, { num := c.id }), (.revokeComplete, { num := c.id }), (.invalComplete, { num := c.id }),
      (.flogAppendCommit, { num := c.id }), (.checkpointCommit, { num := c.id })])
  ++ [(.teamPlace, ({} : Input)), (.hashMaskZeroingDone, ({} : Input)), (.cfgRunDone, ({} : Input))]

end Sys2Proof.Machine
end

