-- ==== Sys2Proof/Machine/Packets.lean ====
section
/-! DEFINITION. Packets (R77 to R80, R83 to R87): reading and checking the packet at RIDX, when it may start, and the packets MBOX_PUT,
MBOX_TAKE, WRITE, FAULT_DONE and FLOG_APPEND; completion and handler records (R88, R89, R120). -/

namespace Sys2Proof.Machine

/-! ## Malformed packets (R79) -/

/-- TYPE of a packet (R80). -/
def Packet.type (p : Packet) : Nat := p.head % 256
/-- FENCE of a packet (R80). -/
def Packet.fence (p : Packet) : Bool := p.head.testBit 9
/-- Bytes from one offset up to another are zero. -/
def Packet.zero (p : Packet) (lo hi : Nat) : Bool := ((p.bytes.drop lo).take (hi - lo)).all fun b => b == 0
/-- A 56-bit address field with its upper byte zero and its alignment. -/
def Packet.addrOk (p : Packet) (off al : Nat) : Bool := p.field off 8 < 0x100000000000000 && p.field off 8 % al == 0
/-- An address field with its alignment. -/
def Packet.aligned (p : Packet) (off al : Nat) : Bool := p.field off 8 % al == 0
/-- CONTEXT of a subtree packet (R108). -/
def Packet.context (p : Packet) : Nat := p.field 8 2
/-- ALL or BAR, bit 0 of byte 10 (R108). -/
def Packet.flag0 (p : Packet) : Bool := (p.field 10 1).testBit 0

/-- The fields of a packet lie within the limits of its type (R79, R81 to R87, R108, R129, R134). -/
def Packet.fieldsOk (p : Packet) (level : Nat) : Bool :=
  match p.type with
  | 0x01 => p.addrOk 8 256 && p.zero 16 64
  | 0x02 => true
  | 0x03 => p.field 16 8 % 8 == 0
  | 0x04 => 1 ≤ p.field 16 1 && p.field 16 1 ≤ 40 && p.zero 17 24 && p.zero (24 + p.field 16 1) 64
  | 0x05 => true
  | 0x06 => p.field 8 8 % 4096 == 0 && p.field 16 8 % 4096 == 0 && 1 ≤ p.field 24 4 && p.field 24 4 ≤ 65536
  | 0x07 =>
    let hq := p.field 16 8
    let q := p.field 24 4
    level < 3 && p.addrOk 8 4096 && hq % 4096 == 0 && 4 ≤ bits hq 60 56 && bits hq 60 56 ≤ 16 && hq < 0x2000000000000000
      && q < 0x200000 && bits q 20 10 ≤ 1024 && p.field 28 1 != 0 && p.field 29 1 != 0 && p.field 30 1 != 0 && p.zero 31 32
      && p.field 32 2 != 0 && p.field 34 2 < 4096 && 1 ≤ p.field 36 2 && p.field 36 2 + p.field 34 2 ≤ 4096 && p.zero 38 64
  | 0x08 => p.field 10 1 != 0 && p.field 11 1 != 0 && p.zero 12 64
  | 0x09 | 0x0A | 0x0C => p.field 10 1 ≤ 1 && p.zero 11 64
  | 0x0B =>
    p.zero 10 12 && p.field 12 4 ≤ 65535 && p.aligned 16 16 && p.aligned 24 4096 && p.aligned 40 4096 && p.aligned 48 4096 && p.field 56 8 != 0
  | 0x0D => p.field 10 1 ≤ 1 && p.zero 11 12 && 1 ≤ p.field 12 2 && p.field 12 2 ≤ 192 && p.zero 14 64
  | 0x0E => p.zero 10 16 && p.aligned 16 4096 && p.zero 32 64
  | 0x0F =>
    p.addrOk 8 65536 && p.field 16 8 % 65536 == 0 && p.field 16 8 != 0 && 1 ≤ p.field 32 1 && p.field 32 1 ≤ 3
      && (p.field 32 1 != 1 || p.field 24 4 != 0) && p.zero 33 64
  | 0x10 =>
    level == 0 && p.field 8 8 % 16 == 0 && 1 ≤ p.field 16 4 && p.field 16 4 ≤ 65535 && p.field 20 1 ≤ 2 && p.zero 21 24
      && p.field 24 8 % 4096 == 0 && p.zero 32 64
  | _ => false

/-- A packet is malformed (R79, R80). -/
def Packet.malformed (p : Packet) (level : Nat) : Bool := bits p.head 31 10 != 0 || !p.fieldsOk level

/-! ## Starting (R80, R111, R116, R117) -/

/-- A command in progress on a subtree: FREEZE, THAW, CHECKPOINT, PREEMPT or REVOKE (R116). -/
def Cmd.onSubtree (c : Cmd) : Bool :=
  match c.kind with
  | .inval _ _ | .flog _ _ | .scrub => false
  | _ => true

/-- A CHECKPOINT in progress. -/
def Cmd.isCheckpoint (c : Cmd) : Bool :=
  match c.kind with
  | .checkpoint _ _ _ => true
  | _ => false

/-- A subtree command that a new one on an overlapping subtree waits for: any, but that REVOKE does not wait for the CHECKPOINT it ends
(R116; log 30). -/
def Cmd.holdsBack (c : Cmd) (revoke : Bool) : Bool := c.onSubtree && !(revoke && c.isCheckpoint)

/-- A subtree packet waits for an earlier subtree command on an overlapping subtree (R116). -/
def State.subtreeBusy (s : State) (p : Packet) : Bool :=
  ([0x09, 0x0A, 0x0B, 0x0C, 0x0D].contains p.type) && s.eng.cmds.any fun c =>
    s.overlap c.ctx.toNat p.context && c.holdsBack (p.type == 0x0C)

/-- The world of a context runs packets: world 0, or a world whose owners' keys are held (R125). -/
def State.worldReady (s : State) (c : Nat) : Bool :=
  let w := (s.ctx c).world
  w == 0 || ((s.world w.toNat).live && (s.world w.toNat).key1 && (s.world w.toNat).key2)

/-- A halted context starts FAULT_DONE and the packets of TYPE 0x08 to 0x0E (R117). -/
def haltedStarts (ty : Nat) : Bool := ty == 5 || (8 ≤ ty && ty ≤ 14)

/-- THAW of a context halted and not yet reported (R112). -/
def State.thawWaits (s : State) (p : Packet) : Bool :=
  p.type == 0x0A && (match (s.ctx p.context).halt with | some h => !h.reported && !h.tamper | none => false)

/-- The packet read at RIDX of a queue may start (R23, R80, R111, R112, R116, R117, R125). A record that its ring does not take holds
back its own packet alone. DESIGN CHOICE (log 52): later packets of the queue start while it shows BLOCKED for that. -/
def State.mayStart (s : State) (q c : Nat) (p : Packet) : Bool :=
  let x := s.queue q
  (x.state == .run || x.state == .blocked) && !s.isFrozen c && s.worldReady c && !s.cfg.erased
    && (!s.isHalted c || haltedStarts p.type) && (!p.fence || x.open_.isEmpty) && !s.subtreeBusy p && !s.thawWaits p
    && !((p.type == 1 || p.type == 7) && s.power.phase != 4 && decide ((s.subtreeOf c).2.2.toNat > 1))

/-- The packet at RIDX starts: RIDX passes it, and it is outstanding (R78, R80, R93). -/
def State.beginPacket (s : State) (q c : Nat) (p : Packet) : State :=
  (s.modQueue q fun x => { x with ridx := x.ridx + 1, state := .run, cur := none, open_ := x.open_ ++ [p.index] }).modCtx c
    fun x => { x with started := true }

/-- The event of a packet: the one read at RIDX, of a type, starts when it may, with its effect on the state, the queue, the
packet and the issuing context. It waits while one of its accesses waits for its plane (R47). -/
def packetEvent (is : Packet → Bool) (eff : State → Nat → Packet → Nat → State) (s : State) : Host.Outcome State Fault Refusal :=
  throughLinks (fun s =>
    let q := s.input.slot.toNat
    match (s.queue q).cur, (s.queue q).owner with
    | some p, some c =>
      if is p && p.waits.isNone && s.mayStart q c.toNat p then .next (eff (s.beginPacket q c.toNat p) q p c.toNat) else .refused .noOccasion
    | _, _ => .refused .noOccasion) s

/-- A packet's type as a test. -/
def ofType (n : Nat) (p : Packet) : Bool := p.type == n

/-- A queue shows BLOCKED for the packet at RIDX. -/
def State.showBlocked (s : State) (q : Nat) : State := s.modQueue q fun y => { y with state := .blocked }

/-- The packet at RIDX read once and checked (R77 to R80). -/
def State.readPacket (s : State) (q c : Nat) : State :=
  let x := s.queue q
  let r := s.readVa c (ringAddr x.base + x.ridx.toNat % x.size * 64) 64
  match r.bytes with
  | none => r.s.queueError q Status.addrBad 0 x.ridx
  | some bs =>
    let p : Packet := { index := x.ridx, bytes := bs }
    if p.malformed (s.ctx c).level.toNat then r.s.queueError q Status.badPacket p.tag x.ridx
    else
      let s1 := r.s.modQueue q fun y => { y with cur := some p }
      if s1.mayStart q c p then s1 else s1.showBlocked q

/-- A queue looks at the packet at RIDX. -/
def lookAtPacket (s : State) : Host.Outcome State Fault Refusal :=
  let q := s.input.slot.toNat
  let x := s.queue q
  match x.owner with
  | none => .refused .noOccasion
  | some o =>
    let c := o.toNat
    if !(x.state == .run || x.state == .blocked) || x.ridx == x.widx || s.isFrozen c || s.cfg.erased then .refused .noOccasion
    else if let some p := x.cur then
      (if x.state == .run && !s.mayStart q c p then .next (s.showBlocked q) else .refused .noOccasion)
    else .next (s.readPacket q c)

/-- `PACKET_START` (R77 to R80): the packet at RIDX is read once and checked; one that may not start shows BLOCKED, and one that
may is started by its own event. -/
def execPacketStart (s : State) : Host.Outcome State Fault Refusal := throughLinks lookAtPacket s

/-! ## Mailboxes (R61, R83, R84) -/

/-- First local address of SBM. -/
def sbmBase : Nat := 0x80000000000

/-- Where a context's aligned address leads in this device's SBM, for an access (R83). DESIGN CHOICE (log 52): an address that leads to
another device's SBM is none. -/
def State.mailbox (s : State) (c va : Nat) (k : Access) : Option (Nat × Trans) :=
  if va % 8 ≠ 0 then none
  else match s.lead 0x9100000 c va k with
    | .ok t => match s.targetOf t va with
      | .here a _ _ _ => if regionOf a = .sbm then some (a - sbmBase, t) else none
      | _ => none
    | _ => none

/-- A mailbox packet whose ADDR or DEST cannot be reached completes ADDR_BAD (R83), with what the walk of either leaves; that of ADDR has
been made. -/
def State.refuseMailbox (s : State) (q c : Nat) (p : Packet) (dest : Bool) : State :=
  let s1 := s.beginPacket q c p
  let s2 := if dest then s1.writeFault c (piecesOf (p.field 16 8) 8)
    else if p.field 8 8 % 8 ≠ 0 then s1 else s1.cpxMissed 0x9100000 c (p.field 8 8)
  s2.complete q p Status.addrBad 0

/-- A packet waits for its word to be empty (PUT) or full (TAKE). -/
def Packet.wants (p : Packet) : Bool := p.type == 3

/-- A packet of the same kind waits on a word, since before a count. -/
def State.waitsBefore (s : State) (p : Packet) (word since : Nat) : Bool :=
  s.queues.any fun x => match x.2.cur with
    | some k => k.type == p.type && (match k.waits with | some (n, w) => w == word && decide (n < since) | none => false)
    | none => false

/-- The stop record of a mailbox word whose data fail: of the BALU (R69, R191). -/
def State.baluStop (s : State) (t : Trans) (a : Nat) (cause : BitVec 8) : StopRec :=
  { engine := 4, cause := cause, unit := BitVec.ofNat 16 (homeUnit (s.place t.inter.toNat a)), pcOrOp := s.fabric.deviceNum.setWidth 64
    addr := fabricAddr s.fabric.deviceNum a }

/-- A PUT or TAKE whose word or transfer fails: the context stops, and the packet completes ADDR_BAD (R69, R130; log 23). -/
def State.failMailbox (s : State) (q c : Nat) (p : Packet) (t : Trans) (a : Nat) (cause : BitVec 8) : State :=
  (s.raiseHalt c (s.baluStop t a cause) false none).complete q p Status.addrBad 0

/-- A TAKE's value delivered (R83). -/
def State.deliver (s : State) (q c : Nat) (p : Packet) (bs : List Byte) : State :=
  let v := BitVec.ofNat 128 (leNat bs)
  if p.field 16 8 = 0 then s.complete q p Status.ok v
  else
    let r := s.tryWrite c (p.field 16 8) bs
    r.s.complete q p (if r.ok then Status.ok else Status.addrBad) v

/-- A PUT or TAKE takes effect on its word (R61, R69, R83). -/
def State.serveMailbox (s : State) (q c : Nat) (p : Packet) (word : Nat) (t : Trans) : State :=
  let a := sbmBase + word
  let s1 := s.beginPacket q c p
  if s.netFails a 8 then (s1.failMailbox q c p t a Cause.cipherIntegrity).tamperAlarmed
  else
    let s2 := s1.befallRange t.inter.toNat a 8
    if p.type = 2 then
      let o := s2.homeWrite t.inter.toNat t.world t.comp a 0xFF (leBytes 8 (p.field 16 8)) false false
      ({ o.s with mem := o.s.mem.setFull word true }).complete q p Status.ok 0
    else
      let o := s2.agentRead t.inter.toNat t.world t.comp a 8
      match o.fail with
      | some cause => o.s.failMailbox q c p t a cause
      | none => ({ o.s with mem := o.s.mem.setFull word false }).deliver q c p o.bytes

/-- The walk of a mailbox packet's ADDR, for what it leaves. -/
def State.walkMailbox (s : State) (c : Nat) (p : Packet) : State := if p.field 8 8 % 8 ≠ 0 then s else s.walkFor c (p.field 8 8)

/-- A mailbox packet, its ADDR walked for: it fails, is served, or begins to wait (R83). -/
def State.tryMailbox (s : State) (k : Access) (destOk : State → Nat → Packet → Bool) (q c : Nat) (p : Packet) : State :=
  match s.mailbox c (p.field 8 8) k with
  | none => s.refuseMailbox q c p false
  | some (word, t) =>
    if !destOk s c p then s.refuseMailbox q c p true
    else if s.mem.isFull word == p.wants && !s.waitsBefore p word s.stamp then s.serveMailbox q c p word t
    else ({ s with stamp := s.stamp + 1 } : State).modQueue q fun x =>
      { x with state := .blocked, cur := some { p with waits := some (s.stamp, word) } }

/-- A mailbox packet at the head of its queue, when it may start (R83). -/
def mailboxOnce (k : Access) (destOk : State → Nat → Packet → Bool) (ty : Nat) (s : State) : Host.Outcome State Fault Refusal :=
  let q := s.input.slot.toNat
  match (s.queue q).cur, (s.queue q).owner with
  | some p, some o =>
    if !(ofType ty p) || p.waits.isSome || !s.mayStart q o.toNat p then .refused .noOccasion
    else .next ((s.walkMailbox o.toNat p).tryMailbox k destOk q o.toNat p)
  | _, _ => .refused .noOccasion

/-- The same, waiting while an access to another device waits for its plane (R47). -/
def mailboxEvent (k : Access) (destOk : State → Nat → Packet → Bool) (ty : Nat) (s : State) : Host.Outcome State Fault Refusal :=
  throughLinks (mailboxOnce k destOk ty) s

/-- `MBOX_PUT` (R61, R83, R84). -/
def execMboxPut (s : State) : Host.Outcome State Fault Refusal := mailboxEvent .store (fun _ _ _ => true) 2 s

/-- `MBOX_TAKE` (R61, R83, R84). -/
def execMboxTake (s : State) : Host.Outcome State Fault Refusal :=
  mailboxEvent .load (fun s c p => p.field 16 8 == 0 || s.canWrite c (p.field 16 8) 8) 3 s

/-- A mailbox packet that waited for a word, its ADDR walked for. DESIGN CHOICE (log 52): ADDR is translated again when the packet is
served, and one that leads elsewhere, or nowhere, completes ADDR_BAD. -/
def State.endWait (s : State) (q c : Nat) (p : Packet) (word : Nat) : State :=
  match s.mailbox c (p.field 8 8) (if p.type = 2 then .store else .load) with
  | some (w, t) => if w = word then s.serveMailbox q c p word t else (s.beginPacket q c p).complete q p Status.addrBad 0
  | none => s.refuseMailbox q c p false

/-- The waiting packet of a queue is served, when its word allows and no packet waits longer (R83). -/
def serveWaiting (s : State) : Host.Outcome State Fault Refusal :=
  let q := s.input.slot.toNat
  match (s.queue q).cur, (s.queue q).owner with
  | some p, some o =>
    match p.waits with
    | none => .refused .noOccasion
    | some (since, word) =>
      if s.mem.isFull word != p.wants || s.waitsBefore p word since || !s.mayStart q o.toNat p then .refused .noOccasion
      else .next ((s.walkMailbox o.toNat p).endWait q o.toNat p word)
  | _, _ => .refused .noOccasion

/-- `MBOX_WAIT_SERVED` (R83): the waiting packet of queue `slot` is served. -/
def execMboxWaitServed (s : State) : Host.Outcome State Fault Refusal := throughLinks serveWaiting s

/-! ## WRITE and FAULT_DONE (R85, R86) -/

/-- `WRITE` (R85). -/
def execWrite (s : State) : Host.Outcome State Fault Refusal :=
  packetEvent (ofType 4) (fun s q p c =>
    let r := s.tryWrite c (p.field 8 8) ((p.bytes.drop 24).take (p.field 16 1))
    r.s.complete q p (if r.ok then Status.ok else Status.addrBad) 0) s

/-- Context d is a child of c (R108). -/
def State.isChild (s : State) (c d : Nat) : Bool := (s.ctx d).live && (s.ctx d).level != 0 && (s.ctx d).parent.toNat == c

/-- Context d is a child of c, or c itself at level 0 (R86, R102, R117). -/
def State.childOrRoot (s : State) (c d : Nat) : Bool := s.isChild c d || (c == d && (s.ctx c).level == 0)

/-- `FAULT_DONE` (R86, R99). -/
def execFaultDone (s : State) : Host.Outcome State Fault Refusal :=
  packetEvent (ofType 5) (fun s q p c =>
    let d := p.context
    if !s.childOrRoot c d then s.complete q p Status.denied 0
    else match (s.ctx d).pending.find? fun f => f.seq.toNat == p.field 12 4 with
      | none => s.complete q p Status.stale 0
      | some f =>
        ((s.modCtx d fun x => { x with pending := x.pending.filter fun g => g.seq != f.seq }).returnTeam f.team).complete q p Status.ok 0) s

/-! ## FLOG_APPEND (R67, R87, R127) -/

/-- The flash page in service that a page address of a context leads to, through FLASH and WRITE (R22, R66, R87). -/
def State.flashPage (s : State) (c va : Nat) : Option (Nat × Trans) :=
  if va ≥ 0x100000000000000 then none
  else match s.translate 0x9200000 c va with
    | .ok t =>
      if t.flash && t.write && t.world == (s.ctx c).world && s.isOwn t.dev.toNat && s.power.flashOk.getLsbD (bits t.frame 41 41) then
        some (t.frame, t)
      else none
    | .error _ => none

/-- The pages of an append walked for one after another, up to the first that is no flash page, and whether all are. -/
def flashPages (c : Nat) : List Nat → State → State × Bool
  | [], s => (s, true)
  | va :: rest, s =>
    let s1 := s.walkFor c va
    if (s1.flashPage c va).isSome then flashPages c rest s1 else (s1.cpxMissed 0x9200000 c va, false)

/-- What the source of an append leaves: the state, and its pages unless one fails. -/
structure GotPages where
  s     : State
  pages : Option (List (List Byte))

/-- The source pages of an append, read one after another. -/
def readPages (c : Nat) : Nat → Nat → GotPages → GotPages
  | 0, _, g => g
  | n + 1, src, g =>
    match g.pages with
    | none => g
    | some ps =>
      let r := g.s.readVa c src 4096
      readPages c n (src + 4096) { s := r.s, pages := r.bytes.map fun b => ps ++ [b] }

/-- A command in progress added. -/
def State.addCmd (s : State) (k : CmdKind) (c : Nat) (queue : Option (Slot × Packet)) : State :=
  { s with eng := { s.eng with
      cmds := s.eng.cmds ++ [{ id := s.eng.nextId, kind := k, ctx := BitVec.ofNat 12 c, queue := queue }], nextId := s.eng.nextId + 1 } }

/-- A command in progress removed. -/
def State.dropCmd (s : State) (id : Nat) : State := { s with eng := { s.eng with cmds := s.eng.cmds.filter fun c => c.id != id } }

/-- The command of a number. -/
def State.cmd? (s : State) (id : Nat) : Option Cmd := s.eng.cmds.find? fun c => c.id == id

/-- The packet of a command completes, if a packet began it. -/
def State.completeCmd (s : State) (c : Cmd) (status : BitVec 8) (payload : BitVec 128) : State :=
  match c.queue with
  | some (q, p) => (s.dropCmd c.id).complete q.toNat p status payload
  | none => s.dropCmd c.id

/-- `FLOG_APPEND` (R87): the source is read, and the append waits for its commit. -/
def execFlogAppend (s : State) : Host.Outcome State Fault Refusal :=
  packetEvent (ofType 6) (fun s q p c =>
    let n := p.field 24 4
    let dst := p.field 8 8
    match flashPages c ((List.range n).map fun i => dst + 4096 * i) s with
    | (s1, false) => s1.complete q p Status.addrBad 0
    | (s1, true) =>
      let r := readPages c n (p.field 16 8) { s := s1, pages := some [] }
      match r.pages with
      | none => r.s.complete q p Status.addrBad 0
      | some pages => r.s.addCmd (.flog dst pages) c (some (BitVec.ofNat 10 q, p))) s

/-- One page committed: its bytes, and the key it is enciphered under (R67, R127). -/
def State.putFlashPage (s : State) (frame : Nat) (t : Trans) (bs : List Byte) : State :=
  let m := s.mem.write frame bs
  { s with mem := { m with
      flashKey := Table.put (frame / 4096) ((s.flashKeyOf t.world t.comp).getD {}) m.flashKey
      poison := Sparse.set false (poisonUnit frame) false m.poison } }

/-- The pages of an append committed, all of them flash pages. -/
def State.commitPages (c : Nat) : Nat → List (List Byte) → State → State
  | _, [], s => s
  | dst, p :: rest, s =>
    State.commitPages c (dst + 4096) rest (match s.flashPage c dst with
      | none => s
      | some (f, t) => s.putFlashPage f t p)

/-- The commit of an append of some pages at an address: with one that is no flash page any more, none is committed. -/
def State.commitFlog (s : State) (cmd : Cmd) (dst : Nat) (pages : List (List Byte)) : State :=
  match flashPages cmd.ctx.toNat ((List.range pages.length).map fun i => dst + 4096 * i) s with
  | (s1, false) => s1.completeCmd cmd Status.addrBad 0
  | (s1, true) =>
    let t := State.commitPages cmd.ctx.toNat dst pages s1
    ({ t with mem := { t.mem with appends := t.mem.appends + 1 } } : State).completeCmd cmd Status.ok (BitVec.ofNat 128 pages.length)

/-- The commit of the append of a number. -/
def commitAppend (s : State) : Host.Outcome State Fault Refusal :=
  match s.cmd? s.input.num with
  | none => .refused .noOccasion
  | some cmd =>
    match cmd.kind with
    | .flog dst pages => .next (if s.input.flag then s.completeCmd cmd Status.noSpace 0 else s.commitFlog cmd dst pages)
    | _ => .refused .noOccasion

/-- `FLOG_APPEND_COMMIT` (R67, R87): the new page map in one step; `flag` says that free flash is lacking. -/
def execFlogAppendCommit (s : State) : Host.Outcome State Fault Refusal := throughLinks commitAppend s

/-! ## Records (R88, R89, R120) -/

/-- The 32 bytes of a completion record (R88). -/
def CRec.bytes (r : CRec) (phase : Bool) : List Byte :=
  leBytes 4 (r.kind.toNat + at_ 8 r.status.toNat + at_ 16 r.queue.toNat + at_ 31 (bitNat phase)) ++ leBytes 4 r.tag.toNat
    ++ leBytes 4 r.userTag.toNat ++ leBytes 4 r.index.toNat ++ leBytes 16 r.payload.toNat

/-- A retired bundle whose record is written is gone, and its LAUNCH completes (R82). -/
def State.retired (s : State) (q : Nat) (index : Word) (status : BitVec 8) : State :=
  match s.bundles.find? fun b => b.2.queue.toNat == q && b.2.index == index && b.2.retiring with
  | none => s
  | some (n, b) =>
    let s1 := { s with bundles := Table.drop n s.bundles }
    if b.cpl then
      s1.pushRec q { kind := 1, status := status, queue := b.queue, tag := b.tag, userTag := 0, index := index, payload := 0, pkt := some (q, index.toNat) }
    else s1.closePacket q index

/-- The ring of slot q with a record more (R88). -/
def Queue.wrote (x : Queue) : Queue :=
  let w := x.crWrite + 1
  { x with waiting := x.waiting.drop 1, crWrite := w, crFlip := if w.toNat % 2 ^ x.crLog2.toNat = 0 then !x.crFlip else x.crFlip }

/-- The oldest record waiting for ring `slot` is written, and its packet completes. -/
def writeRecord (s : State) : Host.Outcome State Fault Refusal :=
  let q := s.input.slot.toNat
  let x := s.queue q
  match x.waiting, x.owner with
  | r :: _, some c =>
    if !s.ringTakes q 0 then .refused .noOccasion
    else
      let s1 := (s.writeRecordVa c.toNat (x.recPlace x.crWrite) (r.bytes (!x.crFlip))).modQueue q Queue.wrote
      let s2 :=
        if r.kind = 2 then s1.retired r.queue.toNat r.index r.status
        else match r.pkt with
          | some (p, _) => s1.closePacket p r.index
          | none => s1
      .next s2.wakeAll
  | _, _ => .refused .noOccasion

/-- `COMPLETION_RECORD_WRITE` (R82, R88, R89): the oldest record waiting for ring `slot` is written, and its packet completes. -/
def execCompletionRecordWrite (s : State) : Host.Outcome State Fault Refusal := throughLinks writeRecord s

/-- `BUNDLE_RETIRE` (R82): every team of bundle `num` has exited and drained. -/
def execBundleRetire (s : State) : Host.Outcome State Fault Refusal :=
  match s.bundle? s.input.num with
  | none => .refused .noOccasion
  | some b =>
    if b.retiring || !(b.kernels.all fun k => k.total ≤ k.nextTeam) || (s.teams.any fun t => t.2.bundle == s.input.num) then .refused .noOccasion
    else
      .next ((s.setBundle s.input.num { b with retiring := true }).pushRec b.ring.toNat
        { kind := 2, status := Status.ok, queue := b.queue, tag := b.tag, userTag := 0, index := b.index, payload := 0
          pkt := some (b.queue.toNat, b.index.toNat) })

/-- The 64 bytes of a handler record (R120). -/
def HRec.bytes (r : HRec) (phase : Bool) : List Byte :=
  leBytes 4 (r.kind.toNat + at_ 8 r.cause.toNat + at_ 16 r.stage.toNat + at_ 31 (bitNat phase)) ++ leBytes 4 r.userTag.toNat
    ++ leBytes 2 r.ctx.toNat ++ leBytes 2 r.origin.toNat ++ leBytes 4 r.seq.toNat ++ leBytes 8 r.addr.toNat ++ leBytes 8 r.image.toNat
    ++ leBytes 8 r.pc.toNat ++ leBytes 4 r.team.toNat ++ List.replicate 20 0

/-- The context in whose memory a child's handler queue and save area lie; none for a root, whose handler is the host. -/
def State.handlerOf (s : State) (c : Nat) : Option Nat := if (s.ctx c).level = 0 then none else some (s.ctx c).parent.toNat

/-- HQ_READ of a context's handler queue, and what reading it leaves (R93, R120). -/
def State.hqRead (s : State) (c : Nat) : State × Option Word :=
  let x := s.ctx c
  match s.handlerOf c with
  | none => (s, some x.hqRead)
  | some h =>
    let r := s.readVa h (x.hqBase.toNat + 64 * 2 ^ x.hqLog2.toNat) 8
    (r.s, r.bytes.map fun bs => BitVec.ofNat 32 (leNat bs))

/-- The place of the next handler record. -/
def State.hqPlace (s : State) (c : Nat) : Nat :=
  let x := s.ctx c
  x.hqBase.toNat + x.hqWrite.toNat % 2 ^ x.hqLog2.toNat * 64

/-- The handler queue, whose HQ_READ is r, has room, and its place may be written (R93, R120). -/
def State.hqTakes (s : State) (c : Nat) (r : Word) : Bool :=
  let x := s.ctx c
  logOk x.hqLog2 && decide ((x.hqWrite - r).toNat < 2 ^ x.hqLog2.toNat) && (match s.handlerOf c with
    | none => true
    | some h => s.canWrite h (s.hqPlace c) 64)

/-- A record written to a handler's memory: the host's for a root, the parent's for a child. -/
def State.writeHandler (s : State) (c va : Nat) (bs : List Byte) : State :=
  match s.handlerOf c with
  | none => { s with mem := s.mem.writeHost va bs }
  | some h => s.writeRecordVa h va bs

/-- A handler queue with its oldest waiting record written. -/
def Ctx.hqWrote (x : Ctx) : Ctx :=
  let w := x.hqWrite + 1
  { x with hqWaiting := x.hqWaiting.drop 1, hqWrite := w, hqFlip := if w.toNat % 2 ^ x.hqLog2.toNat = 0 then !x.hqFlip else x.hqFlip }

/-- The halt a KIND 2 record reports is reported (R112, R192). -/
def State.reported (s : State) (r : HRec) : State :=
  if r.kind = 2 then s.modCtx r.ctx.toNat fun x => { x with halt := x.halt.map fun h => { h with reported := true } } else s

/-- The oldest record waiting for the handler queue of context `ctx` is written. -/
def writeHandlerRecord (s : State) : Host.Outcome State Fault Refusal :=
  let c := s.input.ctx.toNat
  match (s.ctx c).hqWaiting with
  | [] => .refused .noOccasion
  | r :: _ =>
    match s.hqRead c with
    | (s1, none) => if s1.stall.isSome then .next s1 else .refused .noOccasion
    | (s1, some i) =>
      if !s1.hqTakes c i then .refused .noOccasion
      else .next (((s1.writeHandler c (s1.hqPlace c) (r.bytes (!(s1.ctx c).hqFlip))).modCtx c Ctx.hqWrote).reported r)

/-- `HANDLER_RECORD_WRITE` (R120): the oldest record waiting for the handler queue of context `ctx` is written. -/
def execHandlerRecordWrite (s : State) : Host.Outcome State Fault Refusal := throughLinks writeHandlerRecord s

end Sys2Proof.Machine
end

