-- ==== Sys2Proof/Machine/Image.lean ====
section
/-! DEFINITION. Save images (R149, R193, R194, R198 to R205): the safe-point table, warp records, the body and its coding, the header, and
what a re-entering team takes from its image. -/

namespace Sys2Proof.Machine

/-! ## Bytes -/

/-- Bytes padded with zeros to a multiple of n. -/
def padTo (n : Nat) (bs : List Byte) : List Byte := bs ++ List.replicate ((n - bs.length % n) % n) 0

/-- The blocks of 256 bytes of a body whose length is a multiple of 256. -/
def blocks256 : Nat → List Byte → List (List Byte)
  | 0, _ => []
  | n + 1, bs => bs.take 256 :: blocks256 n (bs.drop 256)

/-- A block's header and payload (R202). -/
def codeBlock (b : List Byte) : Nat × List Byte :=
  if b.all fun x => x == 0 then (0, [])
  else if (List.range 63).all fun i => (b.drop (4 * i)).take 4 == (b.drop (4 * i + 4)).take 4 then (1, b.take 4)
  else (2, b)

/-- A body's blocks coded in groups of four (R202). -/
def codeGroups : Nat → List (List Byte) → List Byte
  | 0, _ => []
  | n + 1, bs =>
    if bs.isEmpty then []
    else
      let cs := (bs.take 4).map codeBlock
      let head := (List.range cs.length).foldl (fun h j => h + 4 ^ j * (cs.getD j (0, [])).1) 0
      BitVec.ofNat 8 head :: (cs.flatMap Prod.snd ++ codeGroups n (bs.drop 4))

/-- A body coded (R202). -/
def codeBody (bs : List Byte) : List Byte := codeGroups (bs.length / 1024 + 1) (blocks256 (bs.length / 256) bs)

/-- The next n blocks of one group decoded, and the bytes left; none where the payload is cut off (R202, R205). -/
def decodeGroup (h : Nat) : Nat → List Byte → Option (List Byte × List Byte)
  | 0, bs => some ([], bs)
  | n + 1, bs =>
    let go (len : Nat) (out : List Byte) : Option (List Byte × List Byte) :=
      if bs.length < len then none
      else match decodeGroup (h / 4) n (bs.drop len) with
        | some (more, left) => some (out ++ more, left)
        | none => none
    match h % 4 with
    | 0 => go 0 (List.replicate 256 0)
    | 1 => go 4 (List.replicate 64 (bs.take 4)).flatten
    | 2 => go 256 (bs.take 256)
    | _ => none

/-- A group's header names no block of header 3, which fails the resume (R205). -/
def groupOk (h : Nat) : Bool := (List.range 4).all fun j => h / 4 ^ j % 4 != 3

/-- The first blocks of a coded body decoded, `n` of them in at most `fuel` groups; none where the body does not reach that far
(R205). -/
def decodeBody : Nat → Nat → List Byte → Option (List Byte)
  | 0, _, _ => some []
  | fuel + 1, n, bs =>
    if n = 0 then some []
    else match bs with
      | [] => none
      | h :: rest =>
        if !groupOk h.toNat then none
        else match decodeGroup h.toNat (min 4 n) rest with
          | none => none
          | some (out, left) => match decodeBody fuel (n - 4) left with
            | some more => some (out ++ more)
            | none => none

/-- The bytes of a body of a size, a multiple of 256, decoded. -/
def decodeSized (size : Nat) (bs : List Byte) : Option (List Byte) := decodeBody (size / 1024 + 1) (size / 256) bs

/-! ## The safe-point table (R193, R194) -/

/-- A safe-point entry. -/
structure SptEntry where
  vec   : BitVec 128
  uni   : BitVec 128
  preds : Byte
  tiles : BitVec 16
  accs  : BitVec 16
  remat : Nat

/-- What the context-save engine takes of an entry for a warp's window; none where it writes a full image (R194). -/
def sptEntryOf (bs : List Byte) (window : Nat) : Option SptEntry :=
  let f (off n : Nat) : Nat := leNat ((bs.drop off).take n)
  if f 33 1 != 1 || f 39 1 != 0 || f 44 4 != 0 || f 38 1 != window then none
  else some { vec := BitVec.ofNat 128 (f 0 16), uni := BitVec.ofNat 128 (f 16 16), preds := BitVec.ofNat 8 (f 32 1)
              tiles := BitVec.ofNat 16 (f 34 2), accs := BitVec.ofNat 16 (f 36 2), remat := f 40 4 }

/-- Entry i as the context-save engine reads it for a warp's window (R194), and what the read leaves. -/
def State.sptEntry (s : State) (ctx : Nat) (k : Kernel) (i window : Nat) : State × Option SptEntry :=
  if i ≥ k.sptCount then (s, none)
  else
    let r := s.readVa ctx (k.sptTable.toNat + 48 * i) 48
    (r.s, r.bytes.bind fun bs => sptEntryOf bs window)

/-- The index at which all threads left of a warp are parked (R196). -/
def Warp.oneSpt (w : Warp) : Option Nat :=
  match w.threads.filter Thread.alive with
  | [] => none
  | t :: rest => match t.park with
    | .spt i => if rest.all fun x => x.park == .spt i then some i else none
    | _ => none

/-- The safe-point entry that a warp's record takes; none for a full record. -/
def State.warpEntry (s : State) (ctx : Nat) (k : Kernel) (full : Bool) (w : Warp) : State × Option (Nat × SptEntry) :=
  if full || w.zug.isSome then (s, none)
  else match w.oneSpt with
    | none => (s, none)
    | some i =>
      let r := s.sptEntry ctx k i w.window
      (r.1, r.2.map fun e => (i, e))

/-- The entries of the warps of a team, read one after another. -/
def State.warpEntries (ctx : Nat) (k : Kernel) (full : Bool) : List Warp → State → State × List (Option (Nat × SptEntry))
  | [], s => (s, [])
  | w :: rest, s =>
    let r := s.warpEntry ctx k full w
    let q := State.warpEntries ctx k full rest r.1
    (q.1, r.2 :: q.2)

/-! ## Warp records (R200, R201) -/

/-- PARK (R200). A thread that waits to exit is saved at its `exit`, not parked. DEDUCED (log 29). -/
def Park.code : Park → Nat
  | .none => 0 | .spt _ => 1 | .bar _ => 2 | .gate _ => 3 | .gpw => 4 | .wait _ => 5 | .marked _ => 6 | .cpost => 7
  | .ralloc => 8 | .dfree => 9 | .exiting => 0 | .exited => 10

/-- The allocated indices of the vector registers a record holds, ascending. -/
def Warp.savedRegs (w : Warp) (i : WarpImg) : List Nat :=
  if i.full then List.range (w.pages * 32) else ((List.range 128).filter fun j => i.vec.getLsbD j).map fun j => w.window * 8 + j

/-- The captured offsets a record holds (R200). -/
def Warp.savedDyn (w : Warp) (stage : Nat) : List (Nat × Nat × DWord) := w.dyn.filter fun d => decide (d.1 > stage)

/-- The eight bytes of a lane. -/
def Warp.laneBytes (w : Warp) (lanes : Nat) (preds : Byte) (l : Nat) : List Byte :=
  if l ≥ lanes then List.replicate 8 0
  else match w.thread? l with
    | none => [0, 0, 0, 0, 0, 0, 10, 0]
    | some t => leBytes 4 t.pc.toNat ++ [BitVec.ofNat 8 t.passed, t.preds &&& preds &&& 0xFE, BitVec.ofNat 8 t.park.code, 0]

/-- Lanes whose thread a test admits, as a mask. -/
def Warp.lanesOf (w : Warp) (p : Thread → Bool) : Nat := (w.threads.filter p).foldl (fun m t => m + 2 ^ t.lane) 0

/-- The VALUES of a record: uniform registers, vector registers, captured offsets. -/
def Warp.valueBytes (w : Warp) (i : WarpImg) (stage : Nat) : List Byte :=
  padTo 64 (((List.range 128).filter fun j => i.uni.getLsbD j).flatMap fun j => leBytes 4 (w.uRaw j).toNat)
    ++ ((w.savedRegs i).flatMap fun r => (List.range 64).flatMap fun l => leBytes 4 (w.vRaw l r).toNat)
    ++ ((w.savedDyn stage).flatMap fun d => leBytes 8 d.2.2.toNat)

/-- A warp record (R200). -/
def Warp.record (w : Warp) (wn : Nat) (k : Kernel) (stage : Nat) (i : WarpImg) (remat : Nat) (preds : Byte) : List Byte :=
  padTo 256
    (leBytes 2 wn ++ leBytes 1 (bitNat i.full) ++ leBytes 1 k.width ++ leBytes 4 i.spt ++ leBytes 4 remat ++ leBytes 1 w.window
      ++ leBytes 1 w.pages ++ leBytes 1 w.rsec ++ leBytes 1 (bitNat (decide (w.cstage > stage)) + at_ 1 (bitNat w.skipWatch))
      ++ leBytes 8 w.issues.toNat ++ leBytes 2 w.plyLeft ++ leBytes 2 (w.savedDyn stage).length ++ leBytes 4 w.userTag.toNat
      ++ (w.tokens.flatMap fun n => leBytes 1 n) ++ leBytes 8 (w.lanesOf Thread.alive) ++ leBytes 8 w.active.toNat
      ++ leBytes 4 w.cstage ++ leBytes 4 0 ++ ((List.range 64).flatMap (w.laneBytes k.lanes preds))
      ++ ((List.range 16).flatMap fun b => leBytes 8 (w.lanesOf fun t => t.alive && t.arrived.getLsbD b))
      ++ leBytes 16 i.vec.toNat ++ leBytes 16 i.uni.toNat ++ w.valueBytes i stage)

/-- What a warp's record keeps, its REMAT and its predicate mask. -/
def recordPlan (e : Option (Nat × SptEntry)) (stage : Nat) (w : Warp) : WarpImg × Nat × Byte :=
  match e with
  | some (i, x) => ({ full := false, dyns := (w.savedDyn stage).length, spt := i, vec := x.vec, uni := x.uni }, x.remat, x.preds)
  | none => ({ full := true, dyns := (w.savedDyn stage).length, spt := (w.oneSpt).getD 0, vec := BitVec.allOnes 128, uni := BitVec.allOnes 128 }, 0xFFFFFFFF, 0xFF)

/-! ## Images (R199, R201) -/

/-- The fields of a header. -/
structure ImgHead where
  cause  : BitVec 8 := 0
  pair   : Bool := false
  team   : Nat := 0xFFFFFFFF
  ctx    : Nat := 0
  warps  : Nat := 0
  body   : Nat := 0
  phase  : BitVec 16 := 0
  stage  : Nat := 0
  dirty  : Nat := 0
  accs   : BitVec 16 := 0
  tiles  : BitVec 16 := 0

/-- The 128 bytes of a header, committed and not chained. -/
def ImgHead.bytes (h : ImgHead) : List Byte :=
  leBytes 2 1 ++ leBytes 1 h.cause.toNat ++ leBytes 1 (bitNat h.pair) ++ leBytes 4 h.team ++ leBytes 2 h.ctx ++ leBytes 2 h.warps
    ++ leBytes 4 h.body ++ leBytes 8 0 ++ leBytes 2 0 ++ leBytes 2 h.phase.toNat ++ leBytes 2 h.stage ++ leBytes 2 0 ++ leBytes 24 h.dirty
    ++ leBytes 2 h.accs.toNat ++ leBytes 2 h.tiles.toNat ++ leBytes 4 0 ++ leBytes 8 0 ++ leBytes 8 1 ++ leBytes 48 0

/-- The low n bits set. -/
def lowBits (n : Nat) : BitVec 16 := BitVec.ofNat 16 (2 ^ n - 1)

/-- Halves of a team: one core, or two. -/
def Kernel.halves (k : Kernel) : List Nat := if k.pair then [0, 1] else [0]

/-- Registers of a mask, ascending. -/
def maskList (m : BitVec 16) : List Nat := (List.range 16).filter fun i => m.getLsbD i

/-- The sections after the warp records: tiles, accumulators, granules (R201). -/
def Team.sections (tm : Team) (k : Kernel) (tiles accs : BitVec 16) : List Byte :=
  (k.halves.flatMap fun h => padTo 256 ((maskList tiles).flatMap fun t => leBytes 16 (tm.tile h t).toNat))
    ++ (k.halves.flatMap fun h => (maskList accs).flatMap fun a => (List.range 4096).flatMap fun i => leBytes 4 (tm.acc h a i).toNat)
    ++ (tm.dirty.flatMap fun d => tm.spmRead (4096 * d.1) 4096)

/-- TILE_SAVED or ACC_SAVED: every allocated register when a warp takes a full image, else the union of the entries' masks (R201). -/
def savedMask (es : List (Option (Nat × SptEntry))) (all : Nat) (live : SptEntry → BitVec 16) : BitVec 16 :=
  if es.any Option.isNone then lowBits all else es.foldl (fun m e => m ||| (e.map fun x => live x.2).getD 0) 0

/-- What forming a team's image leaves: the state, the team with what its image keeps noted, and the image's bytes. -/
structure Imaged where
  s     : State
  tm    : Team
  bytes : List Byte

/-- The image of a team; `full` asks for full records (R148, R196, R201). -/
def State.teamImage (s : State) (tm : Team) (full : Bool) (cause : BitVec 8) : Imaged :=
  let k := s.kernelOf tm
  let ctx := s.ctxOf tm
  let (s1, es) := State.warpEntries ctx k full tm.warps s
  let tiles := savedMask es k.tiles SptEntry.tiles
  let accs := savedMask es k.accs SptEntry.accs
  let plan (n : Nat) : WarpImg × Nat × Byte := recordPlan (es.getD n none) tm.stage (tm.warp n)
  let recs := (List.range tm.warps.length).flatMap fun n => (tm.warp n).record n k tm.stage (plan n).1 (plan n).2.1 (plan n).2.2
  let body := codeBody (recs ++ tm.sections k tiles accs)
  let head : ImgHead :=
    { cause := cause, pair := k.pair, team := tm.index, ctx := ctx, warps := tm.warps.length, body := body.length, phase := tm.phase
      stage := tm.stage, dirty := tm.dirty.foldl (fun m d => m + 2 ^ d.1) 0, accs := accs, tiles := tiles }
  let ws := (List.range tm.warps.length).map fun n => { tm.warp n with img := (plan n).1, zug := none }
  { s := s1, tm := { tm with tileSaved := tiles, accSaved := accs, warps := ws }, bytes := head.bytes ++ body }

/-! ## Save areas (R198) -/

/-- Bytes of a save area, none where LOG2 leaves no area. -/
def Ctx.areaBytes (c : Ctx) : Nat := if 20 ≤ c.saveLog2.toNat && c.saveLog2.toNat ≤ 40 then 2 ^ c.saveLog2.toNat else 0

/-- The handler's address of a position in a context's save area. -/
def Ctx.areaVa (c : Ctx) (pos : Nat) : Nat := c.saveBase.toNat - c.saveBase.toNat % 4096 + pos

/-- What a save area holds: the images, and the stop records of a halt (R192, R198). -/
def Ctx.held (c : Ctx) : List (Nat × Nat) := c.images ++ (c.halt.map Halt.extra).getD []

/-- n bytes at a position are inside the area and free. -/
def Ctx.areaFree (c : Ctx) (pos n : Nat) : Bool :=
  pos % 4096 == 0 && pos + n ≤ c.areaBytes && c.held.all fun i => decide (pos + n ≤ i.1) || decide (i.1 + i.2 ≤ pos)

/-- A position for n bytes: the one wished for, or the lowest free one (R192, R198; log 14). -/
def Ctx.areaPos (c : Ctx) (n wish : Nat) : Option Nat :=
  if c.areaFree wish n then some wish
  else
    let ends := 0 :: c.held.map fun i => i.1 + (i.2 + 4095) / 4096 * 4096
    (ends.filter fun p => c.areaFree p n).foldl (fun m p => match m with
      | none => some p
      | some x => some (min x p)) none

/-- What a piece of the save area of a root context at a local address leaves whose data, or whose transfer, fail (R69, R128, R130). -/
def State.rootFault (s : State) (c a : Nat) (cause : BitVec 8) : State := s.cpxFault c cause (fabricAddr s.fabric.deviceNum a)

/-- One piece of the save area of a root context, which lies in this device's memory, read under the plain pattern and the tags of the
root's world (R68, R130; log 7). -/
def State.rootPiece (s : State) (c : Nat) (p : Nat × Nat) : Got :=
  if s.netFails p.1 p.2 then { s := (s.rootFault c p.1 Cause.cipherIntegrity).tamperAlarmed }
  else
    let o := (s.befallRange plainPattern p.1 p.2).homeRead plainPattern (s.ctx c).world 0 p.1 p.2
    match o.fail with
    | some cause => { s := o.s.rootFault c p.1 cause }
    | none => { s := o.s, bytes := some o.bytes }

/-- Pieces of it read one after another. -/
def readRoot (c : Nat) : List (Nat × Nat) → Got → Got
  | [], g => g
  | p :: rest, g =>
    match g.bytes with
    | none => g
    | some bs =>
      let x := g.s.rootPiece c p
      readRoot c rest { x with bytes := x.bytes.map fun y => bs ++ y }

/-- One piece of it written; `whole` is the range written with it, address and bytes. -/
def State.putRootPiece (s : State) (c : Nat) (p : Nat × Nat) (bs : List Byte) (whole : Nat × Nat) : Put :=
  if s.netFails p.1 p.2 then { s := (s.rootFault c p.1 Cause.cipherIntegrity).tamperAlarmed, ok := false }
  else
    let o := (s.befallRange plainPattern p.1 p.2).homeWrite plainPattern (s.ctx c).world 0 p.1 0xFF bs (unitIn (regionOf p.1) whole.1 whole.2 p.1)
      (lineIn whole.1 whole.2 p.1)
    match o.fail with
    | some cause => { s := o.s.rootFault c p.1 cause, ok := false }
    | none => { s := o.s }

/-- Pieces of it written one after another. -/
def writeRoot (c : Nat) (whole : Nat × Nat) : List (Nat × Nat) → List Byte → Put → Put
  | [], _, r => r
  | p :: rest, bs, r =>
    let x := r.s.putRootPiece c p (bs.take p.2) whole
    writeRoot c whole rest (bs.drop p.2) { x with ok := r.ok && x.ok }

/-- Why a save is not made: the bytes at a position of the save area are unwritable, or the area lacks room. -/
abbrev SaveFail := Option (Nat × List Byte)

/-- Bytes written to the save area of a context at a position: through its parent's translation, or at a local address for a
root (R198). -/
def State.savePut (s : State) (c pos : Nat) (bs : List Byte) : Put :=
  let va := (s.ctx c).areaVa pos
  match s.handlerOf c with
  | some h => s.tryWrite h va bs
  | none =>
    if inMemory va bs.length then writeRoot c (va, bs.length) (piecesOf va bs.length) bs { s := s } else { s := s, ok := false }

/-- The same as a step of a save. -/
def State.saveWrite (s : State) (c pos : Nat) (bs : List Byte) : Except SaveFail State :=
  if (s.savePut c pos bs).ok then .ok (s.savePut c pos bs).s else .error (some (pos, bs))

/-- Something befalls the accesses of the event at hand. -/
def State.befallen (s : State) : Bool := !(s.input.hits.isEmpty && s.input.farHits.isEmpty && s.input.refusing.isEmpty)

/-- A save of a context that fails is not made, and waits; what befalls the failing write happens (R39, R69, R128, R130; log 23). -/
def State.notSaved (s : State) (c : Nat) (f : SaveFail) : Host.Outcome State Fault Refusal :=
  match f with
  | some (pos, bs) => if s.befallen then .next (s.savePut c pos bs).s else .refused .noOccasion
  | none => .refused .noOccasion

/-- Bytes read from the save area of a context at a position. -/
def State.saveRead (s : State) (c pos n : Nat) : Got :=
  let va := (s.ctx c).areaVa pos
  match s.handlerOf c with
  | some h => s.readVa h va n
  | none => if inMemory va n then readRoot c (piecesOf va n) { s := s, bytes := some [] } else { s := s }

/-- An image written at a position of its context's save area and held there (R198). -/
def State.holdImage (s : State) (c pos : Nat) (bs : List Byte) : Except SaveFail State :=
  (s.saveWrite c pos bs).map fun t => t.modCtx c fun x => { x with images := x.images ++ [(pos, bs.length)] }

/-- The space of an image freed (R198). -/
def State.freeImage (s : State) (c pos : Nat) : State :=
  s.modCtx c fun x => { x with images := x.images.filter fun i => i.1 != pos }

/-! ## Restoring (R203 to R205) -/

/-- Bytes of a warp's record (R200). -/
def Warp.recordSize (w : Warp) : Nat :=
  let unis := ((List.range 128).filter fun j => w.img.uni.getLsbD j).length
  let n := 0x2E0 + (4 * unis + 63) / 64 * 64 + 256 * (w.savedRegs w.img).length + 8 * w.img.dyns
  (n + 255) / 256 * 256

/-- Bytes of a team's whole body. -/
def Team.bodySize (tm : Team) (k : Kernel) : Nat :=
  let halves := k.halves.length
  (tm.warps.map fun w => w.recordSize).sum + halves * ((16 * (maskList tm.tileSaved).length + 255) / 256 * 256)
    + halves * (maskList tm.accSaved).length * 16384 + 4096 * tm.dirty.length

/-- A thread as its record restores it: an edited PC starts it unparked; one parked at a safe point goes to its rebuild stub or
on; others park again (R203, R204). -/
def Thread.restore (t : Thread) (lane8 : List Byte) (remat : Option Nat) (arrived : BitVec 16) (regs : List (Nat × Word)) : Thread :=
  let f (off n : Nat) : Nat := leNat ((lane8.drop off).take n)
  let pc := BitVec.ofNat 32 (f 0 4)
  let t1 := { t with preds := BitVec.ofNat 8 (f 5 1) &&& 0xFE, arrived := arrived, regs := regs }
  if !t.alive then t1
  else if pc != t.pc then { t1 with pc := pc, park := .none }
  else match t.park with
    | .spt _ => { t1 with park := .none, pc := match remat with | some r => BitVec.ofNat 32 r | none => t.pc }
    | .exiting => { t1 with park := .none }
    | _ => t1

/-- The saved values of one lane's registers. -/
def laneRegs (regs : List Nat) (vals : List Byte) (lane : Nat) : List (Nat × Word) :=
  (List.range regs.length).foldl (fun m j => Sparse.set 0 (regs.getD j 0) (BitVec.ofNat 32 (leNat ((vals.drop (256 * j + 4 * lane)).take 4))) m) []

/-- A warp as its record restores it (R200, R203, R204), captured offsets of stages reached since left out; none for a saved PC that is not a multiple of 4 (R205). -/
def Warp.restore (w : Warp) (k : Kernel) (stage : Nat) (rec' : List Byte) : Option Warp :=
  let f (off n : Nat) : Nat := leNat ((rec'.drop off).take n)
  if (List.range k.lanes).any fun l => f (0x40 + 8 * l) 4 % 4 != 0 then none
  else
    let unis := (List.range 128).filter fun j => w.img.uni.getLsbD j
    let regs := w.savedRegs w.img
    let vecAt := 0x2E0 + (4 * unis.length + 63) / 64 * 64
    let vals := rec'.drop vecAt
    let dynAt := vecAt + 256 * regs.length
    let dyn := w.savedDyn stage
    let old := w.img.dyns - dyn.length
    let remat := if !w.img.full && f 8 4 != 0xFFFFFFFF then some (f 8 4) else none
    let arr (l : Nat) : BitVec 16 := (List.range 16).foldl (fun m b => if (f (0x240 + 8 * b) 8).testBit l then m ||| (1#16 <<< b) else m) 0
    some { w with
      window := f 0xC 1 % 128, rsec := f 0xE 1, skipWatch := (f 0xF 1).testBit 1, plyLeft := f 0x18 2, userTag := BitVec.ofNat 32 (f 0x1C 4)
      uni := (List.range unis.length).foldl (fun m j => Sparse.set 0 (unis.getD j 0) (BitVec.ofNat 32 (f (0x2E0 + 4 * j) 4)) m) []
      dyn := (List.range dyn.length).map fun j => let d := dyn.getD j (0, 0, 0); (d.1, d.2.1, BitVec.ofNat 64 (f (dynAt + 8 * (old + j)) 8))
      threads := w.threads.map fun t => t.restore ((rec'.drop (0x40 + 8 * t.lane)).take 8) remat (arr t.lane) (laneRegs regs vals t.lane)
      hold := none, lastIssue := 0, overlooked := 0, lastSpt := none }

/-- The warps of a team restored one after another, and the bytes left of the body. -/
def restoreWarps (k : Kernel) (stage : Nat) : List Warp → List Byte → Option (List Warp × List Byte)
  | [], bs => some ([], bs)
  | w :: rest, bs =>
    match w.restore k stage (bs.take w.recordSize), restoreWarps k stage rest (bs.drop w.recordSize) with
    | some w1, some (ws, left) => some (w1 :: ws, left)
    | _, _ => none

/-- A team's tiles, accumulators and scratchpad from the sections of its body (R201, R203). -/
def Team.restoreSections (tm : Team) (k : Kernel) (bs : List Byte) : Team :=
  let ts := maskList tm.tileSaved
  let as := maskList tm.accSaved
  let tileSec := (16 * ts.length + 255) / 256 * 256
  let accAt := k.halves.length * tileSec
  let spmAt := accAt + k.halves.length * as.length * 16384
  let f (off n : Nat) : Nat := leNat ((bs.drop off).take n)
  let tm1 := { tm with tiles := [], accs := [], spm := [] }
  let tm2 := k.halves.foldl (fun t h => (List.range ts.length).foldl (fun u j =>
    u.setTile h (ts.getD j 0) (BitVec.ofNat 128 (f (h * tileSec + 16 * j) 16))) t) tm1
  let tm3 := k.halves.foldl (fun t h => (List.range as.length).foldl (fun u j =>
    let sec := bs.drop (accAt + (h * as.length + j) * 16384)
    u.setAcc h (as.getD j 0) fun i => BitVec.ofNat 32 (leNat ((sec.drop (4 * i)).take 4))) t) tm2
  let gs := tm.dirty.map Prod.fst
  { tm3 with spm := (List.range gs.length).flatMap fun j =>
      let sec := (bs.drop (spmAt + 4096 * j)).take 4096
      ((List.range 4096).map fun i => (4096 * gs.getD j 0 + i, sec.getD i 0)).filter fun p => p.2 != 0 }

/-- A team as its image restores it, or none where the resume fails (R203 to R205). -/
def Team.restore (tm : Team) (k : Kernel) (img : List Byte) : Option Team :=
  let f (off n : Nat) : Nat := leNat ((img.drop off).take n)
  if f 0x48 8 != 1 then none
  else match decodeSized (tm.bodySize k) ((img.drop 128).take (f 0xC 4)) with
    | none => none
    | some body => match restoreWarps k tm.stage tm.warps body with
      | none => none
      | some (ws, left) => some ({ tm with warps := ws, phase := BitVec.ofNat 16 (f 0x1A 2) }.restoreSections k left)

/-- The bytes of an image as they now stand: the header, and as much of the body as BODY_BYTES names. -/
def State.imageNow (s : State) (c pos : Nat) : Got :=
  let h := s.saveRead c pos 128
  match h.bytes with
  | none => h
  | some bs => h.s.saveRead c pos (128 + leNat ((bs.drop 0xC).take 4))

/-- A saved team restored from its image as it now stands. -/
def State.restored (s : State) (tm : Team) (pos : Nat) : State × Option Team :=
  let g := s.imageNow (s.ctxOf tm) pos
  (g.s, g.bytes.bind fun img => tm.restore (s.kernelOf tm) img)

end Sys2Proof.Machine
end

