-- ==== Sys2Proof/Machine/Place.lean ====
section
/-! DEFINITION. The distributor (R139 to R143, R148 to R151): the room of cores, the order of the teams that wait, the placement of a new
team, the saving of a stopped one and its re-entry (R196, R197, R203, R205). -/

namespace Sys2Proof.Machine

/-! ## Room (R141) -/

/-- Scratchpad granules a kernel's team takes on each core: of a pair, each holds half of SPM_BYTES, whose last granule may be cut in two
(R141, R174). -/
def Kernel.granules (k : Kernel) : Nat :=
  let n := k.spmBytes / 4096
  if k.pair then (n + 1) / 2 else n

/-- What the teams that hold a core take of one of its resources. -/
def State.coreUse (s : State) (core : Nat) (need : Kernel → Nat) : Nat :=
  s.teams.foldl (fun n p =>
    let k := s.kernelOf p.2
    if !p.2.holds then n
    else if p.2.core = core || (k.pair && p.2.core + 1 = core) then n + need k
    else n) 0

/-- A core is in service and not barred for a context (R23, R114, R141). -/
def State.permitted (s : State) (c core : Nat) : Bool :=
  (if s.power.phase = 4 then decide (core < 192) else if s.power.phase = 3 then decide (core < 96) else false)
    && !((s.chainOf c).any fun p => p.2.barred.contains core)

/-- One core has the granules, accumulators and tile registers of a half of a team. DEDUCED (log 28): sixteen accumulators and
sixteen tile registers a core. -/
def State.halfFits (s : State) (c : Nat) (k : Kernel) (core : Nat) : Bool :=
  s.permitted c core && s.coreUse core Kernel.granules + k.granules ≤ 96
    && s.coreUse core Kernel.accs + k.accs ≤ 16 && s.coreUse core Kernel.tiles + k.tiles ≤ 16

/-- What a warp asks: the half of a pair, the slot and the pages; no pages for a warp that has exited. -/
structure WarpAsk where
  half  : Nat
  slot  : Nat
  pages : Nat

/-- Where warp n of a team goes: slot n mod 4, or alternating over a pair (R141). -/
def Kernel.seat (k : Kernel) (n : Nat) : Nat × Nat := if k.pair then (n % 2, n / 2 % 4) else (0, n % 4)

/-- The lowest aligned range of a width with so many free pages in every octet (R141). -/
def lowestBase (ws : List (Nat × Nat × Nat × Warp)) (lanes pages : Nat) : Option Nat :=
  (List.range (64 / lanes)).findSome? fun i => if rangeFree ws (i * lanes) lanes pages then some (i * lanes) else none

/-- The ranges for the warps of a team, one after another; `got` are those already given, by half and slot. -/
def State.bases (s : State) (core lanes : Nat) : List WarpAsk → List (Nat × Nat × (Nat × Nat × Nat × Warp)) → Option (List Nat)
  | [], _ => some []
  | a :: rest, got =>
    if a.pages = 0 then (s.bases core lanes rest got).map fun l => 0 :: l
    else
      let ws := s.slotWarps (core + a.half) a.slot ++ ((got.filter fun g => g.1 == a.half && g.2.1 == a.slot).map fun g => g.2.2)
      if ws.length ≥ 32 then none
      else match lowestBase ws lanes a.pages with
        | none => none
        | some b =>
          let w : Warp := { base := b, pages := a.pages }
          (s.bases core lanes rest ((a.half, a.slot, (0, 0, lanes, w)) :: got)).map fun l => b :: l

/-- The lane ranges of a team on a core, or none where it does not fit (R141). -/
def State.fitsCore (s : State) (c : Nat) (k : Kernel) (asks : List WarpAsk) (core : Nat) : Option (List Nat) :=
  if k.pair && core % 2 == 1 then none
  else if s.halfFits c k core && (!k.pair || s.halfFits c k (core + 1)) then s.bases core k.lanes asks []
  else none

/-- Warps resident on a core; of one context, or of all. -/
def State.residents (s : State) (c : Option Nat) (core : Nat) : Nat :=
  s.teams.foldl (fun n p =>
    if !p.2.holds || (match c with | some x => s.ctxOf p.2 != x | none => false) then n
    else n + (p.2.warps.filter fun w => w.core == core && w.holdsPages).length) 0

/-- The core a team goes to, with its lane ranges: the fewest resident warps, then the lowest number (R141). -/
def State.bestCore (s : State) (c : Nat) (k : Kernel) (asks : List WarpAsk) : Option (Nat × List Nat) :=
  let load (core : Nat) : Nat := s.residents none core + (if k.pair then s.residents none (core + 1) else 0)
  ((List.range 192).foldl (fun m core =>
    match s.fitsCore c k asks core with
    | none => m
    | some bs => match m with
      | none => some (load core, core, bs)
      | some (n, x, ys) => if load core < n then some (load core, core, bs) else some (n, x, ys)) none).map Prod.snd

/-! ## The order of waiting teams (R140, R142) -/

/-- A team that the distributor may place next: one that re-enters, or a new one of a kernel of a bundle. -/
inductive Who where
  | again (t : Nat)
  | new (b kn : Nat)
deriving DecidableEq, Repr

/-- A placement: who, of which context, on which core and in which lane ranges. -/
structure Seat where
  who   : Who
  ctx   : Nat
  core  : Nat
  bases : List Nat

/-- What the warps of a saved team ask. -/
def Team.asks (tm : Team) (k : Kernel) : List WarpAsk :=
  (List.range tm.warps.length).map fun n =>
    let w := tm.warp n
    { half := (k.seat n).1, slot := w.slot, pages := if w.exited then 0 else w.pages }

/-- What the warps of a new team ask. -/
def Kernel.asks (k : Kernel) : List WarpAsk :=
  (List.range (k.teamX * k.teamY * k.teamZ / k.lanes)).map fun n => { half := (k.seat n).1, slot := (k.seat n).2, pages := k.regPages }

/-- The saved teams of a context that may re-enter, in the order in which they became ready. -/
def State.readyTeams (s : State) (c : Nat) : List (Nat × Nat × Team) :=
  let all := s.teams.filterMap fun p => match p.2.place with
    | .saved _ _ true since => if s.ctxOf p.2 == c then some (since, p.1, p.2) else none
    | _ => none
  all.foldl (fun l x => (l.takeWhile fun y => y.1 ≤ x.1) ++ x :: l.dropWhile fun y => y.1 ≤ x.1) []

/-- The first re-entering team that fits, or the kernels that those which do not fit hold back. -/
def State.againSeat (s : State) (c : Nat) : List (Nat × Nat × Team) → List (Nat × Nat) → Option Seat × List (Nat × Nat)
  | [], held => (none, held)
  | (_, t, tm) :: rest, held =>
    if held.contains (tm.bundle, tm.kernel) then s.againSeat c rest held
    else match s.bestCore c (s.kernelOf tm) (tm.asks (s.kernelOf tm)) with
      | some (core, bs) => (some ⟨.again t, c, core, bs⟩, held)
      | none => s.againSeat c rest ((tm.bundle, tm.kernel) :: held)

/-- The bundles of a context that still have new teams: higher PRIORITY first, then earlier started. -/
def State.openBundles (s : State) (c : Nat) : List (Nat × Bundle) :=
  (s.bundles.filter fun p => p.2.ctx.toNat == c && p.2.kernels.any fun k => decide (k.nextTeam < k.total)).foldl (fun l x =>
    let first (y : Nat × Bundle) : Bool := decide (x.2.priority < y.2.priority) || (x.2.priority == y.2.priority && decide (y.1 < x.1))
    (l.takeWhile first) ++ x :: l.dropWhile first) []

/-- The first kernel of a bundle, in turn, whose next team fits. -/
def State.newSeat (s : State) (c : Nat) (held : List (Nat × Nat)) (p : Nat × Bundle) : Option Seat :=
  let n := p.2.kernels.length
  (List.range n).findSome? fun i =>
    let kn := (p.2.turn + i) % n
    let k := p.2.kernels.getD kn {}
    if k.nextTeam ≥ k.total || held.contains (p.1, kn) then none
    else (s.bestCore c k k.asks).map fun x => ⟨.new p.1 kn, c, x.1, x.2⟩

/-- The first team of a context that fits, in the order of R140; none of a context that is frozen or halted. -/
def State.ctxSeat (s : State) (c : Nat) : Option Seat :=
  if s.isFrozen c || s.isHalted c || s.cfg.erased then none
  else match s.againSeat c (s.readyTeams c) [] with
    | (some x, _) => some x
    | (none, held) => (s.openBundles c).findSome? (s.newSeat c held)

/-- One placement goes before another: the lower ratio of the context's resident warps on its core to its effective weight, then
the lower context number (R142). -/
def State.seatBefore (s : State) (a b : Seat) : Bool :=
  let (na, da) := s.exactWeight .core a.ctx
  let (nb, db) := s.exactWeight .core b.ctx
  let ra := s.residents (some a.ctx) a.core * da * nb
  let rb := s.residents (some b.ctx) b.core * db * na
  decide (ra < rb) || (ra == rb && decide (a.ctx < b.ctx))

/-- The next placement of the distributor (R140 to R142). -/
def State.nextSeat (s : State) : Option Seat :=
  (s.ctxs.filterMap fun p => if p.2.live then s.ctxSeat p.1 else none).foldl (fun m x => match m with
    | none => some x
    | some y => if s.seatBefore x y then some x else some y) none

/-! ## A new team (R143) -/

/-- The threads of warp n of a new team. -/
def Kernel.newThreads (k : Kernel) (n : Nat) : List Thread :=
  (List.range k.lanes).map fun l =>
    let i := n * k.lanes + l
    { lane := l, tx := i % k.teamX, ty := i / k.teamX % k.teamY, tz := i / (k.teamX * k.teamY) }

/-- The uniform registers of a new team: the argument words from s0 on (R81). -/
def Kernel.argRegs (k : Kernel) : List (Nat × Word) :=
  (List.range k.args.length).foldl (fun m i => Sparse.set 0 i (k.args.getD i 0) m) []

/-- Warp n of a new team. -/
def Kernel.newWarp (k : Kernel) (n core base stamp : Nat) : Warp :=
  { core := core + (k.seat n).1, slot := (k.seat n).2, base := base, placed := stamp, pages := k.regPages, uni := k.argRegs
    threads := k.newThreads n, plyLeft := k.ply, userTag := k.userTag }

/-- A new team placed. -/
def State.placeNew (s : State) (b kn : Nat) (x : Seat) : State :=
  match s.bundle? b with
  | none => s
  | some bd =>
    let k := bd.kernels.getD kn {}
    let t := s.eng.nextId
    let tm : Team :=
      { bundle := b, kernel := kn, index := k.nextTeam, core := x.core, tag := s.stamp
        warps := (List.range x.bases.length).map fun n => k.newWarp n x.core (x.bases.getD n 0) s.stamp }
    let bd1 := { bd with kernels := modifyAt (fun k => { k with nextTeam := k.nextTeam + 1 }) kn bd.kernels, turn := (kn + 1) % bd.kernels.length }
    let s1 := (({ s with stamp := s.stamp + 1, eng := { s.eng with nextId := t + 1 } } : State).setBundle b bd1).setTeam t tm
    if k.entryStage then s1.releaseStage t 0 0 else s1

/-- `TEAM_PLACE` (R140 to R143): the distributor places the new team that comes next. -/
def execTeamPlace (s : State) : Host.Outcome State Fault Refusal :=
  match s.nextSeat with
  | some x => match x.who with
    | .new b kn => .next (s.placeNew b kn x)
    | .again _ => .refused .noOccasion
  | none => .refused .noOccasion

/-! ## Saving (R148, R149, R196, R197) -/

/-- A thread where a stop request leaves it (R148, R196). -/
def Thread.stopped (t : Thread) : Bool :=
  match t.park with
  | .none | .exiting => false
  | _ => true

/-- Every warp's results have returned and its store queue has drained, and the engines' work is done but for collectives
(R149, R197). -/
def State.teamStill (s : State) (t : Nat) (tm : Team) : Bool :=
  tm.warps.all (fun w => w.mem.isEmpty && !w.outstanding) && !(s.eng.tce.any fun o => o.team == t) && !(s.eng.mxe.any fun o => o.team == t)

/-- Every warp of a team is stopped (R196). -/
def Team.allStopped (tm : Team) : Bool := tm.warps.all fun w => w.threads.all Thread.stopped

/-- A swapped-out warp with nesting zero owes no grace period (R155). -/
def Warp.swapOut (w : Warp) : Warp :=
  let w1 := { w with hold := none }
  if w.rsec = 0 then { w1 with owes := false, clearing := none, trailing := none } else w1

/-- The images that the zugzwang rule made of warps of a team are no longer needed. -/
def State.freeZug (s : State) (c : Nat) (tm : Team) : State :=
  tm.warps.foldl (fun st w => match w.zug with
    | some (pos, _) => st.freeImage c pos
    | none => st) s

/-- A team saved: its image held, its core left (R197, R198). -/
def State.saveTeam (s : State) (t : Nat) (tm : Team) (full : Bool) (cause : BitVec 8) (ready : Bool) (wish : Nat) :
    Except SaveFail (State × Nat) :=
  let c := s.ctxOf tm
  let i := s.teamImage tm full cause
  match (i.s.ctx c).areaPos i.bytes.length wish with
  | none => .error none
  | some pos => match i.s.holdImage c pos i.bytes with
    | .error f => .error f
    | .ok s1 =>
      let tm2 := { i.tm with
        place := .saved pos i.bytes.length ready s.stamp, ask := .none, warps := i.tm.warps.map Warp.swapOut }
      .ok (({ s1 with stamp := s1.stamp + 1 } : State).setTeam t tm2 |>.freeZug c tm, pos)

/-- The record of a recoverable fault goes to the handler of the stage that missed, naming the image (R86, R99, R120, R151). -/
def State.reportMiss (s : State) (t : Nat) (r : HRec) (image : Nat) : State :=
  let m := r.ctx.toNat
  (s.modCtx m fun x => { x with pending := x.pending ++ [{ seq := x.faultSeq, team := t }] }).pushHandler m { r with image := BitVec.ofNat 64 image }

/-- The stopped team `team` is saved, at position `pos` where it is free. A save that finds no room waits. -/
def commitImage (s : State) : Host.Outcome State Fault Refusal :=
  let t := s.input.team
  match s.team? t with
  | none => .refused .noOccasion
  | some tm =>
    if s.isHalted (s.ctxOf tm) || !s.teamStill t tm || tm.exited then .refused .noOccasion
    else match tm.place, tm.ask with
      | .stopping cause, _ => match s.saveTeam t tm true cause false s.input.pos with
        | .error f => s.notSaved (s.ctxOf tm) f
        | .ok (s1, pos) =>
          let s2 := match tm.fault with
            | some r => s1.reportMiss t r ((s.ctx (s.ctxOf tm)).areaVa pos)
            | none => s1
          .next (s2.after t 0)
      | .resident, .preempt =>
        if !tm.allStopped then .refused .noOccasion
        else match s.saveTeam t tm false 0 true s.input.pos with
          | .error f => s.notSaved (s.ctxOf tm) f
          | .ok (s1, _) => .next (s1.after t 0)
      | _, _ => .refused .noOccasion

/-- `TEAM_IMAGE_COMMIT` (R148, R149, R151, R196 to R198): the stopped team `team` is saved. -/
def execTeamImageCommit (s : State) : Host.Outcome State Fault Refusal := throughLinks commitImage s

/-! ## Re-entry (R150, R203, R205) -/

/-- A restored team at its new place. -/
def Team.seated (tm : Team) (k : Kernel) (core : Nat) (bases : List Nat) (stamp : Nat) : Team :=
  { tm with
    core := core, place := .resident, ask := .none, fault := none, tag := stamp
    warps := (List.range tm.warps.length).map fun n =>
      { tm.warp n with core := core + (k.seat n).1, base := bases.getD n 0, placed := stamp } }

/-- The stop record of a re-entry that fails: no warp's (R191, R205; log 25). -/
def badImage (tm : Team) : StopRec := { engine := 0, cause := Cause.paramBad, team := BitVec.ofNat 32 tm.index }

/-- A saved team re-enters, or its image fails and halts the context, unless its reading has done so (R150, R203, R205). -/
def State.reenter (s : State) (t : Nat) (tm : Team) (pos bytes : Nat) (x : Seat) : State :=
  let c := s.ctxOf tm
  match s.restored tm pos with
  | (s1, none) =>
    let s2 := s1.setTeam t { tm with place := .saved pos bytes false s.stamp }
    if s2.isHalted c then s2 else s2.raiseHalt c (badImage tm) false (some t)
  | (s1, some tm1) =>
    ((({ s1 with stamp := s.stamp + 1 } : State).freeImage c pos).setTeam t (tm1.seated (s.kernelOf tm) x.core x.bases s.stamp)).after t 0

/-- The saved team `team` re-enters when it comes next. -/
def reenterNext (s : State) : Host.Outcome State Fault Refusal :=
  match s.nextSeat, s.team? s.input.team with
  | some x, some tm => match tm.place with
    | .saved pos bytes _ _ => if x.who = .again s.input.team then .next (s.reenter s.input.team tm pos bytes x) else .refused .noOccasion
    | _ => .refused .noOccasion
  | _, _ => .refused .noOccasion

/-- `TEAM_REENTRY` (R140, R150, R203 to R205): the saved team `team` re-enters when it comes next. -/
def execTeamReentry (s : State) : Host.Outcome State Fault Refusal := throughLinks reenterNext s

end Sys2Proof.Machine
end

