-- ==== Sys2Proof/Machine/Halt.lean ====
section
/-! DEFINITION. A halted context (R186 to R192): how each engine stops, the stop records, the images of a halt and its handler record. -/

namespace Sys2Proof.Machine

/-! ## Engines stop (R187, R188, R191) -/

/-- The halt of a context that is being stopped: raised, not yet saved, and no tamper-class erase. -/
def State.stopping (s : State) (c : Nat) : Option Halt :=
  match (s.ctx c).halt with
  | some h => if h.saved || h.tamper then none else some h
  | none => none

/-- The core of an operation's warp, which names the engine instance (R191). -/
def Team.unit (tm : Team) (wn : Nat) : Nat := (tm.warp wn).core

/-- An engine instance has its stop record. -/
def Halt.has (h : Halt) (id : BitVec 8) (unit : Nat) : Bool := h.recs.any fun r => r.engine == id && r.unit.toNat == unit

/-- The stop record of an engine that only the halt line stopped. -/
def haltedRec (id : BitVec 8) (tm : Team) (wn : Nat) (op : DWord) (skid : Nat) : StopRec :=
  { engineStop id tm wn Cause.halted op 0 with skid := BitVec.ofNat 8 skid }

/-- The copy engine of a core stops inside an entry after at most eight further beats (R187). -/
def State.stopTce (s : State) (o : TceOp) (tm : Team) (e : SchedEntry) (more : Nat) : State :=
  let ctx := s.ctxOf tm
  let k := s.kernelOf tm
  if e.bad k (o.src e) then s.raiseHalt ctx (haltedRec 1 tm o.warp (tceOp o.entry o.beats) 0) false (some o.team)
  else
    let (r, total) := ({ s with freeCtr := s.freeCtr + 1 } : State).copyEntry tm ctx o e (some (min more 8)) false
    let s1 := (r.s.setBeats o.id r.done).raiseHalt ctx (haltedRec 1 tm o.warp (tceOp o.entry r.done) (r.done - o.beats)) false (some o.team)
    match r.fail with
    | some x => s1.faultMarks x
    | none => if r.done = total then s1.finishTce o e k.pair else s1

/-- The matrix engine of a core stops, its operation in progress completed whole (R187). -/
def State.stopMxe (s : State) (o : MxeOp) (tm : Team) (whole : Bool) : State :=
  let s1 := s.raiseHalt (s.ctxOf tm) (haltedRec 2 tm o.warp (o.pc.setWidth 64) (bitNat whole)) false (some o.team)
  if whole then s1.finishMxe o else s1

/-- The collective engine stops an operation, its progress kept (R187, R188). -/
def State.stopCle (s : State) (o : CleOp) (tm : Team) (n : Nat) : State :=
  let x := s.stopColl o n
  let s1 := { x.1.s with eng := { x.1.s.eng with cle := x.1.s.eng.cle.map fun (y : CleOp) => if y.id = o.id then x.1.o else y } }
  let s2 := s1.raiseHalt o.ctx.toNat (haltedRec 3 tm o.warp (o.pc.setWidth 64) x.2) false (some o.team)
  match x.1.fail with
  | some f => s2.faultMarks f
  | none => s2

/-- An engine instance that holds work of a halted context stops, after `num` further beats or
packets, or with the operation in progress completed when `flag` says so. -/
def stopEngine (s : State) : Host.Outcome State Fault Refusal :=
  match s.input.engine with
  | .tce id => match s.eng.tce.find? fun o => o.id == id with
    | none => .refused .noOccasion
    | some o => match s.team? o.team with
      | none => .refused .noOccasion
      | some tm => match s.stopping (s.ctxOf tm), (s.kernelOf tm).sched[o.entry]? with
        | some h, some e =>
          if h.has 1 (tm.unit o.warp) || !tm.holds then .refused .noOccasion else .next (s.stopTce o tm e s.input.num)
        | _, _ => .refused .noOccasion
  | .mxe id => match s.eng.mxe.find? fun o => o.id == id with
    | none => .refused .noOccasion
    | some o => match s.team? o.team with
      | none => .refused .noOccasion
      | some tm => match s.stopping (s.ctxOf tm) with
        | some h =>
          if h.has 2 (tm.unit o.warp) || !tm.holds || !oldestOf o s.eng.mxe then .refused .noOccasion
          else .next (s.stopMxe o tm s.input.flag)
        | none => .refused .noOccasion
  | .cle id => match s.eng.cle.find? fun o => o.id == id with
    | none => .refused .noOccasion
    | some o => match s.team? o.team with
      | none => .refused .noOccasion
      | some tm => match s.stopping o.ctx.toNat with
        | some h =>
          if h.has 3 (tm.unit o.warp) then .refused .noOccasion
          else .next (s.stopCle o tm s.input.num)
        | none => .refused .noOccasion

/-- `ENGINE_HALT_STOP` (R187, R188, R191). -/
def execEngineHaltStop (s : State) : Host.Outcome State Fault Refusal := throughLinks stopEngine s

/-! ## The images of a halt (R192) -/

/-- The 64 bytes of a stop record (R191). -/
def StopRec.bytes (r : StopRec) : List Byte :=
  leBytes 1 r.engine.toNat ++ leBytes 1 r.cause.toNat ++ leBytes 1 r.skid.toNat ++ leBytes 1 (bitNat r.precise) ++ leBytes 2 r.unit.toNat
    ++ leBytes 2 r.warp.toNat ++ leBytes 4 r.team.toNat ++ leBytes 4 r.userTag.toNat ++ leBytes 8 r.pcOrOp.toNat ++ leBytes 8 r.addr.toNat
    ++ leBytes 2 r.byteMask.toNat ++ leBytes 2 r.ctx.toNat ++ leBytes 28 0

/-- Every engine instance with work of a context has its stop record. -/
def State.enginesStopped (s : State) (c : Nat) (h : Halt) : Bool :=
  let of (t : Nat) : Option Team := match s.team? t with | some tm => if s.ctxOf tm == c then some tm else none | none => none
  s.eng.tce.all (fun o => match of o.team with | some tm => !tm.holds || h.has 1 (tm.unit o.warp) | none => true)
    && s.eng.mxe.all (fun o => match of o.team with | some tm => !tm.holds || h.has 2 (tm.unit o.warp) | none => true)
    && s.eng.cle.all (fun o => match of o.team with | some tm => h.has 3 (tm.unit o.warp) | none => true)

/-- Results have returned and store queues are drained in every resident team of a context (R188). -/
def State.drainedCtx (s : State) (c : Nat) : Bool :=
  (s.teamsOf c).all fun p => !p.2.holds || p.2.warps.all fun w => w.mem.isEmpty && !w.outstanding

/-- Teams of a context by linear index. -/
def byIndex (l : List (Nat × Team)) : List (Nat × Team) :=
  l.foldl (fun l x => (l.takeWhile fun y => y.2.index ≤ x.2.index) ++ x :: l.dropWhile fun y => y.2.index ≤ x.2.index) []

/-- The cause a team's image carries: the halt's for the team that holds the fault, that of its own recoverable fault, else 0. -/
def Halt.causeFor (h : Halt) (t : Nat) (tm : Team) : BitVec 8 :=
  if h.team = some t then h.cause
  else match tm.place with
    | .stopping c => c
    | _ => 0

/-- Teams saved one after another with full images, each at its wished position; none where one finds no room. Gives the
positions of the images. -/
def State.saveAll (h : Halt) : List (Nat × Team) → List Nat → State → Except SaveFail (State × List Nat)
  | [], _, s => .ok (s, [])
  | (t, tm) :: rest, wish, s =>
    match s.saveTeam t tm true (h.causeFor t tm) false (wish.headD 1) with
    | .error f => .error f
    | .ok (s1, pos) =>
      let s2 := match tm.fault with
        | some r => s1.reportMiss t r ((s.ctx (s.ctxOf tm)).areaVa pos)
        | none => s1
      match State.saveAll h rest (wish.drop 1) s2 with
      | .error f => .error f
      | .ok (s3, ps) => .ok (s3, pos :: ps)

/-- The positions of the images of teams already swapped out. -/
def heldAt (l : List (Nat × Team)) : List Nat :=
  l.filterMap fun p => match p.2.place with
    | .saved pos _ _ _ => some pos
    | _ => none

/-- NEXT_IMAGE of each image of a chain (R192, R199). -/
def State.linkImages (c : Nat) : List Nat → State → Except SaveFail State
  | [], s => .ok s
  | p :: rest, s =>
    let next := match rest with | [] => 0 | q :: _ => (s.ctx c).areaVa q
    match s.saveWrite c (p + 0x40) (leBytes 8 next) with
    | .error f => .error f
    | .ok t => State.linkImages c rest t

/-- The header-only image of a halt that finds no team (R192). -/
def emptyImage (c : Nat) (cause : BitVec 8) : List Byte := ({ cause := cause, ctx := c } : ImgHead).bytes

/-- Bytes at a position noted as held for the halt itself. -/
def State.noteExtra (s : State) (c pos n : Nat) : State :=
  s.modCtx c fun x => { x with halt := x.halt.map fun h => { h with extra := h.extra ++ [(pos, n)] } }

/-- The stop records written at a position and named by the first image (R191, R192). -/
def State.holdRecords (s : State) (c pos first : Nat) (h : Halt) : Except SaveFail State :=
  match s.saveWrite c pos (h.recs.flatMap StopRec.bytes) with
  | .error f => .error f
  | .ok t => (t.noteExtra c pos (64 * h.recs.length)).saveWrite c (first + 0x10) (leBytes 8 ((s.ctx c).areaVa pos) ++ leBytes 2 h.recs.length)

/-- The KIND 2 record of a halt, which goes to the root's handler where a world rule refused the access (R120, R122, R192). -/
def State.reportHalt (s : State) (c first : Nat) (h : Halt) : State :=
  let q := if h.toRoot then s.rootOf c else c
  let team := match h.recs with | r :: _ => r.team | [] => 0xFFFFFFFF
  (s.modCtx c fun x => { x with halt := x.halt.map fun h => { h with saved := true } }).pushHandler q
    { kind := 2, cause := h.cause, stage := 0, userTag := h.userTag, ctx := BitVec.ofNat 16 c, origin := BitVec.ofNat 16 c, seq := 0
      addr := h.addr, image := BitVec.ofNat 64 ((s.ctx c).areaVa first), pc := h.pc, team := team }

/-- The saves, the chain, the stop records and the handler record of a halt, or what fails. -/
def State.saveHalt (s : State) (c : Nat) (h : Halt) (places : List Nat) : Except SaveFail State :=
  let all := byIndex (s.teamsOf c)
  let lead := all.filter fun p => h.team == some p.1
  let rest := all.filter fun p => h.team != some p.1
  let save := (lead ++ rest).filter fun p => p.2.holds
  match State.saveAll h save places s with
  | .error f => .error f
  | .ok (s1, ps) =>
    let old := heldAt (lead.filter fun p => !p.2.holds)
    let chain := if ps.isEmpty then old ++ heldAt rest else old ++ ps
    let left := places.drop save.length
    let start : Except SaveFail (State × List Nat) :=
      match chain with
      | [] =>
        let bs := emptyImage c h.cause
        match (s1.ctx c).areaPos bs.length (left.headD 1) with
        | none => .error none
        | some p => (s1.holdImage c p bs).map fun t => (t.noteExtra c p bs.length, [p])
      | _ => .ok (s1, chain)
    match start with
    | .error f => .error f
    | .ok (s2, images) =>
      let first := images.headD 0
      match (s2.ctx c).areaPos (64 * h.recs.length) ((left.drop 1).headD 1), State.linkImages c images s2 with
      | _, .error f => .error f
      | none, .ok _ => .error none
      | some p, .ok s3 => (s3.holdRecords c p first h).map fun t => t.reportHalt c first h

/-- The resident teams of the halted context `ctx` are saved, at `places` where they are free,
the images chained, the stop records written, and the handler record waits for its queue. -/
def saveHalted (s : State) : Host.Outcome State Fault Refusal :=
  let c := s.input.ctx.toNat
  match s.stopping c with
  | none => .refused .noOccasion
  | some h =>
    if !s.drainedCtx c || !s.enginesStopped c h then .refused .noOccasion
    else match s.saveHalt c h s.input.places with
      | .error f => s.notSaved c f
      | .ok t => .next ((t.settleTempo c).wakeAll.serveAll.settlePreempts)

/-- `HALT_SAVE_COMPLETE` (R188, R191, R192). -/
def execHaltSaveComplete (s : State) : Host.Outcome State Fault Refusal := throughLinks saveHalted s

end Sys2Proof.Machine
end

