-- ==== Sys2Proof/Machine/IntArith.lean ====
section
/-! DEFINITION. Meanings of the vector integer instructions, the vector-uniform forms, the vector constants and the VUN group
(R264 to R277, R280). -/

namespace Sys2Proof.Machine

/-- `iadd` (R265): D := A + B modulo 2^32. -/
def execIadd (h : Hdr) (d a b : Reg) (s : State) : Host.Outcome State Fault Refusal :=
  vecIssue (.iadd h d a b) h d (fun f l => (f.v 1 l a.toNat) + (f.v 2 l b.toNat)) s

/-- `isub` (R265): D := A − B modulo 2^32. -/
def execIsub (h : Hdr) (d a b : Reg) (s : State) : Host.Outcome State Fault Refusal :=
  vecIssue (.isub h d a b) h d (fun f l => (f.v 1 l a.toNat) - (f.v 2 l b.toNat)) s

/-- `imul` (R265): D := A × B modulo 2^32. -/
def execImul (h : Hdr) (d a b : Reg) (s : State) : Host.Outcome State Fault Refusal :=
  vecIssue (.imul h d a b) h d (fun f l => (f.v 1 l a.toNat) * (f.v 2 l b.toNat)) s

/-- `imulh.i` (R265): D := bits [63:32] of the signed product. -/
def execImulhI (h : Hdr) (d a b : Reg) (s : State) : Host.Outcome State Fault Refusal :=
  vecIssue (.imulhI h d a b) h d (fun f l => mulHighS (f.v 1 l a.toNat) (f.v 2 l b.toNat)) s

/-- `imulh.n` (R265): D := bits [63:32] of the unsigned product. -/
def execImulhN (h : Hdr) (d a b : Reg) (s : State) : Host.Outcome State Fault Refusal :=
  vecIssue (.imulhN h d a b) h d (fun f l => mulHighN (f.v 1 l a.toNat) (f.v 2 l b.toNat)) s

/-- `imad` (R265): D := A × B + D modulo 2^32. -/
def execImad (h : Hdr) (d a b : Reg) (s : State) : Host.Outcome State Fault Refusal :=
  vecIssue (.imad h d a b) h d (fun f l => (f.v 1 l a.toNat) * (f.v 2 l b.toNat) + (f.v 0 l d.toNat)) s

/-- `iand` (R265): D := A AND B. -/
def execIand (h : Hdr) (d a b : Reg) (s : State) : Host.Outcome State Fault Refusal :=
  vecIssue (.iand h d a b) h d (fun f l => (f.v 1 l a.toNat) &&& (f.v 2 l b.toNat)) s

/-- `ior` (R265): D := A OR B. -/
def execIor (h : Hdr) (d a b : Reg) (s : State) : Host.Outcome State Fault Refusal :=
  vecIssue (.ior h d a b) h d (fun f l => (f.v 1 l a.toNat) ||| (f.v 2 l b.toNat)) s

/-- `ixor` (R265): D := A XOR B. -/
def execIxor (h : Hdr) (d a b : Reg) (s : State) : Host.Outcome State Fault Refusal :=
  vecIssue (.ixor h d a b) h d (fun f l => (f.v 1 l a.toNat) ^^^ (f.v 2 l b.toNat)) s

/-- `iandn` (R265): D := A AND NOT B. -/
def execIandn (h : Hdr) (d a b : Reg) (s : State) : Host.Outcome State Fault Refusal :=
  vecIssue (.iandn h d a b) h d (fun f l => (f.v 1 l a.toNat) &&& ~~~(f.v 2 l b.toNat)) s

/-- `ishl` (R266): left shift. -/
def execIshl (h : Hdr) (d a b : Reg) (s : State) : Host.Outcome State Fault Refusal :=
  vecIssue (.ishl h d a b) h d (fun f l => shlWord (f.v 1 l a.toNat) (f.v 2 l b.toNat)) s

/-- `ishr` (R266): logical right shift. -/
def execIshr (h : Hdr) (d a b : Reg) (s : State) : Host.Outcome State Fault Refusal :=
  vecIssue (.ishr h d a b) h d (fun f l => shrWord (f.v 1 l a.toNat) (f.v 2 l b.toNat)) s

/-- `isar` (R266): arithmetic right shift. -/
def execIsar (h : Hdr) (d a b : Reg) (s : State) : Host.Outcome State Fault Refusal :=
  vecIssue (.isar h d a b) h d (fun f l => sarWord (f.v 1 l a.toNat) (f.v 2 l b.toNat)) s

/-- `imin.i` (R265): the lesser, signed. -/
def execIminI (h : Hdr) (d a b : Reg) (s : State) : Host.Outcome State Fault Refusal :=
  vecIssue (.iminI h d a b) h d (fun f l => minS (f.v 1 l a.toNat) (f.v 2 l b.toNat)) s

/-- `imax.i` (R265): the greater, signed. -/
def execImaxI (h : Hdr) (d a b : Reg) (s : State) : Host.Outcome State Fault Refusal :=
  vecIssue (.imaxI h d a b) h d (fun f l => maxS (f.v 1 l a.toNat) (f.v 2 l b.toNat)) s

/-- `imin.n` (R265): the lesser, unsigned. -/
def execIminN (h : Hdr) (d a b : Reg) (s : State) : Host.Outcome State Fault Refusal :=
  vecIssue (.iminN h d a b) h d (fun f l => minN (f.v 1 l a.toNat) (f.v 2 l b.toNat)) s

/-- `imax.n` (R265): the greater, unsigned. -/
def execImaxN (h : Hdr) (d a b : Reg) (s : State) : Host.Outcome State Fault Refusal :=
  vecIssue (.imaxN h d a b) h d (fun f l => maxN (f.v 1 l a.toNat) (f.v 2 l b.toNat)) s

/-- `clmul` (R267): low half of the carry-less product. -/
def execClmul (h : Hdr) (d a b : Reg) (s : State) : Host.Outcome State Fault Refusal :=
  vecIssue (.clmul h d a b) h d (fun f l => loHalf (clmulWide (f.v 1 l a.toNat) (f.v 2 l b.toNat))) s

/-- `clmulh` (R267): high half of the carry-less product. -/
def execClmulh (h : Hdr) (d a b : Reg) (s : State) : Host.Outcome State Fault Refusal :=
  vecIssue (.clmulh h d a b) h d (fun f l => hiHalf (clmulWide (f.v 1 l a.toNat) (f.v 2 l b.toNat))) s

/-- `iadd64` (R265): D pair := A + B modulo 2^64. -/
def execIadd64 (h : Hdr) (d a b : Reg) (s : State) : Host.Outcome State Fault Refusal :=
  vecIssue2 (.iadd64 h d a b) h d (fun f l => f.v2 1 l a.toNat + f.v2 2 l b.toNat) s

/-- `isub64` (R265): D pair := A − B modulo 2^64. -/
def execIsub64 (h : Hdr) (d a b : Reg) (s : State) : Host.Outcome State Fault Refusal :=
  vecIssue2 (.isub64 h d a b) h d (fun f l => f.v2 1 l a.toNat - f.v2 2 l b.toNat) s

/-- `imulw.n` (R265): D pair := the whole unsigned product. -/
def execImulwN (h : Hdr) (d a b : Reg) (s : State) : Host.Outcome State Fault Refusal :=
  vecIssue2 (.imulwN h d a b) h d (fun f l => mulWideN (f.v 1 l a.toNat) (f.v 2 l b.toNat)) s

/-- `bfe.n` (R268): unsigned bit field. -/
def execBfeN (h : Hdr) (d a b : Reg) (s : State) : Host.Outcome State Fault Refusal :=
  vecIssue (.bfeN h d a b) h d (fun f l => bfeN (f.v 1 l a.toNat) (f.v 2 l b.toNat)) s

/-- `bfe.i` (R268): signed bit field. -/
def execBfeI (h : Hdr) (d a b : Reg) (s : State) : Host.Outcome State Fault Refusal :=
  vecIssue (.bfeI h d a b) h d (fun f l => bfeI (f.v 1 l a.toNat) (f.v 2 l b.toNat)) s

/-- `bfi` (R268): bit-field insert. -/
def execBfi (h : Hdr) (d a b : Reg) (s : State) : Host.Outcome State Fault Refusal :=
  vecIssue (.bfi h d a b) h d (fun f l => bfiWord (f.v 0 l d.toNat) (f.v 1 l a.toNat) (f.v 2 l b.toNat)) s

/-- `perm` (R269): byte permutation. -/
def execPerm (h : Hdr) (d a b : Reg) (s : State) : Host.Outcome State Fault Refusal :=
  vecIssue (.perm h d a b) h d (fun f l => permWord (f.v 1 l a.toNat) (f.v 2 l b.toNat)) s

/-- `sel` (R270): D := A where the selector is 1, B otherwise, in every active thread. -/
def execSel (h : Hdr) (d a b : Reg) (s : State) : Host.Outcome State Fault Refusal :=
  regIssue (.sel h d a b) h.s 0 (fun f part w => w.setV part d.toNat fun l => if f.p l h.g then (f.v 1 l a.toNat) else (f.v 2 l b.toNat)) s

/-- `icmp.c` (R271): the predicate takes the condition. -/
def execIcmp (h : Hdr) (c : ICond) (p : PReg) (a b : Reg) (s : State) : Host.Outcome State Fault Refusal :=
  predIssue (.icmp h c p a b) h p (fun f l => iHolds c (f.v 1 l a.toNat) (f.v 2 l b.toNat)) s

/-- `iaddi` (R272): D := A plus the signed immediate. -/
def execIaddi (h : Hdr) (d a : Reg) (i : BitVec 7) (s : State) : Host.Outcome State Fault Refusal :=
  vecIssue (.iaddi h d a i) h d (fun f l => (f.v 1 l a.toNat) + imm7 i) s

/-- `ishli` (R272): shift by the immediate. -/
def execIshli (h : Hdr) (d a : Reg) (i : BitVec 5) (s : State) : Host.Outcome State Fault Refusal :=
  vecIssue (.ishli h d a i) h d (fun f l => shlWord (f.v 1 l a.toNat) (i.setWidth 32)) s

/-- `ishri` (R272): shift by the immediate. -/
def execIshri (h : Hdr) (d a : Reg) (i : BitVec 5) (s : State) : Host.Outcome State Fault Refusal :=
  vecIssue (.ishri h d a i) h d (fun f l => shrWord (f.v 1 l a.toNat) (i.setWidth 32)) s

/-- `isari` (R272): shift by the immediate. -/
def execIsari (h : Hdr) (d a : Reg) (i : BitVec 5) (s : State) : Host.Outcome State Fault Refusal :=
  vecIssue (.isari h d a i) h d (fun f l => sarWord (f.v 1 l a.toNat) (i.setWidth 32)) s

/-- `iadd.vs` (R273): as `iadd` with a uniform B. -/
def execIaddVs (h : Hdr) (d a b : Reg) (s : State) : Host.Outcome State Fault Refusal :=
  vecIssue (.iaddVs h d a b) h d (fun f l => (f.v 1 l a.toNat) + (f.u 2 b.toNat)) s

/-- `imul.vs` (R273): as `imul` with a uniform B. -/
def execImulVs (h : Hdr) (d a b : Reg) (s : State) : Host.Outcome State Fault Refusal :=
  vecIssue (.imulVs h d a b) h d (fun f l => (f.v 1 l a.toNat) * (f.u 2 b.toNat)) s

/-- `imad.vs` (R273): as `imad` with a uniform B. -/
def execImadVs (h : Hdr) (d a b : Reg) (s : State) : Host.Outcome State Fault Refusal :=
  vecIssue (.imadVs h d a b) h d (fun f l => (f.v 1 l a.toNat) * (f.u 2 b.toNat) + (f.v 0 l d.toNat)) s

/-- `iand.vs` (R273): as `iand` with a uniform B. -/
def execIandVs (h : Hdr) (d a b : Reg) (s : State) : Host.Outcome State Fault Refusal :=
  vecIssue (.iandVs h d a b) h d (fun f l => (f.v 1 l a.toNat) &&& (f.u 2 b.toNat)) s

/-- `ishl.vs` (R273): as `ishl` with a uniform B. -/
def execIshlVs (h : Hdr) (d a b : Reg) (s : State) : Host.Outcome State Fault Refusal :=
  vecIssue (.ishlVs h d a b) h d (fun f l => shlWord (f.v 1 l a.toNat) (f.u 2 b.toNat)) s

/-- `ishr.vs` (R273): as `ishr` with a uniform B. -/
def execIshrVs (h : Hdr) (d a b : Reg) (s : State) : Host.Outcome State Fault Refusal :=
  vecIssue (.ishrVs h d a b) h d (fun f l => shrWord (f.v 1 l a.toNat) (f.u 2 b.toNat)) s

/-- `icmp.vs.c` (R273): as `icmp` with a uniform B. -/
def execIcmpVs (h : Hdr) (c : ICond) (p : PReg) (a b : Reg) (s : State) : Host.Outcome State Fault Refusal :=
  predIssue (.icmpVs h c p a b) h p (fun f l => iHolds c (f.v 1 l a.toNat) (f.u 2 b.toNat)) s

/-- `iadd64.vs` (R273): as `iadd64` with a uniform pair B. -/
def execIadd64Vs (h : Hdr) (d a b : Reg) (s : State) : Host.Outcome State Fault Refusal :=
  vecIssue2 (.iadd64Vs h d a b) h d (fun f l => f.v2 1 l a.toNat + f.u2 2 b.toNat) s

/-- `mov` (R274): D := A. -/
def execMov (h : Hdr) (d a : Reg) (s : State) : Host.Outcome State Fault Refusal :=
  vecIssue (.mov h d a) h d (fun f l => (f.v 1 l a.toNat)) s

/-- `mov64` (R274): D pair := A pair. -/
def execMov64 (h : Hdr) (d a : Reg) (s : State) : Host.Outcome State Fault Refusal :=
  vecIssue2 (.mov64 h d a) h d (fun f l => f.v2 1 l a.toNat) s

/-- `popc` (R274): the number of 1 bits. -/
def execPopc (h : Hdr) (d a : Reg) (s : State) : Host.Outcome State Fault Refusal :=
  vecIssue (.popc h d a) h d (fun f l => popcWord (f.v 1 l a.toNat)) s

/-- `clz` (R274): the 0 bits above the highest 1 bit. -/
def execClz (h : Hdr) (d a : Reg) (s : State) : Host.Outcome State Fault Refusal :=
  vecIssue (.clz h d a) h d (fun f l => clzWord (f.v 1 l a.toNat)) s

/-- `brev` (R274): the bits in reverse order. -/
def execBrev (h : Hdr) (d a : Reg) (s : State) : Host.Outcome State Fault Refusal :=
  vecIssue (.brev h d a) h d (fun f l => brevWord (f.v 1 l a.toNat)) s

/-- `iabs` (R274): the absolute value. -/
def execIabs (h : Hdr) (d a : Reg) (s : State) : Host.Outcome State Fault Refusal :=
  vecIssue (.iabs h d a) h d (fun f l => absWord (f.v 1 l a.toNat)) s

/-- `ineg` (R274): D := 0 − A modulo 2^32. -/
def execIneg (h : Hdr) (d a : Reg) (s : State) : Host.Outcome State Fault Refusal :=
  vecIssue (.ineg h d a) h d (fun f l => 0 - (f.v 1 l a.toNat)) s

/-- A number that belongs to the thread on a lane (R275). -/
def Focus.own (f : Focus) (l : Nat) (val : Thread → Nat) : Word :=
  match f.wp.thread? l with
  | some t => BitVec.ofNat 32 (val t)
  | none => 0

/-- `laneid` (R275): the thread's lane within its warp. -/
def execLaneid (h : Hdr) (d : Reg) (s : State) : Host.Outcome State Fault Refusal :=
  vecIssue (.laneid h d) h d (fun f l => f.own l Thread.lane) s

/-- `tidx` (R275): the thread's x coordinate. -/
def execTidx (h : Hdr) (d : Reg) (s : State) : Host.Outcome State Fault Refusal :=
  vecIssue (.tidx h d) h d (fun f l => f.own l Thread.tx) s

/-- `tidy` (R275): the thread's y coordinate. -/
def execTidy (h : Hdr) (d : Reg) (s : State) : Host.Outcome State Fault Refusal :=
  vecIssue (.tidy h d) h d (fun f l => f.own l Thread.ty) s

/-- `tidz` (R275): the thread's z coordinate. -/
def execTidz (h : Hdr) (d : Reg) (s : State) : Host.Outcome State Fault Refusal :=
  vecIssue (.tidz h d) h d (fun f l => f.own l Thread.tz) s

/-- `bcast` (R276): D := the uniform value. -/
def execBcast (h : Hdr) (d a : Reg) (s : State) : Host.Outcome State Fault Refusal :=
  vecIssue (.bcast h d a) h d (fun f _ => f.u 1 a.toNat) s

/-- `rdl` (R276): the value of the lowest-numbered lane that takes part. -/
def execRdl (h : Hdr) (d a : Reg) (s : State) : Host.Outcome State Fault Refusal :=
  uniIssue (.rdl h d a) h d (fun f part => f.v 1 (part.headD 0) a.toNat) s

/-- `pand` (R277): pA AND pB. -/
def execPand (h : Hdr) (d b a : PReg) (s : State) : Host.Outcome State Fault Refusal :=
  predIssue (.pand h d b a) h d (fun f l => (f.p l a) && (f.p l b)) s

/-- `por` (R277): pA OR pB. -/
def execPor (h : Hdr) (d b a : PReg) (s : State) : Host.Outcome State Fault Refusal :=
  predIssue (.por h d b a) h d (fun f l => (f.p l a) || (f.p l b)) s

/-- `pxor` (R277): pA XOR pB. -/
def execPxor (h : Hdr) (d b a : PReg) (s : State) : Host.Outcome State Fault Refusal :=
  predIssue (.pxor h d b a) h d (fun f l => (f.p l a) != (f.p l b)) s

/-- `pandn` (R277): pA AND NOT pB. -/
def execPandn (h : Hdr) (d b a : PReg) (s : State) : Host.Outcome State Fault Refusal :=
  predIssue (.pandn h d b a) h d (fun f l => (f.p l a) && !(f.p l b)) s

/-- `pnot` (R277): NOT pA. -/
def execPnot (h : Hdr) (d a : PReg) (s : State) : Host.Outcome State Fault Refusal :=
  predIssue (.pnot h d a) h d (fun f l => !(f.p l a)) s

/-- `pset` (R277): the thread's bit of the mask in a uniform pair. -/
def execPset (h : Hdr) (d : PReg) (a : Reg) (s : State) : Host.Outcome State Fault Refusal :=
  predIssue (.pset h d a) h d (fun f l => (f.u2 1 a.toNat).getLsbD l) s

/-- `vlil` (R280): the sign-extended immediate. -/
def execVlil (s' : Bool) (d : Reg) (i : BitVec 17) (s : State) : Host.Outcome State Fault Refusal :=
  regIssue (.vlil s' d i) s' 0 (fun _ part w => w.setV part d.toNat fun _ => immLow i) s

/-- `vlih` (R280): bits [31:15] from the immediate. -/
def execVlih (s' : Bool) (d : Reg) (i : BitVec 17) (s : State) : Host.Outcome State Fault Refusal :=
  regIssue (.vlih s' d i) s' 0 (fun f part w => w.setV part d.toNat fun l => immHigh i (f.v 0 l d.toNat)) s

end Sys2Proof.Machine
end

