-- ==== Sys2Proof/Machine/Launch.lean ====
section
/-! DEFINITION. LAUNCH (R81, R90, R137 to R139): the launch records of a bundle, their arguments and copy schedules. -/

namespace Sys2Proof.Machine

/-- A field of n bytes at an offset. -/
def fieldAt (bs : List Byte) (off n : Nat) : Nat := leNat ((bs.drop off).take n)

/-- A field as a signed number of 32 bits. -/
def signed32 (n : Nat) : Int := if n < 0x80000000 then (n : Int) else (n : Int) - 0x100000000

/-- A copy-schedule entry from its 64 bytes (R325). -/
def schedEntry (bs : List Byte) : SchedEntry :=
  let f := fieldAt bs
  { stage := f 0 2, kind := f 2 1, flags := BitVec.ofNat 8 (f 3 1), fmt := BitVec.ofNat 8 (f 4 1), tileReg := BitVec.ofNat 8 (f 5 1)
    dynReg := BitVec.ofNat 8 (f 6 1), rsv := BitVec.ofNat 8 (f 7 1), src := BitVec.ofNat 64 (f 8 8), dst := BitVec.ofNat 64 (f 0x10 8)
    size := [f 0x18 2, f 0x1A 2, f 0x1C 2, f 0x1E 2], stride := [signed32 (f 0x20 4), signed32 (f 0x24 4), signed32 (f 0x28 4)]
    scaleOff := signed32 (f 0x2C 4), scaleBase := f 0x30 2, band := BitVec.ofNat 16 (f 0x32 2), mcast := BitVec.ofNat 32 (f 0x34 4)
    seed := BitVec.ofNat 32 (f 0x38 4), ctr := BitVec.ofNat 32 (f 0x3C 4) }

/-- The kernel a launch record describes, its arguments and schedule still unread (R137). -/
def recordKernel (bs : List Byte) : Kernel :=
  let f := fieldAt bs
  { codeBase := BitVec.ofNat 56 (f 0 8), sptTable := BitVec.ofNat 56 (f 8 8), gridX := f 0x28 4, gridY := f 0x2C 4, gridZ := f 0x30 4
    teamX := f 0x34 2, teamY := f 0x36 2, teamZ := f 0x38 2, width := f 0x3A 1, entryStage := (f 0x3B 1).testBit 0
    pair := (f 0x3B 1).testBit 1, regPages := f 0x3C 1, accs := f 0x3D 1, tiles := f 0x3E 1, spmBytes := f 0x40 4, ply := f 0x44 2
    argBytes := f 0x46 2, userTag := BitVec.ofNat 32 (f 0x50 4), sptCount := f 0x54 4 }

/-- Threads of a team. -/
def Kernel.threads (k : Kernel) : Nat := k.teamX * k.teamY * k.teamZ

/-- Warps of a team. -/
def Kernel.warps (k : Kernel) : Nat := k.threads / k.lanes

/-- One team fits an empty core, or an empty pair (R139). -/
def Kernel.fits (k : Kernel) : Bool :=
  let n := if k.pair then (k.warps + 1) / 2 else k.warps
  let s := (n + 3) / 4
  let share := 64 / k.lanes
  s ≤ 32 && (s + share - 1) / share * k.regPages ≤ 32

/-- A 56-bit address field of a record with its alignment (R137). -/
def recordAddr (bs : List Byte) (off al : Nat) : Bool := fieldAt bs off 8 < 0x100000000000000 && fieldAt bs off 8 % al == 0

/-- The fields of a record lie within their limits; `first` says it is the bundle's first, `mine` that a slot belongs to the
issuing context (R81, R137 to R139). -/
def recordOk (bs : List Byte) (first : Bool) (mine : Nat → Bool) : Bool :=
  let f := fieldAt bs
  let k := recordKernel bs
  recordAddr bs 0 256 && recordAddr bs 8 16 && recordAddr bs 0x10 64 && recordAddr bs 0x18 4 && recordAddr bs 0x20 256
    && 1 ≤ k.gridX && 1 ≤ k.gridY && 1 ≤ k.gridZ && k.total ≤ 0x100000000
    && 1 ≤ k.teamX && 1 ≤ k.teamY && 1 ≤ k.teamZ && k.width ≤ 3 && f 0x3B 1 < 4 && k.threads % k.lanes == 0
    && k.threads ≤ (if k.pair then 2048 else 1024)
    && 1 ≤ k.regPages && k.regPages ≤ 32 && k.accs ≤ 16 && k.tiles ≤ 16 && f 0x3F 1 ≤ 7
    && k.spmBytes % 4096 == 0 && k.spmBytes ≤ (if k.pair then 786432 else 393216) && 1 ≤ k.ply
    && k.argBytes ≤ 384 && k.argBytes % 4 == 0 && f 0x48 2 ≤ 4096 && f 0x4E 2 < 1024
    && ((bs.drop 0x58).all fun b => b == 0) && k.fits
    && (if first then mine (f 0x4E 2) else f 0x3F 1 == 0 && f 0x4A 2 == 0 && f 0x4C 2 == 0 && f 0x4E 2 == 0)

/-- The words of an argument area. -/
def argWords (bs : List Byte) (n : Nat) : List Word := (List.range n).map fun i => BitVec.ofNat 32 (fieldAt bs (4 * i) 4)

/-- The entries of a copy schedule. -/
def schedEntries (bs : List Byte) (n : Nat) : List SchedEntry := (List.range n).map fun i => schedEntry ((bs.drop (64 * i)).take 64)

/-- One record read and checked in the order of R138: its kernel and its LINK, or the status it fails with; and what the reads leave. -/
def State.readRecord (s : State) (c : Nat) (first : Bool) (mine : Nat → Bool) (va : Nat) : State × Except (BitVec 8) (Kernel × Nat) :=
  let r := s.readVa c va 256
  match r.bytes with
  | none => (r.s, .error Status.addrBad)
  | some bs =>
    if !recordOk bs first mine then (r.s, .error Status.launchBad)
    else
      let k := recordKernel bs
      let args := r.s.readVa c (fieldAt bs 0x18 8) k.argBytes
      match args.bytes with
      | none => (args.s, .error Status.addrBad)
      | some ws =>
        let sched := args.s.readVa c (fieldAt bs 0x10 8) (64 * fieldAt bs 0x48 2)
        match sched.bytes with
        | none => (sched.s, .error Status.addrBad)
        | some es =>
          let entries := schedEntries es (fieldAt bs 0x48 2)
          (sched.s, if !k.entryStage && entries.any fun e => e.stage == 0 then .error Status.launchBad
            else .ok ({ k with args := argWords ws (k.argBytes / 4), sched := entries }, fieldAt bs 0x20 8))

/-- The chain of records from one on: at most four, none twice (R138). -/
def State.readChain (c : Nat) (mine : Nat → Bool) : Nat → List Nat → Nat → State → State × Except (BitVec 8) (List Kernel)
  | 0, _, _, s => (s, .error Status.launchBad)
  | n + 1, before, va, s =>
    if before.contains va then (s, .error Status.launchBad)
    else match s.readRecord c before.isEmpty mine va with
      | (s1, .error e) => (s1, .error e)
      | (s1, .ok (k, link)) =>
        if link = 0 then (s1, .ok [k])
        else match State.readChain c mine n (va :: before) link s1 with
          | (s2, .error e) => (s2, .error e)
          | (s2, .ok ks) => (s2, .ok (k :: ks))

/-- Gates of a mask. -/
def gatesOf (m : Nat) : List Nat := (List.range 16).filter fun g => m.testBit g

/-- The gates waited for that bind to a LAUNCH in progress (R90). -/
def Queue.binds (x : Queue) (wait : Nat) : List (Nat × Nat) :=
  (gatesOf wait).filterMap fun g => match Table.find g x.producers with
    | some (b + 1) => some (g, b)
    | _ => none

/-- The latest LAUNCH of a queue that releases each gate of a mask: its bundle plus 1, or 0 for one that failed (R90). -/
def Queue.produces (x : Queue) (rel n : Nat) : Queue :=
  { x with producers := (gatesOf rel).foldl (fun t g => Table.put g n t) x.producers }

/-- `LAUNCH` (R81, R82, R90, R137 to R139): the bundle's teams wait for placement, or the packet fails at once. -/
def execLaunch (s : State) : Host.Outcome State Fault Refusal :=
  packetEvent (ofType 1) (fun s q p c =>
    let va := p.field 8 8
    let mine (n : Nat) : Bool := (s.queue n).owner == some (BitVec.ofNat 12 c)
    let head := (s.readVa c va 256).bytes.getD []
    match State.readChain c mine 4 [] va s with
    | (s1, .error st) => (s1.modQueue q fun x => x.produces (fieldAt head 0x4C 2) 0).complete q p st 0
    | (s1, .ok ks) =>
      let n := s1.eng.nextId
      let b : Bundle :=
        { ctx := BitVec.ofNat 12 c, queue := BitVec.ofNat 10 q, index := p.index, tag := p.tag, cpl := p.cpl, ring := BitVec.ofNat 10 (fieldAt head 0x4E 2)
          priority := fieldAt head 0x3F 1, gateWait := BitVec.ofNat 16 (fieldAt head 0x4A 2), gateRel := BitVec.ofNat 16 (fieldAt head 0x4C 2)
          binds := (s1.queue q).binds (fieldAt head 0x4A 2), kernels := ks }
      (({ s1 with eng := { s1.eng with nextId := n + 1 } }.setBundle n b).modQueue q fun x => x.produces (fieldAt head 0x4C 2) (n + 1))) s

end Sys2Proof.Machine
end

