-- ==== Sys2Proof/Machine/Regroup.lean ====
section
/-! DEFINITION. `MARKED_BRANCH_RENDEZVOUS` (R162, R163): the threads of a team that all stand at one marked branch are regrouped and go on. -/

namespace Sys2Proof.Machine

/-- The target of a thread parked at a marked branch. -/
def Thread.target (t : Thread) : Word :=
  match t.park with
  | .marked x => x
  | _ => t.pc

/-- Two warps may exchange threads: one lane range of one slot of one core, equal WINDOW, ALLOC_PAGES and RSEC_DEPTH. -/
def Warp.exchanges (a b : Warp) : Bool :=
  a.core == b.core && a.slot == b.slot && a.base == b.base && a.window == b.window && a.pages == b.pages && a.rsec == b.rsec

/-- The warps of a warp's exchange group, ascending. -/
def Team.exchange (tm : Team) (w : Warp) : List Warp := tm.warps.filter fun x => !x.exited && x.exchanges w

/-- A thread put in its place by target; among equal targets the earlier comes first. -/
def insertByTarget (t : Thread) : List Thread → List Thread
  | [] => [t]
  | x :: rest => if x.target.ule t.target then x :: insertByTarget t rest else t :: x :: rest

/-- The threads left of an exchange group on one lane, sorted by target and then by old warp number. -/
def laneThreads (ws : List Warp) (lane : Nat) : List Thread :=
  (ws.flatMap fun w => w.threads.filter fun t => t.alive && t.lane == lane).foldl (fun l t => insertByTarget t l) []

/-- The threads of the j-th warp of an exchange group after the regrouping, each going on at its target. -/
def regrouped (lanes : Nat) (ws : List Warp) (j : Nat) : List Thread :=
  (List.range lanes).filterMap fun l => ((laneThreads ws l)[j]?).map fun t => { t with pc := t.target, park := .none }

/-- A team regrouped. An exited warp stays as it is. -/
def Team.regroup (tm : Team) (lanes : Nat) : Team :=
  { tm with warps := (List.range tm.warps.length).map fun n =>
      let w := tm.warp n
      if w.exited then w
      else { w with threads := regrouped lanes (tm.exchange w)
                                 ((tm.warps.take n).filter fun x => !x.exited && x.exchanges w).length } }

/-- No warp of the team has a result, token work or a store outstanding (R162). -/
def Team.idle (tm : Team) : Bool := tm.warps.all Warp.drained

/-- The lowest-numbered warp that the regrouping has left without threads, else warp 0. -/
def emptied (a b : Team) : Nat :=
  ((List.range a.warps.length).find? fun n => !(a.warp n).exited && (b.warp n).exited).getD 0

/-- `MARKED_BRANCH_RENDEZVOUS` (R162, R163) of team `team`. -/
def execMarkedBranchRendezvous (s : State) : Host.Outcome State Fault Refusal :=
  match s.team? s.input.team with
  | none => .refused .noOccasion
  | some tm =>
    if tm.meets.isNone || !tm.idle || s.stopStands tm || s.isHalted (s.ctxOf tm) then .refused .noOccasion
    else
      let tm1 := tm.regroup (s.kernelOf tm).lanes
      .next ((s.setTeam s.input.team tm1).after s.input.team (emptied tm tm1))

end Sys2Proof.Machine
end

