-- ==== Sys2Proof/Machine/Subtree.lean ====
section
/-! DEFINITION. Commands on contexts (R91, R92, R102 to R119): CHILD_CREATE, SET_SHARE, FREEZE, THAW, PREEMPT, INVAL, REVOKE, their
forwarding with ALL, and CHECKPOINT. -/

namespace Sys2Proof.Machine

/-! ## CHILD_CREATE and SET_SHARE (R105, R107, R109, R110) -/

/-- The lowest free context number from 128 on (R109). -/
def State.freeCtx (s : State) : Option Nat :=
  ((List.range 3968).find? fun i => !(s.ctx (128 + i)).live).map fun i => 128 + i

/-- Whether a CHILD_CREATE is refused (R109). -/
def State.childDenied (s : State) (c : Nat) (p : Packet) : Bool :=
  let q := p.field 24 4
  let slots := (List.range (bits q 20 10)).map fun i => bits q 9 0 + i
  let first := p.field 34 2
  let n := p.field 36 2
  let (_, f, m) := s.subtreeOf c
  let dev := s.fabric.deviceNum.toNat
  (slots.any fun i => decide (i ≥ 1024) || (s.queue i).owner != some (BitVec.ofNat 12 c) || (s.queue i).state != .idle)
    || (s.ctxs.any fun x => x.2.live && (s.subtreeOf x.1).1.toNat == p.field 32 2)
    || decide (dev < first) || decide (first + n ≤ dev) || decide (first < f.toNat) || decide (f.toNat + m.toNat < first + n)

/-- The child that a CHILD_CREATE describes (R91, R105, R108, R109). -/
def State.newChild (s : State) (c : Nat) (p : Packet) : Ctx :=
  let x := s.ctx c
  let hq := p.field 16 8
  let self := BitVec.ofNat 8 (p.field 30 1)
  { live := true, level := x.level + 1, parent := BitVec.ofNat 12 c, world := x.world
    subtree := some (BitVec.ofNat 16 (p.field 32 2), BitVec.ofNat 12 (p.field 34 2), BitVec.ofNat 13 (p.field 36 2))
    tableVa := BitVec.ofNat 56 (p.field 8 8), hqLog2 := BitVec.ofNat 5 (bits hq 60 56), hqBase := BitVec.ofNat 64 (bits hq 55 0)
    coreSelf := self, linkSelf := self, coreWeight := BitVec.ofNat 8 (p.field 28 1), linkWeight := BitVec.ofNat 8 (p.field 29 1) }

/-- A slot moved to a context: every register of R76 at its reset value; records that wait for its ring are not lost (R89, R109). -/
def State.moveSlot (s : State) (q n : Nat) : State :=
  s.setQueue q { owner := some (BitVec.ofNat 12 n), waiting := (s.queue q).waiting }

/-- `CHILD_CREATE` (R91, R105, R109). -/
def execChildCreate (s : State) : Host.Outcome State Fault Refusal :=
  packetEvent (ofType 7) (fun s q p c =>
    if s.childDenied c p then s.complete q p Status.denied 0
    else match s.freeCtx with
      | none => s.complete q p Status.noSpace 0
      | some n =>
        let b := p.field 24 4
        let s1 := s.setCtx n (s.newChild c p)
        let s2 := (List.range (bits b 20 10)).foldl (fun st i => st.moveSlot (bits b 9 0 + i) n) s1
        s2.complete q p Status.ok (BitVec.ofNat 128 n)) s

/-- `SET_SHARE` (R105, R107, R110, R114). -/
def execSetShare (s : State) : Host.Outcome State Fault Refusal :=
  packetEvent (ofType 8) (fun s q p c =>
    let d := p.context
    let core := BitVec.ofNat 8 (p.field 10 1)
    let link := BitVec.ofNat 8 (p.field 11 1)
    if d = c then (s.modCtx c fun x => { x with coreSelf := core, linkSelf := link }).complete q p Status.ok 0
    else if s.isChild c d then
      (s.modCtx d fun x => { x with coreWeight := core, linkWeight := link, barred := [] }).complete q p Status.ok 0
    else s.complete q p Status.denied 0) s

/-! ## Forwarding with ALL (R115) -/

/-- The other devices of a context's range. -/
def State.othersOf (s : State) (d : Nat) : List Nat :=
  let (_, f, n) := s.subtreeOf d
  ((List.range n.toNat).map fun i => f.toNat + i).filter fun x => !s.isOwn x

/-- A command that waits for the answers of other devices. -/
def Cmd.isForward (c : Cmd) : Bool :=
  match c.kind with
  | .forward _ _ _ => true
  | _ => false

/-- This device's part of a forwarded command is still in progress. -/
def State.localPart (s : State) (d : Nat) : Bool :=
  s.eng.cmds.any fun c => c.ctx.toNat == d && c.queue.isNone

/-- A forwarded command completes when every device has answered and this device is done. -/
def State.settleForwards (s : State) : State :=
  s.eng.cmds.foldl (fun st c => match c.kind with
    | .forward [] n denied =>
      if st.localPart c.ctx.toNat then st else st.completeCmd c (if denied then Status.denied else Status.ok) (BitVec.ofNat 128 n)
    | _ => st) s

/-- The plane that carries a command to a device: that of its first fabric address. DESIGN CHOICE (log 69). -/
def State.planeTo (s : State) (dev : Nat) : Nat := s.planeOf (dev * 0x100000000000)

/-- A command of a context to one device, in a packet of one flit, which may wait for its plane (R32, R45 to R47, R115). -/
def State.sendCommand (c : Nat) (f : Forward) (s : State) (dev : Nat) : State :=
  let x := s.sendPacket (s.planeTo dev) c 1 (.command s.fabric.deviceNum s.fabric.nextSeq (BitVec.ofNat 12 dev) f)
  if x.2 then x.1.takeSeq else x.1

/-- The command that context c forwards for context d (R115, R117). -/
def State.forwardOf (s : State) (k : FwdCmd) (c d : Nat) : Forward :=
  { cmd := k, subtree := (s.subtreeOf d).1, level := (s.ctx c).level, self := c == d }

/-- A command forwarded to the other devices of its context's range, whose answers it waits for (R115). DESIGN CHOICE (log 69): with FABRIC_EN 0
nothing is sent, and they count as answered without a member (R30). -/
def State.beginForward (s : State) (f : Forward) (c d q : Nat) (p : Packet) (denied : Bool) : State :=
  let devs := if s.fabric.enable then s.othersOf d else []
  (devs.foldl (State.sendCommand c f) s).addCmd (.forward devs 1 denied) d (some (BitVec.ofNat 10 q, p))

/-- A command on a context begins: alone, completing the packet, or as this device's part of one that ALL forwards. -/
def State.beginCmd (s : State) (k : CmdKind) (f : Forward) (c d q : Nat) (p : Packet) : State :=
  if p.flag0 then (s.addCmd k d none).beginForward f c d q p false else s.addCmd k d (some (BitVec.ofNat 10 q, p))

/-- The answer to a forwarded command, for the member it acted on, or none: on the link the command came on, or, where that is lost, on the
plane to the device (R48, R115). -/
def State.answerCommand (s : State) (dev : BitVec 12) (link : Nat) (m : Option Nat) (reached : Bool) : State :=
  s.postAnswer (if (s.link link).serves then link else s.planeTo dev.toNat) m { flits := 1, body := .commandAnswer dev reached }

/-- This device's part of a forwarded command is done: the device it came from is answered. -/
def State.answerPart (s : State) (c : Cmd) : State :=
  match c.answer with
  | none => s
  | some (dev, i) => s.answerCommand dev i.toNat (if (s.ctx c.ctx.toNat).live then some c.ctx.toNat else none) true

/-- A command of this device ends. -/
def State.endCmd (s : State) (c : Cmd) (status : BitVec 8) (payload : BitVec 128) : State :=
  ((s.completeCmd c status payload).answerPart c).settleForwards

/-- `FORWARDED_COMMAND_ANSWER` (R30, R46, R48, R115): device `dev` answers the forwarded command `num` on link `link`; `flag` says that it had
a member. -/
def execForwardedCommandAnswer (s : State) : Host.Outcome State Fault Refusal :=
  match s.cmd? s.input.num with
  | none => .refused .noOccasion
  | some cmd => match cmd.kind with
    | .forward left n denied =>
      if !left.contains s.input.dev.toNat || !s.takesPacket s.input.link.toNat then .refused .noOccasion
      else
        let s1 := (s.tookPacket s.input.link.toNat).heard (s.planeTo s.input.dev.toNat)
        let k : CmdKind := .forward (left.filter fun x => x != s.input.dev.toNat) (n + bitNat s.input.flag) denied
        .next (({ s1 with eng := { s1.eng with cmds := s1.eng.cmds.map fun c => if c.id = cmd.id then { c with kind := k } else c } } : State).settleForwards)
    | _ => .refused .noOccasion

/-! ## Freeze flags (R111, R112, R117) -/

/-- The flag that a context's commands set: one for each level, and one for a root's commands that name itself. -/
def State.flagOf (s : State) (issuer d : Nat) : BitVec 4 := if issuer = d then 8 else 1#4 <<< (s.ctx issuer).level.toNat

/-- A flag set on every context of a subtree; a BUSY bounce channel of a frozen root enters RESYNC (R111, R133). -/
def State.setFlags (s : State) (d : Nat) (f : BitVec 4) : State :=
  (s.subtree d).foldl (fun st c => (st.modCtx c fun x => { x with freeze := x.freeze ||| f }).resyncBounce c) s

/-- What follows for the teams of a subtree from a change of its flags or halts. -/
def State.afterSubtree (s : State) (d : Nat) : State :=
  (s.subtree d).foldl (fun st c => (st.teamsOf c).foldl (fun u p => u.after p.1 0) st) s

/-- A flag cleared on every context of a subtree, whose parked threads go on (R111, R112). -/
def State.clearFlags (s : State) (d : Nat) (f : BitVec 4) : State :=
  ((s.subtree d).foldl (fun st c => st.modCtx c fun x => { x with freeze := x.freeze &&& ~~~f }) s).afterSubtree d

/-- `FREEZE` (R111, R115). -/
def execFreeze (s : State) : Host.Outcome State Fault Refusal :=
  packetEvent (ofType 9) (fun s q p c =>
    let d := p.context
    if !s.isChild c d then s.complete q p Status.denied 0
    else (s.setFlags d (s.flagOf c d)).beginCmd .freeze (s.forwardOf .freeze c d) c d q p) s

/-- Every warp of a context is still: parked where a stop request leaves it, swapped out, or of a halted context, of which nothing
issues (R111). -/
def State.ctxStill (s : State) (c : Nat) : Bool :=
  s.isHalted c || (s.teamsOf c).all fun p => p.2.away || (p.2.place == .resident && p.2.allStopped && s.teamStill p.1 p.2)

/-- Every warp of a subtree is still. -/
def State.subtreeStill (s : State) (d : Nat) : Bool := (s.subtree d).all s.ctxStill

/-! ## THAW (R112, R115, R117) -/

/-- The header-only image of a halt is committed, if the halt has one (R192, R205). -/
def State.headerOk (s : State) (d : Nat) (h : Halt) : State × Bool :=
  match h.extra.find? fun e => (s.ctx d).images.any fun i => i.1 == e.1 with
  | none => (s, true)
  | some e =>
    let g := s.saveRead d e.1 128
    (g.s, (g.bytes.map fun bs => leNat ((bs.drop 0x48).take 8) == 1).getD false)

/-- The saved teams of a list that the resume returns have images that restore (R205). -/
def teamsRestore : List (Nat × Team) → State × Bool → State × Bool
  | [], r => r
  | p :: rest, r =>
    match p.2.place with
    | .saved pos _ _ _ =>
      if p.2.fault.isSome then teamsRestore rest r
      else
        let x := r.1.restored p.2 pos
        teamsRestore rest (x.1, r.2 && x.2.isSome)
    | _ => teamsRestore rest r

/-- A context halted by a stopping fault resumed from its images, or left halted, and whether it stays so (R112, R203, R205). -/
def State.resume (s : State) (d : Nat) : State × Bool :=
  match (s.ctx d).halt with
  | none => (s, false)
  | some h =>
    if h.fatal || h.tamper then (s, true)
    else
      let r := teamsRestore (s.teamsOf d) (s.headerOk d h)
      if r.2 then ((h.extra.foldl (fun st e => st.freeImage d e.1) r.1).returnContext d, false) else (r.1, true)

/-- THAW on this device: the flag cleared, and the context resumed; whether it stays halted. -/
def State.thawHere (s : State) (d : Nat) (f : BitVec 4) : State × Bool := (s.clearFlags d f).resume d

/-- `THAW` (R112, R115, R117). -/
def execThaw (s : State) : Host.Outcome State Fault Refusal :=
  packetEvent (ofType 10) (fun s q p c =>
    let d := p.context
    if !s.childOrRoot c d then s.complete q p Status.denied 0
    else
      let (s1, denied) := s.thawHere d (if c = d then 0 else s.flagOf c d)
      if p.flag0 then (s1.beginForward (s.forwardOf .thaw c d) c d q p denied).settleForwards
      else s1.complete q p (if denied then Status.denied else Status.ok) 0) s

/-! ## PREEMPT (R114) -/

/-- Cores that hold warps of a subtree, highest first. -/
def State.coresOf (s : State) (d : Nat) : List Nat :=
  ((List.range 192).filter fun core => s.teams.any fun p =>
    p.2.holds && s.within d (s.ctxOf p.2) && p.2.warps.any fun w => w.core == core && w.holdsPages).reverse

/-- The teams of a subtree on some cores asked to stop; one that stops for a fault already leaves by that. -/
def State.askTeams (s : State) (d : Nat) (cores : List Nat) : State :=
  { s with teams := s.teams.map fun p =>
      let here := p.2.warps.any fun w => cores.contains w.core && w.holdsPages
      if p.2.place == .resident && p.2.ask == .none && here && s.within d (s.ctxOf p.2) then (p.1, { p.2 with ask := .preempt }) else p }

/-- `PREEMPT` (R114, R148, R151). -/
def execPreempt (s : State) : Host.Outcome State Fault Refusal :=
  packetEvent (ofType 13) (fun s q p c =>
    let d := p.context
    if !s.isChild c d then s.complete q p Status.denied 0
    else
      let cores := (s.coresOf d).take (p.field 12 2)
      let s1 := s.askTeams d cores
      let s2 := if p.flag0 then s1.modCtx d fun x => { x with barred := x.barred ++ cores.filter fun k => !x.barred.contains k } else s1
      (s2.addCmd (.preempt cores) d (some (BitVec.ofNat 10 q, p))).settlePreempts) s

/-! ## INVAL (R102, R103) -/

/-- `INVAL` (R102, R103). -/
def execInval (s : State) : Host.Outcome State Fault Refusal :=
  packetEvent (ofType 14) (fun s q p c =>
    let d := p.context
    if !s.childOrRoot c d then s.complete q p Status.denied 0
    else (s.forget d (p.field 16 8) (p.field 24 8)).addCmd (.inval (p.field 16 8) (p.field 24 8)) d (some (BitVec.ofNat 10 q, p))) s

/-- An access translated through a covered entry is not yet performed. -/
def State.coveredPending (s : State) (d base pages : Nat) : Bool :=
  s.teams.any fun p => p.2.warps.any fun w => w.mem.any fun r => r.units.any fun u => !u.done && u.deps.any (depCovered d base pages)

/-- `INVAL_COMPLETE` (R103, R207): command `num`. -/
def execInvalComplete (s : State) : Host.Outcome State Fault Refusal :=
  match s.cmd? s.input.num with
  | none => .refused .noOccasion
  | some cmd => match cmd.kind with
    | .inval base pages =>
      let d := cmd.ctx.toNat
      if s.coveredPending d base pages then .refused .noOccasion
      else .next (((s.forget d base pages).refreshSubtree d base pages).completeCmd cmd Status.ok 0)
    | _ => .refused .noOccasion

/-! ## REVOKE (R82, R113, R116, R117) -/

/-- A CHECKPOINT ended: the flag it set is cleared, and it completes ABORTED (R116, R118). -/
def State.abortCheckpoint (s : State) (cmd : Cmd) : State :=
  match cmd.kind, cmd.queue with
  | .checkpoint wasFrozen drained _, some (q, _) =>
    let d := cmd.ctx.toNat
    let issuer := ((s.queue q.toNat).owner.getD cmd.ctx).toNat
    let s1 := if wasFrozen || drained then s else s.clearFlags d (s.flagOf issuer d)
    s1.completeCmd cmd Status.aborted 0
  | _, _ => s

/-- REVOKE begins: overlapping CHECKPOINTs end, and every engine of the subtree stops (R113, R116). -/
def State.beginRevoke (s : State) (d : Nat) : State :=
  let s1 := (s.eng.cmds.filter fun c => c.isCheckpoint && s.overlap c.ctx.toNat d).foldl State.abortCheckpoint s
  (s1.subtree d).foldl State.stopForGood s1

/-- `REVOKE` (R113, R115, R117). -/
def execRevoke (s : State) : Host.Outcome State Fault Refusal :=
  packetEvent (ofType 12) (fun s q p c =>
    let d := p.context
    if !s.childOrRoot c d then s.complete q p Status.denied 0
    else (s.beginRevoke d).beginCmd (.revoke (c == d)) (s.forwardOf .revoke c d) c d q p) s

/-- Nothing of a subtree is under way: every access that its warps issued has been performed or has failed (R113). -/
def State.subtreeQuiet (s : State) (d : Nat) : Bool :=
  s.teams.all fun p => !s.within d (s.ctxOf p.2) || p.2.warps.all fun w => w.mem.isEmpty

/-- A record for a packet that a REVOKE ends. -/
def abortedRec (q : Nat) (tag index : Word) (status : BitVec 8) (kind : BitVec 8) : CRec :=
  { kind := kind, status := status, queue := BitVec.ofNat 10 q, tag := tag, userTag := 0, index := index, payload := 0, pkt := none }

/-- The bundles of a subtree retire with a KIND 2 record each, followed by the LAUNCH packet's own (R82, R113). -/
def State.endBundles (s : State) (d : Nat) : State :=
  (s.bundles.filter fun b => s.within d b.2.ctx.toNat).foldl (fun st b =>
    let q := b.2.queue.toNat
    let status := match (s.ctx b.2.ctx.toNat).halt with
      | some h => if h.cause = Cause.halted then Status.aborted else Status.faulted
      | none => Status.aborted
    let s1 := if b.2.retiring then st else st.pushRec b.2.ring.toNat (abortedRec q b.2.tag b.2.index status 2)
    let s2 := if b.2.cpl then s1.pushRec q (abortedRec q b.2.tag b.2.index status 1) else s1
    (s2.closePacket q b.2.index)) { s with bundles := s.bundles.filter fun b => !s.within d b.2.ctx.toNat }

/-- The packets of slot q that stand blocked or started and unfinished complete ABORTED; `keep` is the REVOKE's own, whose queue runs on
with its next packet (R113, R117). -/
def State.abortPackets (s : State) (keep : Option (Slot × Packet)) (q : Nat) : State :=
  let x := s.queue q
  let mine (i : Word) : Bool := match keep with | some (k, p) => k.toNat == q && p.index == i | none => false
  let tagOf (i : Word) : Word := match (s.eng.cmds.findSome? fun c => match c.queue with
      | some (k, p) => if k.toNat == q && p.index == i then some p.tag else none
      | none => none) with
    | some t => t
    | none => 0
  let held (i : Word) : Bool := s.queues.any fun y => y.2.waiting.any fun r => r.pkt == some (q, i.toNat)
  let open' := x.open_.filter fun i => !mine i && !held i
  let s1 := open'.foldl (fun st i => st.pushRec q (abortedRec q (tagOf i) i Status.aborted 1)) s
  let issuing : Bool := match keep with | some (k, _) => k.toNat == q | none => false
  match x.state, x.cur with
  | .blocked, some p => if issuing then s1 else s1.pushRec q (abortedRec q p.tag p.index Status.aborted 1)
  | _, _ => s1

/-- The oldest record waiting for ring q written if the ring takes it, and discarded otherwise (R113). -/
def State.flushOne (s : State) (q : Nat) : State :=
  match (s.queue q).waiting, (s.queue q).owner with
  | r :: _, some c =>
    if s.ringTakes q 0 then (s.writeRecordVa c.toNat ((s.queue q).recPlace (s.queue q).crWrite) (r.bytes (!(s.queue q).crFlip))).modQueue q Queue.wrote
    else s.modQueue q fun x => { x with waiting := x.waiting.drop 1 }
  | _, _ => s.modQueue q fun x => { x with waiting := [] }

/-- Every record waiting for ring q written or discarded. -/
def State.flushRing (s : State) (q : Nat) : State := (s.queue q).waiting.foldl (fun st _ => st.flushOne q) s

/-- The slots of a list of contexts. -/
def State.slotsOf (s : State) (cs : List Nat) : List Nat :=
  (s.queues.filter fun q => match q.2.owner with | some o => cs.contains o.toNat | none => false).map Prod.fst

/-- The teams of a list of contexts with their work in the engines, gone. -/
def State.dropTeams (s : State) (cs : List Nat) : State :=
  let gone (t : Nat) : Bool := match s.team? t with | some tm => cs.contains (s.ctxOf tm) | none => false
  { s with
    teams := s.teams.filter fun p => !cs.contains (s.ctxOf p.2)
    eng := { s.eng with
      tce := s.eng.tce.filter fun o => !gone o.team
      mxe := s.eng.mxe.filter fun o => !gone o.team
      cle := s.eng.cle.filter fun o => !cs.contains o.ctx.toNat } }

/-- The commands, castling entries and dispatcher records of a list of contexts, gone. -/
def State.dropWork (s : State) (cs : List Nat) (keep : Option Nat) : State :=
  let mine (c : Cmd) : Bool :=
    cs.contains c.ctx.toNat || (match c.queue with
      | some (q, _) => (match (s.queue q.toNat).owner with | some o => cs.contains o.toNat | none => false)
      | none => false)
  { s with
    eng := { s.eng with
      cmds := s.eng.cmds.filter fun c => keep == some c.id || !mine c
      castle := s.eng.castle.filter fun e => !cs.contains e.ctx
      disp := s.eng.disp.filter fun d => !cs.contains (d.1 % 4096)
      ports := s.eng.ports.filter fun d => !cs.contains (d.1 % 4096)
      portWait := s.eng.portWait.filter fun w => !cs.contains w.2.1 } }

/-- A command in progress on one of a list of contexts, whose packet stands outside them, has nothing left to wait for once they are
gone: it completes (R103, R111, R114). DEDUCED (log 30). One that another device forwarded is answered. -/
def State.finishOutside (s : State) (cs : List Nat) (keep : Option Nat) : State :=
  let outside (c : Cmd) : Bool := match c.queue with
    | some (q, _) => (match (s.queue q.toNat).owner with | some o => !cs.contains o.toNat | none => false)
    | none => false
  (s.eng.cmds.filter fun c => cs.contains c.ctx.toNat && keep != some c.id && !c.isForward && (outside c || c.answer.isSome)).foldl (fun st c =>
    (st.completeCmd c Status.ok (match c.kind with | .preempt cores => BitVec.ofNat 128 cores.length | _ => 0)).answerPart c) s

/-- A root that a REVOKE naming it leaves empty; GEN and the ripe ring end with its grace periods (R117, R158; log 45). -/
def Ctx.emptied (x : Ctx) : Ctx :=
  { x with
    halt := none, pending := [], images := [], watch := [], collCount := [], freeze := 0, barred := []
    tempo := {} }

/-- A slot of a revoked root: IDLE, but for the issuing one, which runs on (R117). -/
def Queue.emptied (x : Queue) (issuing : Option Word) : Queue :=
  match issuing with
  | some i => { x with open_ := x.open_.filter fun k => k == i, producers := [] }
  | none => { x with enable := false, state := .idle, cur := none, open_ := [], producers := [] }

/-- A subtree destroyed: its records written or discarded, its slots, contexts and work gone. `self` keeps the root, empty; `keep` is
the command's number and its packet (R113, R117). -/
def State.destroySubtree (s : State) (d : Nat) (self : Bool) (keep : Option Nat) (pkt : Option (Slot × Packet)) : State :=
  let cs := s.subtree d
  let slots := s.slotsOf cs
  let parent := if self then BitVec.ofNat 12 d else (s.ctx d).parent
  let s1 := (slots.foldl (State.abortPackets · pkt ·) ((s.dropTeams cs).endBundles d))
  let s2 := ((slots.foldl State.flushRing s1).finishOutside cs keep).dropWork cs keep
  let s3 := slots.foldl (fun st q =>
    if self && (s.queue q).owner == some (BitVec.ofNat 12 d) then
      st.modQueue q fun x => x.emptied (match pkt with | some (k, p) => if k.toNat = q then some p.index else none | none => none)
    else st.setQueue q { owner := some parent }) s2
  let kept : List (Nat × Ctx) := s3.ctxs.filter fun p => !cs.contains p.1 || (self && p.1 == d)
  let s4 : State := { s3 with ctxs := kept.map fun p => (p.1, { p.2 with pending := p.2.pending.filter fun f => (s3.team? f.team).isSome }) }
  (if self then s4.modCtx d Ctx.emptied else s4).wakeAll.serveAll

/-- The keys of a world drawn anew or erased: lines written under the old ones fail (R126, R128). -/
def State.newKeys (s : State) (w : Nat) : State :=
  { s with mem := { s.mem with keyGen := Sparse.set 0 w (Sparse.get 0 w s.mem.keyGen + 1) s.mem.keyGen } }

/-- A world destroyed: its root contexts left empty and in world 0, its keys erased (R126). -/
def State.destroyWorld (s : State) (w : Nat) : State :=
  let roots := (s.worldContexts w).filter fun c => (s.ctx c).level == 0
  let s1 := roots.foldl (fun st c => st.destroySubtree c true none none) s
  let s2 : State := { s1 with ctxs := s1.ctxs.map fun p => if p.2.world.toNat == w then (p.1, { p.2 with world := 0 }) else p }
  { s2.newKeys w with worlds := Table.drop w s2.worlds }

/-- Nothing of a world is under way (R113, R126). -/
def State.worldQuiet (s : State) (w : Nat) : Bool := (s.worldContexts w).all s.subtreeQuiet

/-- Command `num`, a REVOKE, completes once nothing of the subtree is under way; a SCRUB that ends its world completes as the world goes (R134). -/
def completeRevoke (s : State) : Host.Outcome State Fault Refusal :=
  match s.cmd? s.input.num with
  | none => .refused .noOccasion
  | some cmd => match cmd.kind with
    | .revoke self =>
      let d := cmd.ctx.toNat
      if !s.subtreeQuiet d then .refused .noOccasion
      else
        -- the packet that carries the command, of this part or of the one that forwards it
        let holder := cmd.queue.orElse fun _ => (s.eng.cmds.find? fun c => c.ctx == cmd.ctx && c.isForward).bind Cmd.queue
        let keepFwd := s.eng.cmds.filter fun c => c.ctx == cmd.ctx && c.id != cmd.id && c.isForward
        let s1 := s.destroySubtree d self (some cmd.id) holder
        let s2 := { s1 with eng := { s1.eng with cmds := s1.eng.cmds ++ keepFwd } }
        .next (s2.endCmd cmd Status.ok 0)
    | .scrub =>
      let w := (s.ctx cmd.ctx.toNat).world.toNat
      if s.worldQuiet w then .next ((s.completeCmd cmd Status.ok 0).destroyWorld w) else .refused .noOccasion
    | _ => .refused .noOccasion

/-- `REVOKE_COMPLETE` (R113, R117, R134). -/
def execRevokeComplete (s : State) : Host.Outcome State Fault Refusal := throughLinks completeRevoke s

/-! ## CHECKPOINT (R118, R119) -/

/-- `CHECKPOINT` (R116 to R118), step 1. -/
def execCheckpoint (s : State) : Host.Outcome State Fault Refusal :=
  packetEvent (ofType 11) (fun s q p c =>
    let d := p.context
    if !s.childOrRoot c d then s.complete q p Status.denied 0
    else
      let f := s.flagOf c d
      (s.setFlags d f).addCmd (.checkpoint ((s.ctx d).freeze &&& f != 0) false []) d (some (BitVec.ofNat 10 q, p))) s

/-- Bytes of the largest piece of a range that makes one shard (R118). -/
def shardBytes : Nat := 0x4000000

/-- The shards of a copy: each range in pieces, then the images, with their offsets from DEST_VA. -/
def shardsOf (ranges : List (List Byte)) (images : List Byte) : List (Nat × Nat × List Byte) :=
  let cut (bs : List Byte) : List (List Byte) := (List.range ((bs.length + shardBytes - 1) / shardBytes)).map fun i => (bs.drop (i * shardBytes)).take shardBytes
  let all := ranges.flatMap cut ++ [images]
  (List.range all.length).map fun i => (((all.take i).map List.length).sum, (all.getD i []).length, all.getD i [])

/-- The entries of a range list (R118): address and length. -/
def rangeList (bs : List Byte) (n : Nat) : List (Nat × Nat) :=
  (List.range n).map fun i => (leNat ((bs.drop (16 * i)).take 8), leNat ((bs.drop (16 * i + 8)).take 8))

/-- Byte strings read one after another, and what the reads leave; none once one has failed. -/
structure GotAll where
  s   : State
  all : Option (List (List Byte))

/-- One byte string more. -/
def GotAll.add (g : GotAll) (x : Got) : GotAll :=
  { s := x.s, all := match g.all, x.bytes with | some l, some b => some (l ++ [b]) | _, _ => none }

/-- The ranges of a context read (R118). -/
def readRanges (d : Nat) (ranges : List (Nat × Nat)) (s : State) : GotAll :=
  ranges.foldl (fun g r => if g.all.isNone then g else g.add (g.s.readVa d r.1 r.2)) { s := s, all := some [] }

/-- The image of one team of a subtree, as it stands or as it is held (R114, R118). -/
def State.copyImage (s : State) (tm : Team) : Got :=
  match tm.place with
  | .saved pos _ _ _ =>
    let g := s.imageNow (s.ctxOf tm) pos
    { g with bytes := some (g.bytes.getD []) }
  | _ =>
    let i := s.teamImage tm false 0
    { s := i.s, bytes := some i.bytes }

/-- Tempo's state of a context as a checkpoint keeps it: GEN, the period in progress, the deferred-free queue and the debts, by team and
warp (R158; log 47). -/
def State.tempoBytes (s : State) (c : Nat) : List Byte :=
  let t := (s.ctx c).tempo
  Config.tempoRecord t.gen t.running t.wanted (t.deferred.map fun d => (d.1.toNat, d.2))
    ((s.teamsOf c).flatMap fun p => ((List.range p.2.warps.length).filter fun n => (p.2.warp n).owes).map fun n => (p.1, n))

/-- The images of every team of a subtree, and Tempo's state of its contexts. -/
def State.copyImages (s : State) (d : Nat) : Got :=
  let g := (s.teams.filter fun p => s.within d (s.ctxOf p.2)).foldl (fun (g : GotAll) p => g.add (g.s.copyImage p.2)) { s := s, all := some [] }
  { s := g.s, bytes := some (((g.all.getD []).flatMap (padTo 256)) ++ ((s.subtree d).flatMap fun c => padTo 256 (s.tempoBytes c))) }

/-- What steps 2, 3 and 5 of a CHECKPOINT leave: the state, and the shards with their digests or the status it ends with. -/
structure Copied where
  s   : State
  res : Except (BitVec 8) (List (Nat × Nat × BitVec 256))

/-- The copy written to the staging area and to the destination (R118). -/
def State.putCopy (s : State) (issuer : Nat) (p : Packet) (ranges : List (List Byte)) (images : List Byte) : Copied :=
  let all := ranges.flatten ++ images
  if all.length > p.field 32 8 then { s := s, res := .error Status.noSpace }
  else
    let r := s.tryWrite issuer (p.field 24 8) all
    let d := if r.ok then r.s.tryWrite issuer (p.field 40 8) all else r
    { s := d.s, res := if d.ok then .ok ((shardsOf ranges images).map fun x => (x.1, x.2.1, Config.sha256 x.2.2)) else .error Status.addrBad }

/-- Steps 2, 3 and 5 of a CHECKPOINT (R118; log 18). -/
def State.copyShards (s : State) (issuer d : Nat) (p : Packet) : Copied :=
  let list := s.readVa issuer (p.field 16 8) (16 * p.field 12 4)
  match list.bytes with
  | none => { s := list.s, res := .error Status.addrBad }
  | some bs =>
    let g := readRanges d (rangeList bs (p.field 12 4)) list.s
    match g.all with
    | none => { s := g.s, res := .error Status.addrBad }
    | some ranges =>
      let i := g.s.copyImages d
      i.s.putCopy issuer p ranges (i.bytes.getD [])

/-- A CHECKPOINT whose subtree is still: its copy made, the subtree thawed (R118). -/
def State.runCheckpoint (s : State) (cmd : Cmd) (wasFrozen : Bool) : State :=
  match cmd.queue with
  | none => s
  | some (q, p) =>
    let d := cmd.ctx.toNat
    let issuer := ((s.queue q.toNat).owner.getD cmd.ctx).toNat
    let thaw (t : State) : State := if wasFrozen then t else t.clearFlags d (t.flagOf issuer d)
    let c := s.copyShards issuer d p
    match c.res with
    | .error st => (thaw c.s).completeCmd cmd st 0
    | .ok shards =>
      let s2 := thaw c.s
      { s2 with eng := { s2.eng with cmds := s2.eng.cmds.map fun c => if c.id = cmd.id then { c with kind := .checkpoint wasFrozen true shards } else c } }

/-- Every warp of the subtree of command `num` is still; a CHECKPOINT goes on through its steps. -/
def completeFreeze (s : State) : Host.Outcome State Fault Refusal :=
  match s.cmd? s.input.num with
  | none => .refused .noOccasion
  | some cmd =>
    if !s.subtreeStill cmd.ctx.toNat then .refused .noOccasion
    else match cmd.kind with
      | .freeze => .next (s.endCmd cmd Status.ok 0)
      | .checkpoint wasFrozen false _ => .next (s.runCheckpoint cmd wasFrozen)
      | _ => .refused .noOccasion

/-- `FREEZE_COMPLETE` (R111, R118). -/
def execFreezeComplete (s : State) : Host.Outcome State Fault Refusal := throughLinks completeFreeze s

/-- The signature over a byte string under the next leaf, SIG_BYTES long (R119, R133). -/
def State.signature (s : State) (bs : List Byte) : List Byte :=
  (Config.lmsSign s.mem.leaves bs ++ List.replicate Config.sigBytes 0).take Config.sigBytes

/-- The header of a manifest with a value of COMMIT (R119). -/
def manifestHead (seq subtree dev count commit sig : Nat) : List Byte :=
  leBytes 8 seq ++ leBytes 2 subtree ++ leBytes 2 dev ++ leBytes 4 count ++ leBytes 8 commit ++ leBytes 4 sig ++ leBytes 36 0

/-- The entries of a manifest (R119). -/
def manifestEntries (shards : List (Nat × Nat × BitVec 256)) : List Byte :=
  shards.flatMap fun x => leBytes 8 x.1 ++ leBytes 8 x.2.1 ++ leBytes 32 x.2.2.toNat

/-- The manifest and its signature with a value of COMMIT; the signature covers it with COMMIT taken as zero (R119). -/
def State.manifest (s : State) (seq subtree : Nat) (shards : List (Nat × Nat × BitVec 256)) (commit : Nat) : List Byte :=
  let head (x : Nat) : List Byte := manifestHead seq subtree s.fabric.deviceNum.toNat shards.length x Config.sigBytes
  head commit ++ manifestEntries shards ++ s.signature (head 0 ++ manifestEntries shards)

/-- What committing a manifest leaves: the state, and the status. -/
structure Committed where
  s      : State
  status : BitVec 8

/-- A manifest committed in flash as one append, or in memory, COMMIT last (R67, R119). -/
def State.putManifest (s : State) (issuer va : Nat) (bs : Nat → List Byte) (seq : Nat) (full : Bool) : Committed :=
  if ((s.walkFor issuer va).flashPage issuer va).isSome then
    if full then { s := s.walkFor issuer va, status := Status.noSpace }
    else
      let body := padTo 4096 (bs seq)
      let n := body.length / 4096
      match flashPages issuer ((List.range (n - 1)).map fun i => va + 4096 * (i + 1)) (s.walkFor issuer va) with
      | (s1, false) => { s := s1, status := Status.addrBad }
      | (s1, true) =>
        let t := State.commitPages issuer va ((List.range n).map fun i => (body.drop (4096 * i)).take 4096) s1
        { s := { t with mem := { t.mem with appends := t.mem.appends + 1 } }, status := Status.ok }
  else
    let r := s.tryWrite issuer va (bs 0)
    let d := if r.ok then r.s.tryWrite issuer (va + 16) (leBytes 8 seq) else r
    { s := d.s, status := if d.ok then Status.ok else Status.addrBad }

/-- Command `num`, a CHECKPOINT, commits its manifest; `flag` says that free flash is lacking. -/
def commitCheckpoint (s : State) : Host.Outcome State Fault Refusal :=
  match s.cmd? s.input.num with
  | none => .refused .noOccasion
  | some cmd => match cmd.kind, cmd.queue with
    | .checkpoint _ true shards, some (q, p) =>
      if s.mem.leaves ≥ allLeaves then .next (s.completeCmd cmd Status.denied 0)
      else
        let issuer := ((s.queue q.toNat).owner.getD cmd.ctx).toNat
        let r := s.spendLeaf.putManifest issuer (p.field 48 8) (s.manifest (p.field 56 8) (s.subtreeOf cmd.ctx.toNat).1.toNat shards)
          (p.field 56 8) s.input.flag
        .next (r.s.completeCmd cmd r.status 0)
    | _, _ => .refused .noOccasion

/-- `CHECKPOINT_COMMIT` (R118 step 6, R119, R133). -/
def execCheckpointCommit (s : State) : Host.Outcome State Fault Refusal := throughLinks commitCheckpoint s

/-! ## A command forwarded from another device (R115, R117) -/

/-- A subtree command of this device is in progress on an overlapping subtree (R116). The part that only waits for other devices'
answers does not hold one that arrives from them. DEDUCED (log 32): two devices that forward to each other would otherwise wait for ever. -/
def State.localBusy (s : State) (d : Nat) (revoke : Bool) : Bool :=
  s.eng.cmds.any fun c => s.overlap c.ctx.toNat d && c.holdsBack revoke && !c.isForward

/-- This device's part of a forwarded command begins; it is answered when it is done. -/
def State.addPart (s : State) (k : CmdKind) (d : Nat) (dev : BitVec 12) (link : BitVec 4) : State :=
  { s with eng := { s.eng with
      cmds := s.eng.cmds ++ [{ id := s.eng.nextId, kind := k, ctx := BitVec.ofNat 12 d, queue := none, answer := some (dev, link) }]
      nextId := s.eng.nextId + 1 } }

/-- THAW waits for the report of a halt (R112). -/
def State.haltUnreported (s : State) (d : Nat) : Bool :=
  match (s.ctx d).halt with
  | some h => !h.reported && !h.tamper
  | none => false

/-- A forwarded command acts on a member, and THAW is answered at once. -/
def State.actPart (s : State) (f : Forward) (d : Nat) (dev : BitVec 12) (link : BitVec 4) : State :=
  let flag : BitVec 4 := 1#4 <<< f.level.toNat
  match f.cmd with
  | .freeze => (s.setFlags d flag).addPart .freeze d dev link
  | .thaw => ((s.thawHere d (if f.self then 0 else flag)).1).answerCommand dev link.toNat (some d) true
  | .revoke => (s.beginRevoke d).addPart (.revoke f.self) d dev link

/-- A command that device `dev` forwards on link `link` acts on this device's member of the SUBTREE; with no member it has no effect, and is
answered at once. -/
def forwardCommand (s : State) : Host.Outcome State Fault Refusal :=
  let f := s.input.fwd
  let i := s.input.link
  if !s.takesPacket i.toNat || s.isOwn s.input.dev.toNat then .refused .noOccasion
  else match s.member f.subtree with
    | none => .next ((s.tookPacket i.toNat).answerCommand s.input.dev i.toNat none false)
    | some d =>
      if s.localBusy d (f.cmd == .revoke) || (f.cmd == .thaw && s.haltUnreported d) then .refused .noOccasion
      else .next ((s.tookPacket i.toNat).actPart f d s.input.dev i)

/-- `FORWARDED_COMMAND` (R30, R46, R48, R92, R115, R117). -/
def execForwardedCommand (s : State) : Host.Outcome State Fault Refusal := throughLinks forwardCommand s

end Sys2Proof.Machine
end

