-- ==== Sys2Proof/Machine/Uniform.lean ====
section
/-! DEFINITION. Meanings of the uniform scalar instructions and the uniform constants (R264, R278 to R280). -/

namespace Sys2Proof.Machine

/-- `sand` (R278): the uniform form of the vector instruction. -/
def execSand (h : Hdr) (d a b : Reg) (s : State) : Host.Outcome State Fault Refusal :=
  uniIssue (.sand h d a b) h d (fun f _ => (f.u 1 a.toNat) &&& (f.u 2 b.toNat)) s

/-- `sor` (R278): the uniform form of the vector instruction. -/
def execSor (h : Hdr) (d a b : Reg) (s : State) : Host.Outcome State Fault Refusal :=
  uniIssue (.sor h d a b) h d (fun f _ => (f.u 1 a.toNat) ||| (f.u 2 b.toNat)) s

/-- `sxor` (R278): the uniform form of the vector instruction. -/
def execSxor (h : Hdr) (d a b : Reg) (s : State) : Host.Outcome State Fault Refusal :=
  uniIssue (.sxor h d a b) h d (fun f _ => (f.u 1 a.toNat) ^^^ (f.u 2 b.toNat)) s

/-- `sshr` (R278): the uniform form of the vector instruction. -/
def execSshr (h : Hdr) (d a b : Reg) (s : State) : Host.Outcome State Fault Refusal :=
  uniIssue (.sshr h d a b) h d (fun f _ => shrWord (f.u 1 a.toNat) (f.u 2 b.toNat)) s

/-- `ssar` (R278): the uniform form of the vector instruction. -/
def execSsar (h : Hdr) (d a b : Reg) (s : State) : Host.Outcome State Fault Refusal :=
  uniIssue (.ssar h d a b) h d (fun f _ => sarWord (f.u 1 a.toNat) (f.u 2 b.toNat)) s

/-- `smin.n` (R278): the uniform form of the vector instruction. -/
def execSminN (h : Hdr) (d a b : Reg) (s : State) : Host.Outcome State Fault Refusal :=
  uniIssue (.sminN h d a b) h d (fun f _ => minN (f.u 1 a.toNat) (f.u 2 b.toNat)) s

/-- `smax.n` (R278): the uniform form of the vector instruction. -/
def execSmaxN (h : Hdr) (d a b : Reg) (s : State) : Host.Outcome State Fault Refusal :=
  uniIssue (.smaxN h d a b) h d (fun f _ => maxN (f.u 1 a.toNat) (f.u 2 b.toNat)) s

/-- `sadd` (R278): the uniform form of the vector instruction. -/
def execSadd (h : Hdr) (d a b : Reg) (s : State) : Host.Outcome State Fault Refusal :=
  uniIssue (.sadd h d a b) h d (fun f _ => (f.u 1 a.toNat) + (f.u 2 b.toNat)) s

/-- `ssub` (R278): the uniform form of the vector instruction. -/
def execSsub (h : Hdr) (d a b : Reg) (s : State) : Host.Outcome State Fault Refusal :=
  uniIssue (.ssub h d a b) h d (fun f _ => (f.u 1 a.toNat) - (f.u 2 b.toNat)) s

/-- `smul` (R278): the uniform form of the vector instruction. -/
def execSmul (h : Hdr) (d a b : Reg) (s : State) : Host.Outcome State Fault Refusal :=
  uniIssue (.smul h d a b) h d (fun f _ => (f.u 1 a.toNat) * (f.u 2 b.toNat)) s

/-- `sshl` (R278): the uniform form of the vector instruction. -/
def execSshl (h : Hdr) (d a b : Reg) (s : State) : Host.Outcome State Fault Refusal :=
  uniIssue (.sshl h d a b) h d (fun f _ => shlWord (f.u 1 a.toNat) (f.u 2 b.toNat)) s

/-- `scmp.c` (R279): the predicate of every thread of the warp that has not exited. -/
def execScmp (h : Hdr) (c : ICond) (p : PReg) (a b : Reg) (s : State) : Host.Outcome State Fault Refusal :=
  regIssue (.scmp h c p a b) h.s h.g (fun f part w => if part.isEmpty then w else w.setPAll p (iHolds c (f.u 1 a.toNat) (f.u 2 b.toNat))) s

/-- `sadd64` (R278): on uniform pairs. -/
def execSadd64 (h : Hdr) (d a b : Reg) (s : State) : Host.Outcome State Fault Refusal :=
  uniIssue2 (.sadd64 h d a b) h d (fun f _ => f.u2 1 a.toNat + f.u2 2 b.toNat) s

/-- `saddi` (R278): with the signed immediate. -/
def execSaddi (h : Hdr) (d a : Reg) (i : BitVec 7) (s : State) : Host.Outcome State Fault Refusal :=
  uniIssue (.saddi h d a i) h d (fun f _ => (f.u 1 a.toNat) + imm7 i) s

/-- `smov` (R278): sD := sA. -/
def execSmov (h : Hdr) (d a : Reg) (s : State) : Host.Outcome State Fault Refusal :=
  uniIssue (.smov h d a) h d (fun f _ => (f.u 1 a.toNat)) s

/-- `smov64` (R278): sD pair := sA pair. -/
def execSmov64 (h : Hdr) (d a : Reg) (s : State) : Host.Outcome State Fault Refusal :=
  uniIssue2 (.smov64 h d a) h d (fun f _ => f.u2 1 a.toNat) s

/-- `spopc` (R278): the uniform form of the vector instruction. -/
def execSpopc (h : Hdr) (d a : Reg) (s : State) : Host.Outcome State Fault Refusal :=
  uniIssue (.spopc h d a) h d (fun f _ => popcWord (f.u 1 a.toNat)) s

/-- `sclz` (R278): the uniform form of the vector instruction. -/
def execSclz (h : Hdr) (d a : Reg) (s : State) : Host.Outcome State Fault Refusal :=
  uniIssue (.sclz h d a) h d (fun f _ => clzWord (f.u 1 a.toNat)) s

/-- `sneg` (R278): the uniform form of the vector instruction. -/
def execSneg (h : Hdr) (d a : Reg) (s : State) : Host.Outcome State Fault Refusal :=
  uniIssue (.sneg h d a) h d (fun f _ => 0 - (f.u 1 a.toNat)) s

/-- `slil` (R280): the uniform form of the vector constant. -/
def execSlil (s' : Bool) (d : Reg) (i : BitVec 17) (s : State) : Host.Outcome State Fault Refusal :=
  regIssue (.slil s' d i) s' 0 (fun _ part w => if part.isEmpty then w else w.setU d.toNat (immLow i)) s

/-- `slih` (R280): the uniform form of the vector constant. -/
def execSlih (s' : Bool) (d : Reg) (i : BitVec 17) (s : State) : Host.Outcome State Fault Refusal :=
  regIssue (.slih s' d i) s' 0 (fun f part w => if part.isEmpty then w else w.setU d.toNat (immHigh i (f.u 0 d.toNat))) s

end Sys2Proof.Machine
end

