-- ==== Sys2Proof/Machine/Worlds.lean ====
section
/-! DEFINITION. Worlds and protected memory (R121 to R136): the end of a world command, the TENSOR packets, bounce channels, SCRUB and
the tamper alarm. -/

namespace Sys2Proof.Machine

/-! ## World commands (R124 to R126) -/

/-- A sector of 32 bytes read by firmware, which has no context to stop (R68, R69, R128, R130). -/
def State.firmwareSector (s : State) (a : Nat) : Got :=
  if s.netFails a 32 then { s := s.tamperAlarmed }
  else
    let o := (s.befallRange plainPattern a 32).homeRead plainPattern 0 0 a 32
    { s := o.s, bytes := if o.fail.isSome then none else some o.bytes }

/-- Sectors read one after another, up to the first failure. -/
def readSectors : List Nat → Got → Got
  | [], g => g
  | a :: rest, g =>
    match g.bytes with
    | none => g
    | some bs =>
      let x := g.s.firmwareSector a
      readSectors rest { x with bytes := x.bytes.map fun y => bs ++ y }

/-- The sectors of a page. -/
def sectorsOf (a : Nat) : List Nat := (List.range 128).map fun i => a + 32 * i

/-- A page of HBM that firmware reads, or none where its data fail (R69, R128). Its accesses use the plain pattern (log 7). -/
def State.firmwarePage (s : State) (a : Nat) : Got := readSectors (sectorsOf a) { s := s, bytes := some [] }

/-- A sector written by firmware; a transfer that fails on the network is discarded (R130). -/
def State.putFirmwareSector (s : State) (a : Nat) (bs : List Byte) : State :=
  if s.netFails a 32 then s.tamperAlarmed else ((s.befallRange plainPattern a 32).homeWrite plainPattern 0 0 a 0xFFFFFFFF bs true true).s

/-- A page of HBM that firmware writes, whole lines. -/
def State.putFirmwarePage (s : State) (a : Nat) (bs : List Byte) : State :=
  (List.range 128).foldl (fun st i => st.putFirmwareSector (a + 32 * i) ((bs.drop (32 * i)).take 32)) s

/-- The gates of a policy page (R125). -/
def policyGates (page : List Byte) : List PolicyGate :=
  (List.range (leNat (page.take 4))).map fun i =>
    let g := page.drop (16 + 16 * i)
    { src := g.getD 0 0, dst := g.getD 1 0, tensor := BitVec.ofNat 32 (leNat ((g.drop 4).take 4)) }

/-- The attestation report (R126): what it holds in the order of the rule, signed, within one page. -/
def State.report (s : State) (w : Nat) (policy : BitVec 256) : List Byte :=
  let body := leBytes 8 s.power.serial.toNat ++ leBytes 8 s.mem.leaves ++ Config.firmwareDigests ++ leBytes 32 s.cfg.cfgDigest.toNat
    ++ leBytes 8 w ++ leBytes 16 s.cfg.wVfs.toNat ++ leBytes 32 policy.toNat ++ Config.kemPublic s.mem.leaves
  (body ++ s.signature body ++ List.replicate 4096 0).take 4096

/-- CREATE done (R125, R126). A policy page whose data fail ends it with STATUS 2. -/
def State.createDone (s : State) (w : Nat) : State :=
  let a := s.cfg.wAddr.toNat * 4096
  let r := s.firmwarePage a
  match r.bytes with
  | none => r.s.worldStatus 2 none
  | some page =>
    if s.mem.leaves ≥ allLeaves || leNat (page.take 4) > 16 then r.s.worldStatus 2 none
    else
      let policy := Config.sha256 page
      let x : World := { live := true, kem := true, pair := s.mem.leaves, joint := Config.jointKey s.mem.leaves, vfs := s.cfg.wVfs
                         gates := policyGates page, policy := policy }
      let s1 := { r.s.newKeys w with worlds := Table.put w x s.worlds }
      let s2 := s.namedVfs.foldl (fun st n => st.modCtx n fun c => { c with world := BitVec.ofNat 6 w }) s1
      ((s2.putFirmwarePage (a + 4096) (s.report w policy)).spendLeaf).worldStatus 0 none

/-- A world that has taken one owner's key; with both the private key is erased (R125, R126). -/
def World.take (x : World) (comp : BitVec 2) (key : BitVec 256) : World :=
  let x1 := if comp = 1 then { x with key1 := true, key1Val := key } else { x with key2 := true, key2Val := key }
  { x1 with kem := x1.kem && !(x1.key1 && x1.key2) }

/-- KEY done (R125): the capsule of 1,568 bytes in the page gives the key; `ok` says that it decapsulates. -/
def State.keyDone (s : State) (w : Nat) (ok : Bool) : State :=
  let r := s.firmwarePage (s.cfg.wAddr.toNat * 4096)
  match r.bytes with
  | none => r.s.worldStatus 2 none
  | some page =>
    if !ok then r.s.worldStatus 2 none
    else
      let x := (s.world w).take s.cfg.wComp (Config.decapsulate (s.world w).pair (page.take 1568))
      ({ r.s with worlds := Table.put w x s.worlds } : State).worldStatus (if x.key1 && x.key2 then 4 else 0) none

/-- Firmware finishes the world command; `flag` says that a KEY's capsule decapsulates. -/
def finishWorldCmd (s : State) : Host.Outcome State Fault Refusal :=
  let w := s.cfg.wWorld.toNat
  match s.cfg.wOp with
  | none => .refused .noOccasion
  | some .create => .next (s.createDone w)
  | some .key => .next (s.keyDone w s.input.flag)
  | some .destroy => if s.worldQuiet w then .next ((s.destroyWorld w).worldStatus 0 none) else .refused .noOccasion

/-- `WORLD_CMD_DONE` (R124 to R126). -/
def execWorldCmdDone (s : State) : Host.Outcome State Fault Refusal := throughLinks finishWorldCmd s

/-! ## TENSOR (R127, R129) -/

/-- One granule of a TENSOR range: its local address and the translation of its first page. -/
structure Granule where
  addr : Nat
  tr   : Trans

/-- The granule that 64 KiB of a context's space map to with WRITE, in its world: one aligned granule of HBM, page by page. DEDUCED (log 49). -/
def State.granule (s : State) (c va : Nat) : Option Granule :=
  let page (i : Nat) : Option Trans :=
    if va + 4096 * i ≥ 0x100000000000000 then none
    else match s.translate (0x9300000 + i) c (va + 4096 * i) with
    | .ok t => if t.write && t.world == (s.ctx c).world && s.isOwn t.dev.toNat && regionOf t.frame == .hbm then some t else none
    | .error _ => none
  match page 0 with
  | none => none
  | some t =>
    if t.frame % 65536 = 0 && (List.range 16).all fun i => match page i with
      | some u => u.frame == t.frame + 4096 * i && u.inter == t.inter && u.comp == t.comp
      | none => false
    then some { addr := t.frame, tr := t } else none

/-- The granules of a range, or none where one fails. -/
def State.granules (s : State) (c : Nat) : Nat → Nat → Option (List Granule)
  | 0, _ => some []
  | n + 1, va =>
    match s.granule c va, s.granules c n (va + 65536) with
    | some g, some gs => some (g :: gs)
    | _, _ => none

/-- So many pages walked for one after another, up to the first that has no translation, and whether all have one (R39, R99). -/
def walkPages (c : Nat) : Nat → Nat → State → State × Bool
  | 0, _, s => (s, true)
  | n + 1, va, s =>
    let s1 := s.walkFor c va
    match s1.translate (0x9300000 + va / 4096 % 16) c va with
    | .error _ => (s1.cpxMissed (0x9300000 + va / 4096 % 16) c va, false)
    | .ok _ => walkPages c n (va + 4096) s1

/-- One line written zero under its granule's present tensor entry (R127). -/
def Mem.zeroLine (m : Mem) (k a : Nat) (t : Trans) : Mem :=
  { m with
    cells := m.cells.filter fun c => c.1 < k || k + 64 ≤ c.1
    poison := Sparse.set false (k + 32) false (Sparse.set false k false m.poison)
    lines := Sparse.set {} (k / 64) (m.tagFor a t.world t.comp) m.lines }

/-- The 1,024 lines of a granule: storage location and local address. -/
def State.linesOf (s : State) (g : Granule) : List (Nat × Nat) :=
  (List.range 1024).map fun i => (s.place g.tr.inter.toNat (g.addr + 64 * i), g.addr + 64 * i)

/-- A granule's tensor entry set. -/
def State.setTensor (s : State) (g : Granule) (t : Tensor) : State :=
  { s with mem := { s.mem with tensor := Sparse.set {} (g.addr / 65536) t s.mem.tensor } }

/-- A granule declared or retired: its entry set and every line zero (R129). -/
def State.zeroGranule (t : Granule → Tensor) (s : State) (g : Granule) : State :=
  let s1 := s.setTensor g (t g)
  { s1 with mem := (s1.linesOf g).foldl (fun m l => m.zeroLine l.1 l.2 g.tr) s1.mem }

/-- A granule revised: its lines carried over to the new entry; a line that failed fails on (R128, R129). -/
def State.reviseGranule (version : Word) (s : State) (g : Granule) : State :=
  let old := s.mem
  let s1 := s.setTensor g { old.tensorAt g.addr with version := version, high := version }
  { s1 with mem := (s1.linesOf g).foldl (fun m l =>
      if old.tagOk l.1 l.2 g.tr.world g.tr.comp then { m with lines := Sparse.set {} (l.1 / 64) (m.tagFor l.2 g.tr.world g.tr.comp) m.lines }
      else m) s1.mem }

/-- The event of a TENSOR packet of one OP: refused by `no`, or its effect on each granule (R129). -/
def tensorEvent (op : Nat) (no : Mem → Packet → Granule → Bool) (eff : Packet → State → Granule → State) (s : State) :
    Host.Outcome State Fault Refusal :=
  packetEvent (fun p => p.type == 0x0F && p.field 32 1 == op) (fun s q p c =>
    let s1 := (walkPages c (p.field 16 8 / 4096) (p.field 8 8) s).1
    match s1.granules c (p.field 16 8 / 65536) (p.field 8 8) with
    | none => s1.complete q p Status.addrBad 0
    | some gs =>
      if gs.any (no s1.mem p) then s1.complete q p Status.denied 0
      else (gs.foldl (eff p) s1).complete q p Status.ok 0) s

/-- VERSION of a TENSOR packet. -/
def Packet.version (p : Packet) : Word := BitVec.ofNat 32 (p.field 28 4)

/-- VERSION is not above a granule's HIGH. -/
def notAbove (m : Mem) (p : Packet) (g : Granule) : Bool := !(m.tensorAt g.addr).high.ult p.version

/-- `TENSOR_DECLARE` (R129). -/
def execTensorDeclare (s : State) : Host.Outcome State Fault Refusal :=
  tensorEvent 1 notAbove (fun p s g =>
    s.zeroGranule (fun _ => { id := BitVec.ofNat 32 (p.field 24 4), version := p.version, high := p.version }) g) s

/-- `TENSOR_REVISE` (R129). -/
def execTensorRevise (s : State) : Host.Outcome State Fault Refusal := tensorEvent 2 notAbove (fun p s g => s.reviseGranule p.version g) s

/-- The entry under which a granule is retired. -/
def Mem.retired (m : Mem) (g : Granule) : Tensor :=
  let v := (m.tensorAt g.addr).high + 1
  { id := 0, version := v, high := v }

/-- A granule can take no further version (R129). -/
def Mem.spent (m : Mem) (g : Granule) : Bool := (m.tensorAt g.addr).high == 0xFFFFFFFF

/-- `TENSOR_RETIRE` (R129). -/
def execTensorRetire (s : State) : Host.Outcome State Fault Refusal :=
  tensorEvent 3 (fun m _ g => m.spent g) (fun _ s g => s.zeroGranule s.mem.retired g) s

/-! ## Bounce channels (R132, R133) -/

/-- The key of a channel of a world (R132). -/
def State.channelKey (s : State) (w : BitVec 6) (comp : BitVec 2) (ch : Nat) (dir : Bool) : Nat :=
  Config.channelKey (if comp = 1 then (s.world w.toNat).key1Val else (s.world w.toNat).key2Val) ch dir

/-- The context's address of a chunk's page. -/
def Bounce.page (b : Bounce) : Nat := b.dev.toNat - b.dev.toNat % 4096 + 4096 * b.done.toNat

/-- The translation of a chunk's page, if the channel may use it: in COMP, with WRITE and not flash inbound, with READ outbound
(R66, R132). -/
def State.chunkPage (s : State) (c : Nat) (b : Bounce) : Option Trans :=
  if b.page ≥ 0x100000000000000 then none
  else match s.translate 0x9400000 c b.page with
    | .ok t => if t.world == (s.ctx c).world && t.comp == b.comp && (if b.dir then t.read else t.write && !t.flash) then some t else none
    | .error _ => none

/-- A bounce channel replaced. -/
def State.setBounce (s : State) (c k : Nat) (b : Bounce) : State := s.modCtx c fun x => { x with bounce := Table.put k b x.bounce }

/-- One chunk more is done; the last one ends the transfer. -/
def Bounce.advance (b : Bounce) : Bounce :=
  { b with done := b.done + 1, next := b.next + 1, state := if b.done + 1 = b.chunks then 0 else b.state }

/-- A 64-byte line written whole at a local address: through an MX window in one step, else sector by sector (R64, R128). -/
def State.putLine (s : State) (inter : Nat) (w : BitVec 6) (k : BitVec 2) (a : Nat) (bs : List Byte) : HomeOut :=
  s.engineHome inter w k a (2 ^ 64 - 1) bs

/-- A line of a context whose transfer fails its tag on the network: the context stops, and the alarm is raised (R130). -/
def State.lineTampered (s : State) (c va : Nat) : State := (s.cpxFault c Cause.cipherIntegrity (BitVec.ofNat 64 va)).tamperAlarmed

/-- The line at an address of a context written where it leads: at its home, or sent to the device it lies on. -/
def State.sendLine (s : State) (c va : Nat) (x : Target) (bs : List Byte) : Put :=
  match x with
  | .here a inter w k =>
    if s.netFails a 64 then { s := s.lineTampered c va, ok := false }
    else
      let o := (s.befallRange inter.toNat a 64).putLine inter.toNat w k a bs
      match o.fail with
      | some cause => { s := o.s.cpxFault c cause (BitVec.ofNat 64 va), ok := false }
      | none => { s := o.s }
  | .away dev a w k =>
    let g := s.cpxFar c va dev a (blockRequest (s.subtreeOf c).1 w k a 64 (some bs)) fun _ => some []
    { s := g.s, ok := g.bytes.isSome }
  | _ => { s := s, ok := false }

/-- A page of plaintext written line by line. -/
def State.putChunk (s : State) (c va : Nat) (x : Target) (bs : List Byte) : Put :=
  (List.range 64).foldl (fun r i => if r.ok then r.s.sendLine c (va + 64 * i) (x.plus (64 * i)) ((bs.drop (64 * i)).take 64) else r) { s := s }

/-- The line at an address of a context read where it leads: at its home, or from the device it lies on. -/
def State.fetchLine (s : State) (c va : Nat) (x : Target) : Got :=
  match x with
  | .here a inter w k =>
    if s.netFails a 64 then { s := s.lineTampered c va }
    else
      let o := (s.befallRange inter.toNat a 64).agentRead inter.toNat w k a 64
      match o.fail with
      | some cause => { s := o.s.cpxFault c cause (BitVec.ofNat 64 va) }
      | none => { s := o.s, bytes := some o.bytes }
  | .away dev a w k =>
    s.cpxFar c va dev a (blockRequest (s.subtreeOf c).1 w k a 64 none) fun t => some (t.farBytes (fabricAddr dev a).toNat 64)
  | _ => { s := s }

/-- A page of plaintext read line by line, up to the first failure. -/
def State.getChunk (s : State) (c va : Nat) (x : Target) : Got :=
  (List.range 64).foldl (fun (g : Got) i => match g.bytes with
    | none => g
    | some bs =>
      let r := g.s.fetchLine c (va + 64 * i) (x.plus (64 * i))
      { r with bytes := r.bytes.map fun y => bs ++ y }) { s := s, bytes := some [] }

/-- The first n bytes, zeros where there are fewer. -/
def exactly (n : Nat) (bs : List Byte) : List Byte := (bs ++ List.replicate n 0).take n

/-- A channel stopped as an abort stops it (R132, R133). -/
def State.stopChannel (s : State) (c k : Nat) (b : Bounce) : State := s.setBounce c k { b with state := 2 }

/-- One chunk moved over channel k; one whose page or data fail stops the transfer. -/
def State.moveChunk (s : State) (c k : Nat) (b : Bounce) (t : Trans) : State :=
  let host := b.host.toNat + 4160 * b.done.toNat
  let key := s.channelKey (s.ctx c).world b.comp k b.dir
  let x := s.targetOf t b.page
  if b.dir then
    let g := s.getChunk c b.page x
    match g.bytes with
    | none => g.s.stopChannel c k b
    | some bs => ({ g.s with mem := g.s.mem.writeHost host (exactly 4112 (Config.gcmSeal key b.next.toNat bs)) } : State).setBounce c k b.advance
  else if s.input.flag then
    let r := s.putChunk c b.page x (exactly 4096 (Config.gcmOpen key b.next.toNat (s.mem.readHost host 4112)))
    if r.ok then r.s.setBounce c k b.advance else r.s.stopChannel c k { b with next := b.next + 1 }
  else
    ({ s with cfg := { s.cfg with sec := { s.cfg.sec with resync := true } } } : State).stopChannel c k { b with next := b.next + 1 }

/-- One chunk of a channel, its page walked for. -/
def State.chunk (s : State) (c k : Nat) (b : Bounce) : State :=
  match s.chunkPage c b with
  | none => (s.cpxMissed 0x9400000 c b.page).stopChannel c k b
  | some t => s.moveChunk c k b t

/-- One chunk of channel `ch` of root context `ctx`; `flag` says that an inbound chunk's tag verifies. -/
def runChunk (s : State) : Host.Outcome State Fault Refusal :=
  let c := s.input.ctx.toNat
  let k := s.input.ch.toNat
  let b := (s.ctx c).bounceAt k
  if !s.hasBounce c || b.state != 1 || s.cfg.erased then .refused .noOccasion
  else .next ((s.walkFor c b.page).chunk c k b)

/-- `BCH_CHUNK` (R132, R133). -/
def execBchChunk (s : State) : Host.Outcome State Fault Refusal := throughLinks runChunk s

/-- The status record of a channel (R133): world, channel, DIR, DONE and NEXT, 64 bytes. -/
def bounceRecord (w : BitVec 6) (ch : Nat) (b : Bounce) : List Byte :=
  leBytes 8 w.toNat ++ leBytes 8 ch ++ leBytes 8 (bitNat b.dir) ++ leBytes 8 b.done.toNat ++ leBytes 8 b.next.toNat ++ leBytes 24 0

/-- `BCH_STATUS_RECORD` (R133): channel `ch` of root context `ctx` leaves RESYNC, also after its world is gone; `num` counters of the transfer
beyond NEXT have been read or written in part. With every leaf spent no record is signed, and the channel stays. -/
def execBchStatusRecord (s : State) : Host.Outcome State Fault Refusal :=
  let c := s.input.ctx.toNat
  let k := s.input.ch.toNat
  let b := (s.ctx c).bounceAt k
  if b.state != 2 || s.cfg.erased || s.mem.leaves ≥ allLeaves then .refused .noOccasion
  else
    let left := (b.first + b.chunks.setWidth 64 - b.next).toNat
    let b1 := { b with next := b.next + BitVec.ofNat 64 (min s.input.num left) }
    let rec' := bounceRecord b.world k b1
    .next ((({ s with mem := s.mem.writeHost b.rec_.toNat (rec' ++ s.signature rec') } : State).spendLeaf).setBounce c k { b1 with state := 0 })

/-! ## SCRUB (R134) -/

/-- The salt of a scrub's accesses to a page. -/
def scrubSalt (va : Nat) : Nat := 0x9500000 + va / 4096 % 0x100000

/-- The translation of a root context's own memory that a scrub may write (R134). -/
def State.scrubLead (s : State) (c va : Nat) : Option Trans :=
  if va ≥ 0x100000000000000 then none
  else match s.translate (scrubSalt va) c va with
  | .ok t => if t.write && !t.flash && t.world == (s.ctx c).world then some t else none
  | .error _ => none

/-- The parts of a scrub walked for one after another, up to the first that it may not write, and whether it may write all. -/
def scrubWalks (c : Nat) : List (Nat × Nat) → State → State × Bool
  | [], s => (s, true)
  | p :: rest, s =>
    let s1 := s.walkFor c p.1
    if (s1.scrubLead c p.1).isSome then scrubWalks c rest s1 else (s1.cpxMissed (scrubSalt p.1) c p.1, false)

/-- Zeros written where part of a line leads, in pieces, or as one step where that is an MX window (R64, R213); `whole` is the range that it
belongs to. -/
def State.zeroPart (s : State) (c : Nat) (x : Target) (whole p : Nat × Nat) : Put :=
  (if x.inWindow then [p] else piecesOf p.1 p.2).foldl
    (fun r q => if r.ok then r.s.putTarget c q.1 (x.plus (q.1 - p.1)) (List.replicate q.2 0) whole else r) { s := s }

/-- One part of a range written zero, under the right of the scrub; a failure there ends the scrub (R69, R128, R134). -/
def State.scrubPart (c : Nat) (whole : Nat × Nat) (r : Put) (p : Nat × Nat) : Put :=
  if !r.ok then r
  else match r.s.scrubLead c p.1 with
    | none => { r with ok := false }
    | some t =>
      if p.2 = 64 then r.s.sendLine c p.1 (r.s.targetOf t p.1) (List.replicate 64 0) else r.s.zeroPart c (r.s.targetOf t p.1) whole p

/-- A range written zero, line by line. -/
def State.scrubRange (c : Nat) (r : Put) (g : Nat × Nat) : Put := (linePartsOf g.1 g.2).foldl (State.scrubPart c g) r

/-- The granules of a list of ranges, each a whole number of granules; none where one fails. DESIGN CHOICE (log 49): a range that cuts a granule
fails. -/
def State.rangeGranules (s : State) (c : Nat) : List (Nat × Nat) → Option (List Granule)
  | [] => some []
  | (va, n) :: rest =>
    if va % 65536 ≠ 0 || n % 65536 ≠ 0 then none
    else match s.granules c (n / 65536) va, s.rangeGranules c rest with
      | some x, some y => some (x ++ y)
      | _, _ => none

/-- METHOD 1 of a scrub in world 0: the granules retired, or the status it fails with; a tenant world is destroyed afterwards. -/
def State.scrubKeys (s : State) (c : Nat) (ranges : List (Nat × Nat)) : State × BitVec 8 :=
  if (s.ctx c).world != 0 then (s, Status.ok)
  else match s.rangeGranules c ranges with
    | none => (s, Status.addrBad)
    | some gs => if gs.any s.mem.spent then (s, Status.denied) else (gs.foldl (fun st g => st.zeroGranule st.mem.retired g) s, Status.ok)

/-- The local addresses of a range, page by page, with their lengths. -/
def State.localParts (s : State) (c : Nat) (r : Nat × Nat) : List (Nat × Nat) :=
  ((List.range ((r.1 % 4096 + r.2 + 4095) / 4096)).map fun i =>
    let va := if i = 0 then r.1 else r.1 - r.1 % 4096 + 4096 * i
    let n := min (r.1 + r.2 - va) (4096 - va % 4096)
    match s.scrubLead c va with
    | some t => (t.frame + va % 4096, n)
    | none => (0, 0))

/-- The receipt of a scrub (R134): world, METHOD, count, the ranges in local addresses, and the signature. -/
def State.receipt (s : State) (w : BitVec 6) (method count : Nat) (parts : List (Nat × Nat)) : List Byte :=
  let body := leBytes 8 w.toNat ++ leBytes 8 method ++ leBytes 8 count ++ leBytes 8 parts.length
    ++ parts.flatMap fun p => leBytes 8 p.1 ++ leBytes 8 p.2
  body ++ s.signature body

/-- The ranges of a scrub zeroed, and retired in world 0, as METHOD says; with the status. -/
def State.scrubbed (s : State) (c method : Nat) (ranges : List (Nat × Nat)) : State × BitVec 8 :=
  match scrubWalks c (ranges.flatMap fun r => linePartsOf r.1 r.2) s with
  | (s1, false) => (s1, Status.addrBad)
  | (s1, true) =>
    let r : Put := if method = 1 then { s := s1 } else ranges.foldl (State.scrubRange c) { s := s1 }
    if !r.ok then (r.s, Status.addrBad) else if method = 0 then (r.s, Status.ok) else r.s.scrubKeys c ranges

/-- The receipt of a scrub written, in whole lines, and counted (R133, R134). -/
def State.issueReceipt (s : State) (c va : Nat) (bs : List Byte) : Put :=
  ({ s with mem := { s.mem with scrubs := s.mem.scrubs + 1 } } : State).spendLeaf.putVa c va bs

/-- The end of a scrub: complete, or, where it erases the keys of a tenant world, once that world is destroyed (R126, R134; log 49). -/
def State.endScrub (s : State) (q c : Nat) (p : Packet) (method : Nat) : State :=
  if method = 0 || (s.ctx c).world == 0 then s.complete q p Status.ok 0
  else ((s.worldContexts (s.ctx c).world.toNat).foldl State.stopForGood s).addCmd .scrub c (some (BitVec.ofNat 10 q, p))

/-- A scrub of the ranges given (R134). -/
def State.scrub (s : State) (q c : Nat) (p : Packet) (ranges : List (Nat × Nat)) : State :=
  let method := p.field 20 1
  let bs := padTo 64 (s.receipt (s.ctx c).world method (s.mem.scrubs.toNat + 1) (ranges.flatMap (s.localParts c)))
  if !s.canWrite c (p.field 24 8) bs.length then s.complete q p Status.addrBad 0
  else
    let r := s.scrubbed c method ranges
    if r.2 != Status.ok then r.1.complete q p r.2 0
    else
      let x := r.1.issueReceipt c (p.field 24 8) bs
      if x.ok then x.s.endScrub q c p method else x.s.complete q p Status.addrBad 0

/-- `SCRUB` (R133, R134). -/
def execScrub (s : State) : Host.Outcome State Fault Refusal :=
  packetEvent (ofType 0x10) (fun s q p c =>
    let n := p.field 16 4
    if s.mem.leaves ≥ allLeaves then s.complete q p Status.denied 0
    else
      let list := s.readVa c (p.field 8 8) (16 * n)
      match list.bytes with
      | none => list.s.complete q p Status.addrBad 0
      | some bs => list.s.scrub q c p (rangeList bs n)) s

/-! ## The tamper alarm (R136) -/

/-- `TAMPER_ALARM` (R136). -/
def execTamperAlarm (s : State) : Host.Outcome State Fault Refusal := whenever (s.power.stage != .off) s.tamperAlarmed

end Sys2Proof.Machine
end

