-- ==== Sys2Proof/Machine/Zugzwang.lean ====
section
/-! DEFINITION. The zugzwang rule (R153, R350), the ripe ring of Tempo (R156, R157), and the issue of a word that is no instruction
(R253). -/

namespace Sys2Proof.Machine

/-! ## Zugzwang (R153, R350) -/

/-- A warp of a slot can make progress: it can issue, has a result outstanding, or has engine work bound to a token. -/
def State.progresses (s : State) (x : Nat × Nat × Nat × Warp) : Bool :=
  (match s.team? x.1 with | some tm => s.canIssue x.1 tm x.2.2.2 | none => false) || x.2.2.2.outstanding || !x.2.2.2.tokensZero 0xFF

/-- The parked warp that a slot swaps out: the lowest PRIORITY, then the highest slot-local number, which is read as the latest
placed, then the highest warp number. DEDUCED (log 50). -/
def victim (l : List (Nat × Nat × Nat × Nat × Warp)) : Option (Nat × Nat × Nat × Nat × Warp) :=
  l.foldl (fun m x => match m with
    | none => some x
    | some y =>
      if x.2.2.1 ≠ y.2.2.1 then (if x.2.2.1 < y.2.2.1 then some x else some y)
      else if x.2.2.2.2.placed ≠ y.2.2.2.2.placed then (if y.2.2.2.2.placed < x.2.2.2.2.placed then some x else some y)
      else if y.2.1 < x.2.1 then some x else some y) none

/-- A warp as the safe point directly before its `ralloc` shows it: its threads at that `spt` (R350). -/
def Warp.backToSpt (w : Warp) (i : Nat) : Warp := w.mapThreads fun t => if t.park == .ralloc then { t with park := .spt i } else t

/-- The safe point that a swapped warp's image takes: all its threads are at a `ralloc` whose last issue before was `spt`, and its
entry is good (R194, R350). -/
def State.zugEntry (s : State) (ctx : Nat) (k : Kernel) (w : Warp) : State × Option (Nat × SptEntry) :=
  match w.lastSpt with
  | none => (s, none)
  | some i =>
    if w.threads.all fun t => !t.alive || t.park == .ralloc then
      let r := s.sptEntry ctx k i w.window
      (r.1, r.2.map fun e => (i, e))
    else (s, none)

/-- The image of one warp that the zugzwang rule swaps out, and what it keeps. -/
def State.zugImage (s : State) (tm : Team) (wn : Nat) (w : Warp) : State × WarpImg × List Byte :=
  let k := s.kernelOf tm
  let ctx := s.ctxOf tm
  let (s1, e) := s.zugEntry ctx k w
  let (img, remat, preds) := recordPlan e tm.stage w
  let w1 := match e with | some (i, _) => w.backToSpt i | none => w
  let body := codeBody (w1.record wn k tm.stage img remat preds)
  let head : ImgHead := { pair := k.pair, team := tm.index, ctx := ctx, warps := 1, body := body.length, phase := tm.phase, stage := tm.stage }
  (s1, img, head.bytes ++ body)

/-- Slot `coreSlot` of core `core` swaps out a warp parked at `ralloc`, its image at position `pos` where that is free. -/
def swapOne (s : State) : Host.Outcome State Fault Refusal :=
  let core := s.input.core.toNat
  let slot := s.input.coreSlot.toNat
  if (s.slotWarps core slot).any s.progresses then .refused .noOccasion
  else match victim (s.parkedRallocs core slot) with
    | none => .refused .noOccasion
    | some (t, n, _, _, w) => match s.team? t with
      | none => .refused .noOccasion
      | some tm =>
        let c := s.ctxOf tm
        let (s0, img, bs) := s.zugImage tm n w
        match (s0.ctx c).areaPos bs.length s.input.pos with
        | none => .refused .noOccasion
        | some pos => match s0.holdImage c pos bs with
          | .error f => s.notSaved c f
          | .ok s1 =>
            let s2 := s1.modWarp t n fun x => { x.swapOut with zug := some (pos, bs.length), img := img }
            .next ((s2.serveSlot core slot 0).after t n)

/-- `ZUGZWANG_SWAP` (R152, R153, R350). -/
def execZugzwangSwap (s : State) : Host.Outcome State Fault Refusal := throughLinks swapOne s

/-- A swapped warp as its image restores it, its `ralloc` complete (R153, R203, R350). -/
def Warp.zugBack (w : Warp) (k : Kernel) (stage : Nat) (img : List Byte) : Option Warp :=
  let w0 := if w.img.full then w else w.backToSpt w.img.spt
  if leNat ((img.drop 0x48).take 8) ≠ 1 then none
  else match decodeSized w0.recordSize ((img.drop 128).take (leNat ((img.drop 0xC).take 4))) with
    | none => none
    | some body => (w0.restore k stage body).map fun x => { x.grow with zug := none, freeRalloc := !w.img.full }

/-- Warp `warp` of team `team` re-enters its lane range once it holds the old pages and the request. -/
def reenterWarp (s : State) : Host.Outcome State Fault Refusal :=
  let t := s.input.team
  let n := s.input.warp
  match s.team? t with
  | none => .refused .noOccasion
  | some tm =>
    let w := tm.warp n
    match w.zug with
    | none => .refused .noOccasion
    | some (pos, _) =>
      let ws := s.slotWarps w.core w.slot
      let c := s.ctxOf tm
      if s.stopStands tm || s.isHalted c || ws.length ≥ 32 || !rangeFree ws w.base (s.kernelOf tm).lanes (w.pages + w.rallocAsk) then
        .refused .noOccasion
      else
        let g := s.imageNow c pos
        match g.bytes.bind (w.zugBack (s.kernelOf tm) tm.stage) with
        | none => .next (if g.s.isHalted c then g.s else g.s.raiseHalt c (badImage tm) false (some t))
        | some w1 =>
          let w2 := { w1 with placed := s.stamp }
          .next (((({ g.s with stamp := s.stamp + 1 } : State).freeImage c pos).modWarp t n fun _ => w2).after t n)

/-- `ZUGZWANG_REENTRY` (R153, R203, R205, R350). -/
def execZugzwangReentry (s : State) : Host.Outcome State Fault Refusal := throughLinks reenterWarp s

/-! ## The ripe ring (R156, R157) -/

/-- A word of a context's memory that Tempo reads where it may store (R157), and what the read leaves. -/
def State.ripeHead (s : State) (c va : Nat) : State × Option DWord :=
  let r := s.engineRead c va 8 .store
  match r.fail with
  | none => (r.s, some (BitVec.ofNat 64 (leNat r.bytes)))
  | some x =>
    let s1 := match x.far with
      | some (dev, a, kind) => r.s.cpxMiss c dev a kind
      | none => if x.cause = Cause.cipherIntegrity then r.s.cpxFault c x.cause (BitVec.ofNat 64 va) else r.s
    (s1.faultMarks x, none)

/-- The oldest deferred entry of context `ctx`, its period over, moves to the ripe ring. -/
def writeRipe (s : State) : Host.Outcome State Fault Refusal :=
  let c := s.input.ctx.toNat
  let x := (s.ctx c).tempo
  match x.deferred with
  | [] => .refused .noOccasion
  | (a, tag) :: rest =>
    let n := 2 ^ x.ringLog2.toNat
    let base := ringAddr x.ringBase
    let place := base + 8 * (x.written.toNat % n)
    if tag > x.gen || !logOk x.ringLog2 || !s.canWrite c place 8 || !s.canWrite c (base + 8 * n) 8 || !s.canWrite c (base + 8 * n + 8) 8 then
      .refused .noOccasion
    else
      match s.ripeHead c (base + 8 * n + 8) with
      | (s1, none) => if s1.isHalted c && !s.isHalted c then .next s1 else .refused .noOccasion
      | (s1, some i) =>
        if s1.stall.isSome then .next s1
        else if x.written - i == BitVec.ofNat 64 n then .refused .noOccasion
        else
          let s2 := s1.writeVa c place (leBytes 8 a.toNat)
          let s3 := s2.writeVa c (base + 8 * n) (leBytes 8 (x.written + 1).toNat)
          .next ((s3.modCtx c fun y => { y with tempo := { y.tempo with deferred := rest, written := x.written + 1 } }).wakeAll)

/-- `RIPE_ENTRY_WRITE` (R156, R157). -/
def execRipeEntryWrite (s : State) : Host.Outcome State Fault Refusal := throughLinks writeRipe s

/-! ## A word that is no instruction (R251 to R253) -/

/-- `ILLEGAL_INSTRUCTION` (R182, R253): the word at issue is no instruction, so the warp stops precisely with no effect. -/
def execIllegalInstruction (s : State) : Host.Outcome State Fault Refusal :=
  match s.focus? with
  | none => .refused .noWarpAtIssue
  | some f => .next (f.stop Cause.illegalInstruction)

end Sys2Proof.Machine
end

