-- ==== Sys2Proof/Machine/Dispatch.lean ====
section
/-! DEFINITION. The one match from instructions and events to their meanings. -/

namespace Sys2Proof.Machine

def exec (i : Instr) (s : State) : Host.Outcome State Fault Refusal :=
  match i with
  | .nop h => Sys2Proof.Machine.execNop h s
  | .exit h => Sys2Proof.Machine.execExit h s
  | .trap h a => Sys2Proof.Machine.execTrap h a s
  | .brk h => Sys2Proof.Machine.execBrk h s
  | .rsb h => Sys2Proof.Machine.execRsb h s
  | .rse h => Sys2Proof.Machine.execRse h s
  | .gpw h => Sys2Proof.Machine.execGpw h s
  | .dfree h a => Sys2Proof.Machine.execDfree h a s
  | .gate h a => Sys2Proof.Machine.execGate h a s
  | .dlrel h a => Sys2Proof.Machine.execDlrel h a s
  | .sysrd h d a => Sys2Proof.Machine.execSysrd h d a s
  | .syswr h d a => Sys2Proof.Machine.execSyswr h d a s
  | .ralloc h a => Sys2Proof.Machine.execRalloc h a s
  | .rfree h a => Sys2Proof.Machine.execRfree h a s
  | .wbase h a => Sys2Proof.Machine.execWbase h a s
  | .cpost h d => Sys2Proof.Machine.execCpost h d s
  | .spt m j => Sys2Proof.Machine.execSpt m j s
  | .wait m n => Sys2Proof.Machine.execWait m n s
  | .br h o => Sys2Proof.Machine.execBr h o s
  | .brM h o => Sys2Proof.Machine.execBrM h o s
  | .call h o => Sys2Proof.Machine.execCall h o s
  | .brx h a => Sys2Proof.Machine.execBrx h a s
  | .brxM h a => Sys2Proof.Machine.execBrxM h a s
  | .barJoin h a => Sys2Proof.Machine.execBarJoin h a s
  | .barMark h a => Sys2Proof.Machine.execBarMark h a s
  | .barHold h a => Sys2Proof.Machine.execBarHold h a s
  | .fence h o c => Sys2Proof.Machine.execFence h o c s
  | .cstage h => Sys2Proof.Machine.execCstage h s
  | .coll h a => Sys2Proof.Machine.execColl h a s
  | .tld h d a => Sys2Proof.Machine.execTld h d a s
  | .tst h d a => Sys2Proof.Machine.execTst h d a s
  | .mma h d a b => Sys2Proof.Machine.execMma h d a b s
  | .mmz h d a b => Sys2Proof.Machine.execMmz h d a b s
  | .cmma h d a b => Sys2Proof.Machine.execCmma h d a b s
  | .cmmz h d a b => Sys2Proof.Machine.execCmmz h d a b s
  | .accSt h d a t f => Sys2Proof.Machine.execAccSt h d a t f s
  | .accLd h d t f => Sys2Proof.Machine.execAccLd h d t f s
  | .accZero h d n => Sys2Proof.Machine.execAccZero h d n s
  | .vlil m d j => Sys2Proof.Machine.execVlil m d j s
  | .vlih m d j => Sys2Proof.Machine.execVlih m d j s
  | .slil m d j => Sys2Proof.Machine.execSlil m d j s
  | .slih m d j => Sys2Proof.Machine.execSlih m d j s
  | .ld h d a n => Sys2Proof.Machine.execLd h d a n s
  | .st h d a n => Sys2Proof.Machine.execSt h d a n s
  | .sld h d a n => Sys2Proof.Machine.execSld h d a n s
  | .sst h d a n => Sys2Proof.Machine.execSst h d a n s
  | .atomAdd h d a n => Sys2Proof.Machine.execAtomAdd h d a n s
  | .atomAnd h d a n => Sys2Proof.Machine.execAtomAnd h d a n s
  | .atomOr h d a n => Sys2Proof.Machine.execAtomOr h d a n s
  | .atomXor h d a n => Sys2Proof.Machine.execAtomXor h d a n s
  | .atomMinI h d a n => Sys2Proof.Machine.execAtomMinI h d a n s
  | .atomMaxI h d a n => Sys2Proof.Machine.execAtomMaxI h d a n s
  | .atomMinN h d a n => Sys2Proof.Machine.execAtomMinN h d a n s
  | .atomMaxN h d a n => Sys2Proof.Machine.execAtomMaxN h d a n s
  | .atomSwap h d a n => Sys2Proof.Machine.execAtomSwap h d a n s
  | .atomCas h d a n => Sys2Proof.Machine.execAtomCas h d a n s
  | .atomFadd h d a n => Sys2Proof.Machine.execAtomFadd h d a n s
  | .atomFmax h d a n => Sys2Proof.Machine.execAtomFmax h d a n s
  | .sand h d a b => Sys2Proof.Machine.execSand h d a b s
  | .sor h d a b => Sys2Proof.Machine.execSor h d a b s
  | .sxor h d a b => Sys2Proof.Machine.execSxor h d a b s
  | .sshr h d a b => Sys2Proof.Machine.execSshr h d a b s
  | .ssar h d a b => Sys2Proof.Machine.execSsar h d a b s
  | .sminN h d a b => Sys2Proof.Machine.execSminN h d a b s
  | .smaxN h d a b => Sys2Proof.Machine.execSmaxN h d a b s
  | .iadd h d a b => Sys2Proof.Machine.execIadd h d a b s
  | .isub h d a b => Sys2Proof.Machine.execIsub h d a b s
  | .imul h d a b => Sys2Proof.Machine.execImul h d a b s
  | .imulhI h d a b => Sys2Proof.Machine.execImulhI h d a b s
  | .imulhN h d a b => Sys2Proof.Machine.execImulhN h d a b s
  | .imad h d a b => Sys2Proof.Machine.execImad h d a b s
  | .iand h d a b => Sys2Proof.Machine.execIand h d a b s
  | .ior h d a b => Sys2Proof.Machine.execIor h d a b s
  | .ixor h d a b => Sys2Proof.Machine.execIxor h d a b s
  | .iandn h d a b => Sys2Proof.Machine.execIandn h d a b s
  | .ishl h d a b => Sys2Proof.Machine.execIshl h d a b s
  | .ishr h d a b => Sys2Proof.Machine.execIshr h d a b s
  | .isar h d a b => Sys2Proof.Machine.execIsar h d a b s
  | .iminI h d a b => Sys2Proof.Machine.execIminI h d a b s
  | .imaxI h d a b => Sys2Proof.Machine.execImaxI h d a b s
  | .iminN h d a b => Sys2Proof.Machine.execIminN h d a b s
  | .imaxN h d a b => Sys2Proof.Machine.execImaxN h d a b s
  | .clmul h d a b => Sys2Proof.Machine.execClmul h d a b s
  | .clmulh h d a b => Sys2Proof.Machine.execClmulh h d a b s
  | .iadd64 h d a b => Sys2Proof.Machine.execIadd64 h d a b s
  | .isub64 h d a b => Sys2Proof.Machine.execIsub64 h d a b s
  | .imulwN h d a b => Sys2Proof.Machine.execImulwN h d a b s
  | .bfeN h d a b => Sys2Proof.Machine.execBfeN h d a b s
  | .bfeI h d a b => Sys2Proof.Machine.execBfeI h d a b s
  | .bfi h d a b => Sys2Proof.Machine.execBfi h d a b s
  | .perm h d a b => Sys2Proof.Machine.execPerm h d a b s
  | .sel h d a b => Sys2Proof.Machine.execSel h d a b s
  | .icmp h c p a b => Sys2Proof.Machine.execIcmp h c p a b s
  | .iaddi h d a j => Sys2Proof.Machine.execIaddi h d a j s
  | .ishli h d a j => Sys2Proof.Machine.execIshli h d a j s
  | .ishri h d a j => Sys2Proof.Machine.execIshri h d a j s
  | .isari h d a j => Sys2Proof.Machine.execIsari h d a j s
  | .iaddVs h d a b => Sys2Proof.Machine.execIaddVs h d a b s
  | .imulVs h d a b => Sys2Proof.Machine.execImulVs h d a b s
  | .imadVs h d a b => Sys2Proof.Machine.execImadVs h d a b s
  | .iandVs h d a b => Sys2Proof.Machine.execIandVs h d a b s
  | .ishlVs h d a b => Sys2Proof.Machine.execIshlVs h d a b s
  | .ishrVs h d a b => Sys2Proof.Machine.execIshrVs h d a b s
  | .icmpVs h c p a b => Sys2Proof.Machine.execIcmpVs h c p a b s
  | .iadd64Vs h d a b => Sys2Proof.Machine.execIadd64Vs h d a b s
  | .mov h d a => Sys2Proof.Machine.execMov h d a s
  | .mov64 h d a => Sys2Proof.Machine.execMov64 h d a s
  | .popc h d a => Sys2Proof.Machine.execPopc h d a s
  | .clz h d a => Sys2Proof.Machine.execClz h d a s
  | .brev h d a => Sys2Proof.Machine.execBrev h d a s
  | .ineg h d a => Sys2Proof.Machine.execIneg h d a s
  | .iabs h d a => Sys2Proof.Machine.execIabs h d a s
  | .laneid h d => Sys2Proof.Machine.execLaneid h d s
  | .bcast h d a => Sys2Proof.Machine.execBcast h d a s
  | .rdl h d a => Sys2Proof.Machine.execRdl h d a s
  | .pand h d b a => Sys2Proof.Machine.execPand h d b a s
  | .por h d b a => Sys2Proof.Machine.execPor h d b a s
  | .pxor h d b a => Sys2Proof.Machine.execPxor h d b a s
  | .pandn h d b a => Sys2Proof.Machine.execPandn h d b a s
  | .pnot h d a => Sys2Proof.Machine.execPnot h d a s
  | .pset h d a => Sys2Proof.Machine.execPset h d a s
  | .tidx h d => Sys2Proof.Machine.execTidx h d s
  | .tidy h d => Sys2Proof.Machine.execTidy h d s
  | .tidz h d => Sys2Proof.Machine.execTidz h d s
  | .xlIdx h d a b => Sys2Proof.Machine.execXlIdx h d a b s
  | .xlXor h d a n => Sys2Proof.Machine.execXlXor h d a n s
  | .xlBack h d a n => Sys2Proof.Machine.execXlBack h d a n s
  | .xlFwd h d a n => Sys2Proof.Machine.execXlFwd h d a n s
  | .pcolMask h d a => Sys2Proof.Machine.execPcolMask h d a s
  | .pcolAny h d a => Sys2Proof.Machine.execPcolAny h d a s
  | .pcolAll h d a => Sys2Proof.Machine.execPcolAll h d a s
  | .pcolCnt h d a => Sys2Proof.Machine.execPcolCnt h d a s
  | .wredAdd h d a => Sys2Proof.Machine.execWredAdd h d a s
  | .wredMinI h d a => Sys2Proof.Machine.execWredMinI h d a s
  | .wredMaxI h d a => Sys2Proof.Machine.execWredMaxI h d a s
  | .wredMinN h d a => Sys2Proof.Machine.execWredMinN h d a s
  | .wredMaxN h d a => Sys2Proof.Machine.execWredMaxN h d a s
  | .wredAnd h d a => Sys2Proof.Machine.execWredAnd h d a s
  | .wredOr h d a => Sys2Proof.Machine.execWredOr h d a s
  | .wredXor h d a => Sys2Proof.Machine.execWredXor h d a s
  | .wredFadd h d a => Sys2Proof.Machine.execWredFadd h d a s
  | .pfxAddIn h d a => Sys2Proof.Machine.execPfxAddIn h d a s
  | .pfxAddEx h d a => Sys2Proof.Machine.execPfxAddEx h d a s
  | .pfxXorIn h d a => Sys2Proof.Machine.execPfxXorIn h d a s
  | .pfxXorEx h d a => Sys2Proof.Machine.execPfxXorEx h d a s
  | .pfxMaxIIn h d a => Sys2Proof.Machine.execPfxMaxIIn h d a s
  | .fadd h d a b => Sys2Proof.Machine.execFadd h d a b s
  | .fsub h d a b => Sys2Proof.Machine.execFsub h d a b s
  | .fmul h d a b => Sys2Proof.Machine.execFmul h d a b s
  | .ffma h d a b => Sys2Proof.Machine.execFfma h d a b s
  | .fmin h d a b => Sys2Proof.Machine.execFmin h d a b s
  | .fmax h d a b => Sys2Proof.Machine.execFmax h d a b s
  | .fcmp h c p a b => Sys2Proof.Machine.execFcmp h c p a b s
  | .faddVs h d a b => Sys2Proof.Machine.execFaddVs h d a b s
  | .fmulVs h d a b => Sys2Proof.Machine.execFmulVs h d a b s
  | .ffmaVs h d a b => Sys2Proof.Machine.execFfmaVs h d a b s
  | .badd2 h d a b => Sys2Proof.Machine.execBadd2 h d a b s
  | .bmul2 h d a b => Sys2Proof.Machine.execBmul2 h d a b s
  | .bfma2 h d a b => Sys2Proof.Machine.execBfma2 h d a b s
  | .cmul h d a b => Sys2Proof.Machine.execCmul h d a b s
  | .cfma h d a b => Sys2Proof.Machine.execCfma h d a b s
  | .twosum h d a b => Sys2Proof.Machine.execTwosum h d a b s
  | .frcp h d a => Sys2Proof.Machine.execFrcp h d a s
  | .frsq h d a => Sys2Proof.Machine.execFrsq h d a s
  | .fsqrt h d a => Sys2Proof.Machine.execFsqrt h d a s
  | .fexp2 h d a => Sys2Proof.Machine.execFexp2 h d a s
  | .flog2 h d a => Sys2Proof.Machine.execFlog2 h d a s
  | .fsinp h d a => Sys2Proof.Machine.execFsinp h d a s
  | .fcosp h d a => Sys2Proof.Machine.execFcosp h d a s
  | .fabs h d a => Sys2Proof.Machine.execFabs h d a s
  | .fneg h d a => Sys2Proof.Machine.execFneg h d a s
  | .ffloor h d a => Sys2Proof.Machine.execFfloor h d a s
  | .fceil h d a => Sys2Proof.Machine.execFceil h d a s
  | .ftrunc h d a => Sys2Proof.Machine.execFtrunc h d a s
  | .frint h d a => Sys2Proof.Machine.execFrint h d a s
  | .fclass h d a => Sys2Proof.Machine.execFclass h d a s
  | .cvtF32I32 h d a => Sys2Proof.Machine.execCvtF32I32 h d a s
  | .cvtF32N32 h d a => Sys2Proof.Machine.execCvtF32N32 h d a s
  | .cvtI32F32 h d a => Sys2Proof.Machine.execCvtI32F32 h d a s
  | .cvtN32F32 h d a => Sys2Proof.Machine.execCvtN32F32 h d a s
  | .cvtI32F32Rz h d a => Sys2Proof.Machine.execCvtI32F32Rz h d a s
  | .cvtBf16x2F32 h d a => Sys2Proof.Machine.execCvtBf16x2F32 h d a s
  | .cvtF32Bf16x2 h d a => Sys2Proof.Machine.execCvtF32Bf16x2 h d a s
  | .cvtF16x2F32 h d a => Sys2Proof.Machine.execCvtF16x2F32 h d a s
  | .cvtF32F16x2 h d a => Sys2Proof.Machine.execCvtF32F16x2 h d a s
  | .cvtE4m3x4F32 h d a => Sys2Proof.Machine.execCvtE4m3x4F32 h d a s
  | .cvtE5m2x4F32 h d a => Sys2Proof.Machine.execCvtE5m2x4F32 h d a s
  | .cvtF32E4m3x4 h d a => Sys2Proof.Machine.execCvtF32E4m3x4 h d a s
  | .cvtF32E5m2x4 h d a => Sys2Proof.Machine.execCvtF32E5m2x4 h d a s
  | .twoprod h d a b => Sys2Proof.Machine.execTwoprod h d a b s
  | .fcmpVs h c p a b => Sys2Proof.Machine.execFcmpVs h c p a b s
  | .hadd2 h d a b => Sys2Proof.Machine.execHadd2 h d a b s
  | .hmul2 h d a b => Sys2Proof.Machine.execHmul2 h d a b s
  | .hfma2 h d a b => Sys2Proof.Machine.execHfma2 h d a b s
  | .sadd h d a b => Sys2Proof.Machine.execSadd h d a b s
  | .ssub h d a b => Sys2Proof.Machine.execSsub h d a b s
  | .smul h d a b => Sys2Proof.Machine.execSmul h d a b s
  | .sshl h d a b => Sys2Proof.Machine.execSshl h d a b s
  | .scmp h c p a b => Sys2Proof.Machine.execScmp h c p a b s
  | .sadd64 h d a b => Sys2Proof.Machine.execSadd64 h d a b s
  | .saddi h d a j => Sys2Proof.Machine.execSaddi h d a j s
  | .smov h d a => Sys2Proof.Machine.execSmov h d a s
  | .smov64 h d a => Sys2Proof.Machine.execSmov64 h d a s
  | .spopc h d a => Sys2Proof.Machine.execSpopc h d a s
  | .sclz h d a => Sys2Proof.Machine.execSclz h d a s
  | .sneg h d a => Sys2Proof.Machine.execSneg h d a s
  | .mainPowerOn => Sys2Proof.Machine.execMainPowerOn s
  | .mainPowerOff => Sys2Proof.Machine.execMainPowerOff s
  | .hostLinkTrained => Sys2Proof.Machine.execHostLinkTrained s
  | .firmwareLoaded => Sys2Proof.Machine.execFirmwareLoaded s
  | .unitTrained => Sys2Proof.Machine.execUnitTrained s
  | .fullService => Sys2Proof.Machine.execFullService s
  | .resetGo => Sys2Proof.Machine.execResetGo s
  | .clockAdjust => Sys2Proof.Machine.execClockAdjust s
  | .powerCtlWrite => Sys2Proof.Machine.execPowerCtlWrite s
  | .registerWrite => Sys2Proof.Machine.execRegisterWrite s
  | .cfgLock => Sys2Proof.Machine.execCfgLock s
  | .cfgRun => Sys2Proof.Machine.execCfgRun s
  | .cfgRunDone => Sys2Proof.Machine.execCfgRunDone s
  | .hashMaskWrite => Sys2Proof.Machine.execHashMaskWrite s
  | .hashMaskZeroingDone => Sys2Proof.Machine.execHashMaskZeroingDone s
  | .owlRekey => Sys2Proof.Machine.execOwlRekey s
  | .linkKeyInstalled => Sys2Proof.Machine.execLinkKeyInstalled s
  | .remoteRequestSend => Sys2Proof.Machine.execRemoteRequestSend s
  | .linkTagFailure => Sys2Proof.Machine.execLinkTagFailure s
  | .linkFailed => Sys2Proof.Machine.execLinkFailed s
  | .remoteRequestArrive => Sys2Proof.Machine.execRemoteRequestArrive s
  | .undeliverable => Sys2Proof.Machine.execUndeliverable s
  | .remoteMissReply => Sys2Proof.Machine.execRemoteMissReply s
  | .remoteAck => Sys2Proof.Machine.execRemoteAck s
  | .homePerform => Sys2Proof.Machine.execHomePerform s
  | .resultReturn => Sys2Proof.Machine.execResultReturn s
  | .cqWrite => Sys2Proof.Machine.execCqWrite s
  | .cqEnable => Sys2Proof.Machine.execCqEnable s
  | .cqDisable => Sys2Proof.Machine.execCqDisable s
  | .cqRestart => Sys2Proof.Machine.execCqRestart s
  | .cqReadWrite => Sys2Proof.Machine.execCqReadWrite s
  | .crReadWrite => Sys2Proof.Machine.execCrReadWrite s
  | .packetStart => Sys2Proof.Machine.execPacketStart s
  | .launch => Sys2Proof.Machine.execLaunch s
  | .mboxPut => Sys2Proof.Machine.execMboxPut s
  | .mboxTake => Sys2Proof.Machine.execMboxTake s
  | .mboxWaitServed => Sys2Proof.Machine.execMboxWaitServed s
  | .write => Sys2Proof.Machine.execWrite s
  | .faultDone => Sys2Proof.Machine.execFaultDone s
  | .flogAppend => Sys2Proof.Machine.execFlogAppend s
  | .flogAppendCommit => Sys2Proof.Machine.execFlogAppendCommit s
  | .childCreate => Sys2Proof.Machine.execChildCreate s
  | .setShare => Sys2Proof.Machine.execSetShare s
  | .freeze => Sys2Proof.Machine.execFreeze s
  | .freezeComplete => Sys2Proof.Machine.execFreezeComplete s
  | .thaw => Sys2Proof.Machine.execThaw s
  | .checkpoint => Sys2Proof.Machine.execCheckpoint s
  | .checkpointCommit => Sys2Proof.Machine.execCheckpointCommit s
  | .revoke => Sys2Proof.Machine.execRevoke s
  | .revokeComplete => Sys2Proof.Machine.execRevokeComplete s
  | .preempt => Sys2Proof.Machine.execPreempt s
  | .inval => Sys2Proof.Machine.execInval s
  | .invalComplete => Sys2Proof.Machine.execInvalComplete s
  | .rootPtbWrite => Sys2Proof.Machine.execRootPtbWrite s
  | .forwardedCommand => Sys2Proof.Machine.execForwardedCommand s
  | .tensorDeclare => Sys2Proof.Machine.execTensorDeclare s
  | .tensorRevise => Sys2Proof.Machine.execTensorRevise s
  | .tensorRetire => Sys2Proof.Machine.execTensorRetire s
  | .scrub => Sys2Proof.Machine.execScrub s
  | .completionRecordWrite => Sys2Proof.Machine.execCompletionRecordWrite s
  | .bundleRetire => Sys2Proof.Machine.execBundleRetire s
  | .handlerRecordWrite => Sys2Proof.Machine.execHandlerRecordWrite s
  | .rootHqIdxWrite => Sys2Proof.Machine.execRootHqIdxWrite s
  | .worldCreate => Sys2Proof.Machine.execWorldCreate s
  | .worldKey => Sys2Proof.Machine.execWorldKey s
  | .worldDestroy => Sys2Proof.Machine.execWorldDestroy s
  | .worldCmdDone => Sys2Proof.Machine.execWorldCmdDone s
  | .bchEnable => Sys2Proof.Machine.execBchEnable s
  | .bchGo => Sys2Proof.Machine.execBchGo s
  | .bchChunk => Sys2Proof.Machine.execBchChunk s
  | .bchAbort => Sys2Proof.Machine.execBchAbort s
  | .bchStatusRecord => Sys2Proof.Machine.execBchStatusRecord s
  | .tamperAlarm => Sys2Proof.Machine.execTamperAlarm s
  | .teamPlace => Sys2Proof.Machine.execTeamPlace s
  | .teamImageCommit => Sys2Proof.Machine.execTeamImageCommit s
  | .teamReentry => Sys2Proof.Machine.execTeamReentry s
  | .engineHaltStop => Sys2Proof.Machine.execEngineHaltStop s
  | .haltSaveComplete => Sys2Proof.Machine.execHaltSaveComplete s
  | .zugzwangSwap => Sys2Proof.Machine.execZugzwangSwap s
  | .zugzwangReentry => Sys2Proof.Machine.execZugzwangReentry s
  | .ripeEntryWrite => Sys2Proof.Machine.execRipeEntryWrite s
  | .tempoRingWrite => Sys2Proof.Machine.execTempoRingWrite s
  | .markedBranchRendezvous => Sys2Proof.Machine.execMarkedBranchRendezvous s
  | .tceEntryComplete => Sys2Proof.Machine.execTceEntryComplete s
  | .mxeOperationComplete => Sys2Proof.Machine.execMxeOperationComplete s
  | .collComplete => Sys2Proof.Machine.execCollComplete s
  | .watchWrite => Sys2Proof.Machine.execWatchWrite s
  | .illegalInstruction => Sys2Proof.Machine.execIllegalInstruction s
  | .forwardedCommandAnswer => Sys2Proof.Machine.execForwardedCommandAnswer s
  | .retransmissionRequest => Sys2Proof.Machine.execRetransmissionRequest s

end Sys2Proof.Machine
end

