-- ==== Sys2Proof/Machine/Issue.lean ====
section
/-! DEFINITION. The issue opportunity (R144 to R146): what keeps each warp from issuing, the warp that a slot's opportunity goes to, the
warps packed with it, and the issue itself. -/

namespace Sys2Proof.Machine

/-! ## What a warp waits for before its next issue -/

/-- A memory instruction: its header, address register, bytes of an access, and whether it is uniform (R304). -/
def Instr.access? (i : Instr) : Option (Hdr × Reg × Nat × Bool) :=
  match i with
  | .ld h _ a m | .st h _ a m => some (h, a, m.size.bytes, false)
  | .sld h _ a m | .sst h _ a m => some (h, a, m.size.bytes, true)
  | .atomAdd h _ a m | .atomAnd h _ a m | .atomOr h _ a m | .atomXor h _ a m | .atomMinI h _ a m | .atomMaxI h _ a m
  | .atomMinN h _ a m | .atomMaxN h _ a m | .atomSwap h _ a m | .atomCas h _ a m | .atomFadd h _ a m | .atomFmax h _ a m =>
    some (h, a, atomBytes m, false)
  | _ => none

/-- The addresses that a memory instruction at issue translates, none where it does not come to that (R184, R253). -/
def Focus.walked (f : Focus) (i : Instr) (x : Hdr × Reg × Nat × Bool) : List Nat :=
  let part := f.takers x.1.g
  let ls := if x.2.2.2 then uniLane x.2.1 f part else vecLanes x.2.1 f part
  if (x.1.s && f.wp.outstanding) || (memHold (if x.2.2.2 then fun _ => 1 else id) f part).isSome || !i.wellFormed || !f.regsOk i.uses
      || f.wp.plyLeft == 0 || ls.any fun l => l.2.toNat % x.2.2.1 != 0 || (f.aperture l.2 x.2.2.1).isNone then []
  else ls.filterMap fun l => match f.aperture l.2 x.2.2.1 with
    | some .ctx => some l.2.toNat
    | _ => none

/-- The walks of the instruction at issue made, for what they leave (R45 to R47, R68, R128, R130; log 68). -/
def State.walkLanes (s : State) (i : Instr) : State :=
  match Instr.access? i, s.focus? with
  | some x, some f => (f.walked i x).foldl (fun st va => st.walkFor f.ctx va) s
  | _, _ => s

/-- The issue of an instruction: its walks, then its effect. -/
def issueOne (i : Instr) (s : State) : Host.Outcome State Fault Refusal := exec i (s.walkLanes i)

/-- What the next instruction of a warp would wait for, found by trying its issue (R47, R106, R144: a warp can issue when nothing holds
it). -/
def State.nextHold (s : State) (t wn : Nat) (w : Warp) : Option Hold :=
  match (({ s with stall := none } : State).modWarp t wn fun x => { x with hold := none }).prepare t wn w with
  | .done y => (s.waitsFor y).map Hold.plane
  | .run i x => match issueOne i x with
    | .next y => match s.waitsFor y, y.team? t with
      | some l, _ => some (.plane l)
      | none, some tm => (tm.warp wn).hold
      | none, none => none
    | _ => none

/-- Every warp that nothing else keeps from issuing, with what its next instruction waits for. -/
def State.settleHolds (s : State) : State :=
  { s with teams := s.teams.map fun p =>
      let settled (n : Nat) : Warp :=
        let w := p.2.warp n
        if s.canIssue p.1 p.2 w then { w with hold := s.nextHold p.1 n w } else w
      (p.1, { p.2 with warps := (List.range p.2.warps.length).map settled }) }

/-- The state with every wait that is over ended and the records of dispatchers and link ports kept (R106, R144). -/
def State.upToDate (s : State) : State := s.wakeAll.refreshPorts.settleHolds.refreshDisp

/-! ## The warps of an issue -/

/-- The warps of a slot that can issue, of one context. -/
def State.offersFor (s : State) (core slot c : Nat) : List Offer := (s.offers core).filter fun o => o.wp.slot == slot && o.ctx == c

/-- The contexts runnable on a slot (R144). -/
def State.contexts (s : State) (core slot : Nat) : List Nat :=
  (((s.offers core).filter fun o => o.wp.slot == slot).map Offer.ctx).eraseDups

/-- The warp that a slot's opportunity goes to (R144, R145). -/
def State.pickWarp (s : State) (core slot : Nat) : Option Offer :=
  match pickPass s.eng.disp core (s.contexts core slot) with
  | none => none
  | some c => pickOffer (s.offersFor core slot c)

/-- An instruction whose effect is not confined to its warp's own lanes, registers and memory accesses, so that it never leaves in a
packed issue (R146, R180; log 57). -/
def issuesAlone (i : Instr) : Bool :=
  match i with
  | .exit _ | .trap _ _ | .brk _ | .gpw _ | .dfree _ _ | .gate _ _ | .dlrel _ _ | .ralloc _ _ | .rfree _ _ | .cpost _ _ | .spt _ _
  | .brM _ _ | .brxM _ _ | .barJoin _ _ | .barMark _ _ | .barHold _ _ | .cstage _ | .coll _ _ | .tld _ _ _ | .tst _ _ _
  | .mma _ _ _ _ | .mmz _ _ _ _ | .cmma _ _ _ _ | .cmmz _ _ _ _ | .accSt _ _ _ _ _ | .accLd _ _ _ _ | .accZero _ _ _
  | .illegalInstruction => true
  | _ => false

/-- The lane ranges of two offers of a slot are disjoint (R146). -/
def State.apart (s : State) (a b : Offer) : Bool :=
  let lanes (o : Offer) : Nat := match s.team? o.team with | some tm => (s.kernelOf tm).lanes | none => 0
  decide (a.wp.base + lanes a ≤ b.wp.base) || decide (b.wp.base + lanes b ≤ a.wp.base)

/-- Two offers run the same kernel at equal selected program counters (R146). -/
def State.alike (s : State) (a b : Offer) : Bool :=
  match s.team? a.team, s.team? b.team with
  | some x, some y => x.bundle == y.bundle && x.kernel == y.kernel && a.wp.selectPc == b.wp.selectPc
  | _, _ => false

/-- The warps packed with the one an opportunity goes to: of those that the event names, the ones that may be (R146). -/
def State.packed (s : State) (core : Nat) (o : Offer) : List Offer :=
  s.input.pack.foldl (fun got p =>
    match (s.offersFor core o.wp.slot o.ctx).find? fun x => x.team == p.1 && x.wn == p.2 with
    | some x => if s.alike o x && (o :: got).all (s.apart x) then got ++ [x] else got
    | none => got) []

/-! ## The issue -/

/-- A warp of the chosen context on the slot after an opportunity that goes elsewhere: passed over once more, or not able to issue
(R145). -/
def State.passOver (s : State) (core slot c : Nat) (o : Offer) (t wn : Nat) (w : Warp) : Warp :=
  if w.core != core || w.slot != slot || (t == o.team && wn == o.wn) then w
  else if (s.offersFor core slot c).any fun x => x.team == t && x.wn == wn then { w with overlooked := w.overlooked + 1 }
  else { w with overlooked := 0 }

/-- The opportunity charged to its context, and counted for the context's other warps (R144, R145). -/
def State.charged (s : State) (core slot : Nat) (o : Offer) : State :=
  { s with
    eng := { s.eng with disp := chargePass s.eng.disp core o.ctx (s.stride .core o.ctx) }
    teams := s.teams.map fun p =>
      if s.ctxOf p.2 == o.ctx then
        (p.1, { p.2 with warps := (List.range p.2.warps.length).map fun n => s.passOver core slot o.ctx o p.1 n (p.2.warp n) })
      else p }

/-- The instruction at hand issued for one more warp; one whose packets have to wait is not packed (R47, R106, R146). -/
def issueAlso (i : Instr) (y : State) (o : Offer) : State :=
  match o.wp.selectPc with
  | none => y
  | some pc =>
    match issueOne i { y with issue := some { team := o.team, warp := o.wn, active := o.wp.activeAt pc, pc := pc } } with
    | .next z => if (y.attempt z).2 then (y.attempt z).1 else y
    | _ => y

/-- The warp that an opportunity goes to, charged and made ready. -/
def State.readyFor (s : State) (core slot : Nat) (o : Offer) : Prep :=
  (({ s with stall := none } : State).charged core slot o).prepare o.team o.wn o.wp

/-- What an opportunity comes to whose issue, or fetch, leaves t: an issue whose packets have to wait for a plane, or for their turn at a port,
does not take place, and the opportunity passes (R47, R106). -/
def State.used (s t : State) (more : State → State) : State :=
  match s.attempt t with
  | (u, true) => more u
  | (u, false) => { u with stamp := u.stamp + 1 }

/-- An opportunity used: the instruction of the warp it goes to, and of those packed with it, or what the fetch leaves (R146, R248). -/
def State.issueFor (s : State) (core slot : Nat) (o : Offer) : Host.Outcome State Fault Refusal :=
  match s.readyFor core slot o with
  | .done t => .next (s.used t id)
  | .run i t => match issueOne i t with
    | .next y => .next (s.used y fun u => if issuesAlone i then u else (s.packed core o).foldl (issueAlso i) u)
    | r => r

/-- An opportunity of a slot: with no warp that can issue it passes. -/
def State.runIssue (s : State) (core slot : Nat) : Host.Outcome State Fault Refusal :=
  match s.pickWarp core slot with
  | none => .next s
  | some o => s.issueFor core slot o

end Sys2Proof.Machine
end

