-- ==== Sys2Proof/Machine/Pcie.lean ====
section
/-! DEFINITION. Accesses by the host and other PCI Express agents (R57, R210, R214) to this device's memory, and the host's own memory. The
spec names no address window for them: they stand here by local address (log 9). -/

namespace Sys2Proof.Machine

/-- The parts of an access: within 8-byte words, or within the blocks of an MX window, one step each (R64, R213). -/
def pcieParts (a n : Nat) : List (Nat × Nat) :=
  (linePartsOf a n).flatMap fun p => if regionOf p.1 == .mxWindow then [p] else piecesOf p.1 p.2

/-- A part that the host reaches: memory in service, once step 4 of the start is past (R18, R22, R23). HBM stalls while a HASH_MASK is
zeroing (R56). -/
def State.hostReaches (s : State) (inter : Nat) (p : Nat × Nat) : Bool :=
  (s.power.phase == 3 || s.power.phase == 4) && (regionOf p.1 == .hbm || regionOf p.1 == .sbm || regionOf p.1 == .mxWindow || regionOf p.1 == .flash) && s.inService inter p.1 p.2
    && !(s.cfg.zeroing && (regionOf p.1 == .hbm || regionOf p.1 == .mxWindow))

/-- One part read, as an access of world 0. -/
def hostRead (inter : Nat) (g : Got) (p : Nat × Nat) : Got :=
  match g.bytes with
  | none => g
  | some bs =>
    let o := (g.s.befallRange inter p.1 p.2).agentRead inter 0 0 p.1 p.2
    { s := o.s, bytes := if o.fail.isSome then none else some (bs ++ o.bytes) }

/-- The state after a read by an agent, and the bytes it gets. -/
def State.pcieRead (s : State) (inter a n : Nat) : Got := (pcieParts a n).foldl (hostRead inter) { s := s, bytes := some [] }

/-- Parts written one after another, as accesses of world 0; sectors, words and lines written whole need no read (R69, R128). -/
def hostStore (inter a n : Nat) : List (Nat × Nat) → List Byte → State → State
  | [], _, s => s
  | p :: rest, bs, s =>
    hostStore inter a n rest (bs.drop p.2)
      ((s.befallRange inter p.1 p.2).homeWrite inter 0 0 p.1 (2 ^ 64 - 1) (bs.take p.2) (unitIn (regionOf p.1) a n p.1) (lineIn a n p.1)).s

/-- A write by an agent. -/
def State.pcieWrite (s : State) (inter a : Nat) (bs : List Byte) : State := hostStore inter a bs.length (pcieParts a bs.length) bs s

/-- The device answers reads of its memory with zero and ignores writes: a start has failed in PHASE 15, or a tamper-class alarm has erased
the keys (R21, R136). -/
def State.hostDeaf (s : State) : Bool := s.power.phase == 15 || s.cfg.erased

/-- An access by the host or another PCI Express agent. -/
def execPcie (a : Pcie) (s : State) : Host.Outcome State Fault Refusal :=
  match a with
  | .read addr inter n =>
    if s.hostDeaf then .next s
    else if (pcieParts addr n).all (s.hostReaches inter.toNat) then .next (s.pcieRead inter.toNat addr n).s else .refused .noOccasion
  | .write addr inter bs =>
    if s.hostDeaf then .next s
    else if (pcieParts addr bs.length).all (s.hostReaches inter.toNat) then .next (s.pcieWrite inter.toNat addr bs) else .refused .noOccasion
  | .hostWrite addr bs => .next { s with mem := s.mem.writeHost addr bs }

end Sys2Proof.Machine
end

