-- ==== Sys2Proof/Machine/Step.lean ====
section
/-! DEFINITION. One step of the device: the next move of the agenda, or, when the agenda is empty, an issue opportunity or an
event the device makes by itself. -/

namespace Sys2Proof.Machine

/-- An event of the device with its operands. -/
def State.runEvent (s : State) (i : Instr) (x : Input) : Host.Outcome State Fault Refusal :=
  exec i { s with issue := none, input := x }

/-- The first of the device's own events that has its occasion, or else what is given. -/
def State.runFirst (s : State) (other : Host.Outcome State Fault Refusal) : List (Instr × Input) → Host.Outcome State Fault Refusal
  | [] => other
  | (i, x) :: rest =>
    match s.runEvent i x with
    | .next t => .next t
    | _ => s.runFirst other rest

/-- What the device does by itself: every fourth issue waits until no event of its own has its occasion, so that neither the
warps nor the other units are kept waiting for good. DESIGN CHOICE (log 4). -/
def State.goOn (s : State) : Host.Outcome State Fault Refusal :=
  match s.readySlot with
  | some (core, slot) => if s.stamp % 4 = 0 then s.runFirst (s.runIssue core slot) s.ownEvents else s.runIssue core slot
  | none => s.runFirst (.next s) s.ownEvents

/-- A move of the agenda, on a state brought up to date. -/
def State.runMove (s : State) (m : Move) : Host.Outcome State Fault Refusal :=
  match m with
  | .event i x => s.upToDate.runEvent i x
  | .issue core slot x => ({ s with input := x } : State).upToDate.runIssue core slot
  | .prefetch b k off x => .next (({ s with input := x } : State).upToDate.prefetch b k off)
  | .pcie a x => execPcie a ({ s with input := x } : State).upToDate

/-- A move that powers a dark device up (R17). -/
def Move.powersOn (m : Move) : Bool :=
  match m with
  | .event .mainPowerOn _ => true
  | _ => false

/-- The state a step works on: the step is counted, and free choices are drawn anew in it (log 5). -/
def State.begun (s : State) (agenda : List Move) : State := { s with agenda := agenda, input := {}, freeCtr := s.freeCtr + 1, steps := s.steps + 1 }

/-- One step of the device. -/
def step (s : State) : Host.Outcome State Fault Refusal :=
  match s.agenda with
  | m :: rest => if s.power.stage == .off && !m.powersOn then .fault .mainPowerOff else (s.begun rest).runMove m
  | [] => if s.power.stage == .off then .fault .mainPowerOff else (s.begun []).upToDate.goOn

/-- The warp that `withFetchWord` makes resident: eight threads of one warp of width 8 at code offset 0. -/
def fetchWarp : Warp :=
  { pages := 4, plyLeft := 100, placed := 1
    threads := (List.range 8).map fun l => { lane := l, tx := l, ty := 0, tz := 0 } }

/-- The kernel it runs: code at context virtual address 0x10000, sixteen tiles and accumulators, one page of scratchpad. -/
def fetchKernel : Kernel :=
  { codeBase := 0x10000, teamX := 8, regPages := 4, accs := 16, tiles := 16, spmBytes := 4096, ply := 100, nextTeam := 1 }

/-- A root stage of three tables in HBM that maps the first GiB of context 0 onto the first GiB of stack 0, all rights. -/
def State.withIdentityStage (s : State) : State :=
  let s1 := s.writeLocal plainPattern 0x1000 (leBytes 8 0x2001)
  let s2 := s1.writeLocal plainPattern 0x2000 (leBytes 8 0x3001)
  s2.writeLocal plainPattern 0x3000 (leBytes 8 0x49F)

/-- The state with an instruction stored where the next step fetches it. A program comes from outside: this stands for a
launch that has placed one team of one warp whose first word is the instruction (log 3). -/
def State.withFetchWord (s : State) (_nbits w : Nat) : State :=
  let s1 := { s with power := { s.power with stage := .full, phase := 4 }, cfg := { s.cfg with state := .run } }
  let s2 := s1.withIdentityStage.setCtx 0 { live := true, started := true, ptb := 1 }
  let s3 := s2.writeLocal 1 0x10000 (leBytes 4 w)
  { s3 with
    bundles := [(0, { ctx := 0, queue := 0, index := 0, tag := 0, cpl := false, ring := 0, priority := 0, gateWait := 0, gateRel := 0
                      binds := [], kernels := [fetchKernel] })]
    teams := [(0, { bundle := 0, kernel := 0, index := 0, warps := [fetchWarp] })]
    eng := { s3.eng with castle := [] }
    agenda := [] }

end Sys2Proof.Machine
end

