-- ==== Sys2Proof/Safety.lean ====
section
/-! DEFINITION. What counts as a safe run of the device in the terms statements use. -/

namespace Sys2Proof

open Machine

/-- The memory of a state is in canonical form. -/
def MemoryOk (s : State) : Prop := s.mem.wf = true

/-- A run of a number of steps that meets no fault and no refusal. -/
def SafeRun : Nat → State → Prop
  | 0, _ => True
  | n + 1, s => ∃ t, step s = .next t ∧ SafeRun n t

end Sys2Proof
end

