-- ==== Sys2Proof/Certificates/Slice0/Obligations.lean ====
section
/-! DEFINITION. The statements about the IL9 model, and the words they are stated in. Each obligation's docstring names the rules of
spec/ it formalises. -/

namespace Sys2Proof.Claims

open Sys2Proof Sys2Proof.Machine

/-! ## What an issue leaves and changes -/

/-- The conditions under which an instruction of the core issues with its own effect, so far as they do not depend on the
instruction: a warp is at issue, a switch marker finds nothing outstanding (R170), the decode checks pass (R253), the registers
named exist (R165), and the ply budget is not spent (R195). -/
def Ready (i : Instr) (mark : Bool) (s : State) (f : Focus) : Prop :=
  s.focus? = some f ∧ (mark = true → f.wp.outstanding = false) ∧ i.wellFormed = true ∧ f.regsOk i.uses = true ∧ f.wp.plyLeft ≠ 0

/-- The lanes that take part: active, and the guard predicate of the lane's thread is 1, p0 reading 1 (R246, R264). -/
def takes (f : Focus) (g : PReg) : List Nat :=
  f.active.filter fun l => (f.wp.thread? l).any fun t => g == 0 || t.preds.getLsbD g.toNat

/-- A state that differs from the one before an issue in the warp at issue only, which has become `w`: every other team, every
other warp, all of memory, every queue, context and unit is as before (two counters of the model count the issue). -/
structure OnlyWarp (f : Focus) (t : State) (w : Warp) : Prop where
  rest   : t = { f.s with teams := t.teams, stamp := f.s.stamp + 1, freeCtr := f.s.freeCtr + 1 }
  others : ∀ k, k ≠ f.tid → t.team? k = f.s.team? k
  team   : t.team? f.tid = some { f.tm with warps := f.tm.warps.set f.wn w }
  memory : ∀ k, t.mem.get k = f.s.mem.get k

/-- The warp's own accounting of an issue: ISSUE_COUNT up and PLY_LEFT down by one, the active set recorded, SKIP_WATCH cleared
(R147, R195, R200, R208). Nothing else of the record `base` changes but its threads, its uniform registers and its outstanding
results, of which a statement speaks by itself. -/
structure Counted (f : Focus) (base w : Warp) : Prop where
  fields : w = { base with
    issues := f.wp.issues + 1, plyLeft := f.wp.plyLeft - 1, active := w.active, lastIssue := f.s.stamp, overlooked := 0
    hold := none, skipWatch := false, lastSpt := none, threads := w.threads, uni := w.uni, pend := w.pend }
  active : ∀ l, w.active.getLsbD l = true ↔ l < 64 ∧ l ∈ f.active

/-- One thread after an issue: only its program counter, its PASSED count, its registers and its predicates may change. An active
thread goes on to `next`, and one that is eligible and not active is passed over once more (R147). -/
structure Stepped (f : Focus) (next : Word) (a b : Thread) : Prop where
  fields : b = { a with pc := b.pc, passed := b.passed, regs := b.regs, preds := b.preds }
  pc     : b.pc = if a.lane ∈ f.active then next else a.pc
  passed : b.passed = if a.lane ∈ f.active then 0 else if a.park = .none then a.passed + 1 else a.passed

/-- Two lists of one length, whose members at each position are related. -/
def Each {α : Type} (R : α → α → Prop) (xs ys : List α) : Prop :=
  xs.length = ys.length ∧ ∀ (i : Nat) (x y : α), xs[i]? = some x → ys[i]? = some y → R x y

/-- The stored value of an allocated register of a thread. -/
def reg (t : Thread) (idx : Nat) : Word := Sparse.get 0 idx t.regs

/-- The predicates of a thread are as before. -/
def SamePreds (a b : Thread) : Prop := b.preds = a.preds
/-- The vector registers of a thread are as before. -/
def SameRegs (a b : Thread) : Prop := ∀ idx, reg b idx = reg a idx
/-- The uniform registers of a warp are as before. -/
def SameUni (a b : Warp) : Prop := ∀ r, b.uRaw r = a.uRaw r

/-- The outstanding results of a warp after writes to some of their registers: either value may stand at the end (R171). -/
def marked (hit : PendCell → Bool) (p : List Pend) : List Pend :=
  p.map fun e => { e with cells := e.cells.map fun c => { c with rewritten := c.rewritten || hit c } }

/-- The effect of an instruction that writes `n` vector registers from `d` on in the lanes of `part`, through the window: register
k of lane l takes a word that `ok l k` admits; every other register, predicate and lane keeps its value (R167, R264). An active
thread goes on to `next`. -/
def VecEffectTo (f : Focus) (t : State) (next : Thread → Word) (part : List Nat) (d n : Nat) (ok : Nat → Nat → Word → Prop) : Prop :=
  ∃ w, OnlyWarp f t w ∧ Counted f f.wp w ∧ SameUni f.wp w ∧
    w.pend = marked (fun c => !c.uni && part.contains c.lane && decide (f.wp.window * 8 + d ≤ c.reg) && decide (c.reg < f.wp.window * 8 + d + n))
      f.wp.pend ∧
    Each (fun a b => Stepped f (next a) a b ∧ SamePreds a b ∧
      ∀ idx, if a.lane ∈ part ∧ f.wp.window * 8 + d ≤ idx ∧ idx < f.wp.window * 8 + d + n
        then ok a.lane (idx - (f.wp.window * 8 + d)) (reg b idx) else reg b idx = reg a idx) f.wp.threads w.threads

/-- The same for an instruction that goes on to the next one. -/
def VecEffect (f : Focus) (t : State) (part : List Nat) (d n : Nat) (ok : Nat → Nat → Word → Prop) : Prop :=
  VecEffectTo f t (fun _ => f.pc + 4) part d n ok

/-- The effect of an instruction that writes `n` uniform registers from `d` on, once, when at least one thread takes part
(R264). -/
def UniEffect (f : Focus) (t : State) (part : List Nat) (d n : Nat) (ok : Nat → Word → Prop) : Prop :=
  ∃ w, OnlyWarp f t w ∧ Counted f f.wp w ∧
    (∀ r, if part ≠ [] ∧ d ≤ r ∧ r < d + n then ok (r - d) (w.uRaw r) else w.uRaw r = f.wp.uRaw r) ∧
    w.pend = marked (fun c => !part.isEmpty && c.uni && decide (d ≤ c.reg) && decide (c.reg < d + n)) f.wp.pend ∧
    Each (fun a b => Stepped f (f.pc + 4) a b ∧ SamePreds a b ∧ SameRegs a b) f.wp.threads w.threads

/-- The effect of an instruction that writes predicate `p` of the threads that `sel` admits; a write to p0 is discarded (R252,
R264, R277). -/
def PredEffect (f : Focus) (t : State) (sel : Thread → Prop) (p : PReg) (val : Nat → Bool) : Prop :=
  ∃ w, OnlyWarp f t w ∧ Counted f f.wp w ∧ SameUni f.wp w ∧ w.pend = f.wp.pend ∧
    Each (fun a b => Stepped f (f.pc + 4) a b ∧ SameRegs a b ∧
      ∀ n < 8, (sel a ∧ p ≠ 0 ∧ n = p.toNat → b.preds.getLsbD n = val a.lane) ∧
        (¬(sel a ∧ p ≠ 0 ∧ n = p.toNat) → b.preds.getLsbD n = a.preds.getLsbD n)) f.wp.threads w.threads

/-- The effect of a producer whose results return later: `cells` become outstanding when a thread takes part, and no register
changes yet (R170, R171). -/
def PendEffect (f : Focus) (t : State) (part : List Nat) (cells : List PendCell) : Prop :=
  ∃ w, OnlyWarp f t w ∧ Counted f f.wp w ∧ SameUni f.wp w ∧
    w.pend = f.wp.pend ++ (if part = [] then [] else [{ req := none, cells := cells }]) ∧
    Each (fun a b => Stepped f (f.pc + 4) a b ∧ SamePreds a b ∧ SameRegs a b) f.wp.threads w.threads

/-- The effect of an instruction that changes fields of the warp record only, given by `base`. -/
def WarpEffect (f : Focus) (t : State) (base : Warp) : Prop :=
  ∃ w, OnlyWarp f t w ∧ Counted f base w ∧ SameUni f.wp w ∧ w.pend = f.wp.pend ∧
    Each (fun a b => Stepped f (f.pc + 4) a b ∧ SamePreds a b ∧ SameRegs a b) f.wp.threads w.threads

/-! ## Forms -/

/-- What a vector instruction writes: its switch marker, its guard, its first destination register, how many it writes, and the
words they may take. -/
structure VecForm where
  mark  : Bool
  guard : PReg
  dest  : Reg
  count : Nat
  ok    : Focus → Nat → Nat → Word → Prop

/-- What a uniform instruction writes. -/
structure UniForm where
  mark  : Bool
  guard : PReg
  dest  : Reg
  count : Nat
  ok    : Focus → List Nat → Nat → Word → Prop

/-- What an instruction writes to a predicate. -/
structure PredForm where
  mark  : Bool
  guard : PReg
  dest  : PReg
  val   : Focus → Nat → Bool

/-- The instruction runs with its effect wherever it is ready. -/
def VecRuns (i : Instr) (F : VecForm) : Prop :=
  ∀ s f, Ready i F.mark s f → ∃ t, exec i s = .next t ∧ VecEffect f t (takes f F.guard) F.dest.toNat F.count (F.ok f)

/-- The instruction runs with its effect wherever it is ready. -/
def UniRuns (i : Instr) (F : UniForm) : Prop :=
  ∀ s f, Ready i F.mark s f →
    ∃ t, exec i s = .next t ∧ UniEffect f t (takes f F.guard) F.dest.toNat F.count (F.ok f (takes f F.guard))

/-- The instruction runs with its effect wherever it is ready. -/
def PredRuns (i : Instr) (F : PredForm) : Prop :=
  ∀ s f, Ready i F.mark s f → ∃ t, exec i s = .next t ∧ PredEffect f t (fun a => a.lane ∈ takes f F.guard) F.dest (F.val f)

/-- A form whose registers take given words. -/
def vec (h : Hdr) (d : Reg) (n : Nat) (val : Focus → Nat → Nat → Word) : VecForm :=
  ⟨h.s, h.g, d, n, fun f l k w => w = val f l k⟩

/-- A form whose one register takes given bits. -/
def vecBits (h : Hdr) (d : Reg) (n : Nat) (bit : Focus → Nat → Nat → Nat → Bool) : VecForm :=
  ⟨h.s, h.g, d, n, fun f l k w => ∀ m < 32, w.getLsbD m = bit f l k m⟩

/-- A uniform form whose registers take given words. -/
def uni (h : Hdr) (d : Reg) (n : Nat) (val : Focus → List Nat → Nat → Word) : UniForm :=
  ⟨h.s, h.g, d, n, fun f part k w => w = val f part k⟩

/-- A uniform form whose one register takes given bits. -/
def uniBits (h : Hdr) (d : Reg) (bit : Focus → Nat → Bool) : UniForm :=
  ⟨h.s, h.g, d, 1, fun f _ _ w => ∀ m < 32, w.getLsbD m = bit f m⟩

/-! ## Operand values: what the read of operand A (position 1), B (position 2) or D (position 0) yields -/

/-- vA of a lane. -/
def vA (f : Focus) (a : Reg) (l : Nat) : Word := f.v 1 l a.toNat
/-- vB of a lane. -/
def vB (f : Focus) (b : Reg) (l : Nat) : Word := f.v 2 l b.toNat
/-- vD of a lane before the instruction. -/
def vD (f : Focus) (d : Reg) (l : Nat) : Word := f.v 0 l d.toNat
/-- sA. -/
def sA (f : Focus) (a : Reg) : Word := f.u 1 a.toNat
/-- sB. -/
def sB (f : Focus) (b : Reg) : Word := f.u 2 b.toNat
/-- The pair vA as a number, the even register low (R166). -/
def vA64 (f : Focus) (a : Reg) (l : Nat) : Nat := (f.v 1 l a.toNat).toNat + 2 ^ 32 * (f.v 1 l (a.toNat + 1)).toNat
/-- The pair vB as a number. -/
def vB64 (f : Focus) (b : Reg) (l : Nat) : Nat := (f.v 2 l b.toNat).toNat + 2 ^ 32 * (f.v 2 l (b.toNat + 1)).toNat
/-- The pair sA as a number. -/
def sA64 (f : Focus) (a : Reg) : Nat := (f.u 1 a.toNat).toNat + 2 ^ 32 * (f.u 1 (a.toNat + 1)).toNat
/-- The pair sB as a number. -/
def sB64 (f : Focus) (b : Reg) : Nat := (f.u 2 b.toNat).toNat + 2 ^ 32 * (f.u 2 (b.toNat + 1)).toNat

/-- A word from a natural number, modulo 2^32. -/
def wN (n : Nat) : Word := BitVec.ofNat 32 n
/-- A word from an integer, modulo 2^32. -/
def wI (n : Int) : Word := BitVec.ofInt 32 n
/-- Word k of a pair that holds a number modulo 2^64 (R166). -/
def pairN (n : Nat) (k : Nat) : Word := BitVec.ofNat 32 (n / 2 ^ (32 * k))
/-- Word k of a pair that holds an integer modulo 2^64. -/
def pairI (n : Int) (k : Nat) : Word := BitVec.ofInt 32 (n / 2 ^ (32 * k))

/-! ## The integer instructions -/

/-- The results of R265, R272 to R274 that are arithmetic on whole words. -/
def arithmetic : Instr → Option VecForm
  | .iadd h d a b => some (vec h d 1 fun f l _ => wN ((vA f a l).toNat + (vB f b l).toNat))
  | .isub h d a b => some (vec h d 1 fun f l _ => wI ((vA f a l).toNat - (vB f b l).toNat))
  | .imul h d a b => some (vec h d 1 fun f l _ => wN ((vA f a l).toNat * (vB f b l).toNat))
  | .imulhI h d a b => some (vec h d 1 fun f l _ => wI ((vA f a l).toInt * (vB f b l).toInt / 2 ^ 32))
  | .imulhN h d a b => some (vec h d 1 fun f l _ => wN ((vA f a l).toNat * (vB f b l).toNat / 2 ^ 32))
  | .imad h d a b => some (vec h d 1 fun f l _ => wN ((vA f a l).toNat * (vB f b l).toNat + (vD f d l).toNat))
  | .iminI h d a b => some (vec h d 1 fun f l _ => if (vA f a l).toInt ≤ (vB f b l).toInt then vA f a l else vB f b l)
  | .imaxI h d a b => some (vec h d 1 fun f l _ => if (vA f a l).toInt ≥ (vB f b l).toInt then vA f a l else vB f b l)
  | .iminN h d a b => some (vec h d 1 fun f l _ => if (vA f a l).toNat ≤ (vB f b l).toNat then vA f a l else vB f b l)
  | .imaxN h d a b => some (vec h d 1 fun f l _ => if (vA f a l).toNat ≥ (vB f b l).toNat then vA f a l else vB f b l)
  | .iadd64 h d a b => some (vec h d 2 fun f l k => pairN (vA64 f a l + vB64 f b l) k)
  | .isub64 h d a b => some (vec h d 2 fun f l k => pairI (vA64 f a l - vB64 f b l) k)
  | .imulwN h d a b => some (vec h d 2 fun f l k => pairN ((vA f a l).toNat * (vB f b l).toNat) k)
  | .iaddi h d a i => some (vec h d 1 fun f l _ => wI ((vA f a l).toNat + i.toInt))
  | .iaddVs h d a b => some (vec h d 1 fun f l _ => wN ((vA f a l).toNat + (sB f b).toNat))
  | .imulVs h d a b => some (vec h d 1 fun f l _ => wN ((vA f a l).toNat * (sB f b).toNat))
  | .imadVs h d a b => some (vec h d 1 fun f l _ => wN ((vA f a l).toNat * (sB f b).toNat + (vD f d l).toNat))
  | .iadd64Vs h d a b => some (vec h d 2 fun f l k => pairN (vA64 f a l + sB64 f b) k)
  | .ineg h d a => some (vec h d 1 fun f l _ => wI (-((vA f a l).toNat : Int)))
  | .iabs h d a => some (vec h d 1 fun f l _ => wN (vA f a l).toInt.natAbs)
  | .popc h d a => some (vec h d 1 fun f l _ => wN ((List.range 32).countP fun n => (vA f a l).getLsbD n))
  | _ => none

/-- Bit m of the carry-less product: the parity of the products of bits i of B and m − i of A (R267). -/
def clmulBit (a b : Word) (m : Nat) : Bool :=
  ((List.range 32).countP fun i => b.getLsbD i && decide (i ≤ m) && a.getLsbD (m - i)) % 2 == 1

/-- Bit m of a word shifted left by a count (R266). -/
def shlBit (a : Word) (count m : Nat) : Bool := decide (count < 32) && decide (count ≤ m) && a.getLsbD (m - count)
/-- Bit m of a word shifted right by a count, zeros entering (R266). -/
def shrBit (a : Word) (count m : Nat) : Bool := decide (count < 32) && a.getLsbD (m + count)
/-- Bit m of a word shifted right by a count, copies of bit 31 entering (R266). -/
def sarBit (a : Word) (count m : Nat) : Bool := a.getLsbD (min 31 (m + min count 32))

/-- The position and the length that B gives a bit-field instruction (R268). -/
def pos (b : Word) : Nat := b.toNat % 256
def len (b : Word) : Nat := min 32 (b.toNat / 256 % 256)

/-- Bit m of `bfe.n` (R268). -/
def bfeBit (a b : Word) (m : Nat) : Bool := decide (m < len b) && a.getLsbD (pos b + m)
/-- Bit m of `bfe.i` (R268). -/
def bfeSignBit (a b : Word) (m : Nat) : Bool := decide (len b ≠ 0) && a.getLsbD (min 31 (pos b + min m (len b - 1)))
/-- Bit m of `bfi` (R268). -/
def bfiBit (d a b : Word) (m : Nat) : Bool :=
  if pos b ≤ m ∧ m < pos b + len b then a.getLsbD (m - pos b) else d.getLsbD m

/-- Bit m of `perm` (R269). -/
def permBit (a b : Word) (m : Nat) : Bool :=
  let n := b.toNat / 2 ^ (4 * (m / 8)) % 16
  if n < 4 then a.getLsbD (8 * n + m % 8) else if n < 8 then a.getLsbD (8 * (n - 4) + 7) else false

/-- The results of R265 to R269, R272 to R274 that are told by their bits. -/
def bitwise : Instr → Option VecForm
  | .iand h d a b => some (vecBits h d 1 fun f l _ m => (vA f a l).getLsbD m && (vB f b l).getLsbD m)
  | .ior h d a b => some (vecBits h d 1 fun f l _ m => (vA f a l).getLsbD m || (vB f b l).getLsbD m)
  | .ixor h d a b => some (vecBits h d 1 fun f l _ m => (vA f a l).getLsbD m != (vB f b l).getLsbD m)
  | .iandn h d a b => some (vecBits h d 1 fun f l _ m => (vA f a l).getLsbD m && !(vB f b l).getLsbD m)
  | .ishl h d a b => some (vecBits h d 1 fun f l _ m => shlBit (vA f a l) (vB f b l).toNat m)
  | .ishr h d a b => some (vecBits h d 1 fun f l _ m => shrBit (vA f a l) (vB f b l).toNat m)
  | .isar h d a b => some (vecBits h d 1 fun f l _ m => sarBit (vA f a l) (vB f b l).toNat m)
  | .clmul h d a b => some (vecBits h d 1 fun f l _ m => clmulBit (vA f a l) (vB f b l) m)
  | .clmulh h d a b => some (vecBits h d 1 fun f l _ m => clmulBit (vA f a l) (vB f b l) (32 + m))
  | .bfeN h d a b => some (vecBits h d 1 fun f l _ m => bfeBit (vA f a l) (vB f b l) m)
  | .bfeI h d a b => some (vecBits h d 1 fun f l _ m => bfeSignBit (vA f a l) (vB f b l) m)
  | .bfi h d a b => some (vecBits h d 1 fun f l _ m => bfiBit (vD f d l) (vA f a l) (vB f b l) m)
  | .perm h d a b => some (vecBits h d 1 fun f l _ m => permBit (vA f a l) (vB f b l) m)
  | .ishli h d a i => some (vecBits h d 1 fun f l _ m => shlBit (vA f a l) i.toNat m)
  | .ishri h d a i => some (vecBits h d 1 fun f l _ m => shrBit (vA f a l) i.toNat m)
  | .isari h d a i => some (vecBits h d 1 fun f l _ m => sarBit (vA f a l) i.toNat m)
  | .iandVs h d a b => some (vecBits h d 1 fun f l _ m => (vA f a l).getLsbD m && (sB f b).getLsbD m)
  | .ishlVs h d a b => some (vecBits h d 1 fun f l _ m => shlBit (vA f a l) (sB f b).toNat m)
  | .ishrVs h d a b => some (vecBits h d 1 fun f l _ m => shrBit (vA f a l) (sB f b).toNat m)
  | .brev h d a => some (vecBits h d 1 fun f l _ m => (vA f a l).getLsbD (31 - m))
  | _ => none

/-- The number of the zero bits above the highest one bit (R274). -/
def LeadingZeros (a : Word) (n : Nat) : Prop := n ≤ 32 ∧ (∀ m < 32, 32 - n ≤ m → a.getLsbD m = false) ∧ (n < 32 → a.getLsbD (31 - n) = true)

/-- The moves, the constants, the identifiers and the selections (R270, R274 to R276, R280). -/
def moves : Instr → Option VecForm
  | .mov h d a => some (vec h d 1 fun f l _ => vA f a l)
  | .mov64 h d a => some (vec h d 2 fun f l k => f.v 1 l (a.toNat + k))
  | .sel h d a b => some ⟨h.s, 0, d, 1, fun f l _ w =>
      w = if h.g = 0 ∨ (f.wp.thread? l).any (fun t => t.preds.getLsbD h.g.toNat) then vA f a l else vB f b l⟩
  | .bcast h d a => some (vec h d 1 fun f _ _ => sA f a)
  | .clz h d a => some ⟨h.s, h.g, d, 1, fun f l _ w => LeadingZeros (vA f a l) w.toNat⟩
  | .laneid h d => some ⟨h.s, h.g, d, 1, fun _ l _ w => w = wN l⟩
  | .tidx h d => some ⟨h.s, h.g, d, 1, fun f l _ w => ∀ t, f.wp.thread? l = some t → w = wN t.tx⟩
  | .tidy h d => some ⟨h.s, h.g, d, 1, fun f l _ w => ∀ t, f.wp.thread? l = some t → w = wN t.ty⟩
  | .tidz h d => some ⟨h.s, h.g, d, 1, fun f l _ w => ∀ t, f.wp.thread? l = some t → w = wN t.tz⟩
  | .vlil s d i => some ⟨s, 0, d, 1, fun _ _ _ w => w = wI i.toInt⟩
  | .vlih s d i => some ⟨s, 0, d, 1, fun f l _ w => w = wN (i.toNat * 2 ^ 15 + (vD f d l).toNat % 2 ^ 15)⟩
  | _ => none

/-- The uniform instructions (R276, R278, R280). -/
def uniforms : Instr → Option UniForm
  | .sadd h d a b => some (uni h d 1 fun f _ _ => wN ((sA f a).toNat + (sB f b).toNat))
  | .ssub h d a b => some (uni h d 1 fun f _ _ => wI ((sA f a).toNat - (sB f b).toNat))
  | .smul h d a b => some (uni h d 1 fun f _ _ => wN ((sA f a).toNat * (sB f b).toNat))
  | .sand h d a b => some (uniBits h d fun f m => (sA f a).getLsbD m && (sB f b).getLsbD m)
  | .sor h d a b => some (uniBits h d fun f m => (sA f a).getLsbD m || (sB f b).getLsbD m)
  | .sxor h d a b => some (uniBits h d fun f m => (sA f a).getLsbD m != (sB f b).getLsbD m)
  | .sshl h d a b => some (uniBits h d fun f m => shlBit (sA f a) (sB f b).toNat m)
  | .sshr h d a b => some (uniBits h d fun f m => shrBit (sA f a) (sB f b).toNat m)
  | .ssar h d a b => some (uniBits h d fun f m => sarBit (sA f a) (sB f b).toNat m)
  | .sminN h d a b => some (uni h d 1 fun f _ _ => if (sA f a).toNat ≤ (sB f b).toNat then sA f a else sB f b)
  | .smaxN h d a b => some (uni h d 1 fun f _ _ => if (sA f a).toNat ≥ (sB f b).toNat then sA f a else sB f b)
  | .sadd64 h d a b => some (uni h d 2 fun f _ k => pairN (sA64 f a + sB64 f b) k)
  | .saddi h d a i => some (uni h d 1 fun f _ _ => wI ((sA f a).toNat + i.toInt))
  | .smov h d a => some (uni h d 1 fun f _ _ => sA f a)
  | .smov64 h d a => some (uni h d 2 fun f _ k => f.u 1 (a.toNat + k))
  | .spopc h d a => some (uni h d 1 fun f _ _ => wN ((List.range 32).countP fun n => (sA f a).getLsbD n))
  | .sclz h d a => some ⟨h.s, h.g, d, 1, fun f _ _ w => LeadingZeros (sA f a) w.toNat⟩
  | .sneg h d a => some (uni h d 1 fun f _ _ => wI (-((sA f a).toNat : Int)))
  | .rdl h d a => some (uni h d 1 fun f part _ => vA f a (part.headD 0))
  | .slil s d i => some ⟨s, 0, d, 1, fun _ _ _ w => w = wI i.toInt⟩
  | .slih s d i => some ⟨s, 0, d, 1, fun f _ _ w => w = wN (i.toNat * 2 ^ 15 + (f.u 0 d.toNat).toNat % 2 ^ 15)⟩
  | _ => none

/-- What an integer condition says of two words (R252, R271). -/
def holds (c : ICond) (a b : Word) : Bool :=
  match c with
  | .eq => decide (a.toNat = b.toNat) | .ne => decide (a.toNat ≠ b.toNat)
  | .ltI => decide (a.toInt < b.toInt) | .leI => decide (a.toInt ≤ b.toInt)
  | .gtI => decide (a.toInt > b.toInt) | .geI => decide (a.toInt ≥ b.toInt)
  | .ltN => decide (a.toNat < b.toNat) | .leN => decide (a.toNat ≤ b.toNat)
  | .gtN => decide (a.toNat > b.toNat) | .geN => decide (a.toNat ≥ b.toNat)

/-- A predicate of a lane's thread; p0 reads 1 (R165). -/
def pr (f : Focus) (p : PReg) (l : Nat) : Bool := (f.wp.thread? l).any fun t => p == 0 || t.preds.getLsbD p.toNat

/-- The compares on integers and the predicate functions (R271, R273, R277). -/
def predicates : Instr → Option PredForm
  | .icmp h c p a b => some ⟨h.s, h.g, p, fun f l => holds c (vA f a l) (vB f b l)⟩
  | .icmpVs h c p a b => some ⟨h.s, h.g, p, fun f l => holds c (vA f a l) (sB f b)⟩
  | .pand h d b a => some ⟨h.s, h.g, d, fun f l => pr f a l && pr f b l⟩
  | .por h d b a => some ⟨h.s, h.g, d, fun f l => pr f a l || pr f b l⟩
  | .pxor h d b a => some ⟨h.s, h.g, d, fun f l => pr f a l != pr f b l⟩
  | .pandn h d b a => some ⟨h.s, h.g, d, fun f l => pr f a l && !pr f b l⟩
  | .pnot h d a => some ⟨h.s, h.g, d, fun f l => !pr f a l⟩
  | .pset h d a => some ⟨h.s, h.g, d, fun f l => (sA64 f a).testBit l⟩
  | _ => none

/-- The special registers of R349 for the warp at issue. -/
def special (f : Focus) (n : Nat) : Word :=
  let k := f.k
  wN ([f.tm.index % k.gridX, f.tm.index / k.gridX % k.gridY, f.tm.index / (k.gridX * k.gridY), k.gridX, k.gridY, k.gridZ,
      f.wn, 8 * 2 ^ k.width, f.tm.warps.length, f.wp.core, f.wp.core / 96, f.s.fabric.deviceNum.toNat, f.ctx,
      (f.s.ctx f.ctx).level.toNat, f.wp.plyLeft, f.wp.issues.toNat % 2 ^ 32, f.wp.issues.toNat / 2 ^ 32, f.tm.stage,
      f.wp.window, f.wp.pages, f.wp.rsec, k.argBytes, f.wp.userTag.toNat].getD n 0)

/-! ## Numbers: the values of codes as signed rationals, and rounding, said without the model's own arithmetic -/

/-- What a code stands for: a NaN, an infinity, or a magnitude with a sign, zero of either sign among them (R227, R228). -/
inductive NumVal where
  | nan
  | inf (neg : Bool)
  | val (neg : Bool) (q : Rat)
deriving DecidableEq

/-- The magnitude a code without its sign stands for: fraction × 2^(1 − bias − frac) where the exponent field is 0, and
(1 + fraction) × 2^(exponent − bias) elsewhere (R227). -/
def mag (F : Fmt) (c : Nat) : Rat :=
  if c / 2 ^ F.frac = 0 then (c : Rat) * (2 : Rat) ^ (1 - (F.bias : Int) - F.frac)
  else ((2 ^ F.frac + c % 2 ^ F.frac : Nat) : Rat) * (2 : Rat) ^ (((c / 2 ^ F.frac : Nat) : Int) - F.bias - F.frac)

/-- The number of a code of a format (R227 to R229). -/
def numOf (F : Fmt) (code : Nat) : NumVal :=
  let neg := code.testBit F.width
  let c := code % 2 ^ F.width
  if c ≤ F.maxCode then .val (neg && (F.top != .none || c != 0)) (mag F c)
  else if F.top = .ieee ∧ c % 2 ^ F.frac = 0 then .inf neg else .nan

/-- The number of an FP32 register. -/
def num (w : Word) : NumVal := numOf .f32 w.toNat

/-- A signed rational. -/
def signed (neg : Bool) (q : Rat) : Rat := if neg then -q else q

/-- A rational as a number; `z` is the sign a zero takes. -/
def ofRat (z : Bool) (r : Rat) : NumVal := if r = 0 then .val z 0 else .val (decide (r < 0)) r.abs

/-- The other sign. -/
def NumVal.opp : NumVal → NumVal
  | .nan => .nan
  | .inf n => .inf (!n)
  | .val n q => .val (!n) q

/-- The exact sum (R235). -/
def NumVal.plus : NumVal → NumVal → NumVal
  | .val a p, .val b q => ofRat (a && b && p == 0 && q == 0) (signed a p + signed b q)
  | .inf a, .inf b => if a = b then .inf a else .nan
  | .inf a, .val _ _ => .inf a
  | .val _ _, .inf b => .inf b
  | _, _ => .nan

/-- The exact product (R235). -/
def NumVal.times : NumVal → NumVal → NumVal
  | .val a p, .val b q => .val (a != b) (p * q)
  | .inf a, .inf b => .inf (a != b)
  | .inf a, .val b q => if q = 0 then .nan else .inf (a != b)
  | .val a p, .inf b => if p = 0 then .nan else .inf (a != b)
  | _, _ => .nan

/-- The code nearest to a magnitude, ties to the even code, the code above the largest finite one standing for overflow (R236). -/
def Nearest (F : Fmt) (q : Rat) (c : Nat) : Prop :=
  c ≤ F.maxCode + 1 ∧ (∀ d ≤ F.maxCode + 1, (mag F c - q).abs ≤ (mag F d - q).abs) ∧
    (∀ d ≤ F.maxCode + 1, d ≠ c → (mag F d - q).abs = (mag F c - q).abs → c % 2 = 0)

/-- The code with a sign; a format without NaNs writes +0 for a zero (R229). -/
def withSign (F : Fmt) (neg : Bool) (c : Nat) : Nat := (if neg && (F.top != .none || c != 0) then 2 ^ F.width else 0) + c

/-- What stands for a magnitude beyond the largest finite one (R236). -/
def overCode (F : Fmt) : Nat := if F.sat then F.maxCode else F.maxCode + 1

/-- A code is a number rounded RN to a format (R234, R236). -/
def Rounded (F : Fmt) (x : NumVal) (code : Nat) : Prop :=
  match x with
  | .nan => code = F.cnan
  | .inf neg => code = withSign F neg (overCode F)
  | .val neg q => ∃ c, Nearest F q c ∧ code = withSign F neg (if c ≤ F.maxCode then c else overCode F)

/-- A word is a number rounded RN to FP32. -/
def Rounded32 (x : NumVal) (w : Word) : Prop := Rounded .f32 x w.toNat

/-- Element e of a word of 16-bit elements (R292). -/
def half (w : Word) (e : Nat) : Nat := w.toNat / 2 ^ (16 * e) % 2 ^ 16

/-- The integer nearest to a rational, ties to even (R296). -/
def nearestInt (q : Rat) : Int :=
  if q - q.floor < 1 / 2 then q.floor else if q - q.floor > 1 / 2 then q.floor + 1
  else if q.floor % 2 = 0 then q.floor else q.floor + 1

/-- The integer toward zero. -/
def truncInt (q : Rat) : Int := if q < 0 then q.ceil else q.floor

/-- The order of FP32 words that `fmin` and `fmax` follow, as numbers (R289). -/
def rank (w : Word) : Rat × Nat :=
  match num w with
  | .val neg q => (signed neg q, if neg then 0 else 1)
  | .inf neg => (signed neg (2 ^ 200), 0)
  | .nan => (0, 0)

/-- One word goes before another in that order. -/
def before (a b : Word) : Prop := (rank a).1 < (rank b).1 ∨ ((rank a).1 = (rank b).1 ∧ (rank a).2 < (rank b).2)

/-- How two numbers compare: less, equal, or unordered (R290). -/
def numLess (a b : NumVal) : Bool :=
  match a, b with
  | .val m p, .val n q => decide (signed m p < signed n q)
  | .inf m, .inf n => m && !n
  | .inf m, .val _ _ => m
  | .val _ _, .inf n => !n
  | _, _ => false

/-- Two numbers are equal; −0 equals +0 (R290). -/
def numSame (a b : NumVal) : Bool :=
  match a, b with
  | .val m p, .val n q => decide (signed m p = signed n q)
  | .inf m, .inf n => m == n
  | _, _ => false

/-- What a floating condition says of two words (R252, R290). -/
def fholds (c : FCond) (a b : Word) : Bool :=
  let un := num a == .nan || num b == .nan
  let lt := numLess (num a) (num b)
  let gt := numLess (num b) (num a)
  let eq := numSame (num a) (num b)
  match c with
  | .oeq => !un && eq | .one => !un && !eq | .olt => !un && lt | .ole => !un && (lt || eq) | .ogt => !un && gt
  | .oge => !un && (gt || eq) | .ord => !un | .uno => un | .ueq => un || eq | .une => un || !eq | .ult => un || lt
  | .ule => un || lt || eq | .ugt => un || gt | .uge => un || gt || eq

/-- The floating compares (R290, R291). -/
def floatCompares : Instr → Option PredForm
  | .fcmp h c p a b => some ⟨h.s, h.g, p, fun f l => fholds c (vA f a l) (vB f b l)⟩
  | .fcmpVs h c p a b => some ⟨h.s, h.g, p, fun f l => fholds c (vA f a l) (sB f b)⟩
  | _ => none

/-- The pair of words vA. -/
def pA (f : Focus) (a : Reg) (l : Nat) : DWord := f.v 1 l (a.toNat + 1) ++ f.v 1 l a.toNat
/-- The pair of words vB. -/
def pB (f : Focus) (b : Reg) (l : Nat) : DWord := f.v 2 l (b.toNat + 1) ++ f.v 2 l b.toNat
/-- The pair of words vD. -/
def pD (f : Focus) (d : Reg) (l : Nat) : DWord := f.v 0 l (d.toNat + 1) ++ f.v 0 l d.toNat
/-- Word k of a pair. -/
def part (x : DWord) (k : Nat) : Word := x.extractLsb' (32 * k) 32

/-- The words the floating instructions write, as the functions whose values the statements on numbers give (R288 to R298). -/
def floats : Instr → Option VecForm
  | .fadd h d a b => some (vec h d 1 fun f l _ => faddWord (vA f a l) (vB f b l))
  | .fsub h d a b => some (vec h d 1 fun f l _ => fsubWord (vA f a l) (vB f b l))
  | .fmul h d a b => some (vec h d 1 fun f l _ => fmulWord (vA f a l) (vB f b l))
  | .ffma h d a b => some (vec h d 1 fun f l _ => ffmaWord (vA f a l) (vB f b l) (vD f d l))
  | .fmin h d a b => some (vec h d 1 fun f l _ => fminWord (vA f a l) (vB f b l))
  | .fmax h d a b => some (vec h d 1 fun f l _ => fmaxWord (vA f a l) (vB f b l))
  | .faddVs h d a b => some (vec h d 1 fun f l _ => faddWord (vA f a l) (sB f b))
  | .fmulVs h d a b => some (vec h d 1 fun f l _ => fmulWord (vA f a l) (sB f b))
  | .ffmaVs h d a b => some (vec h d 1 fun f l _ => ffmaWord (vA f a l) (sB f b) (vD f d l))
  | .badd2 h d a b => some (vec h d 1 fun f l _ => packedAdd .bf16 (vA f a l) (vB f b l))
  | .bmul2 h d a b => some (vec h d 1 fun f l _ => packedMul .bf16 (vA f a l) (vB f b l))
  | .bfma2 h d a b => some (vec h d 1 fun f l _ => packedFma .bf16 (vA f a l) (vB f b l) (vD f d l))
  | .hadd2 h d a b => some (vec h d 1 fun f l _ => packedAdd .f16 (vA f a l) (vB f b l))
  | .hmul2 h d a b => some (vec h d 1 fun f l _ => packedMul .f16 (vA f a l) (vB f b l))
  | .hfma2 h d a b => some (vec h d 1 fun f l _ => packedFma .f16 (vA f a l) (vB f b l) (vD f d l))
  | .cmul h d a b => some (vec h d 2 fun f l k => part (cmulPair (pA f a l) (pB f b l)) k)
  | .cfma h d a b => some (vec h d 2 fun f l k => part (cfmaPair (pA f a l) (pB f b l) (pD f d l)) k)
  | .twosum h d a b => some (vec h d 2 fun f l k => part (twosumPair (vA f a l) (vB f b l)) k)
  | .twoprod h d a b => some (vec h d 2 fun f l k => part (twoprodPair (vA f a l) (vB f b l)) k)
  | .frcp h d a => some (vec h d 1 fun f l _ => frcpWord (vA f a l))
  | .frsq h d a => some (vec h d 1 fun f l _ => frsqWord (vA f a l))
  | .fsqrt h d a => some (vec h d 1 fun f l _ => fsqrtWord (vA f a l))
  | .fexp2 h d a => some (vec h d 1 fun f l _ => fexp2Word (vA f a l))
  | .flog2 h d a => some (vec h d 1 fun f l _ => flog2Word (vA f a l))
  | .fsinp h d a => some (vec h d 1 fun f l _ => fsinpWord (vA f a l))
  | .fcosp h d a => some (vec h d 1 fun f l _ => fcospWord (vA f a l))
  | .fabs h d a => some (vecBits h d 1 fun f l _ m => (vA f a l).getLsbD m && m != 31)
  | .fneg h d a => some (vecBits h d 1 fun f l _ m => (vA f a l).getLsbD m != (m == 31))
  | .ffloor h d a => some (vec h d 1 fun f l _ => froundWord .floor (vA f a l))
  | .fceil h d a => some (vec h d 1 fun f l _ => froundWord .ceil (vA f a l))
  | .ftrunc h d a => some (vec h d 1 fun f l _ => froundWord .trunc (vA f a l))
  | .frint h d a => some (vec h d 1 fun f l _ => froundWord .near (vA f a l))
  | .fclass h d a => some (vec h d 1 fun f l _ => fclassWord (vA f a l))
  | .cvtF32I32 h d a => some (vec h d 1 fun f l _ => cvtF32I32Word (vA f a l))
  | .cvtF32N32 h d a => some (vec h d 1 fun f l _ => cvtF32N32Word (vA f a l))
  | .cvtI32F32 h d a => some (vec h d 1 fun f l _ => toIntSat .near (-2 ^ 31) (2 ^ 31 - 1) (vA f a l))
  | .cvtN32F32 h d a => some (vec h d 1 fun f l _ => toIntSat .near 0 (2 ^ 32 - 1) (vA f a l))
  | .cvtI32F32Rz h d a => some (vec h d 1 fun f l _ => toIntSat .trunc (-2 ^ 31) (2 ^ 31 - 1) (vA f a l))
  | .cvtBf16x2F32 h d a => some (vec h d 1 fun f l _ => wN ((narrowTo .bf16 (f.v 1 l a.toNat)) + 2 ^ 16 * narrowTo .bf16 (f.v 1 l (a.toNat + 1))))
  | .cvtF32Bf16x2 h d a => some (vec h d 2 fun f l k => widenFrom .bf16 (half (vA f a l) k))
  | .cvtF16x2F32 h d a => some (vec h d 1 fun f l _ => wN ((narrowTo .f16 (f.v 1 l a.toNat)) + 2 ^ 16 * narrowTo .f16 (f.v 1 l (a.toNat + 1))))
  | .cvtF32F16x2 h d a => some (vec h d 2 fun f l k => widenFrom .f16 (half (vA f a l) k))
  | .cvtE4m3x4F32 h d a => some (vec h d 1 fun f l _ => wN (((List.range 4).map fun i => 2 ^ (8 * i) * narrowTo .e4m3 (f.v 1 l (a.toNat + i))).sum))
  | .cvtE5m2x4F32 h d a => some (vec h d 1 fun f l _ => wN (((List.range 4).map fun i => 2 ^ (8 * i) * narrowTo .e5m2 (f.v 1 l (a.toNat + i))).sum))
  | .cvtF32E4m3x4 h d a => some (vec h d 4 fun f l k => widenFrom .e4m3 ((vA f a l).toNat / 2 ^ (8 * k) % 2 ^ 8))
  | .cvtF32E5m2x4 h d a => some (vec h d 4 fun f l k => widenFrom .e5m2 ((vA f a l).toNat / 2 ^ (8 * k) % 2 ^ 8))
  | _ => none

/-- A word is one of the two FP32 values adjacent to a number, or the number itself (R245). -/
def Adjacent (y : ℝ) (w : Word) : Prop :=
  ∃ n q, num w = .val n q ∧
    ((((signed n q : Rat) : ℝ) ≤ y ∧ ∀ v m p, num v = .val m p → ((signed m p : Rat) : ℝ) ≤ y → signed m p ≤ signed n q) ∨
      (y ≤ ((signed n q : Rat) : ℝ) ∧ ∀ v m p, num v = .val m p → y ≤ ((signed m p : Rat) : ℝ) → signed n q ≤ signed m p))

/-- A word is adjacent to a true result, or to a number within 2^-90 of it in proportion, or with no FP32 value between the two. -/
def Near (t : ℝ) (w : Word) : Prop :=
  ∃ y : ℝ, Adjacent y w ∧ (|y - t| ≤ |t| / 2 ^ 90 ∨
    ∀ v m p, num v = .val m p → ¬(min y t ≤ ((signed m p : Rat) : ℝ) ∧ ((signed m p : Rat) : ℝ) ≤ max y t))

/-! ## Results that return later, and the reads they leave open -/

/-- The outstanding result of vector register d in a lane. -/
def vecCell (f : Focus) (d : Reg) (l : Nat) (x : Word) : PendCell := { lane := l, uni := false, reg := f.wp.window * 8 + d.toNat, val := some x }
/-- The outstanding result of uniform register r. -/
def uniCell (r : Nat) (x : Word) : PendCell := { lane := 0, uni := true, reg := r, val := some x }

/-- One cell for each lane that takes part, with a value that `val` admits. -/
def LaneCells (f : Focus) (d : Reg) (part : List Nat) (val : Nat → Word → Prop) (cells : List PendCell) : Prop :=
  cells.length = part.length ∧ ∀ (i l : Nat), part[i]? = some l → ∃ x, cells[i]? = some (vecCell f d l x) ∧ val l x

/-- One uniform cell, with a value that `val` admits. -/
def OneCell (d : Reg) (val : Word → Prop) (cells : List PendCell) : Prop := ∃ x, cells = [uniCell d.toNat x] ∧ val x

/-- What the reader in lane l reads of vA of lane j (R171, R299). -/
def vFrom (f : Focus) (l j : Nat) (a : Reg) : Word := f.v (16 + l) j a.toNat

/-- The value a cross-lane read takes: vA of lane j where it lies within the warp and takes part, else its own (R300). -/
def crossRead (f : Focus) (part : List Nat) (a : Reg) (l : Nat) (j : Int) : Word :=
  if 0 ≤ j ∧ j < (8 * 2 ^ f.k.width : Nat) ∧ j.toNat ∈ part then vFrom f l j.toNat a else vFrom f l l a

/-- The values of vA in the lanes that take part. -/
def values (f : Focus) (part : List Nat) (a : Reg) : List Word := part.map fun l => vA f a l
/-- The values of vA in the lanes that take part up to lane l, as lane l reads them; lane l itself when `incl`. -/
def upTo (f : Focus) (part : List Nat) (a : Reg) (l : Nat) (incl : Bool) : List Word :=
  (part.filter fun j => decide (j < l) || (incl && j == l)).map fun j => vFrom f l j a

/-- The sum of words modulo 2^32. -/
def sumOf (xs : List Word) : Word := wN (xs.map BitVec.toNat).sum
/-- A word is the bitwise exclusive-or of words. -/
def IsXor (xs : List Word) (w : Word) : Prop := ∀ m < 32, w.getLsbD m = ((xs.countP fun x => x.getLsbD m) % 2 == 1)

/-- A producer inside the warp: its header, and what its outstanding cells are. -/
structure Producer where
  h  : Hdr
  ok : Focus → List Nat → List PendCell → Prop

/-- The cross-lane reads and the groups PCOL, WRED and PFX (R299 to R303). -/
def producers : Instr → Option Producer
  | .xlIdx h d a b => some ⟨h, fun f part => LaneCells f d part fun l w => w = crossRead f part a l ((vB f b l).toNat % 64 : Nat)⟩
  | .xlXor h d a n => some ⟨h, fun f part => LaneCells f d part fun l w => w = crossRead f part a l ((l ^^^ n.toNat : Nat) : Int)⟩
  | .xlBack h d a n => some ⟨h, fun f part => LaneCells f d part fun l w => w = crossRead f part a l ((l : Int) - n.toNat)⟩
  | .xlFwd h d a n => some ⟨h, fun f part => LaneCells f d part fun l w => w = crossRead f part a l ((l : Int) + n.toNat)⟩
  | .pcolMask h d a => some ⟨h, fun f part cells => ∃ x y, cells = [uniCell d.toNat x, uniCell (d.toNat + 1) y] ∧
      (∀ l < 32, x.getLsbD l = true ↔ l ∈ part ∧ pr f a l = true) ∧ (∀ l < 32, y.getLsbD l = true ↔ 32 + l ∈ part ∧ pr f a (32 + l) = true)⟩
  | .pcolAny h d a => some ⟨h, fun f part => OneCell d fun w => w = if part.any (pr f a) then 1 else 0⟩
  | .pcolAll h d a => some ⟨h, fun f part => OneCell d fun w => w = if part.all (pr f a) then 1 else 0⟩
  | .pcolCnt h d a => some ⟨h, fun f part => OneCell d fun w => w = wN (part.countP (pr f a))⟩
  | .wredAdd h d a => some ⟨h, fun f part => OneCell d fun w => w = sumOf (values f part a)⟩
  | .wredMinI h d a => some ⟨h, fun f part => OneCell d fun w => w ∈ values f part a ∧ ∀ v ∈ values f part a, w.toInt ≤ v.toInt⟩
  | .wredMaxI h d a => some ⟨h, fun f part => OneCell d fun w => w ∈ values f part a ∧ ∀ v ∈ values f part a, v.toInt ≤ w.toInt⟩
  | .wredMinN h d a => some ⟨h, fun f part => OneCell d fun w => w ∈ values f part a ∧ ∀ v ∈ values f part a, w.toNat ≤ v.toNat⟩
  | .wredMaxN h d a => some ⟨h, fun f part => OneCell d fun w => w ∈ values f part a ∧ ∀ v ∈ values f part a, v.toNat ≤ w.toNat⟩
  | .wredAnd h d a => some ⟨h, fun f part => OneCell d fun w => ∀ m < 32, w.getLsbD m = (values f part a).all fun x => x.getLsbD m⟩
  | .wredOr h d a => some ⟨h, fun f part => OneCell d fun w => ∀ m < 32, w.getLsbD m = (values f part a).any fun x => x.getLsbD m⟩
  | .wredXor h d a => some ⟨h, fun f part => OneCell d (IsXor (values f part a))⟩
  | .wredFadd h d a => some ⟨h, fun f part => OneCell d fun w => w = toF32 (FVal.sum ((values f part a).map f32Of))⟩
  | .pfxAddIn h d a => some ⟨h, fun f part => LaneCells f d part fun l w => w = sumOf (upTo f part a l true)⟩
  | .pfxAddEx h d a => some ⟨h, fun f part => LaneCells f d part fun l w => w = sumOf (upTo f part a l false)⟩
  | .pfxXorIn h d a => some ⟨h, fun f part => LaneCells f d part fun l w => IsXor (upTo f part a l true) w⟩
  | .pfxXorEx h d a => some ⟨h, fun f part => LaneCells f d part fun l w => IsXor (upTo f part a l false) w⟩
  | .pfxMaxIIn h d a => some ⟨h, fun f part => LaneCells f d part fun l w => w ∈ upTo f part a l true ∧ ∀ v ∈ upTo f part a l true, v.toInt ≤ w.toInt⟩
  | _ => none

/-- The exact sum of numbers of a list that is not empty (R235). -/
def sumNums : List NumVal → NumVal
  | [] => .val false 0
  | [x] => x
  | x :: rest => x.plus (sumNums rest)

/-- The values known for a register while results for it are outstanding. -/
def knownResults (w : Warp) (uni : Bool) (lane idx : Nat) : List Word :=
  w.pend.flatMap fun p => p.cells.filterMap fun c => if c.uni == uni && c.reg == idx && (uni || c.lane == lane) then c.val else none

/-- A state that differs from another in one team, and in the counters of the model. -/
structure OnlyTeam (s t : State) (tid : Nat) (tm : Team) : Prop where
  rest   : t = { s with teams := t.teams, stamp := t.stamp, freeCtr := t.freeCtr }
  others : ∀ k, k ≠ tid → t.team? k = s.team? k
  team   : t.team? tid = some tm

/-- The values that result p brings to a register. -/
def brings (p : Pend) (uni : Bool) (lane idx : Nat) : List Word :=
  p.cells.filterMap fun c => if c.uni == uni && c.reg == idx && (uni || c.lane == lane) then c.val else none

/-- A register once result p has returned: without a cell of p it is unchanged; with one it takes a value that p brings, or it may
keep its own where a later write has marked a cell (R171). -/
def Returned (p : Pend) (uni : Bool) (lane idx : Nat) (old new : Word) : Prop :=
  (brings p uni lane idx = [] → new = old) ∧ (new = old ∨ new ∈ brings p uni lane idx) ∧
  ((∃ c ∈ p.cells, c.uni = uni ∧ c.reg = idx ∧ (uni = true ∨ c.lane = lane) ∧ c.rewritten = false) → new ∈ brings p uni lane idx)

/-! ## Control -/

/-- A word written by its parts is an instruction of the core; every other constructor is an event. -/
def isCore (i : Instr) : Bool := (encode i).isSome

/-- Nothing holds back the next instruction of the warp: no access and no result of it is outstanding, no token is at its limit, and
its core has room for the requests of its lanes (R170, R172, R308, R310). -/
def Unhindered (f : Focus) : Prop :=
  f.wp.mem = [] ∧ f.wp.pend = [] ∧ (∀ k, f.wp.tokens.getD k 0 < 63) ∧ f.s.coreRequests f.wp.core + 4 * f.active.length ≤ 4096

/-- A thread after an issue that leaves its registers alone. -/
def wentOn (f : Focus) (a : Thread) : Thread :=
  { a with pc := if a.lane ∈ f.active then f.pc + 4 else a.pc
           passed := if a.lane ∈ f.active then 0 else if a.park = .none then a.passed + 1 else a.passed }

/-- The warp after an issue: its own accounting over the record `base`, and each thread changed by `g` after it has gone on. -/
def IssuedAs (f : Focus) (base w : Warp) (g : Thread → Thread) : Prop :=
  Counted f base w ∧ w.uni = base.uni ∧ w.pend = base.pend ∧ w.threads = f.wp.threads.map fun a => g (wentOn f a)

/-- The threads of some lanes park at the instruction (R161). -/
def parkHere (f : Focus) (lanes : List Nat) (p : Park) (a : Thread) : Thread :=
  if a.lane ∈ lanes then { a with park := p, pc := f.pc } else a

/-- The stop record of a precise fault of the warp at issue (R191). -/
def coreRecord (f : Focus) (cause : BitVec 8) (addr : DWord) (mask : BitVec 16) : StopRec :=
  { engine := 0, cause := cause, skid := 0, precise := true, unit := BitVec.ofNat 16 f.wp.core, warp := BitVec.ofNat 16 f.wn
    team := BitVec.ofNat 32 f.tm.index, userTag := f.wp.userTag, pcOrOp := f.pc.setWidth 64, addr := addr, byteMask := mask
    ctx := BitVec.ofNat 16 f.ctx }

/-- A context's record alone differs. -/
def OnlyCtx (s t : State) (c : Nat) (x : Ctx) : Prop :=
  t = { s with ctxs := t.ctxs } ∧ t.ctx c = x ∧ ∀ k, k ≠ c → t.ctx k = s.ctx k

/-- OSF_ERR of a context records a miss at its source, or OVERFLOW when it holds one (R40). -/
def OsfNoted (s t : State) (c : Nat) (peer : BitVec 12) (kind : BitVec 2) (a : Nat) : Prop :=
  OnlyCtx s t c { s.ctx c with osfErr :=
    if (s.ctx c).osfErr.valid then { (s.ctx c).osfErr with overflow := true }
    else { (s.ctx c).osfErr with peer := peer, isTarget := false, kind := kind, valid := true, localAddr := BitVec.ofNat 44 a } }

/-- A failed tag is counted in SEC_EVENT; other failures are not (R128, R135). -/
def countedIn (s : State) (cause : BitVec 8) : State :=
  if cause = 0x12 then { s with cfg := { s.cfg with sec := { s.cfg.sec with
    integrity := true, intCount := if s.cfg.sec.intCount = 255 then 255 else s.cfg.sec.intCount + 1 } } } else s

/-- Of two faults of one clock the first is that of the lowest ENGINE_ID, then UNIT, then WARP (R189). -/
def GoesFirst (a b : StopRec) : Prop :=
  a.engine.toNat < b.engine.toNat ∨
    (a.engine = b.engine ∧ (a.unit.toNat < b.unit.toNat ∨ (a.unit = b.unit ∧ a.warp.toNat < b.warp.toNat)))

/-- A record takes the place of the first of a halt: it comes in the same clock and goes first (R189). One step of the model stands for one
clock, which is the model's choice (log 70). -/
def Overtakes (x : State) (o : Halt) (r : StopRec) : Prop := o.clock = x.steps ∧ ∃ p, o.recs.head? = some p ∧ GoesFirst r p

/-- A context's halt line is raised with a stop record (R186, R189): the first record gives the cause, the program counter, the
address and the tag that the handler record will carry; a later one joins it while the halt is not saved, behind the others or, in the
same clock and going first, before them. REMOTE_PIN_MISS makes the halt fatal (R39). The context's bounce channels under way stop (R133).
Nothing else changes. -/
structure HaltRaised (x t : State) (c : Nat) (r : StopRec) (toRoot : Bool) (team : Option Nat) : Prop where
  rest   : t = { x with ctxs := t.ctxs }
  others : ∀ k, k ≠ c → t.ctx k = x.ctx k
  ctx    : ∃ h, t.ctx c = { x.ctx c with
    halt := some h
    bounce := (x.ctx c).bounce.map fun p => (p.1, if p.2.state = 1 then { p.2 with state := 2 } else p.2) } ∧
    ((x.ctx c).halt = none → h = { cause := r.cause, fatal := decide (r.cause = 6), recs := [r], toRoot := toRoot, team := team
                                   pc := r.pcOrOp, addr := r.addr, userTag := r.userTag, clock := x.steps }) ∧
    (∀ o, (x.ctx c).halt = some o → o.saved = false → ¬Overtakes x o r →
      h = { o with recs := o.recs ++ [r], fatal := o.fatal || decide (r.cause = 6) }) ∧
    (∀ o, (x.ctx c).halt = some o → o.saved = false → Overtakes x o r →
      h = { cause := r.cause, fatal := o.fatal || decide (r.cause = 6), recs := r :: o.recs, toRoot := toRoot, team := team
            pc := r.pcOrOp, addr := r.addr, userTag := r.userTag, clock := x.steps }) ∧
    (∀ o, (x.ctx c).halt = some o → o.saved = true → h = o)

/-- The warp at issue stops at its instruction, which has no effect: no register, memory or program counter changes, and the halt
line of its context is raised with the record of the fault (R165, R184 to R186). -/
def Stops (f : Focus) (t : State) (cause : BitVec 8) (addr : DWord) (mask : BitVec 16) (toRoot : Bool) : Prop :=
  ∃ x, OnlyTeam f.s x f.tid f.tm ∧ x.stamp = f.s.stamp ∧ x.freeCtr = f.s.freeCtr ∧
    HaltRaised x t f.ctx (coreRecord f cause addr mask) toRoot (some f.tid)

/-- The branches with their target for a lane, and how many registers from v127 on take the offset of the next instruction
(R282 to R284). -/
def branches : Instr → Option (Hdr × (Focus → Nat → Word) × Nat)
  | .br h o => some (h, fun f _ => wI (f.pc.toNat + 4 * o.toInt), 0)
  | .call h o => some (h, fun f _ => wI (f.pc.toNat + 4 * o.toInt), 1)
  | .brx h a => some (h, fun f l => wN ((vA f a l).toNat / 4 * 4), 0)
  | _ => none

/-- The marked branches with their target for a lane (R284). -/
def markedBranches : Instr → Option (Hdr × (Focus → Nat → Word))
  | .brM h o => some (h, fun f _ => wI (f.pc.toNat + 4 * o.toInt))
  | .brxM h a => some (h, fun f l => wN ((vA f a l).toNat / 4 * 4))
  | _ => none

/-- A thread has not exited. -/
def Left (a : Thread) : Prop := a.park ≠ .exited
/-- No thread of a warp is left. -/
def Gone (w : Warp) : Prop := ∀ a ∈ w.threads, ¬Left a

/-- A barrier's phase is over: a thread of the team is left, every one that is left has arrived, and no warp is swapped out by
the zugzwang rule (R178, R153). -/
def PhaseOver (tm : Team) (n : Nat) : Prop :=
  (∃ w ∈ tm.warps, ¬Gone w) ∧ ∀ w ∈ tm.warps, (∀ a ∈ w.threads, Left a → a.arrived.getLsbD n = true) ∧ (w.zug = none ∨ Gone w)

/-- A gate of a bundle is open: no producer is bound, the producer is retired, or all its teams are placed and each of them has
released the gate or exited (R90, R320). -/
def GateOpen (s : State) (b g : Nat) : Prop :=
  ∀ x p y, s.bundle? b = some x → Table.find g x.binds = some p → s.bundle? p = some y →
    (∀ k ∈ y.kernels, k.gridX * k.gridY * k.gridZ ≤ k.nextTeam) ∧
    ∀ t ∈ s.teams, t.2.bundle = p → (∀ w ∈ t.2.warps, Gone w) ∨ t.2.gateRel.getLsbD g = true

/-! ## Waits, grace periods and registers -/

/-- A stop request stands on the warps of a team: a freeze flag of its context is set, the team is asked to stop, or it is not
resident (R111, R196). -/
def StopStands (s : State) (tm : Team) : Prop := (s.ctx (s.ctxOf tm)).freeze ≠ 0 ∨ tm.ask ≠ .none ∨ tm.place ≠ .resident

/-- The results of `tst` operations whose token a mask names. -/
def covered (w : Warp) (m : Byte) : List Pend := w.pend.filter fun p => p.tok.any fun k => m.getLsbD k.toNat

/-- A uniform register after a `wait` has made the covered results readable: either value may stand where a later write has
marked the result (R171, R338). -/
def Taken (ps : List Pend) (r : Nat) (old new : Word) : Prop :=
  let cs := (ps.flatMap Pend.cells).filter fun c => c.reg == r && c.val.isSome
  (cs = [] → new = old) ∧ (new = old ∨ ∃ c ∈ cs, c.val = some new) ∧ ((∃ c ∈ cs, c.rewritten = false) → ∃ c ∈ cs, c.val = some new)

/-- No store or atomic of the warp is queued (R348). -/
def StoresPerformed (w : Warp) : Prop := ∀ r ∈ w.mem, r.kind = .load

/-- A context after it has raised a wish for a period, or after a period has started (R154). -/
def TagTaken (s z : State) (c tag : Nat) : Prop :=
  if (s.ctx c).tempo.running then
    tag = (s.ctx c).tempo.gen + 2 ∧ z.teams = s.teams ∧
    z.ctx c = { s.ctx c with tempo := { (s.ctx c).tempo with wanted := true } }
  else
    tag = (s.ctx c).tempo.gen + 1 ∧
    z.ctx c = { s.ctx c with tempo := { (s.ctx c).tempo with running := true, wanted := false } }

/-- Whether a warp owes a period that starts now: a thread of it is left, and it does not stand in a quiescent state (R155). -/
def OwesNow (s : State) (c : Nat) (tm : Team) (w : Warp) : Prop :=
  ¬Gone w ∧ (w.rsec = 0 →
    (∀ p b r n, tm.place ≠ .saved p b r n) ∧ w.zug = none ∧ (∀ a ∈ w.threads, a.park ≠ .gpw) ∧
    ((s.ctx c).freeze ≠ 0 → ∃ a ∈ w.threads, Left a ∧ ∀ i, a.park ≠ .spt i))

/-! ## The matrix engine -/

/-- Bits [h:l] of a shape record (R337). -/
def fld (r : BitVec 128) (h l : Nat) : Nat := r.toNat / 2 ^ l % 2 ^ (h + 1 - l)

/-- The pitch of rows of so many bytes, in 64-byte chunks: 1, 2, 4 or a multiple of 8 (R175; that 5 to 7 chunks take 8 is the model's
reading, log 26). -/
def pitchChunks (bytes : Nat) : Nat :=
  let n := (bytes + 63) / 64
  if n ≤ 1 then 1 else if n = 2 then 2 else if n ≤ 4 then 4 else (n + 7) / 8 * 8

/-- A record passes the checks of R337 with a KEXT limit for its format and so many times its ROWS in scratchpad. -/
def RecordOk (limit : Nat → Nat) (times spm : Nat) (r : BitVec 128) : Prop :=
  let rows := fld r 23 16
  let kext := fld r 35 24
  let fmt := fld r 39 36
  fld r 72 72 = 1 ∧ fld r 127 73 = 0 ∧ 1 ≤ rows ∧ rows ≤ 64 ∧ fmt ≤ 6 ∧ 1 ≤ kext ∧ kext ≤ limit fmt ∧
  fld r 15 0 * 64 + times * rows * pitchChunks ((kext * [32, 16, 16, 8, 8, 4, 64].getD fmt 8 + 7) / 8) * 64 ≤ spm ∧
  (fmt = 5 → fld r 55 40 * 64 + rows * ((kext + 7) / 8) ≤ spm)

/-- KEXT limits of matrix operands (R337). -/
def operandLimit (fmt : Nat) : Nat := [16, 64, 64, 128, 128, 256, 8].getD fmt 8

/-- The formats of A and B that pair (R242). -/
def Pairs (complex : Bool) (x y : Nat) : Prop :=
  if complex then x = 6 ∧ y = 6 else (x = y ∧ x ≠ 6) ∨ ((x = 3 ∨ x = 4) ∧ (y = 3 ∨ y = 4))

/-- An operation of the matrix engine as issued: what it checks, what it captures, and the results it leaves outstanding. -/
structure MatrixOp where
  h    : Hdr
  bad  : Focus → Prop
  mism : Focus → Prop
  kind : Focus → MxeKind
  res  : List Pend

/-- The four multiply forms (R243, R339). -/
def multiply (h : Hdr) (d a b : Reg) (fresh complex : Bool) : MatrixOp :=
  { h := h
    bad := fun f => ¬RecordOk operandLimit 1 f.k.spmBytes (f.capture 1 a.toNat) ∨ ¬RecordOk operandLimit 1 f.k.spmBytes (f.capture 2 b.toNat)
    mism := fun f => ¬Pairs complex (fld (f.capture 1 a.toNat) 39 36) (fld (f.capture 2 b.toNat) 39 36) ∨
      fld (f.capture 1 a.toNat) 35 24 ≠ fld (f.capture 2 b.toNat) 35 24
    kind := fun f => .mma d.toNat (f.capture 1 a.toNat) (f.capture 2 b.toNat) fresh complex
    res := [] }

/-- The record FMT of a function of `acc.st` (R340). -/
def storeFmt (fn : AccStFn) : Nat :=
  match fn with
  | .f32 => 0 | .bf16Rn => 1 | .bf16Sr => 1 | .e4m3Rn => 3 | .e4m3Sr => 3 | .e5m2Rn => 4 | .cf32Fold => 6 | .cf32Split => 6
/-- The record FMT of a function of `acc.ld` (R341). -/
def loadFmt (fn : AccLdFn) : Nat :=
  match fn with
  | .f32 => 0 | .bf16 => 1 | .e4m3 => 3 | .e5m2 => 4 | .cf32 => 6

/-- The operations of the matrix engine (R338 to R341). -/
def matrixOps : Instr → Option MatrixOp
  | .mma h d a b => some (multiply h d a b false false)
  | .mmz h d a b => some (multiply h d a b true false)
  | .cmma h d a b => some (multiply h d a b false true)
  | .cmmz h d a b => some (multiply h d a b true true)
  | .accSt h d a t fn => some
    { h := h
      bad := fun f => ¬RecordOk (fun _ => 64) (if fn = .cf32Split then 2 else 1) f.k.spmBytes (f.capture 1 t.toNat)
      mism := fun f => fld (f.capture 1 t.toNat) 39 36 ≠ storeFmt fn
      kind := fun f => .accSt d.toNat fn (f.capture 1 t.toNat) (if fn = .bf16Sr ∨ fn = .e4m3Sr then f.u 1 a.toNat else 0)
        (if fn = .bf16Sr ∨ fn = .e4m3Sr then f.u 2 (a.toNat + 1) else 0)
      res := [] }
  | .accLd h d t fn => some
    { h := h
      bad := fun f => ¬RecordOk (fun _ => 64) 1 f.k.spmBytes (f.capture 1 t.toNat)
      mism := fun f => fld (f.capture 1 t.toNat) 39 36 ≠ loadFmt fn
      kind := fun f => .accLd d.toNat fn (f.capture 1 t.toNat)
      res := [] }
  | .accZero h d n => some { h := h, bad := fun _ => False, mism := fun _ => False, kind := fun _ => .accZero d.toNat n.toNat, res := [] }
  | .tld h d a => some { h := h, bad := fun _ => False, mism := fun _ => False, res := []
                         kind := fun f => .tld d.toNat (f.u 4 (a.toNat + 3) ++ f.u 3 (a.toNat + 2) ++ f.u 2 (a.toNat + 1) ++ f.u 1 a.toNat) }
  | .tst h d a => some { h := h, bad := fun _ => False, mism := fun _ => False, kind := fun f => .tst d.toNat (f.capture 1 a.toNat)
                         res := [{ req := none, tok := some h.g, cells := [⟨0, true, d.toNat, 0, none, false⟩, ⟨0, true, d.toNat + 1, 4, none, false⟩,
                                   ⟨0, true, d.toNat + 2, 8, none, false⟩, ⟨0, true, d.toNat + 3, 12, none, false⟩] }] }
  | _ => none

/-- The token counts with one operation more, or one fewer, bound to token k (R172). -/
def raised (k : BitVec 3) (ts : List Nat) : List Nat := ts.mapIdx fun i n => if i = k.toNat then n + 1 else n
def lowered (k : BitVec 3) (ts : List Nat) : List Nat := ts.mapIdx fun i n => if i = k.toNat then n - 1 else n

/-- The scratchpad stores and atomics of the warp are performed (R180). -/
def ScratchpadDrained (w : Warp) : Prop := ∀ r ∈ w.mem, r.kind ≠ .load → ∀ u ∈ r.units, u.done = false → ∀ o, u.tgt ≠ .spm o

/-- An operation joins the matrix engine's queue, bound to its token. -/
def Engaged (f : Focus) (t : State) (k : BitVec 3) (kind : MxeKind) (res : List Pend) : Prop :=
  ∃ x w, OnlyWarp f x w ∧ Counted f { f.wp with tokens := raised k f.wp.tokens } w ∧ w.uni = f.wp.uni ∧ w.pend = f.wp.pend ++ res ∧
    w.threads = f.wp.threads.map (wentOn f) ∧
    t = { x with eng := { f.s.eng with
            mxe := f.s.eng.mxe ++ [{ id := f.s.eng.nextId, team := f.tid, warp := f.wn, tok := k, pc := f.pc, kind := kind }]
            nextId := f.s.eng.nextId + 1 } }

/-- A number with every exact zero as +0 (R240). -/
def plusZero : NumVal → NumVal
  | .val n q => if q = 0 then .val false 0 else .val n q
  | x => x

/-- Element k of row m of a tile as a number. -/
def element (tm : Team) (h : Shape) (m k : Nat) : NumVal := numOf (formatOf h.fmt) (tm.elem h m k)

/-- An E3M5 block scale as a number (R227, R230). -/
def blockScale (c : Nat) : NumVal :=
  .val false (if c / 32 = 0 then (c : Rat) * (2 : Rat) ^ (-8 : Int) else (32 + c % 32 : Nat) * (2 : Rat) ^ ((c / 32 : Nat) - 9 : Int))

/-- P of R240. -/
def matrixSum (tm : Team) (a b : Shape) (m n : Nat) : NumVal :=
  if a.rows ≤ m ∨ b.rows ≤ n then .val false 0
  else
    let term (k : Nat) : NumVal := (element tm a m k).times (element tm b n k)
    if a.fmt = 5 then
      let blk (j : Nat) : NumVal := plusZero (sumNums ((List.range (min 8 (a.kext - 8 * j))).map fun i => term (8 * j + i)))
      let scaled (j : Nat) : NumVal := (blk j).times ((blockScale (tm.scaleCode a m j)).times (blockScale (tm.scaleCode b n j)))
      plusZero ((plusZero (sumNums ((List.range ((a.kext + 7) / 8)).map scaled))).times ((numOf .bf16 a.band).times (numOf .bf16 b.band)))
    else plusZero (sumNums ((List.range a.kext).map term))

/-- One part of element k of row m of a cf32 tile. -/
def cpart (tm : Team) (h : Shape) (m k : Nat) (im : Bool) : NumVal :=
  numOf .f32 (tm.elem h m k / (if im then 2 ^ 32 else 1) % 2 ^ 32)

/-- Pre and Pim of R243. -/
def complexSum (tm : Team) (a b : Shape) (m n : Nat) (im : Bool) : NumVal :=
  if a.rows ≤ m ∨ b.rows ≤ n then .val false 0
  else plusZero (sumNums ((List.range a.kext).flatMap fun k =>
    if im then [(cpart tm a m k false).times (cpart tm b n k true), (cpart tm a m k true).times (cpart tm b n k false)]
    else [(cpart tm a m k false).times (cpart tm b n k false), ((cpart tm a m k true).times (cpart tm b n k true)).opp]))

/-- The fields of a shape record (R337). -/
def fieldsOf (r : BitVec 128) : Shape :=
  { base := fld r 15 0, rows := fld r 23 16, kext := fld r 35 24, fmt := fld r 39 36, scale := fld r 55 40, band := fld r 71 56
    valid := r.getLsbD 72, zero := fld r 127 73 }

/-- The bytes of an element, and where element k of row r of a canonical tile begins in scratchpad (R175). -/
def elementBytes (h : Shape) : Nat := [4, 2, 2, 1, 1, 1, 8].getD h.fmt 1
def elementAt (h : Shape) (r k : Nat) : Nat :=
  let p := pitchChunks ((h.kext * [32, 16, 16, 8, 8, 4, 64].getD h.fmt 8 + 7) / 8)
  let b := k * [32, 16, 16, 8, 8, 4, 64].getD h.fmt 8 / 8
  h.base * 64 + (r * p + (b / 64 ^^^ r % min p 8)) * 64 + b % 64

/-- A code is an FP32 value rounded stochastically with a random word, to a format with so many bits of precision and a least exponent
(R237). -/
def Stochastic (F : Fmt) (prec : Nat) (emin : Int) (x : NumVal) (r code : Nat) : Prop :=
  match x with
  | .nan => code = F.cnan
  | .inf neg => code = withSign F neg (overCode F)
  | .val neg q =>
    if q = 0 then code = withSign F neg 0
    else ∃ E : Int, (2 : Rat) ^ E ≤ q ∧ q < (2 : Rat) ^ (E + 1) ∧
      let u := max E emin - prec + 1
      let v := max E (-126) - 23
      let k := (u - v).toNat
      let m := (q / (2 : Rat) ^ u).floor
      let g := ((q - m * (2 : Rat) ^ u) / (2 : Rat) ^ v).floor
      let up := 2 ^ min k 32 ≤ g / 2 ^ (k - 32) + ((r % 2 ^ min k 32 : Nat) : Int)
      let y := ((if up then m + 1 else m : Int) : Rat) * (2 : Rat) ^ u
      if mag F F.maxCode < y then code = withSign F neg (overCode F) else ∃ c ≤ F.maxCode, mag F c = y ∧ code = withSign F neg c

/-- The random word of R238. -/
def mixed32 (x : Nat) : Nat :=
  let a := (x ^^^ x / 2 ^ 16) * 0x85EBCA6B % 2 ^ 32
  let b := (a ^^^ a / 2 ^ 13) * 0xC2B2AE35 % 2 ^ 32
  b ^^^ b / 2 ^ 16
def randomAt (seed ctr : Word) (i : Nat) : Nat := mixed32 (seed.toNat ^^^ (ctr.toNat + i * 0x9E3779B9) % 2 ^ 32)

/-! ## Memory instructions -/

/-- The first member of a list with a property. -/
def FirstWith {α : Type} (P : α → Prop) (xs : List α) (x : α) : Prop := ∃ l r, xs = l ++ x :: r ∧ P x ∧ ∀ y ∈ l, ¬P y

/-- A memory instruction: its header, what it does to memory, the bytes of one access, its size, order and scope, the requests it
takes for so many lanes, its lanes with their addresses, the results it brings, and the data of its lanes. -/
structure MemForm where
  h     : Hdr
  acc   : AccKind
  kind  : ReqKind
  n     : Nat
  size  : MSize
  order : Order
  scope : Scope
  takes : Nat → Nat
  lanes : Focus → List Nat → List (Nat × DWord)
  cells : Focus → List (Nat × DWord) → List PendCell
  data  : Focus → Nat → List Byte
  vals  : Focus → Nat → DWord × DWord

/-- Bytes and registers of a size (R305). -/
def sizeBytes : MSize → Nat
  | .x8 => 1 | .sx8 => 1 | .x16 => 2 | .sx16 => 2 | .w32 => 4 | .w64 => 8 | .w128 => 16 | .w256 => 32
def sizeRegs (m : MSize) : Nat := (sizeBytes m + 3) / 4

/-- The lanes of a vector access, each with its pair as the address, and the one access of a uniform instruction (R304). -/
def eachLane (a : Reg) (f : Focus) (part : List Nat) : List (Nat × DWord) := part.map fun l => (l, BitVec.ofNat 64 (vA64 f a l))
def oneLane (a : Reg) (f : Focus) (part : List Nat) : List (Nat × DWord) := (part.take 1).map fun l => (l, BitVec.ofNat 64 (sA64 f a))

/-- The registers a load fills, by lane (R305). -/
def vecCells (d : Reg) (n : Nat) (f : Focus) (ls : List (Nat × DWord)) : List PendCell :=
  ls.flatMap fun l => (List.range n).map fun i => { lane := l.1, uni := false, reg := f.wp.window * 8 + (d.toNat + i), off := 4 * i }

/-- Bytes of registers, the lowest register first and each little-endian (R305). -/
def regBytes (n : Nat) (reg : Nat → Word) : List Byte := (List.range n).map fun j => BitVec.ofNat 8 ((reg (j / 4)).toNat / 256 ^ (j % 4))

/-- A load or store. -/
def plain (h : Hdr) (acc : AccKind) (kind : ReqKind) (m : MemMode) (uniform : Bool) (lanes : Focus → List Nat → List (Nat × DWord))
    (cells : Focus → List (Nat × DWord) → List PendCell) (data : Focus → Nat → List Byte) : MemForm :=
  { h := h, acc := acc, kind := kind, n := sizeBytes m.size, size := m.size, order := m.order, scope := m.scope, lanes := lanes
    takes := fun k => if uniform then 1 else k, cells := cells, data := data, vals := fun _ _ => (0, 0) }

/-- An atomic; `two` says that it takes new and cmp (R311, R312). -/
def atomic (op : AtomOp) (h : Hdr) (d a : Reg) (m : AtomMode) : MemForm :=
  let n := if m.w64 then 2 else 1
  let word (f : Focus) (l k : Nat) : DWord :=
    if m.w64 then f.v 0 l (d.toNat + 2 * k + 1) ++ f.v 0 l (d.toNat + 2 * k) else (f.v 0 l (d.toNat + k)).setWidth 64
  { h := h, acc := .atomic, kind := .atom op m.w64 m.ret, n := 4 * n, size := if m.w64 then .w64 else .w32, order := m.order
    scope := m.scope, takes := id, lanes := eachLane a, cells := if m.ret then vecCells d n else fun _ _ => [], data := fun _ _ => []
    vals := fun f l => (word f l 0, if op = .cas then word f l 1 else 0) }

/-- The memory instructions (R305, R311). -/
def memoryOps : Instr → Option MemForm
  | .ld h d a m => some (plain h .load .load m false (eachLane a) (vecCells d (sizeRegs m.size)) fun _ _ => [])
  | .sld h d a m => some (plain h .load .load m true (oneLane a)
      (fun _ _ => (List.range (sizeRegs m.size)).map fun i => { lane := 0, uni := true, reg := d.toNat + i, off := 4 * i }) fun _ _ => [])
  | .st h d a m => some (plain h .store .store m false (eachLane a) (fun _ _ => [])
      fun f l => regBytes (sizeBytes m.size) fun i => f.v 0 l (d.toNat + i))
  | .sst h d a m => some (plain h .store .store m true (oneLane a) (fun _ _ => [])
      fun f _ => regBytes (sizeBytes m.size) fun i => f.u 0 (d.toNat + i))
  | .atomAdd h d a m => some (atomic .add h d a m) | .atomAnd h d a m => some (atomic .and h d a m)
  | .atomOr h d a m => some (atomic .or h d a m) | .atomXor h d a m => some (atomic .xor h d a m)
  | .atomMinI h d a m => some (atomic .minI h d a m) | .atomMaxI h d a m => some (atomic .maxI h d a m)
  | .atomMinN h d a m => some (atomic .minN h d a m) | .atomMaxN h d a m => some (atomic .maxN h d a m)
  | .atomSwap h d a m => some (atomic .swap h d a m) | .atomCas h d a m => some (atomic .cas h d a m)
  | .atomFadd h d a m => some (atomic .fadd h d a m) | .atomFmax h d a m => some (atomic .fmax h d a m)
  | _ => none

/-- An earlier access or fence of the warp holds back its memory instructions (R217, R308, R315). -/
def Held (w : Warp) : Prop :=
  (∃ r ∈ w.mem, r.order = .sc ∨ (r.order = .acq ∧ r.kind ≠ .store)) ∨ (∃ p ∈ w.pend, p.acq = true) ∨
  (w.fence.perf = true ∧ ∃ r ∈ w.mem, r.id < w.fence.upto) ∨
  (w.fence.ret = true ∧ ((∃ r ∈ w.mem, r.id < w.fence.upto ∧ r.kind ≠ .store) ∨ ∃ p ∈ w.pend, ∃ n, p.req = some n ∧ n < w.fence.upto))

/-- An address of the context's own space (R304). -/
def ownSpace (va : DWord) : Prop := va.toNat < 2 ^ 56

/-- Addresses that the aperture rules admit (R173, R304). -/
def Admitted (spm n : Nat) (va : DWord) : Prop :=
  ownSpace va ∨ va.toNat / 2 ^ 56 = 0xFE ∨ (va.toNat / 2 ^ 56 = 0xFF ∧ va.toNat % 2 ^ 56 < 2 ^ 20 ∧ va.toNat % 2 ^ 56 + n ≤ spm)

/-- Composed permission with the rules of worlds, compartments, flash and MX windows (R66, R122, R184, R309); that another device's flash and
windows are under them too is the model's choice (log 62). -/
def Permitted (acc : AccKind) (world : BitVec 6) (t : Trans) : Prop :=
  match acc with
  | .load => t.read = true
  | .store => t.write = true ∧ t.flash = false ∧ (world ≠ 0 → t.comp = 0)
  | .atomic => t.read = true ∧ t.write = true ∧ t.flash = false ∧ t.mx = false ∧ (world ≠ 0 → t.comp = 0)

/-- Byte j of a watchpoint's range is reached by an access of its kind (R206, R207). -/
def Hits (w : Watch) (acc : AccKind) (va n j : Nat) : Prop :=
  w.en = true ∧ (match acc with | .load => w.load | .store => w.store | .atomic => w.atomic) = true ∧ w.mask.getLsbD j = true ∧
  va ≤ w.addr.toNat / 16 * 16 + j ∧ w.addr.toNat / 16 * 16 + j < va + n

/-- The first watchpoint of a context that an access strikes, with the bytes it strikes (R207). -/
def Strikes (c : Ctx) (acc : AccKind) (va n : Nat) (m : BitVec 16) : Prop :=
  ∃ p, FirstWith (fun q => ∃ j < 16, Hits q.2 acc va n j) c.watch p ∧ ∀ j < 16, m.getLsbD j = true ↔ Hits p.2 acc va n j

/-- A lane's access passes every check of the probe (R184). -/
def Passes (f : Focus) (M : MemForm) (l : Nat × DWord) : Prop :=
  l.2.toNat % M.n = 0 ∧ Admitted f.k.spmBytes M.n l.2 ∧
  (ownSpace l.2 → ∃ t, f.lead l.1 l.2 = .ok t ∧ t.world = (f.s.ctx f.ctx).world ∧ Permitted M.acc t.world t) ∧
  (f.wp.skipWatch = true ∨ ∀ m, ¬Strikes (f.s.ctx f.ctx) M.acc l.2.toNat M.n m)

/-- Where a lane's access leads, and the stage entries its translation read (R304, R309). -/
def leads (f : Focus) (l : Nat × DWord) : Target × List Dep :=
  if l.2.toNat / 2 ^ 56 = 0xFE then (.door (l.2.toNat % 2 ^ 56), [])
  else if l.2.toNat / 2 ^ 56 = 0xFF then (.spm (l.2.toNat % 2 ^ 56), [])
  else match f.lead l.1 l.2 with
    | .ok t => (f.s.targetOf t l.2.toNat, t.deps)
    | .error _ => (.spm 0, [])

/-- A target in an MX window, where a block is one step (R64, R213). -/
def inWindow (t : Target) : Prop := ∃ a i w c, t = .here a i w c ∧ regionOf a = .mxWindow

/-- A target that is read as a whole, in flash (R66). -/
def inFlash (t : Target) : Prop := ∃ a i w c, t = .here a i w c ∧ regionOf a = .flash

/-- The parts of a lane's load or store: one for each 8 bytes, each by itself, and in an MX window or flash one; a store's byte that a later lane also writes is
left to that lane (R213, R215). -/
def LaneParts (f : Focus) (M : MemForm) (l : Nat × DWord) (later : List (Nat × DWord)) (us : List MemUnit) : Prop :=
  let t := (leads f l).1
  ∃ len, (M.n ≤ 8 ∨ inWindow t ∨ inFlash t → len = M.n) ∧ (8 < M.n → ¬inWindow t → ¬inFlash t → len = 8) ∧ us.length * len = M.n ∧
    ∀ (k : Nat) (u : MemUnit), us[k]? = some u →
      u = { lane := l.1, off := len * k, va := l.2 + BitVec.ofNat 64 (len * k), tgt := t.plus (len * k), len := len, mask := u.mask
            size := M.n, data := ((M.data f l.1).drop (len * k)).take len, deps := (leads f l).2 } ∧
      (M.acc = .load → u.mask = 0) ∧
      (M.acc = .store → u.mask < 2 ^ len ∧ ∀ j < len, u.mask.testBit j = true ↔
        ∀ h ∈ later, ¬((f.s.keyOf (leads f h).1).1 = (f.s.keyOf u.tgt).1 ∧ (f.s.keyOf (leads f h).1).2 ≤ (f.s.keyOf u.tgt).2 + j ∧
          (f.s.keyOf u.tgt).2 + j < (f.s.keyOf (leads f h).1).2 + M.n))

/-- The parts of an instruction: of a load or store lane by lane; of an atomic one for each word named, with the lanes that name it
in their order (R213, R313). -/
def Parts (f : Focus) (M : MemForm) (ls : List (Nat × DWord)) (us : List MemUnit) : Prop :=
  let key (l : Nat × DWord) := f.s.keyOf (leads f l).1
  (M.acc ≠ .atomic → ∃ uss : List (List MemUnit), us = uss.flatten ∧ uss.length = ls.length ∧
    ∀ (i : Nat) (l : Nat × DWord) (v : List MemUnit), ls[i]? = some l → uss[i]? = some v → LaneParts f M l (ls.drop (i + 1)) v) ∧
  (M.acc = .atomic → (us.map fun u => f.s.keyOf u.tgt).Nodup ∧ (∀ l ∈ ls, ∃ u ∈ us, f.s.keyOf u.tgt = key l) ∧
    ∀ u ∈ us, ∃ x rest y, ls.filter (fun l => key l == f.s.keyOf u.tgt) = x :: rest ∧ (x :: rest).getLast? = some y ∧
      u = { lane := x.1, off := 0, va := x.2, tgt := (leads f y).1, len := M.n, size := M.n, deps := (leads f y).2
            ops := (x :: rest).map fun l => (l.1, (M.vals f l.1).1, (M.vals f l.1).2) })

/-! ## Performing an access at its home -/

/-- The words an atomic leaves and its lanes return, one lane after another (R311, R313). -/
def combine (op : AtomOp) (w64 : Bool) (old v cmp : DWord) : DWord :=
  let bits : Nat := if w64 then 64 else 32
  let o := old.toNat % 2 ^ bits
  let x := v.toNat % 2 ^ bits
  let neg (n : Nat) : Int := if 2 * n < 2 ^ bits then n else n - (2 ^ bits : Nat)
  let pick (b : Bool) : DWord := BitVec.ofNat 64 (if b then x else o)
  match op with
  | .add => BitVec.ofNat 64 ((o + x) % 2 ^ bits)
  | .and => BitVec.ofNat 64 (o &&& x)
  | .or => BitVec.ofNat 64 (o ||| x)
  | .xor => BitVec.ofNat 64 (o ^^^ x)
  | .minI => pick (decide (neg x < neg o))
  | .maxI => pick (decide (neg o < neg x))
  | .minN => pick (decide (x < o))
  | .maxN => pick (decide (o < x))
  | .swap => pick true
  | .cas => pick (decide (o = cmp.toNat % 2 ^ bits))
  | .fadd => old
  | .fmax => if w64 then old else (fmaxWord (old.setWidth 32) (v.setWidth 32)).setWidth 64

/-- Neighbours summed, an odd last one carried (R313). -/
def halved (xs : List Word) : List Word :=
  (List.range ((xs.length + 1) / 2)).map fun i =>
    if 2 * i + 1 < xs.length then faddWord (xs.getD (2 * i) 0) (xs.getD (2 * i + 1) 0) else xs.getD (2 * i) 0

/-- tree of R313. -/
inductive TreeSum : List Word → Word → Prop
  | one (x : Word) : TreeSum [x] x
  | pass (xs : List Word) (r : Word) : 2 ≤ xs.length → TreeSum (halved xs) r → TreeSum xs r

/-- The number of bytes, the lowest first. -/
def littleEndian : List Byte → Nat
  | [] => 0
  | b :: rest => b.toNat + 256 * littleEndian rest

/-- What a register takes of returned bytes, at an offset of the access (R305). -/
def loaded (m : MSize) (off : Nat) (bs : List Byte) : Word :=
  match m with
  | .x8 => wN (littleEndian (bs.take 1))
  | .sx8 => wI (BitVec.ofNat 8 (littleEndian (bs.take 1))).toInt
  | .x16 => wN (littleEndian (bs.take 2))
  | .sx16 => wI (BitVec.ofNat 16 (littleEndian (bs.take 2))).toInt
  | _ => wN (littleEndian ((bs.drop off).take 4))

/-- The event names part u of request r, which is not performed and lies on this device. -/
structure AtHand (s : State) (tm : Team) (earlier : List MemReq) (r : MemReq) (later : List MemReq) (u : MemUnit) : Prop where
  team  : s.team? s.input.unit.team = some tm
  warp  : s.input.unit.warp < tm.warps.length
  queue : (tm.warp s.input.unit.warp).mem = earlier ++ r :: later
  id    : r.id = s.input.unit.req
  first : ∀ e ∈ earlier, e.id ≠ r.id
  part  : r.units[s.input.unit.unit]? = some u
  open_ : u.done = false
  here  : ∀ d a w c, u.tgt ≠ .away d a w c

/-- A store to CQ_WRITE in the doorbell aperture, a release at system scope (R224). -/
def Rings (r : MemReq) : Prop := r.kind = .store ∧ ∃ u ∈ r.units, ∃ off, u.tgt = .door off ∧ off < 0x10000 ∧ off % 64 = 0x10

/-- The order of R216, R217, R224 and R308: a release, an sc access or a doorbell after all earlier accesses, a load after earlier
loads, a store or atomic after earlier loads and after earlier stores and atomics have left the queue. -/
def InOrder (earlier : List MemReq) (r : MemReq) : Prop :=
  ∀ e ∈ earlier, ∀ u ∈ e.units,
    (r.order = .rel ∨ r.order = .sc ∨ Rings r → u.done = true) ∧
    (e.kind = .load → u.done = true ∨ ∃ d a w c, u.tgt = .away d a w c) ∧
    (e.kind ≠ .load → r.kind ≠ .load → u.done = true ∨ u.sent = true)

/-- The first byte of the whole access of a part's lane. -/
def wholeAt (s : State) (u : MemUnit) : Nat := (s.keyOf u.tgt).2 - u.off

/-- A queued part of a store or atomic writes byte k of the memory that part u lies in. -/
def Stores (s : State) (u x : MemUnit) (k : Nat) : Prop :=
  (s.keyOf x.tgt).1 = (s.keyOf u.tgt).1 ∧ ∃ j < x.len, k = (s.keyOf x.tgt).2 + j ∧ x.mask.testBit j = true

/-- An entry of the queue overlaps a load: a part of it that is not performed writes a byte of the whole access of the load's lane, or one
of them goes through an MX window of the same memory (R216). -/
def Overlaps (s : State) (e : MemReq) (u x : MemUnit) : Prop :=
  e.kind ≠ .load ∧ x ∈ e.units ∧ x.done = false ∧
    (((inWindow x.tgt ∨ inWindow u.tgt) ∧ (s.keyOf x.tgt).1 = (s.keyOf u.tgt).1) ∨ ∃ i < u.size, Stores s u x (wholeAt s u + i))

/-- No earlier store or atomic of the warp overlaps the load (R216). -/
def Apart (s : State) (earlier : List MemReq) (u : MemUnit) : Prop := ∀ e ∈ earlier, ∀ x, ¬Overlaps s e u x

/-- Byte j of a part. -/
def byteOf (s : State) (tm : Team) (u : MemUnit) (j : Nat) : Byte :=
  match u.tgt with
  | .spm o => Sparse.get 0 (o + j) tm.spm
  | .here a i _ _ => s.mem.get (s.place i.toNat a + j)
  | _ => 0

/-- A part in scratchpad, or at most eight bytes in HBM or SBM where the unit is not poisoned, the line's tag verifies and no result of a
collective under way goes (R44, R69, R128). -/
def Sound (s : State) (u : MemUnit) : Prop :=
  match u.tgt with
  | .spm _ => True
  | .here a i w c => (regionOf a = .hbm ∨ regionOf a = .sbm) ∧ s.mem.poisoned (s.place i.toNat a) = false ∧
      s.mem.tagOk (s.place i.toNat a) a w c = true ∧ u.len ≤ 8 ∧ u.data.length ≤ 8 ∧ ∀ j < u.len, s.mixed (a + j) = false
  | _ => False

/-- The warp once a part is performed: it is marked, a request with every part done leaves the queue, and each register waiting
for bytes of the part takes them (R170, R216). -/
def PartDone (s : State) (r : MemReq) (u : MemUnit) (rets : List (Nat × List Byte)) (v w : Warp) : Prop :=
  w = { v with mem := w.mem, pend := w.pend } ∧
  w.mem = ((v.mem.map fun x => if x.id = r.id then { x with units := x.units.mapIdx fun i y =>
      if i = s.input.unit.unit then { y with done := true, sent := false } else y } else x).filter fun x => x.units.any fun y => !y.done) ∧
  Each (fun p q => q = { p with cells := q.cells } ∧ Each (fun c d => d = { c with val := d.val } ∧
      (∀ bs, p.req = some r.id → (if c.uni then ∃ l, rets = [(l, bs)] else (c.lane, bs) ∈ rets) → u.off ≤ c.off → c.off < u.off + max 1 bs.length →
        d.val = some (loaded p.size (c.off - u.off) bs)) ∧
      (p.req ≠ some r.id ∨ (∀ x ∈ rets, (c.uni = false ∧ x.1 ≠ c.lane) ∨ c.off < u.off ∨ u.off + max 1 x.2.length ≤ c.off) → d.val = c.val))
    p.cells q.cells) v.pend w.pend

/-- The warp once a part's data have failed: of a load every part of its lane ends, else the part itself; the lanes' whole destinations
read zero, and a request with every part done leaves the queue (R188, R306, R314). -/
def PartFailed (s : State) (r : MemReq) (u : MemUnit) (v w : Warp) : Prop :=
  let lanes := if u.ops = [] then [u.lane] else u.ops.map Prod.fst
  let gone (n : Nat) : Bool := if r.kind = .load then (r.units[n]?).any (fun z => lanes.contains z.lane) else n == s.input.unit.unit
  w = { v with mem := w.mem, pend := w.pend } ∧
  w.mem = ((v.mem.map fun x => if x.id = r.id then { x with units := x.units.mapIdx fun n y =>
      bif (gone n) then { y with done := true, sent := false } else y } else x).filter fun x => x.units.any fun y => !y.done) ∧
  Each (fun p q => q = { p with cells := q.cells } ∧ Each (fun c d => d = { c with val :=
      (if p.req = some r.id ∧ r.kind ≠ .store ∧ (c.uni = true ∨ c.lane ∈ lanes) then some 0 else c.val) }) p.cells q.cells) v.pend w.pend

/-- The state of an event whose part has failed, up to what follows from it: only the warp's record differs. -/
def Failed (s x : State) (tm : Team) (r : MemReq) (u : MemUnit) : Prop :=
  x = { s with teams := x.teams, freeCtr := s.freeCtr + 1 } ∧ (∀ k, k ≠ s.input.unit.team → x.team? k = s.team? k) ∧
  ∃ w, x.team? s.input.unit.team = some { tm with warps := tm.warps.set s.input.unit.warp w } ∧
    PartFailed s r u (tm.warp s.input.unit.warp) w

/-- The stop record of an imprecise fault of a queued instruction (R188, R191). -/
def queuedRecord (s : State) (tm : Team) (r : MemReq) (u : MemUnit) (cause : BitVec 8) : StopRec :=
  let wp := tm.warp s.input.unit.warp
  { engine := 0, cause := cause, unit := BitVec.ofNat 16 wp.core, warp := BitVec.ofNat 16 s.input.unit.warp
    team := BitVec.ofNat 32 tm.index, userTag := wp.userTag, pcOrOp := r.pc.setWidth 64, addr := u.va, ctx := BitVec.ofNat 16 (s.ctxOf tm) }

/-- The state of an event once a part is performed, up to what follows from it: the warp's record, and the team's scratchpad and the
memory as given. -/
structure Done (s x : State) (tm : Team) (r : MemReq) (u : MemUnit) (rets : List (Nat × List Byte)) (tm' : Team) (mem : Mem) : Prop where
  rest   : x = { s with teams := x.teams, mem := mem, freeCtr := s.freeCtr + 1 }
  others : ∀ k, k ≠ s.input.unit.team → x.team? k = s.team? k
  team   : ∃ w, x.team? s.input.unit.team = some { tm' with warps := tm.warps.set s.input.unit.warp w } ∧
             PartDone s r u rets (tm.warp s.input.unit.warp) w

/-- Bytes written at a part: in scratchpad or at the part's place in memory, each byte the mask admits, and nothing else; a line of
HBM takes the tag of the write (R127, R213, R215). -/
def Written (s : State) (tm : Team) (u : MemUnit) (mask : Nat) (data : List Byte) (tm' : Team) (mem : Mem) : Prop :=
  let new (base k : Nat) (old : Byte) : Byte := if base ≤ k ∧ k < base + data.length ∧ mask.testBit (k - base) = true then data.getD (k - base) 0 else old
  match u.tgt with
  | .spm o => mem = s.mem ∧ tm' = { tm with spm := tm'.spm, dirty := tm'.dirty } ∧ ∀ k, Sparse.get 0 k tm'.spm = new o k (Sparse.get 0 k tm.spm)
  | .here a i w c =>
    let p := s.place i.toNat a
    tm' = tm ∧ mem = { s.mem with cells := mem.cells, lines := mem.lines } ∧ (∀ k, mem.get k = new p k (s.mem.get k)) ∧
    ∀ k, Sparse.get {} k mem.lines = if regionOf a = .hbm ∧ k = p / 64 then s.mem.tagFor a w c else Sparse.get {} k s.mem.lines
  | _ => False

/-! ## MX windows -/

/-- A byte of HBM or SBM. -/
def MemByte (a : Nat) : Prop := regionOf a = .hbm ∨ regionOf a = .sbm

/-- The number format of a descriptor's elements, and its EMAX (R62, R64). -/
def winFmt (d : MxAlias) : Fmt := if d.fmt = 0 then .e4m3 else if d.fmt = 1 then .e5m2 else .e2m1
def winEmax (d : MxAlias) : Int := if d.fmt = 0 then 8 else if d.fmt = 1 then 15 else 2

/-- Where element e and its scale stand (R62). -/
def elemAt (d : MxAlias) (e : Nat) : Nat := d.dataFrame.toNat * 4096 + (if d.fmt = 2 then e / 2 else e)
def scaleAt (d : MxAlias) (e : Nat) : Nat := d.scaleAddr.toNat + e / 32

/-- Element e is one of an enabled window whose arrays lie in HBM and SBM (R62, R65). -/
def Covered (d : MxAlias) (e : Nat) : Prop :=
  d.en = true ∧ d.fmt ≠ 3 ∧ e < 32 * d.blocks.toNat ∧
  (∀ k < d.blocks.toNat * (if d.fmt = 2 then 16 else 32), MemByte (d.dataFrame.toNat * 4096 + k)) ∧
  ∀ k < d.blocks.toNat, MemByte (d.scaleAddr.toNat + k)

/-- The byte at a local address under a pattern. -/
def byteN (s : State) (i : BitVec 3) (a : Nat) : Nat := (s.mem.get (s.place i.toNat a)).toNat

/-- A byte whose unit is not poisoned and whose line's tag verifies (R69, R128). -/
def Clean (s : State) (i : BitVec 3) (w : BitVec 6) (c : BitVec 2) (a : Nat) : Prop :=
  s.mem.poisoned (s.place i.toNat a) = false ∧ s.mem.tagOk (s.place i.toNat a) a w c = true

/-- 2^(c − 127), code 0xFF reading as 2^127 (R63). -/
def e8m0 (c : Nat) : NumVal := .val false ((2 : Rat) ^ ((min c 254 : Nat) - 127 : Int))

/-- The exact value of element e (R62, R63). -/
def winNum (s : State) (d : MxAlias) (i : BitVec 3) (e : Nat) : NumVal :=
  let b := byteN s i (elemAt d e)
  (numOf (winFmt d) (if d.fmt = 2 then b / 16 ^ (e % 2) % 16 else b)).times (e8m0 (byteN s i (scaleAt d e)))

/-- OVERRUN of window n is set, unless every byte that counts is an element's (R62, R65). -/
def Overrun (s z : State) (n : Nat) (all : Prop) : Prop :=
  (all → z = s) ∧ (¬all → z = { s with cfg := { s.cfg with aliases := z.cfg.aliases } } ∧
    ∀ k, Sparse.get {} k z.cfg.aliases = if k = n then { Sparse.get {} n s.cfg.aliases with overrun := true } else Sparse.get {} k s.cfg.aliases)

/-- The values of a block's elements once bytes of a store have replaced bytes of their BF16 images; `put k` is the byte stored at byte k
of the block (R64). -/
def StoredVals (s : State) (d : MxAlias) (i : BitVec 3) (b : Nat) (put : Nat → Option Byte) (val : Nat → NumVal) : Prop :=
  ∀ j < 32, ∃ img, Rounded .bf16 (winNum s d i (32 * b + j)) img ∧
    val j = if put (2 * j) = none ∧ put (2 * j + 1) = none then winNum s d i (32 * b + j)
      else numOf .bf16 (((put (2 * j)).map BitVec.toNat).getD (img % 256) + 256 * ((put (2 * j + 1)).map BitVec.toNat).getD (img / 256))

/-- The scale code of a block: 0 for no finite value but zero, else from the exponent of the greatest (R64). -/
def BlockScale (emax : Int) (val : Nat → NumVal) (c : Nat) : Prop :=
  ((∀ j < 32, ∀ n q, val j = .val n q → q = 0) → c = 0) ∧
  ∀ j < 32, ∀ n q, val j = .val n q → q ≠ 0 → (∀ k < 32, ∀ m r, val k = .val m r → r ≤ q) →
    ∃ e : Int, (2 : Rat) ^ e ≤ q ∧ q < (2 : Rat) ^ (e + 1) ∧ (c : Int) = max 0 (min 254 (e - emax + 127))

/-! ## Starts -/

/-- What a start or a loss of power leaves of memory: flash, with its counts, and the host's own memory; HBM and SBM are zero (R17, R20). -/
def FlashKept (m n : Mem) : Prop :=
  n = { ({} : Mem) with
    cells := n.cells, host := m.host, poison := n.poison, appends := m.appends, scrubs := m.scrubs, leaves := m.leaves, flashKey := m.flashKey } ∧
  (∀ k, n.get k = if regionOf k = .flash then m.get k else 0) ∧ n.poison = m.poison.filter fun p => regionOf p.1 == .flash

/-- What survives of fuses and training records (R17, R26). -/
def fuses (p : Power) (cold : Bool) : Power :=
  { ({} : Power) with serial := p.serial, rootKeyHash := p.rootKeyHash, rollback := p.rollback, records := p.records, coldAsked := cold }

/-- A start up to the end of its step 2: every register at its Reset value but SEC_EVENT as given; or PHASE 15 and BOOT_FAIL with the
first failure: loader signature, rollback, identity (R18, R20, R21, R27, R133, R135). -/
def Started (s t : State) (cold : Bool) (sec : SecEvent) : Prop :=
  let b := s.input.boot
  let sec1 := { sec with signExhausted := decide (2 ^ 20 ≤ s.mem.leaves) }
  let fresh : State := { ({} : State) with mem := t.mem, stamp := s.stamp, freeCtr := s.freeCtr, input := s.input, agenda := s.agenda }
  FlashKept s.mem t.mem ∧
  (b.sigOk = true → s.power.rollback ≤ b.version → b.identityOk = true →
    t = { fresh with power := fuses s.power cold, cfg := { ({} : Cfg) with sec := sec1 } }) ∧
  ∀ c : BitVec 2, (b.sigOk = false ∧ c = 0) ∨ (b.sigOk = true ∧ b.version < s.power.rollback ∧ c = 1) ∨
      (b.sigOk = true ∧ s.power.rollback ≤ b.version ∧ b.identityOk = false ∧ c = 2) →
    t = { fresh with power := { fuses s.power cold with stage := .failed, phase := 15 }
                     cfg := { ({} : Cfg) with sec := { sec1 with bootFail := true, bootCause := c } } }

/-- What step 5 finds is possible: only a stored record that no cold start passes over can verify (R19). -/
def Trainable (p : Power) (bit : Nat) (x : Train) : Prop := x = .verified → p.coldAsked = false ∧ p.records.getLsbD bit = true

/-- A part's training noted: a full training stores a record and a failure discards it; WARM after a verified record (R19, R25). -/
def Noted (p q : Power) (bit : Nat) (x : Train) : Prop :=
  q = { p with records := q.records, warm := p.warm || x == .verified, settled := q.settled, stackOk := q.stackOk, stackTrained := q.stackTrained
               flashOk := q.flashOk, flashTrained := q.flashTrained, linkUp := q.linkUp, linkTrained := q.linkTrained, die1Ok := q.die1Ok } ∧
  ∀ n < 27, q.records.getLsbD n = (if n = bit ∧ x = .full then true else if n = bit ∧ x = .failed then false else p.records.getLsbD n) ∧
    q.settled.getLsbD n = (p.settled.getLsbD n || n == bit)

/-- A bit mask with bit n set where the condition holds, and otherwise as before. -/
def SetBit {w : Nat} (x y : BitVec w) (n : Nat) (c : Bool) : Prop := ∀ i < w, y.getLsbD i = (x.getLsbD i || (c && i == n))

/-- The status bits of START_STATUS for a part: OK or UP unless its training failed, TRAINED after a full training (R25). -/
def PartBits (p q : Power) (part : Part) (x : Train) : Prop :=
  match part with
  | .stack n => SetBit p.stackOk q.stackOk n.toNat (x != .failed) ∧ SetBit p.stackTrained q.stackTrained n.toNat (x == .full) ∧
      q.flashOk = p.flashOk ∧ q.flashTrained = p.flashTrained ∧ q.linkUp = p.linkUp ∧ q.linkTrained = p.linkTrained ∧ q.die1Ok = p.die1Ok
  | .flash n => SetBit p.flashOk q.flashOk n.toNat (x != .failed) ∧ SetBit p.flashTrained q.flashTrained n.toNat (x == .full) ∧
      q.stackOk = p.stackOk ∧ q.stackTrained = p.stackTrained ∧ q.linkUp = p.linkUp ∧ q.linkTrained = p.linkTrained ∧ q.die1Ok = p.die1Ok
  | .link n => SetBit p.linkUp q.linkUp n.toNat (x != .failed) ∧ SetBit p.linkTrained q.linkTrained n.toNat (x == .full) ∧
      q.stackOk = p.stackOk ∧ q.stackTrained = p.stackTrained ∧ q.flashOk = p.flashOk ∧ q.flashTrained = p.flashTrained ∧ q.die1Ok = p.die1Ok
  | .dieBoundary => q.die1Ok = (x != .failed) ∧ q.stackOk = p.stackOk ∧ q.stackTrained = p.stackTrained ∧ q.flashOk = p.flashOk ∧
      q.flashTrained = p.flashTrained ∧ q.linkUp = p.linkUp ∧ q.linkTrained = p.linkTrained

/-- The number of a part among the training records: stacks 0 to 7, flash 8 and 9, links 10 to 25, the die boundary 26. -/
def recordOf : Part → Nat
  | .stack n => n.toNat
  | .flash n => 8 + n.toNat
  | .link n => 10 + n.toNat
  | .dieBoundary => 26

/-! ## Registers -/

/-- The physical function's registers answer (R21, R71, R136). -/
def Answers (s : State) : Prop := s.power.stage ≠ .off ∧ s.power.stage ≠ .hostLink ∧ s.power.phase ≠ 15 ∧ s.cfg.erased = false

/-- A writer is there: a function that is visible, being a live root context after the move to RUN, or a live context (R74, R94). -/
def Present (s : State) (w : Writer) : Prop :=
  match w with
  | .pf => Answers s
  | .vf n => Answers s ∧ s.cfg.state = .run ∧ (s.ctx n.toNat).live = true ∧ (s.ctx n.toNat).level = 0
  | .ctx c => s.cfg.erased = false ∧ (s.ctx c.toNat).live = true

/-- The context a writer acts as. -/
def actsAs : Writer → Option Nat
  | .pf => none
  | .vf n => some n.toNat
  | .ctx c => some c.toNat

/-- A writer reaches a queue slot: one of its own context or of a descendant (R76, R94). -/
def Reaches (s : State) (w : Writer) (q : Nat) : Prop :=
  Present s w ∧ ∃ c o, actsAs w = some c ∧ (s.queue q).owner = some o ∧ s.within c o.toNat = true

/-- A writer acts as the root context c itself. -/
def ActsAsRoot (s : State) (w : Writer) (c : Nat) : Prop := Present s w ∧ actsAs w = some c ∧ (s.ctx c).level = 0

/-- The write covers the low half of the register. -/
def lowHalf (a : RegAcc) : Prop := a.half ≠ .hi

/-- Bits [h:l] of written data. -/
def dbits (d : DWord) (h l : Nat) : Nat := d.toNat / 2 ^ l % 2 ^ (h + 1 - l)

/-- A queue's record alone differs. -/
def OnlyQueue (s t : State) (q : Nat) (x : Queue) : Prop :=
  t = { s with queues := t.queues } ∧ t.queue q = x ∧ ∀ k, k ≠ q → t.queue k = s.queue k

/-- A queue enters ERROR: state, cause, a KIND 4 record, and a KIND 3 handler record for a context of level 1 to 3 (R78, R79). -/
def ErroredWith (tag : Word) (s t : State) (q : Nat) (x : Queue) (status : BitVec 8) : Prop :=
  t = { s with queues := t.queues, ctxs := t.ctxs } ∧ (∀ k, k ≠ q → t.queue k = s.queue k) ∧
  t.queue q = { x with state := .error, cause := status, waiting := x.waiting ++
    [{ kind := 4, status := status, queue := BitVec.ofNat 10 q, tag := tag, userTag := 0, index := x.ridx, payload := 0, pkt := none }] } ∧
  ∀ c, t.ctx c = if x.owner = some (BitVec.ofNat 12 c) ∧ c < 4096 ∧ (s.ctx c).level ≠ 0 then { s.ctx c with
      faultSeq := (s.ctx c).faultSeq + 1
      hqWaiting := (s.ctx c).hqWaiting ++ [{ kind := 3, cause := status, stage := 0, userTag := 0, ctx := BitVec.ofNat 16 c
                                             origin := BitVec.ofNat 16 q, seq := (s.ctx c).faultSeq, addr := 0, image := 0, pc := 0, team := 0 }] }
    else s.ctx c

/-- The same for no packet. -/
def Errored (s t : State) (q : Nat) (x : Queue) (status : BitVec 8) : Prop := ErroredWith 0 s t q x status

/-- LOG2 fields of rings lie within 4 and 16 (R78). -/
def LogOk (x : BitVec 5) : Prop := 4 ≤ x.toNat ∧ x.toNat ≤ 16

/-- A queue is in FROZEN while a freeze flag of its context is set; the other states lie under it, and THAW brings them back (R76, R78, R111). -/
def Frozen (s : State) (q : Nat) : Prop := ∃ c, (s.queue q).owner = some c ∧ (s.ctx c.toNat).freeze ≠ 0

/-- A queue is in a state other than FROZEN. -/
def InState (s : State) (q : Nat) (x : QState) : Prop := ¬Frozen s q ∧ (s.queue q).state = x

/-- A write index stays within the ring and does not go back (R77). -/
def IndexOk (x : Queue) (w : Word) : Prop := (w - x.ridx).toNat ≤ 2 ^ x.cqLog2.toNat ∧ (x.widx - x.ridx).toNat ≤ (w - x.ridx).toNat

/-- The operations and events that are register writes of the physical function alone (R26, R71, R124). -/
def pfWrites : List Instr :=
  [.resetGo, .powerCtlWrite, .cfgLock, .cfgRun, .hashMaskWrite, .owlRekey, .worldCreate, .worldKey, .worldDestroy]

/-- RW-L fields: in CONFIG_OPEN the write takes effect, and from CONFIG_LOCKED on it is rejected and logged (R7, R73). -/
def Lockable (s t : State) (opened : State) : Prop :=
  (s.cfg.state = .open_ → t = opened) ∧
  (s.cfg.state = .locked ∨ s.cfg.state = .run → t = { s with cfg := { s.cfg with sec := { s.cfg.sec with lockWrite := true } } })

/-! ## Accesses that may wait for a plane -/

/-- The state with no access of it waiting for its plane: `stall` is a mark within one event. -/
def calm (s : State) : State := { s with stall := none }

/-- From s to t a context has had packets sent on a link: the link's port has charged it (R106). -/
def SentFor (s t : State) (link c : Nat) : Prop :=
  c < 4096 ∧ ∃ d, Table.find (link * 4096 + c) t.eng.ports = some d ∧ d.pass ≠ (passOf s.eng.ports link c).pass

/-- Every port gives the packets sent from s to t their turn. -/
def EveryTurn (s t : State) : Prop := ∀ k < 16, s.turnOn t k = true

/-- An event whose accesses leave the state t: it takes place when none of them has to wait for its plane, and every port that they sent
packets through gives them their turn, as always where nothing is sent, with FABRIC_EN 0 among others; else it does not, and its contexts
wait for their turns, or only the links that a packet found exhausted enter KEY_EXHAUSTED (R30, R47, R106; that a step of its own decides
the turn and that a context is kept as waiting is the model's choice, log 70). -/
structure TakesPlace (i : Instr) (s t : State) : Prop where
  quiet  : t.stall = none → (∀ k c, ¬SentFor s t k c) → exec i s = .next t
  now    : t.stall = none → EveryTurn s t → ∃ z, exec i s = .next z ∧ z = { t with eng := { t.eng with portWait := z.eng.portWait } } ∧
             ∀ w, w ∈ z.eng.portWait ↔ w ∈ t.eng.portWait ∧ ¬SentFor s t w.1 w.2.1
  late   : t.stall = none → ¬EveryTurn s t → ∃ z, (exec i s = .next z ∨ (exec i s = .refused .noOccasion ∧ z = s)) ∧
             z = { s with eng := { s.eng with ports := z.eng.ports, portWait := z.eng.portWait } } ∧
             ∀ k c, k < 16 → s.turnOn t k = false → SentFor s t k c → ∃ n, (k, c, n) ∈ z.eng.portWait
  never  : s.fabric.enable = false → t.stall = none ∧ ∀ k c, ¬SentFor s t k c
  refuse : t.stall ≠ none → (∀ k < 16, (t.link k).state = 3 → (s.link k).state = 3) → exec i s = .refused .noOccasion
  wait   : t.stall ≠ none → ¬(∀ k < 16, (t.link k).state = 3 → (s.link k).state = 3) → ∃ z, exec i s = .next z ∧
             z = { s with fabric := { s.fabric with links := z.fabric.links } } ∧
             ∀ k < 16, z.link k = if (t.link k).state = 3 then { s.link k with state := 3 } else s.link k

/-! ## Packets -/

/-- A field of n bytes of a packet, little-endian. -/
def pnum (p : Packet) (off n : Nat) : Nat := littleEndian ((p.bytes.drop off).take n)

/-- The packet at the head of the event's queue: read, of a type, and able to start for the context that holds the slot. -/
structure Heads (s : State) (ty q : Nat) (c : CtxId) (p : Packet) : Prop where
  slot  : s.input.slot.toNat = q
  cur   : (s.queue q).cur = some p
  owner : (s.queue q).owner = some c
  type  : pnum p 0 1 = ty
  fresh : p.waits = none
  may   : s.mayStart q c.toNat p = true

/-- A packet may start: its queue runs, its context is not frozen and its world's keys are held; a halted context starts FAULT_DONE and
the types 0x08 to 0x0E; FENCE finds nothing outstanding; a subtree command waits for others on an overlapping subtree, but a REVOKE not
for the CHECKPOINT it ends; THAW waits for a halt to be reported; LAUNCH and CHILD_CREATE of a subtree of several devices wait for full service (R23, R80, R111, R112, R116, R117, R125). -/
def MayBegin (s : State) (q c : Nat) (p : Packet) : Prop :=
  let x := s.queue q
  let ty := pnum p 0 1
  let w := (s.ctx c).world
  (x.state = .run ∨ x.state = .blocked) ∧ (s.ctx c).freeze = 0 ∧ s.cfg.erased = false ∧
  (w = 0 ∨ ((s.world w.toNat).live = true ∧ (s.world w.toNat).key1 = true ∧ (s.world w.toNat).key2 = true)) ∧
  ((s.ctx c).halt = none ∨ ty = 5 ∨ (8 ≤ ty ∧ ty ≤ 14)) ∧
  ((pnum p 0 4).testBit 9 = true → x.open_ = []) ∧
  (9 ≤ ty ∧ ty ≤ 13 → ∀ k ∈ s.eng.cmds, (s.within k.ctx.toNat (pnum p 8 2) = true ∨ s.within (pnum p 8 2) k.ctx.toNat = true) →
    match k.kind with
    | .inval _ _ => True
    | .flog _ _ => True
    | .scrub => True
    | .checkpoint _ _ _ => ty = 12
    | _ => False) ∧
  (ty = 10 → ∀ h, (s.ctx (pnum p 8 2)).halt = some h → h.reported = true ∨ h.tamper = true) ∧
  (ty = 1 ∨ ty = 7 → s.power.phase = 4 ∨ (s.subtreeOf c).2.2.toNat ≤ 1)

/-- The state once the packet has started: RIDX passes it and it is outstanding (R78, R80, R93). -/
def Begun (s y : State) (q c : Nat) (p : Packet) : Prop :=
  y = { s with queues := y.queues, ctxs := y.ctxs, stall := none } ∧
  y.queue q = { s.queue q with ridx := (s.queue q).ridx + 1, state := .run, cur := none, open_ := (s.queue q).open_ ++ [p.index] } ∧
  (∀ k, k ≠ q → y.queue k = s.queue k) ∧ y.ctx c = { s.ctx c with started := true } ∧ ∀ k, k ≠ c → y.ctx k = s.ctx k

/-- A packet completes: with a KIND 1 record when it asks for one or has failed, and else at once (R80, R88). -/
def Completed (y t : State) (q : Nat) (p : Packet) (status : BitVec 8) (payload : BitVec 128) : Prop :=
  if (pnum p 0 4).testBit 8 = true ∨ status ≠ 0 then
    OnlyQueue y t q { y.queue q with waiting := (y.queue q).waiting ++
      [{ kind := 1, status := status, queue := BitVec.ofNat 10 q, tag := BitVec.ofNat 32 (pnum p 4 4), userTag := 0, index := p.index
         payload := payload, pkt := some (q, p.index.toNat) }] }
  else OnlyQueue y t q { y.queue q with open_ := (y.queue q).open_.filter fun i => i != p.index }

/-- A packet of a type runs: it starts wherever it may, and what follows is as `eff` says of the state once it has started. -/
def PacketRuns (i : Instr) (ty : Nat) (eff : State → Nat → Nat → Packet → State → Prop) : Prop :=
  ∀ s q c p, Heads s ty q c p → ∃ y t, Begun s y q c.toNat p ∧ exec i s = .next t ∧ eff y q c.toNat p t

/-- The same for a packet whose effect makes accesses to memory. -/
def PacketReaches (i : Instr) (ty : Nat) (eff : State → Nat → Nat → Packet → State → Prop) : Prop :=
  ∀ s q c p, Heads s ty q c p → ∃ y t, Begun s y q c.toNat p ∧ TakesPlace i s t ∧ eff y q c.toNat p t

/-- Context d is a child of c. -/
def ChildOf (s : State) (c d : Nat) : Prop := (s.ctx d).live = true ∧ (s.ctx d).level ≠ 0 ∧ (s.ctx d).parent.toNat = c

/-- The word of a mailbox packet: its aligned context address leads into this device's SBM for the access (R83). -/
def MailboxAt (s : State) (c : Nat) (p : Packet) (k : Access) (word : Nat) (t : Trans) : Prop :=
  pnum p 8 8 % 8 = 0 ∧ s.lead 0x9100000 c (pnum p 8 8) k = .ok t ∧
  ∃ a i w m, s.targetOf t (pnum p 8 8) = .here a i w m ∧ regionOf a = .sbm ∧ a = 0x80000000000 + word

/-- The packet leads to no mailbox. -/
def NoMailbox (s : State) (c : Nat) (p : Packet) (k : Access) : Prop := ∀ word t, ¬MailboxAt s c p k word t

/-- A packet of the type that has waited on the word since before the count (R83). -/
def WaitsBefore (s : State) (ty word since : Nat) : Prop :=
  ∃ x ∈ s.queues, ∃ k n, x.2.cur = some k ∧ pnum k 0 1 = ty ∧ k.waits = some (n, word) ∧ n < since

/-- An access by the CPX that comes to nothing changes no memory and no queue: it may only leave the record of a failure found on the way
to it (R39, R69, R128, R130). -/
def NoAccess (s t : State) : Prop :=
  t.mem.cells = s.mem.cells ∧ t.mem.full = s.mem.full ∧ t.queues = s.queues ∧ t.teams = s.teams ∧ t.bundles = s.bundles

/-- A mailbox packet whose word or transfer has failed: the context stops with a BALU record, and the packet completes ADDR_BAD (R69, R191; log 23). -/
def MailboxFails (y t : State) (q c : Nat) (p : Packet) (a : Nat) (cause : BitVec 8) : Prop :=
  ∃ z, HaltRaised (countedIn y cause) z c
      { engine := 4, cause := cause, unit := BitVec.ofNat 16 (512 + (a - 0x80000000000) / 256 % 1536)
        pcOrOp := BitVec.ofNat 64 y.fabric.deviceNum.toNat, addr := BitVec.ofNat 64 (y.fabric.deviceNum.toNat * 2 ^ 44 + a % 2 ^ 44)
        ctx := BitVec.ofNat 16 c } false none ∧ Completed z t q p 2 0

/-- A PUT or TAKE takes effect: PUT writes its word whole, which makes it good again, and fills it; TAKE reads the word, empties it,
returns it in the record and stores it where the packet asks; a poisoned word fails (R61, R69, R83, R84). -/
def Served (y : State) (q c ty : Nat) (p : Packet) (word : Nat) (t : State) : Prop :=
  let a := 0x80000000000 + word
  let value := (List.range 8).map fun j => y.mem.get (a + j)
  let v := BitVec.ofNat 128 (littleEndian value)
  (ty = 2 → ∃ z, z = { y with mem := z.mem } ∧ z.mem = { y.mem with cells := z.mem.cells, full := z.mem.full, poison := z.mem.poison } ∧
    (∀ k, z.mem.get k = if a ≤ k ∧ k < a + 8 then BitVec.ofNat 8 (pnum p 16 8 / 256 ^ (k - a)) else y.mem.get k) ∧
    (∀ k, z.mem.poisoned k = if a ≤ k ∧ k < a + 8 then false else y.mem.poisoned k) ∧
    (∀ k, Sparse.get false k z.mem.full = if k = word / 8 then true else Sparse.get false k y.mem.full) ∧ Completed z t q p 0 0) ∧
  (ty = 3 → y.mem.poisoned a = true → MailboxFails y t q c p a 0x11) ∧
  (ty = 3 → y.mem.poisoned a = false → (∀ j < 8, y.mixed (a + j) = false) → ∃ z, z = { y with mem := { y.mem with full := z.mem.full } } ∧
    (∀ k, Sparse.get false k z.mem.full = if k = word / 8 then false else Sparse.get false k y.mem.full) ∧
    (pnum p 16 8 = 0 → Completed z t q p 0 v) ∧
    (pnum p 16 8 ≠ 0 → Completed (z.tryWrite c (pnum p 16 8) value).s t q p (if (z.tryWrite c (pnum p 16 8) value).ok then 0 else 2) v))

/-- The flash page in service that a page address of a context leads to, with FLASH and WRITE (R22, R66, R87). -/
def FlashPage (s : State) (c va : Nat) (t : Trans) : Prop :=
  va < 2 ^ 56 ∧ s.translate 0x9200000 c va = .ok t ∧ t.flash = true ∧ t.write = true ∧ t.world = (s.ctx c).world ∧
  t.dev = s.fabric.deviceNum ∧ s.power.flashOk.getLsbD (t.frame / 2 ^ 41 % 2) = true

/-- HQ_READ of a context's handler queue, read from the host's registers or, for a child, from its parent's memory; y is the state after (R93, R120). -/
def HqRead (s : State) (c : Nat) (y : State) (i : Word) : Prop :=
  let x := s.ctx c
  (x.level = 0 → y = s ∧ i = x.hqRead) ∧
  (x.level ≠ 0 → ∃ bs, s.readVa x.parent.toNat (x.hqBase.toNat + 64 * 2 ^ x.hqLog2.toNat) 8 = { s := y, bytes := some bs } ∧
    i = BitVec.ofNat 32 (littleEndian bs))

/-! ## Pages, lines and scrubs -/

/-- The bytes of a page of HBM at a local address, under a pattern. -/
def PageIs (s : State) (i : BitVec 3) (a : Nat) (page : List Byte) : Prop :=
  page.length = 4096 ∧ ∀ j < 4096, page[j]? = some (s.mem.get (s.place i.toNat (a + 32 * (j / 32)) + j % 32))

/-- Every sector of a page is clean for an access (R69, R128). -/
def PageClean (s : State) (i : BitVec 3) (w : BitVec 6) (c : BitVec 2) (a : Nat) : Prop := ∀ j < 128, Clean s i w c (a + 32 * j)

/-- Root contexts of a world, and their descendants (R124, R126). -/
def InWorld (s : State) (w c : Nat) : Prop := (s.ctx c).live = true ∧ (s.ctx c).world.toNat = w

/-- A root context that DESTROY or a REVOKE that names it has left: live, empty, in world 0, its queues IDLE (R117, R126). -/
def BackInWorldZero (t : State) (c : Nat) : Prop :=
  (t.ctx c).live = true ∧ (t.ctx c).level = 0 ∧ (t.ctx c).world = 0 ∧ (t.ctx c).halt = none ∧ (t.ctx c).freeze = 0 ∧
  ∀ n, (t.queue n).owner = some (BitVec.ofNat 12 c) → (t.queue n).state = .idle ∧ (t.queue n).enable = false ∧ (t.queue n).cur = none

/-- A line of 64 bytes of HBM or SBM: its storage location. -/
def LineAt (s : State) (x : Target) (k a : Nat) (w : BitVec 6) (c : BitVec 2) : Prop :=
  ∃ i : BitVec 3, x = .here a i w c ∧ a % 64 = 0 ∧ (regionOf a = .hbm ∨ regionOf a = .sbm) ∧ (regionOf (a + 63) = regionOf a) ∧ k = s.place i.toNat a

/-- A line replaced: its bytes, and in HBM the tag of the writer; poison goes and nothing else changes (R69, R127, R128). -/
def LinePut (s t : State) (k a : Nat) (w : BitVec 6) (c : BitVec 2) (bs : List Byte) : Prop :=
  t = { s with mem := { s.mem with cells := t.mem.cells, lines := t.mem.lines, poison := t.mem.poison } } ∧
  (∀ j, t.mem.get j = if k ≤ j ∧ j < k + 64 then bs.getD (j - k) 0 else s.mem.get j) ∧
  (∀ j, t.mem.poisoned j = if k ≤ j ∧ j < k + 64 then false else s.mem.poisoned j) ∧
  ∀ j, Sparse.get {} j t.mem.lines = if regionOf a = .hbm ∧ j = k / 64 then s.mem.tagFor a w c else Sparse.get {} j s.mem.lines

/-- The ranges of a list of 16-byte entries: address and length, little-endian (R118). -/
def RangesOf (bs : List Byte) (n : Nat) (rs : List (Nat × Nat)) : Prop :=
  rs.length = n ∧ ∀ i < n, rs[i]? = some (littleEndian ((bs.drop (16 * i)).take 8), littleEndian ((bs.drop (16 * i + 8)).take 8))

/-- The parts of a range within 64-byte lines follow one another and cover it. -/
def LineParts : Nat → Nat → List (Nat × Nat) → Prop
  | _, n, [] => n = 0
  | va, n, p :: rest => 0 < n ∧ p = (va, min n (64 - va % 64)) ∧ LineParts (va + p.2) (n - p.2) rest

/-- The receipt of a scrub: world, METHOD, count and the ranges in local addresses, signed, in whole lines (R134; layout: log 48). -/
def ReceiptIs (s : State) (w : BitVec 6) (method count : Nat) (parts : List (Nat × Nat)) (bs : List Byte) : Prop :=
  let le (v : Nat) : List Byte := (List.range 8).map fun j => BitVec.ofNat 8 (v / 256 ^ j)
  let body := le w.toNat ++ le method ++ le count ++ le parts.length ++ parts.flatMap fun p => le p.1 ++ le p.2
  bs.length % 64 = 0 ∧ ∃ n, bs = body ++ s.signature body ++ List.replicate n 0 ∧ n < 64

/-! ## The fabric -/

/-- A link differs, and nothing else. -/
def OnlyLink (s t : State) (i : Nat) (l : Link) : Prop :=
  t = { s with fabric := { s.fabric with links := t.fabric.links } } ∧ t.link i = l ∧ ∀ k, k ≠ i → t.link k = s.link k

/-- A link takes its next key, where it holds one and it is due: the counter has reached 2^47, or firmware asks (R46). -/
def keyed (l : Link) (early : Bool) : Link :=
  if l.next = true ∧ (early = true ∨ 2 ^ 47 ≤ l.tx.toNat) then { l with keySlot := !l.keySlot, next := false, tx := 0, switched := true } else l

/-- A packet as it leaves a link: the first since the link took its next key is marked (R46). -/
def freshened (l : Link) (p : FarPacket) : FarPacket := { p with fresh := l.switched }

/-- A packet of so many flits has a counter value for each below 2^48 − 1 (R45, R47). -/
def Fits (l : Link) (flits : Nat) : Prop := l.tx.toNat + flits - 1 < 2 ^ 48 - 1

/-- A packet given to a link that takes it: it leaves under fresh counter values, or the direction is exhausted and holds it, as `hold` says;
behind others that wait, or on an exhausted link, it waits (R45 to R47). -/
def Queued (l m : Link) (p : FarPacket) : Prop :=
  let k := keyed l false
  (l.state = 2 → l.held = [] → Fits k p.flits → m = { k with tx := k.tx + BitVec.ofNat 48 p.flits, sent := freshened k p :: k.sent, switched := false }) ∧
  (l.state = 2 → l.held = [] → ¬Fits k p.flits → m = { k with state := 3, held := [p] }) ∧
  (l.state ≠ 2 ∨ l.held ≠ [] → m = { l with held := l.held ++ [p] })

/-- The packets held leave in order under a new key, the first of them marked, up to one that finds it exhausted (R46, R47). -/
def Resumed (l m : Link) : Prop :=
  ∃ gone stay, l.held = gone ++ stay ∧
    m = { l with
      sent := (gone.mapIdx fun i p => { p with fresh := decide (i = 0) }).reverse ++ l.sent, held := stay, switched := decide (gone = []), tx := BitVec.ofNat 48 (gone.map FarPacket.flits).sum, state := (if stay = [] then 2 else 3)
      keySlot := !l.keySlot, next := false, rxNext := true, asked := false } ∧
    (∀ n p, gone[n]? = some p → ((gone.take n).map FarPacket.flits).sum + p.flits - 1 < 2 ^ 48 - 1) ∧
    ∀ p, stay.head? = some p → 2 ^ 48 - 1 ≤ (gone.map FarPacket.flits).sum + p.flits - 1

/-- A link out of service: state FAILED, LINK_UP clear, SEC_EVENT, units sent on it to be sent again, its slots of OSF_PLANE_MAP taken by
a link in service, and what arrived on it unpresented or unanswered forgotten, since it comes again (R35, R36, R48, R135). That one link,
the one named or the lowest, takes all the slots is the model's choice (log 58). -/
def LinkLost (s t : State) (i : Nat) : Prop :=
  t = { s with
    teams := t.teams
    fabric := { s.fabric with links := t.fabric.links, planeMap := t.fabric.planeMap, presented := t.fabric.presented, reorder := t.fabric.reorder }
    power := { s.power with linkUp := t.power.linkUp }
    cfg := { s.cfg with sec := { s.cfg.sec with linkLost := true, linkNum := BitVec.ofNat 4 i } } } ∧
  t.link i = { s.link i with state := 4, sent := [], held := [], answers := [] } ∧ (∀ k, k ≠ i → t.link k = s.link k) ∧
  (∀ k < 16, t.power.linkUp.getLsbD k = (s.power.linkUp.getLsbD k && k != i)) ∧
  (∀ src j, j < 16 → Sparse.get 0 (src * 16 + j) t.fabric.presented = if j = i then 0 else Sparse.get 0 (src * 16 + j) s.fabric.presented) ∧
  t.fabric.reorder = s.fabric.reorder.filter (fun p => p.2.1.toNat != i) ∧
  (∀ k p : BitVec 4, (if t.power.linkUp.getLsbD s.input.repl.toNat then p = s.input.repl else
      t.power.linkUp.getLsbD p.toNat = true ∧ ∀ j < p.toNat, t.power.linkUp.getLsbD j = false) →
    ∀ x, s.fabric.planeMap[k.toNat]? = some x →
      t.fabric.planeMap[k.toNat]? = some (if t.power.linkUp.getLsbD x.toNat then x else p)) ∧
  ∀ k, Each (fun a b => b = { a with warps := b.warps } ∧ Each (fun v w => w = { v with mem := w.mem } ∧
      Each (fun r q => q = { r with units := q.units } ∧ Each (fun x y => y = { x with sent := y.sent } ∧
          ((∀ d a' wd c, x.tgt ≠ .away d a' wd c) → y.sent = x.sent) ∧
          ∀ d a' wd c, x.tgt = .away d a' wd c → y.sent = if s.planeOf a' = i then false else x.sent) r.units q.units) v.mem w.mem) a.warps b.warps)
    (s.team? k).toList (t.team? k).toList

/-- The event names part u of request r, on another device and not done. -/
structure Afar (s : State) (tm : Team) (earlier : List MemReq) (r : MemReq) (later : List MemReq) (u : MemUnit) (d : BitVec 12) (a : Nat) :
    Prop where
  team  : s.team? s.input.unit.team = some tm
  warp  : s.input.unit.warp < tm.warps.length
  queue : (tm.warp s.input.unit.warp).mem = earlier ++ r :: later
  id    : r.id = s.input.unit.req
  only  : ∀ e ∈ earlier ++ later, e.id ≠ r.id
  part  : r.units[s.input.unit.unit]? = some u
  open_ : u.done = false
  away  : ∃ w c, u.tgt = .away d a w c

/-- A part travels in the packet of an address: not done, to the same device, in its 64-byte block, or of an atomic its very word (R33). -/
def Travels (r : MemReq) (d : BitVec 12) (a : Nat) (v : MemUnit) : Prop :=
  v.done = false ∧ ∃ b w c, v.tgt = .away d b w c ∧ ((r.kind = .load ∨ r.kind = .store) → b / 64 = a / 64) ∧ ((∃ o x y, r.kind = .atom o x y) → b = a)

/-- A part waits behind an earlier access of its warp to some of the same bytes that has not left (R214, R216, R219). -/
def Behind (s : State) (earlier : List MemReq) (z : MemUnit) : Prop :=
  ∃ e ∈ earlier, ∃ v ∈ e.units, v.done = false ∧ v.sent = false ∧ (s.keyOf v.tgt).1 = (s.keyOf z.tgt).1 ∧
    (s.keyOf v.tgt).2 < (s.keyOf z.tgt).2 + z.len ∧ (s.keyOf z.tgt).2 < (s.keyOf v.tgt).2 + v.len

/-- The local address of a part on another device. -/
def farAt (z : MemUnit) : Nat := match z.tgt with | .away _ b _ _ => b | _ => 0

/-- The request of a packet: the parts that travel, their bytes in the block's mask, and what the instruction carries (R32, R33). -/
structure RequestIs (s : State) (tm : Team) (r : MemReq) (u : MemUnit) (a : Nat) (goes : MemUnit → Prop) (q : RemoteReq) : Prop where
  ids   : q.src = s.fabric.deviceNum ∧ q.seq = u.seq.getD s.fabric.nextSeq ∧ q.subtree = (s.subtreeOf (s.ctxOf tm)).1
  tags  : ∀ d b w c, u.tgt = .away d b w c → q.dev = d ∧ q.world = w ∧ q.comp = c
  order : q.order = r.order ∧ q.scope = r.scope
  load  : r.kind = .load → q.kind = .load ∧ q.addr = BitVec.ofNat 44 (a / 64 * 64) ∧
            ∀ j < 64, q.bytes.testBit j = true ↔ ∃ z ∈ r.units, goes z ∧ farAt z % 64 ≤ j ∧ j < farAt z % 64 + z.len
  store : r.kind = .store → q.addr = BitVec.ofNat 44 (a / 64 * 64) ∧ ∃ data : List Byte, q.kind = .store data ∧ data.length = 64 ∧
            ∀ j < 64, (q.bytes.testBit j = true ↔ ∃ z ∈ r.units, goes z ∧ farAt z % 64 ≤ j ∧ j < farAt z % 64 + z.len ∧
                z.mask.testBit (j - farAt z % 64) = true) ∧
              (q.bytes.testBit j = true → ∃ z ∈ r.units, goes z ∧ farAt z % 64 ≤ j ∧ j < farAt z % 64 + z.len ∧
                z.mask.testBit (j - farAt z % 64) = true ∧ data[j]? = some (z.data.getD (j - farAt z % 64) 0))
  atom  : ∀ op w64 ret, r.kind = .atom op w64 ret → q.addr = BitVec.ofNat 44 a ∧ ∃ code : BitVec 7, q.kind = .atom code w64 (u.ops.map Prod.snd) ∧
            atomOfCode code.toNat = some op

/-- What an answer brings for parts of a request, one after another: for a load a part's bytes for its lane, for an atomic the values that follow
from the old word; the answer's bytes are cut in the order of the parts (R33, R36, R313). -/
def Brought (r : MemReq) : List Nat → List Byte → List (Nat × List (Nat × List Byte)) → Prop
  | [], _, os => os = []
  | i :: is, bs, os => ∃ u rets rest, r.units[i]? = some u ∧ os = (i, rets) :: rest ∧ Brought r is (bs.drop u.len) rest ∧
      let mine := (bs ++ List.replicate u.len 0).take u.len
      (r.kind = .load → rets = [(u.lane, mine)]) ∧ (r.kind = .store → rets = []) ∧
      ∀ op w64 ret, r.kind = .atom op w64 ret →
        rets = (u.ops.map Prod.fst).zip ((atomStep op w64 (BitVec.ofNat 64 (littleEndian mine)) (u.ops.map Prod.snd)).1.map fun v =>
          (List.range (if w64 then 8 else 4)).map fun j => BitVec.ofNat 8 (v.toNat / 256 ^ j))

/-- The failure that an answer reports leaves a part alone: the mask of sound bytes of its block holds every byte of it that the access needs (R306). -/
def PartSound (s : State) (r : MemReq) (v : MemUnit) : Prop :=
  ∀ k < v.len, (r.kind = .store → v.mask.testBit k = true) → s.input.sound.testBit (farAt v % 64 + k) = true

/-- A cell of a register that bytes `bs` brought for a part reach. -/
def Reached (r : MemReq) (o : Nat × List (Nat × List Byte)) (c : PendCell) (bs : List Byte) (off : Nat) : Prop :=
  ∃ u l, r.units[o.1]? = some u ∧ off = u.off ∧ (l, bs) ∈ o.2 ∧ (c.uni = true ∨ l = c.lane) ∧ u.off ≤ c.off ∧ c.off < u.off + max 1 bs.length

/-- The warp once an answer for the parts at positions `is` is taken in, those at `bad` having failed: they are done, of a load with every part
of their lanes; the lanes of the bad ones read zero, and each register waiting for bytes of the others takes them (R33, R188, R306, R314). -/
structure AnswerTaken (r : MemReq) (is bad : List Nat) (os : List (Nat × List (Nat × List Byte))) (v w : Warp) : Prop where
  rest : w = { v with mem := w.mem, pend := w.pend }
  mem  : let lanes := bad.flatMap fun n => (r.units[n]?.map fun u => if u.ops = [] then [u.lane] else u.ops.map Prod.fst).getD []
         let gone (n : Nat) : Bool := (is.contains n && !bad.contains n) ||
           (if r.kind = .load then (r.units[n]?).any (fun z => lanes.contains z.lane) else bad.contains n)
         let after (n : Nat) (y : MemUnit) : MemUnit := if gone n then { y with done := true, sent := false } else y
         w.mem = (v.mem.map fun x => if x.id = r.id then { x with units := x.units.mapIdx after } else x).filter fun x => x.units.any fun y => !y.done
  pend : let lanes := bad.flatMap fun n => (r.units[n]?.map fun u => if u.ops = [] then [u.lane] else u.ops.map Prod.fst).getD []
         Each (fun p q => q = { p with cells := q.cells } ∧ Each (fun c d => d = { c with val := d.val } ∧
           let zero := r.kind ≠ .store ∧ bad ≠ [] ∧ (c.uni = true ∨ c.lane ∈ lanes)
           (p.req ≠ some r.id → d.val = c.val) ∧ (p.req = some r.id → zero → d.val = some 0) ∧
           (p.req = some r.id → ¬zero → (∀ o ∈ os, o.1 ∉ bad → ∀ bs off, ¬Reached r o c bs off) → d.val = c.val) ∧
           ∀ o ∈ os, o.1 ∉ bad → ∀ bs off, p.req = some r.id → ¬zero → Reached r o c bs off →
             (∀ o' ∈ os, o'.1 ∉ bad → ∀ bs' off', Reached r o' c bs' off' → bs' = bs ∧ off' = off) →
             d.val = some (loaded p.size (c.off - off) bs)) p.cells q.cells) v.pend w.pend

/-- Flits of a request: a header, and for a store the bytes of its mask and for an atomic its operand in flits of 32 bytes (R32; log 11). -/
def flitsOf (q : RemoteReq) : Nat :=
  match q.kind with
  | .load => 1
  | .store _ => 1 + (((List.range 64).filter fun j => q.bytes.testBit j).length + 31) / 32
  | .atom _ _ _ => 2

/-- The context of a link port's next packet: of those with traffic queued, the one with the lowest PASS (R106, R144). -/
def PortGoesTo (ports : List (Nat × Disp)) (i : Nat) (now : List Nat) (c : Nat) : Prop :=
  let pass (d : Nat) : Nat := (passOf ports i d).pass.toNat
  c ∈ now ∧ ∀ d ∈ now, pass c < pass d ∨ (pass c = pass d ∧ c ≤ d)

/-- A link port has charged a context for so many flits (R106; log 55). -/
def PortCharged (s : State) (t u : List (Nat × Disp)) (i c flits : Nat) : Prop :=
  passOf u i c = { passOf t i c with pass := (passOf t i c).pass + BitVec.ofNat 64 (flits * (2 ^ 48 / s.effWeight .link c)) } ∧
  ∀ k d, d < 4096 → ¬(k = i ∧ d = c) → passOf u k d = passOf t k d

/-- A remote miss at its source: the packet's parts end without effect, their lanes' results are dropped, OSF_ERR records the miss, and
the context is halted with REMOTE_PIN_MISS (R39, R40); no `exit` of the warp completes (the model's choice, log 31). -/
def SourceMiss (s t : State) (tm : Team) (r : MemReq) (d : BitVec 12) (a : Nat) (kind : BitVec 2) (goes : MemUnit → Prop) : Prop :=
  let n := s.input.unit
  let v := tm.warp n.warp
  let c := s.ctxOf tm
  let fa : DWord := BitVec.ofNat 64 (d.toNat * 2 ^ 44 + a)
  ∃ x y w, OnlyTeam s x n.team { tm with warps := tm.warps.set n.warp w } ∧
    w = { v with mem := w.mem, pend := w.pend, lost := true } ∧
    (∀ q ∈ w.mem, q.id = r.id → ∀ z ∈ q.units, z.done = false → ¬goes z) ∧
    (∀ p ∈ w.pend, p.req = some r.id → ∀ k ∈ p.cells, ∀ z ∈ r.units, goes z →
      k.uni = false ∧ (z.ops = [] → z.lane ≠ k.lane) ∧ ∀ o ∈ z.ops, o.1 ≠ k.lane) ∧
    OsfNoted x y c d kind a ∧
    HaltRaised y t c
      { engine := 0, cause := 6, unit := BitVec.ofNat 16 v.core, warp := BitVec.ofNat 16 n.warp, team := BitVec.ofNat 32 tm.index
        userTag := v.userTag, pcOrOp := r.pc.setWidth 64, addr := fa, ctx := BitVec.ofNat 16 c } false (some n.team)

/-- The failure of its data at their home that an answer reports (R69, R128, R130, R306, R314). -/
def ReportedFailure (e : HomeEvent) (cause : BitVec 8) : Prop :=
  (e = .uncorrectable ∧ cause = 0x11) ∨ ((e = .tampered ∨ e = .networkTag) ∧ cause = 0x12)

/-- Flits of an answer: a header and the bytes returned (R32; log 11). -/
def replyFlits (a : FarAnswer) : Nat := match a with | .done bs => 1 + (bs.length + 31) / 32 | .failed _ _ bs => 1 + (bs.length + 31) / 32 | .miss _ => 1

/-- A packet that answers another device is posted on a link: for a member context it waits for its turn at the port, and without one it
leaves, or waits for a key, at once (R36, R45, R47, R106; that it waits from here on is the model's choice, log 70). A device whose keys
are erased posts nothing (R136). -/
structure Posted (x t : State) (i : Nat) (m : Option Nat) (p : FarPacket) : Prop where
  gone : x.cfg.erased = true → t = x
  none : x.cfg.erased = false → m = .none → ∃ l, Queued (x.link i) l p ∧ OnlyLink x t i l
  some : ∀ c, x.cfg.erased = false → m = .some c → OnlyLink x t i { x.link i with answers := (x.link i).answers ++ [(c, p)] }

/-- The answer to a request is posted on the link it came on, for the member context (R36). -/
def Replied (x t : State) (i : Nat) (q : RemoteReq) (a : FarAnswer) : Prop :=
  Posted x t i (x.member q.subtree) { flits := replyFlits a, body := .reply q.src q.seq a }

/-- A device is answered for a command that it forwarded: on the link that brought the command, if that serves, else on the plane of the
device's first fabric address (R115; the plane is the model's choice, log 69). -/
def CommandAnswered (x t : State) (dev : BitVec 12) (link : Nat) (m : Option Nat) (reached : Bool) : Prop :=
  Posted x t (if (x.link link).state = 2 ∨ (x.link link).state = 3 then link else x.planeOf (dev.toNat * 2 ^ 44)) m
    { flits := 1, body := .commandAnswer dev reached }

/-- A request done: its answer is kept for duplicates and sent (R36, R48). -/
def Finished (x t : State) (i : Nat) (q : RemoteReq) (a : FarAnswer) : Prop :=
  Replied { x with fabric := { x.fabric with seen := (q.src.toNat, q.seq, a) :: x.fabric.seen } } t i q a

/-! ## Commands on contexts -/

/-- A packet's context of a subtree command may be acted on: a child, or where `root` allows it a root itself (R102, R108, R117). -/
def Commands (s : State) (c d : Nat) (root : Bool) : Prop := ChildOf s c d ∨ (root = true ∧ c = d ∧ (s.ctx c).level = 0)

/-- The freeze flag a context's commands set: that of its level, or bit 3 where a root names itself (R111, R117). -/
def flagBit (s : State) (c d : Nat) : Nat := if c = d then 3 else (s.ctx c).level.toNat

/-- A freeze flag set on every context of a subtree, whose busy bounce channels enter RESYNC (R111, R133). -/
def FlagsSet (s t : State) (d n : Nat) : Prop :=
  t = { s with ctxs := t.ctxs } ∧ ∀ c, (c ∉ s.subtree d → t.ctx c = s.ctx c) ∧ (c ∈ s.subtree d →
    t.ctx c = { s.ctx c with freeze := (t.ctx c).freeze, bounce := (s.ctx c).bounce.map fun b => (b.1, if b.2.state = 1 then { b.2 with state := 2 } else b.2) } ∧
    ∀ j < 4, (t.ctx c).freeze.getLsbD j = ((s.ctx c).freeze.getLsbD j || j == n))

/-- A command in progress joins the others, with its packet or without one. -/
def joined (s : State) (k : CmdKind) (d : Nat) (queue : Option (Slot × Packet)) : State :=
  { s with eng := { s.eng with
    nextId := s.eng.nextId + 1
    cmds := s.eng.cmds ++ [{ id := s.eng.nextId, kind := k, ctx := BitVec.ofNat 12 d, queue := queue }] } }

/-- This device's part of a command that device `dev` forwarded on a link joins the others; the device is answered when it is done (R115). -/
def joinedPart (s : State) (k : CmdKind) (d : Nat) (dev : BitVec 12) (link : BitVec 4) : State :=
  { s with eng := { s.eng with
    nextId := s.eng.nextId + 1
    cmds := s.eng.cmds ++ [{ id := s.eng.nextId, kind := k, ctx := BitVec.ofNat 12 d, queue := none, answer := some (dev, link) }] } }

/-- What context c forwards for context d: the command, the SUBTREE, the issuer's level and whether a root names itself (R115, R117). -/
def forwarded (s : State) (k : FwdCmd) (c d : Nat) : Forward :=
  { cmd := k, subtree := (s.subtreeOf d).1, level := (s.ctx c).level, self := decide (c = d) }

/-- A command goes to other devices of the context's range, one packet of one flit to each under a sequence number of its own, as far as no
packet has to wait for its plane (R32, R45, R47, R115; a packet's plane is the model's choice, log 69). -/
def ForwardsSent (c : Nat) (f : Forward) : List Nat → State → State → Prop
  | [], s, t => t = s
  | dev :: rest, s, t => ∃ u, ForwardsSent c f rest u t ∧
      let x := s.sendPacket (s.planeOf (dev * 2 ^ 44)) c 1 (.command s.fabric.deviceNum s.fabric.nextSeq (BitVec.ofNat 12 dev) f)
      (x.2 = true → u = { x.1 with fabric := { x.1.fabric with nextSeq := x.1.fabric.nextSeq + 1 } }) ∧ (x.2 = false → u = x.1)

/-- A packet's command waits for the other devices of the context's range (R115). With FABRIC_EN 0 nothing is sent, and no device is waited
for (R30; the model's choice, log 69). -/
def ForwardBegun (s t : State) (f : Forward) (c d q : Nat) (p : Packet) (denied : Bool) : Prop :=
  (s.fabric.enable = true → ∃ z, ForwardsSent c f (s.othersOf d) s z ∧
    t = joined z (.forward (s.othersOf d) 1 denied) d (some (BitVec.ofNat 10 q, p))) ∧
  (s.fabric.enable = false → t = joined s (.forward [] 1 denied) d (some (BitVec.ofNat 10 q, p)))

/-- A command begins: with ALL it is forwarded, and its packet waits for the other devices of the context's range as well (R115). -/
def Began (s t : State) (k : CmdKind) (f : Forward) (c d q : Nat) (p : Packet) : Prop :=
  ((pnum p 10 1).testBit 0 = true → ForwardBegun (joined s k d none) t f c d q p false) ∧
  ((pnum p 10 1).testBit 0 = false → t = joined s k d (some (BitVec.ofNat 10 q, p)))

/-- A command of this device ends: it is in progress no more, the packet it carries completes, and a device that forwarded it is answered for
the member it acted on, if that still lives (R115). -/
def Ends (s t : State) (k : Cmd) (status : BitVec 8) (payload : BitVec 128) : Prop :=
  let y : State := { s with eng := { s.eng with cmds := s.eng.cmds.filter fun c => c.id != k.id } }
  ∃ u, (k.queue = none → u = y) ∧ (∀ q p, k.queue = some (q, p) → Completed y u q.toNat p status payload) ∧
    (k.answer = none → t = u) ∧
    ∀ dev i, k.answer = some (dev, i) →
      CommandAnswered u t dev i.toNat (if (u.ctx k.ctx.toNat).live then some k.ctx.toNat else none) true

/-- The command an event names. -/
def Names (s : State) (k : Cmd) : Prop := s.eng.cmds.find? (fun c => c.id == s.input.num) = some k

/-- The child of a CHILD_CREATE packet (R91, R105, R108, R109). -/
def childOf (x : Ctx) (c : Nat) (p : Packet) : Ctx :=
  { live := true, level := x.level + 1, parent := BitVec.ofNat 12 c, world := x.world
    subtree := some (BitVec.ofNat 16 (pnum p 32 2), BitVec.ofNat 12 (pnum p 34 2), BitVec.ofNat 13 (pnum p 36 2))
    tableVa := BitVec.ofNat 56 (pnum p 8 8), hqLog2 := BitVec.ofNat 5 (pnum p 16 8 / 2 ^ 56), hqBase := BitVec.ofNat 64 (pnum p 16 8 % 2 ^ 56)
    coreSelf := BitVec.ofNat 8 (pnum p 30 1), linkSelf := BitVec.ofNat 8 (pnum p 30 1)
    coreWeight := BitVec.ofNat 8 (pnum p 28 1), linkWeight := BitVec.ofNat 8 (pnum p 29 1) }

/-- An address field of a record: 56 bits, aligned (R137). -/
def AddrField (num : Nat → Nat → Nat) (off al : Nat) : Prop := num off 8 < 2 ^ 56 ∧ num off 8 % al = 0

/-- The fields of a launch record lie within their limits, and one team fits an empty core or pair; `first` says it is the bundle's first
record, `mine` which slots are the issuing context's (R81, R137 to R139). -/
def LaunchRecordOk (bs : List Byte) (first : Bool) (mine : Nat → Bool) : Prop :=
  let num (off n : Nat) : Nat := littleEndian ((bs.drop off).take n)
  let lanes := 8 * 2 ^ num 0x3A 1
  let pair := (num 0x3B 1).testBit 1 = true
  let threads := num 0x34 2 * num 0x36 2 * num 0x38 2
  let onCore := if (num 0x3B 1).testBit 1 then (threads / lanes + 1) / 2 else threads / lanes
  let perSlot := (onCore + 3) / 4
  AddrField num 0 256 ∧ AddrField num 8 16 ∧ AddrField num 0x10 64 ∧ AddrField num 0x18 4 ∧ AddrField num 0x20 256 ∧
  1 ≤ num 0x28 4 ∧ 1 ≤ num 0x2C 4 ∧ 1 ≤ num 0x30 4 ∧ num 0x28 4 * num 0x2C 4 * num 0x30 4 ≤ 2 ^ 32 ∧
  1 ≤ num 0x34 2 ∧ 1 ≤ num 0x36 2 ∧ 1 ≤ num 0x38 2 ∧ num 0x3A 1 ≤ 3 ∧ num 0x3B 1 < 4 ∧ threads % lanes = 0 ∧
  (pair → threads ≤ 2048) ∧ (¬pair → threads ≤ 1024) ∧
  1 ≤ num 0x3C 1 ∧ num 0x3C 1 ≤ 32 ∧ num 0x3D 1 ≤ 16 ∧ num 0x3E 1 ≤ 16 ∧ num 0x3F 1 ≤ 7 ∧
  num 0x40 4 % 4096 = 0 ∧ (pair → num 0x40 4 ≤ 786432) ∧ (¬pair → num 0x40 4 ≤ 393216) ∧ 1 ≤ num 0x44 2 ∧
  num 0x46 2 ≤ 384 ∧ num 0x46 2 % 4 = 0 ∧ num 0x48 2 ≤ 4096 ∧ num 0x4E 2 < 1024 ∧ (∀ b ∈ bs.drop 0x58, b = 0) ∧
  perSlot ≤ 32 ∧ (perSlot + 64 / lanes - 1) / (64 / lanes) * num 0x3C 1 ≤ 32 ∧
  (first = true → mine (num 0x4E 2) = true) ∧
  (first = false → num 0x3F 1 = 0 ∧ num 0x4A 2 = 0 ∧ num 0x4C 2 = 0 ∧ num 0x4E 2 = 0)

/-- The kernel a record describes, with its arguments and copy schedule (R81, R137, R325). -/
structure KernelOf (bs args sched : List Byte) (k : Kernel) : Prop where
  code  : k.codeBase.toNat = littleEndian (bs.take 8) % 2 ^ 56 ∧ k.sptTable.toNat = littleEndian ((bs.drop 8).take 8) % 2 ^ 56
  grid  : k.gridX = littleEndian ((bs.drop 0x28).take 4) ∧ k.gridY = littleEndian ((bs.drop 0x2C).take 4) ∧ k.gridZ = littleEndian ((bs.drop 0x30).take 4)
  team  : k.teamX = littleEndian ((bs.drop 0x34).take 2) ∧ k.teamY = littleEndian ((bs.drop 0x36).take 2) ∧ k.teamZ = littleEndian ((bs.drop 0x38).take 2)
  width : k.width = littleEndian ((bs.drop 0x3A).take 1)
  flags : (k.entryStage = (littleEndian ((bs.drop 0x3B).take 1)).testBit 0) ∧ k.pair = (littleEndian ((bs.drop 0x3B).take 1)).testBit 1
  size  : k.regPages = littleEndian ((bs.drop 0x3C).take 1) ∧ k.accs = littleEndian ((bs.drop 0x3D).take 1) ∧
            k.tiles = littleEndian ((bs.drop 0x3E).take 1) ∧ k.spmBytes = littleEndian ((bs.drop 0x40).take 4)
  rest  : k.ply = littleEndian ((bs.drop 0x44).take 2) ∧ k.argBytes = littleEndian ((bs.drop 0x46).take 2) ∧
            k.userTag = BitVec.ofNat 32 (littleEndian ((bs.drop 0x50).take 4)) ∧ k.sptCount = littleEndian ((bs.drop 0x54).take 4)
  fresh : k.nextTeam = 0 ∧ k.code = []
  args  : k.args.length = k.argBytes / 4 ∧ ∀ i < k.argBytes / 4, k.args[i]? = some (BitVec.ofNat 32 (littleEndian ((args.drop (4 * i)).take 4)))
  sched : k.sched.length = littleEndian ((bs.drop 0x48).take 2) ∧
            ∀ (i : Nat) (e : SchedEntry), k.sched[i]? = some e → e.stage = littleEndian ((sched.drop (64 * i)).take 2) ∧
              e.kind = littleEndian ((sched.drop (64 * i + 2)).take 1) ∧ e.flags = BitVec.ofNat 8 (littleEndian ((sched.drop (64 * i + 3)).take 1)) ∧
              e.fmt = BitVec.ofNat 8 (littleEndian ((sched.drop (64 * i + 4)).take 1)) ∧
              e.tileReg = BitVec.ofNat 8 (littleEndian ((sched.drop (64 * i + 5)).take 1)) ∧
              e.dynReg = BitVec.ofNat 8 (littleEndian ((sched.drop (64 * i + 6)).take 1)) ∧
              e.rsv = BitVec.ofNat 8 (littleEndian ((sched.drop (64 * i + 7)).take 1)) ∧
              e.src = BitVec.ofNat 64 (littleEndian ((sched.drop (64 * i + 8)).take 8)) ∧
              e.dst = BitVec.ofNat 64 (littleEndian ((sched.drop (64 * i + 16)).take 8)) ∧
              e.size.length = 4 ∧ (∀ j < 4, e.size[j]? = some (littleEndian ((sched.drop (64 * i + 0x18 + 2 * j)).take 2))) ∧
              e.stride.length = 3 ∧
              (∀ j < 3, e.stride[j]? = some (BitVec.ofNat 32 (littleEndian ((sched.drop (64 * i + 0x20 + 4 * j)).take 4))).toInt) ∧
              e.scaleOff = (BitVec.ofNat 32 (littleEndian ((sched.drop (64 * i + 0x2C)).take 4))).toInt ∧
              e.scaleBase = littleEndian ((sched.drop (64 * i + 0x30)).take 2) ∧
              e.band = BitVec.ofNat 16 (littleEndian ((sched.drop (64 * i + 0x32)).take 2)) ∧
              e.mcast = BitVec.ofNat 32 (littleEndian ((sched.drop (64 * i + 0x34)).take 4)) ∧
              e.seed = BitVec.ofNat 32 (littleEndian ((sched.drop (64 * i + 0x38)).take 4)) ∧
              e.ctr = BitVec.ofNat 32 (littleEndian ((sched.drop (64 * i + 0x3C)).take 4))

/-- A context of the subtree that a REVOKE or DESTROY stops for good: it issues nothing, saves nothing and reports nothing (R113). -/
def StoppedForGood (t : State) (c : Nat) : Prop := (t.ctx c).halt.any (fun h => h.tamper && h.saved) = true

/-- A CHECKPOINT in progress on a subtree that overlaps d's. -/
def OverlapsCheckpoint (s : State) (d : Nat) (k : Cmd) : Prop :=
  k ∈ s.eng.cmds ∧ (∃ a b c, k.kind = .checkpoint a b c) ∧ (s.within k.ctx.toNat d = true ∨ s.within d k.ctx.toNat = true)

/-- What a completed REVOKE of subtree d leaves: no team, bundle, castling entry or engine operation of it; a child's contexts gone and
their slots the parent's, every register at its Reset value; a root that named itself live, empty and unhalted, its queues but the
issuing one IDLE (R113, R117). -/
structure Destroyed (s y : State) (d : Nat) (self : Bool) (issuing : Option Nat) : Prop where
  teams  : ∀ t ∈ y.teams, s.ctxOf t.2 ∉ s.subtree d
  bundle : ∀ b ∈ y.bundles, s.within d b.2.ctx.toNat = false
  castle : ∀ e ∈ y.eng.castle, e.ctx ∉ s.subtree d
  child  : self = false → (∀ c ∈ s.subtree d, (y.ctx c).live = false) ∧
             ∀ n o, (s.queue n).owner = some o → o.toNat ∈ s.subtree d → y.queue n = { owner := some (s.ctx d).parent, waiting := (y.queue n).waiting }
  root   : self = true → d ∈ s.subtree d → (y.ctx d).live = true ∧ (y.ctx d).halt = none ∧ (y.ctx d).freeze = 0 ∧ (y.ctx d).pending = [] ∧
             (y.ctx d).world = (s.ctx d).world ∧ (y.ctx d).ptb = (s.ctx d).ptb ∧ (y.ctx d).coreSelf = (s.ctx d).coreSelf ∧
             (y.ctx d).linkSelf = (s.ctx d).linkSelf ∧ (∀ c ∈ s.subtree d, c ≠ d → (y.ctx c).live = false) ∧
             ∀ n, (s.queue n).owner = some (BitVec.ofNat 12 d) → issuing ≠ some n →
               (y.queue n).state = .idle ∧ (y.queue n).enable = false ∧ (y.queue n).cur = none

/-- The pieces of a byte string that make shards: 64 MiB each, but the last, which is what is left (R118). -/
def ShardPieces (bs : List Byte) (ps : List (List Byte)) : Prop :=
  ps.flatten = bs ∧ ∀ (i : Nat) (x : List Byte), ps[i]? = some x → 0 < x.length ∧ x.length ≤ 2 ^ 26 ∧ (i + 1 < ps.length → x.length = 2 ^ 26)

/-- The shards of a checkpoint: each range in pieces, then the images, with offset, length and SHA-256 digest (R118, R119). -/
def ShardsAre (ranges : List (List Byte)) (images : List Byte) (shards : List (Nat × Nat × BitVec 256)) : Prop :=
  ∃ cuts : List (List (List Byte)), cuts.length = ranges.length ∧
    (∀ (i : Nat) (r : List Byte) (c : List (List Byte)), ranges[i]? = some r → cuts[i]? = some c → ShardPieces r c) ∧
    let all := cuts.flatten ++ [images]
    shards.length = all.length ∧
      ∀ (i : Nat) (x : List Byte), all[i]? = some x → shards[i]? = some (((all.take i).map List.length).sum, x.length, Config.sha256 x)

/-- The manifest of a checkpoint with a value of COMMIT: the header, an entry for each shard, and the signature over them with COMMIT
taken as zero (R119). -/
def ManifestIs (s : State) (seq subtree commit : Nat) (shards : List (Nat × Nat × BitVec 256)) (bs : List Byte) : Prop :=
  let le (n v : Nat) : List Byte := (List.range n).map fun j => BitVec.ofNat 8 (v / 256 ^ j)
  let head (c : Nat) := le 8 seq ++ le 2 subtree ++ le 2 s.fabric.deviceNum.toNat ++ le 4 shards.length ++ le 8 c ++ le 4 Config.sigBytes ++ le 36 0
  let entries := shards.flatMap fun x => le 8 x.1 ++ le 8 x.2.1 ++ le 32 x.2.2.toNat
  bs = head commit ++ entries ++ s.signature (head 0 ++ entries)

/-! ## Teams: placement and images -/

/-- The slot of warp n of a team and the half of a pair it goes to (R141). -/
def seatOf (k : Kernel) (n : Nat) : Nat × Nat := if k.pair then (n % 2, n / 2 % 4) else (0, n % 4)

/-- The range of lanes from b on that a slot with the warps ws gives to one warp more: fewer than 32 warps are resident, and b is the
lowest aligned base whose every octet has the pages free (R141). -/
def RangeAt (ws : List (Nat × Nat × Nat × Warp)) (lanes pages b : Nat) : Prop :=
  let used (o : Nat) : Nat := ((ws.filter fun x => x.2.2.2.base ≤ o && o < x.2.2.2.base + x.2.2.1).map fun x => x.2.2.2.pages).sum
  let free (d : Nat) : Prop := ∀ i < lanes / 8, used (d + 8 * i) + pages ≤ 32
  ws.length < 32 ∧ b % lanes = 0 ∧ b + lanes ≤ 64 ∧ free b ∧ ∀ d < b, d % lanes = 0 → ¬free d

/-- The lane ranges that a core gives to warps, one after another; `got` are those given before them, by half, slot, base and pages. A warp
that has exited asks for none. -/
def RangesAt (s : State) (core lanes : Nat) : List WarpAsk → List (Nat × Nat × Nat × Nat) → List Nat → Prop
  | [], _, bs => bs = []
  | a :: asks, got, bs => ∃ b rest, bs = b :: rest ∧
      (a.pages = 0 → b = 0 ∧ RangesAt s core lanes asks got rest) ∧
      (a.pages ≠ 0 →
        RangeAt (s.slotWarps (core + a.half) a.slot ++ (got.filter fun g => g.1 == a.half && g.2.1 == a.slot).map fun g =>
          (0, 0, lanes, ({ base := g.2.2.1, pages := g.2.2.2 } : Warp))) lanes a.pages b ∧
        RangesAt s core lanes asks ((a.half, a.slot, b, a.pages) :: got) rest)

/-- What the teams that hold a core take of one of its resources; a pair's team holds both its cores. -/
def takenOn (s : State) (core : Nat) (need : Kernel → Nat) : Nat :=
  ((s.teams.filter fun p => p.2.holds && (p.2.core == core || ((s.kernelOf p.2).pair && p.2.core + 1 == core))).map fun p => need (s.kernelOf p.2)).sum

/-- Scratchpad granules of a team on each core: the even split of a pair may cut one in two (R141, R174). -/
def granulesOn (k : Kernel) : Nat := if k.pair then (k.spmBytes / 4096 + 1) / 2 else k.spmBytes / 4096

/-- A core is in service and not barred for a context (R23, R114, R141). -/
def CoreServes (s : State) (c core : Nat) : Prop :=
  (s.power.phase = 4 ∧ core < 192 ∨ s.power.phase = 3 ∧ core < 96) ∧ ∀ p ∈ s.chainOf c, core ∉ p.2.barred

/-- A team of a context fits on a core, its warps in the lane ranges bs (R141). -/
structure FitsAt (s : State) (c : Nat) (k : Kernel) (asks : List WarpAsk) (core : Nat) (bs : List Nat) : Prop where
  even   : k.pair = true → core % 2 = 0
  room   : ∀ h < (if k.pair then 2 else 1), CoreServes s c (core + h) ∧ takenOn s (core + h) granulesOn + granulesOn k ≤ 96 ∧
             takenOn s (core + h) Kernel.accs + k.accs ≤ 16 ∧ takenOn s (core + h) Kernel.tiles + k.tiles ≤ 16
  ranges : RangesAt s core (8 * 2 ^ k.width) asks [] bs

/-- The warps resident on a core of the teams of some contexts. -/
def residentOn (s : State) (mine : Nat → Bool) (core : Nat) : Nat :=
  ((s.teams.filter fun p => p.2.holds && mine (s.ctxOf p.2)).map fun p => (p.2.warps.filter fun w => w.core == core && w.holdsPages).length).sum

/-- n bytes at an offset, as a number. -/
def numAt (bs : List Byte) (off n : Nat) : Nat := littleEndian ((bs.drop off).take n)

/-- The positions of a mask's set bits, ascending. -/
def setBits {n : Nat} (m : BitVec n) : List Nat := (List.range n).filter fun i => m.getLsbD i

/-- A size rounded up to a multiple. -/
def upTo' (n size : Nat) : Nat := (size + n - 1) / n * n

/-- All threads left of a warp stand at safe point i, and there is one (R196). -/
def AtSafePoint (w : Warp) (i : Nat) : Prop := (∃ a ∈ w.threads, Left a) ∧ ∀ a ∈ w.threads, Left a → a.park = .spt i

/-- The safe-point entry that the record of one warp takes, y being the state after its read; a full record takes none (R193, R194, R196). -/
def EntryRead (s : State) (c : Nat) (k : Kernel) (full : Bool) (w : Warp) (y : State) (e : Option (Nat × SptEntry)) : Prop :=
  (full = true ∨ w.zug ≠ none ∨ (∀ i, ¬AtSafePoint w i) → y = s ∧ e = none) ∧
  ∀ i, full = false → w.zug = none → AtSafePoint w i →
    (k.sptCount ≤ i → y = s ∧ e = none) ∧
    (i < k.sptCount → let r := s.readVa c (k.sptTable.toNat + 48 * i) 48
      y = r.s ∧ (r.bytes = none → e = none) ∧ ∀ bs, r.bytes = some bs →
        let good := numAt bs 33 1 = 1 ∧ numAt bs 38 1 = w.window ∧ numAt bs 39 1 = 0 ∧ numAt bs 44 4 = 0
        (¬good → e = none) ∧ (good → e = some (i,
          { vec := BitVec.ofNat 128 (numAt bs 0 16), uni := BitVec.ofNat 128 (numAt bs 16 16), preds := BitVec.ofNat 8 (numAt bs 32 1)
            tiles := BitVec.ofNat 16 (numAt bs 34 2), accs := BitVec.ofNat 16 (numAt bs 36 2), remat := numAt bs 40 4 })))

/-- The entries of the warps of a team, read one after another. -/
def EntriesRead (c : Nat) (k : Kernel) (full : Bool) : List Warp → State → State → List (Option (Nat × SptEntry)) → Prop
  | [], s, y, es => y = s ∧ es = []
  | w :: rest, s, y, es => ∃ z e more, es = e :: more ∧ EntryRead s c k full w z e ∧ EntriesRead c k full rest z y more

/-- A block of 256 bytes coded: its header and its payload (R202). -/
def BlockCode (b : List Byte) (c : Nat × List Byte) : Prop :=
  let zero := ∀ x ∈ b, x = 0
  let same := ∀ i < 64, (b.drop (4 * i)).take 4 = b.take 4
  (zero → c = (0, [])) ∧ (¬zero → same → c = (1, b.take 4)) ∧ (¬zero → ¬same → c = (2, b))

/-- A body coded: its blocks in groups of four, each a byte of headers and then the payloads (R202). -/
def CodedAs (body bs : List Byte) : Prop :=
  ∃ (codes : List (Nat × List Byte)) (groups : List (List Byte)), 256 * codes.length = body.length ∧
    (∀ (i : Nat) (c : Nat × List Byte), codes[i]? = some c → BlockCode ((body.drop (256 * i)).take 256) c) ∧
    groups.length = (codes.length + 3) / 4 ∧ bs = groups.flatten ∧
    ∀ (g : Nat) (x : List Byte), groups[g]? = some x → let cs := (codes.drop (4 * g)).take 4
      x = BitVec.ofNat 8 ((List.range 4).map fun j => 4 ^ j * (cs.getD j (0, [])).1).sum :: (cs.map Prod.snd).flatten

/-- What the record of a warp keeps of its registers: all of them in a full record, else those its entry names. -/
def keptUni (e : Option (Nat × SptEntry)) : BitVec 128 := (e.map fun x => x.2.uni).getD (BitVec.allOnes 128)
def keptRegs (w : Warp) (e : Option (Nat × SptEntry)) : List Nat :=
  match e with
  | some (_, x) => (setBits x.vec).map fun j => w.window * 8 + j
  | none => List.range (32 * w.pages)
def keptPreds (e : Option (Nat × SptEntry)) : Byte := ((e.map fun x => x.2.preds).getD 0xFF) &&& 0xFE
def keptDyn (w : Warp) (stage : Nat) : List (Nat × Nat × DWord) := w.dyn.filter fun d => decide (stage < d.1)

/-- The code of a thread's PARK; one that waits to exit is saved at its `exit` (R200; log 29). -/
def parkCode : Park → Nat
  | .none => 0 | .spt _ => 1 | .bar _ => 2 | .gate _ => 3 | .gpw => 4 | .wait _ => 5 | .marked _ => 6 | .cpost => 7 | .ralloc => 8 | .dfree => 9
  | .exiting => 0 | .exited => 10

/-- A mask of the lanes whose thread has a property. -/
def LanesWith (w : Warp) (P : Thread → Prop) (n : Nat) : Prop := ∀ l < 64, n.testBit l = true ↔ ∃ a ∈ w.threads, a.lane = l ∧ P a

/-- The record of warp n (R200, R201). -/
structure RecordIs (w : Warp) (n : Nat) (k : Kernel) (stage : Nat) (e : Option (Nat × SptEntry)) (bs : List Byte) : Prop where
  length  : bs.length = upTo' 256 (0x2E0 + upTo' 64 (4 * (setBits (keptUni e)).length) + 256 * (keptRegs w e).length + 8 * (keptDyn w stage).length)
  kind    : numAt bs 0 2 = n % 2 ^ 16 ∧ numAt bs 2 1 = (if e = none then 1 else 0) ∧ numAt bs 3 1 = k.width % 256
  point   : ∀ i x, e = some (i, x) → numAt bs 4 4 = i % 2 ^ 32 ∧ numAt bs 8 4 = x.remat % 2 ^ 32 ∧ numAt bs 0x2C0 16 = x.vec.toNat
  full    : e = none → numAt bs 8 4 = 0xFFFFFFFF ∧ numAt bs 0x2C0 16 = 2 ^ 128 - 1
  uniMask : numAt bs 0x2D0 16 = (keptUni e).toNat
  fields  : numAt bs 0xC 1 = w.window % 256 ∧ numAt bs 0xD 1 = w.pages % 256 ∧ numAt bs 0xE 1 = w.rsec % 256 ∧
              numAt bs 0xF 1 = (if stage < w.cstage then 1 else 0) + (if w.skipWatch then 2 else 0) ∧ numAt bs 0x10 8 = w.issues.toNat ∧
              numAt bs 0x18 2 = w.plyLeft % 2 ^ 16 ∧ numAt bs 0x1A 2 = (keptDyn w stage).length % 2 ^ 16 ∧ numAt bs 0x1C 4 = w.userTag.toNat ∧
              (∀ j < 8, numAt bs (0x20 + j) 1 = w.tokens.getD j 0 % 256) ∧ LanesWith w Left (numAt bs 0x28 8) ∧
              numAt bs 0x30 8 = w.active.toNat ∧ numAt bs 0x38 4 = w.cstage % 2 ^ 32 ∧ numAt bs 0x3C 4 = 0
  lanes   : ∀ a ∈ w.threads, let at' := 0x40 + 8 * a.lane
              numAt bs at' 4 = a.pc.toNat ∧ numAt bs (at' + 4) 1 = a.passed % 256 ∧ numAt bs (at' + 5) 1 = (a.preds &&& keptPreds e).toNat ∧
              numAt bs (at' + 6) 1 = parkCode a.park ∧ numAt bs (at' + 7) 1 = 0
  arrived : ∀ b < 16, LanesWith w (fun a => Left a ∧ a.arrived.getLsbD b = true) (numAt bs (0x240 + 8 * b) 8)
  unis    : ∀ (j r : Nat), (setBits (keptUni e))[j]? = some r → numAt bs (0x2E0 + 4 * j) 4 = (w.uRaw r).toNat
  vecs    : ∀ (j r : Nat), (keptRegs w e)[j]? = some r → ∀ l < 64,
              numAt bs (0x2E0 + upTo' 64 (4 * (setBits (keptUni e)).length) + 256 * j + 4 * l) 4 = (w.vRaw l r).toNat
  dyns    : ∀ (j : Nat) (d : Nat × Nat × DWord), (keptDyn w stage)[j]? = some d →
              numAt bs (0x2E0 + upTo' 64 (4 * (setBits (keptUni e)).length) + 256 * (keptRegs w e).length + 8 * j) 8 = d.2.2.toNat

/-- The sections of a body after its warp records: tile registers, accumulators and dirty granules, for each core of a pair (R201). -/
def SectionsAre (tm : Team) (k : Kernel) (tiles accs : BitVec 16) (bs : List Byte) : Prop :=
  let halves := if k.pair then 2 else 1
  let tileLen := upTo' 256 (16 * (setBits tiles).length)
  let accAt := halves * tileLen
  let spmAt := accAt + halves * (setBits accs).length * 16384
  bs.length = spmAt + 4096 * tm.dirty.length ∧
  (∀ h < halves, ∀ (j t : Nat), (setBits tiles)[j]? = some t → numAt bs (h * tileLen + 16 * j) 16 = (tm.tile h t).toNat) ∧
  (∀ h < halves, ∀ (j a : Nat), (setBits accs)[j]? = some a → ∀ i < 4096,
    numAt bs (accAt + (h * (setBits accs).length + j) * 16384 + 4 * i) 4 = (tm.acc h a i).toNat) ∧
  ∀ (j : Nat) (d : Nat × Bool), tm.dirty[j]? = some d → ∀ i < 4096, numAt bs (spmAt + 4096 * j + i) 1 = (Sparse.get 0 (4096 * d.1 + i) tm.spm).toNat

/-- The header of an image whose coded body has so many bytes (R199). -/
structure HeaderIs (tm : Team) (k : Kernel) (c : Nat) (cause : BitVec 8) (tiles accs : BitVec 16) (body : Nat) (bs : List Byte) : Prop where
  kind  : numAt bs 0 2 = 1 ∧ numAt bs 2 1 = cause.toNat ∧ numAt bs 3 1 = if k.pair then 1 else 0
  whose : numAt bs 4 4 = tm.index % 2 ^ 32 ∧ numAt bs 8 2 = c % 2 ^ 16 ∧ numAt bs 0xA 2 = tm.warps.length % 2 ^ 16 ∧ numAt bs 0xC 4 = body % 2 ^ 32
  team  : numAt bs 0x1A 2 = tm.phase.toNat ∧ numAt bs 0x1C 2 = tm.stage % 2 ^ 16
  saved : (∀ g < 192, (numAt bs 0x20 24).testBit g = true ↔ ∃ d ∈ tm.dirty, d.1 = g) ∧ numAt bs 0x38 2 = accs.toNat ∧ numAt bs 0x3A 2 = tiles.toNat
  zeros : numAt bs 0x10 8 = 0 ∧ numAt bs 0x18 2 = 0 ∧ numAt bs 0x1E 2 = 0 ∧ numAt bs 0x3C 4 = 0 ∧ numAt bs 0x40 8 = 0 ∧ numAt bs 0x50 48 = 0
  done  : numAt bs 0x48 8 = 1

/-- A mask of an image: every allocated register where a warp takes a full record, else the union of the entries' masks (R201). -/
def MaskSaved (es : List (Option (Nat × SptEntry))) (all : Nat) (live : SptEntry → BitVec 16) (m : BitVec 16) : Prop :=
  ∀ t < 16, m.getLsbD t = true ↔ (none ∈ es ∧ t < all) ∨ (none ∉ es ∧ ∃ e ∈ es, ∃ x, e = some x ∧ (live x.2).getLsbD t = true)

/-- The shape that every team of a run keeps: eight tokens, one thread a lane within the width, fields within their ranges, aligned
program counters, and granules in ascending order. -/
structure WellShaped (k : Kernel) (tm : Team) : Prop where
  width : k.width ≤ 3
  warps : ∀ w ∈ tm.warps, w.tokens.length = 8 ∧ w.window < 128 ∧ w.rsec < 256 ∧ w.plyLeft < 2 ^ 16 ∧ (w.threads.map Thread.lane).Nodup ∧
            ∀ a ∈ w.threads, a.lane < 8 * 2 ^ k.width ∧ a.pc.toNat % 4 = 0
  dirty : (tm.dirty.map Prod.fst).Pairwise (· < ·) ∧ ∀ d ∈ tm.dirty, d.1 < 192

/-- A thread as an unedited record gives it back (R203): its predicates and arrivals as saved; one that stood at a safe point goes on, at
the rebuild stub where there is one; one that waited to exit issues its `exit` again. -/
def ThreadBack (w : Warp) (e : Option (Nat × SptEntry)) (a b : Thread) : Prop :=
  let remat := match e with | some (_, x) => if x.remat = 0xFFFFFFFF then a.pc else BitVec.ofNat 32 x.remat | none => a.pc
  b = { a with
    preds := a.preds &&& keptPreds e, arrived := if a.park = .exited then 0 else a.arrived, regs := b.regs
    park := match a.park with | .spt _ => .none | .exiting => .none | p => p
    pc := match a.park with | .spt _ => remat | _ => a.pc } ∧
  ∀ r, reg b r = if r ∈ keptRegs w e then reg a r else 0

/-! ## Engines: copies, collectives, halts and the zugzwang rule -/

/-- What a fault of an engine's access leaves beside the stop: a table word whose tag failed is counted, and a transfer that failed on the
network raises the tamper alarm (R128, R130, R135). -/
def Marked (f : EFault) (z : State) : State :=
  let y := if f.counts then countedIn z f.cause else z
  if f.tamper then y.tamperAlarmed else y

/-- A fault of an engine's access: a remote miss is recorded in OSF_ERR, the context's halt line is raised with the record, and the fault leaves
its marks (R39, R40, R128, R130, R186). -/
def EngineFails (x t : State) (c : Nat) (r : StopRec) (f : EFault) (team : Nat) : Prop :=
  ∃ y z, (f.far = none → y = x) ∧ (∀ d a k, f.far = some (d, a, k) → OsfNoted x y c d k a) ∧ HaltRaised y z c r f.toRoot (some team) ∧
    t = Marked f z

/-- The stop record of an engine that works for warp n of a team (R191). -/
def engineRecord (engine : BitVec 8) (tm : Team) (n c : Nat) (cause : BitVec 8) (op addr : DWord) : StopRec :=
  { engine := engine, cause := cause, unit := BitVec.ofNat 16 (tm.warp n).core, team := BitVec.ofNat 32 tm.index, userTag := (tm.warp n).userTag
    pcOrOp := op, addr := addr, ctx := BitVec.ofNat 16 c }

/-- PC_OR_OP of a copy entry: its index and the beat within it (R191). -/
def entryBeat (entry beat : Nat) : DWord := BitVec.ofNat 64 (entry % 2 ^ 16 + 2 ^ 16 * (beat % 2 ^ 32))

/-- Reads one after another, of the context's memory or of the team's scratchpad, up to the first that fails: the state after them, the bytes of
each, and the failure. -/
def ReadsAll (tm : Team) (c : Nat) (mem : Bool) : List (Nat × Nat) → State → State → List (List Byte) → Option EFault → Prop
  | [], s, y, bs, f => y = s ∧ bs = [] ∧ f = none
  | p :: rest, s, y, bs, f =>
    (mem = false → ∃ more, bs = tm.spmRead p.1 p.2 :: more ∧ ReadsAll tm c mem rest s y more f) ∧
    (mem = true → (∀ x, (s.engineRead c p.1 p.2 .load).fail = some x → y = (s.engineRead c p.1 p.2 .load).s ∧ bs = [] ∧ f = some x) ∧
      ((s.engineRead c p.1 p.2 .load).fail = none → ∃ more, bs = (s.engineRead c p.1 p.2 .load).bytes :: more ∧
        ReadsAll tm c mem rest (s.engineRead c p.1 p.2 .load).s y more f))

/-- SRC_FMT, DST_FMT, TRANSPOSE, REQUANTISE, SR and TILE (R325). -/
def srcFmt (e : SchedEntry) : Nat := e.fmt.toNat % 16
def dstFmt (e : SchedEntry) : Nat := e.fmt.toNat / 16
def crosses (e : SchedEntry) : Bool := e.flags.getLsbD 0
def requants (e : SchedEntry) : Bool := e.flags.getLsbD 1
def randoms (e : SchedEntry) : Bool := e.flags.getLsbD 2
def tiles (e : SchedEntry) : Bool := e.flags.getLsbD 3

/-- Bits of an element of a copy format, the elements of a block that shares a scale, and the number format of a code (R175, R326, R327). -/
def copyWidth (f : Nat) : Nat := [32, 16, 16, 8, 8, 4, 64, 8, 8, 4, 8].getD f 8
def copyBlock (f : Nat) : Nat := [0, 0, 0, 0, 0, 8, 0, 32, 32, 32, 0].getD f 0
def codeFmt (f : Nat) : Fmt := [.f32, .bf16, .f16, .e4m3, .e5m2, .e2m1, .f32, .e4m3, .e5m2, .e2m1].getD f .f32

/-- Extent k of a side: a transposing entry's destination has the first two exchanged (R327). -/
def extent (e : SchedEntry) (dst : Bool) (k : Nat) : Nat := e.size.getD (if dst && crosses e then [1, 0, 2, 3].getD k 0 else k) 0

/-- Elements of the box, and the scales of a row of a side. -/
def boxCount (e : SchedEntry) : Nat := e.size.getD 0 0 * e.size.getD 1 0 * e.size.getD 2 0 * e.size.getD 3 0
def rowScales (e : SchedEntry) (dst : Bool) (fmt : Nat) : Nat :=
  if copyBlock fmt = 0 then 0 else (extent e dst 0 + copyBlock fmt - 1) / copyBlock fmt
def sideRows (e : SchedEntry) (dst : Bool) : Nat := extent e dst 1 * extent e dst 2 * extent e dst 3

/-- Index k of element i of a side, i its linear index (R327). -/
def indexOf (e : SchedEntry) (dst : Bool) (i k : Nat) : Nat := i / (((List.range k).map (extent e dst)).foldl (· * ·) 1) % extent e dst k

/-- Where element i of a side stands, and whether it is the upper nibble of its byte: on the memory side, in a canonical tile, or in a dense
box (R175, R327). -/
def placeOf (e : SchedEntry) (dst : Bool) (addr : DWord) (fmt i : Nat) : Nat × Bool :=
  let x := indexOf e dst i
  let bit := x 0 * copyWidth fmt
  let off := addr.toNat % 2 ^ 56
  let st (k : Nat) : Int := e.stride.getD k 0
  if addr.toNat < 2 ^ 56 then
    ((((addr.toNat : Int) + x 1 * st 0 + x 2 * st 1 + x 3 * st 2 + (bit / 8 : Nat)) % 2 ^ 64).toNat, decide (bit % 8 = 4))
  else if tiles e then
    let p := pitchChunks ((extent e dst 0 * copyWidth fmt + 7) / 8)
    (off + (x 1 * p + (bit / 8 / 64 ^^^ x 1 % min p 8)) * 64 + bit / 8 % 64, decide (bit % 8 = 4))
  else (off + i * copyWidth fmt / 8, decide (i * copyWidth fmt % 8 = 4))

/-- Where scale j of row r of a side stands (R327). -/
def scalePlace (e : SchedEntry) (dst : Bool) (addr : DWord) (fmt r j : Nat) : Nat :=
  if addr.toNat < 2 ^ 56 then (((addr.toNat : Int) + e.scaleOff + (r * rowScales e dst fmt + j : Nat)) % 2 ^ 64).toNat
  else e.scaleBase * 64 + r * rowScales e dst fmt + j

/-- The addresses and sizes of a side's elements, then of its scales. -/
def sidePieces (e : SchedEntry) (dst : Bool) (addr : DWord) (fmt : Nat) : List (Nat × Nat) :=
  ((List.range (boxCount e)).map fun i => ((placeOf e dst addr fmt i).1, max 1 (copyWidth fmt / 8))) ++
    (List.range (sideRows e dst * rowScales e dst fmt)).map fun j =>
      (scalePlace e dst addr fmt (j / rowScales e dst fmt) (j % rowScales e dst fmt), 1)

/-- The code of source element i, its scale's code, and its value, of the bytes read (R326, R328). -/
def sourceCode (e : SchedEntry) (src : DWord) (bs : List (List Byte)) (i : Nat) : Nat :=
  let x := littleEndian (bs.getD i [])
  if copyWidth (srcFmt e) = 4 then (if (placeOf e false src (srcFmt e) i).2 then x / 16 % 16 else x % 16) else x
def sourceScale (e : SchedEntry) (bs : List (List Byte)) (i : Nat) : Nat :=
  littleEndian (bs.getD (boxCount e + i / extent e false 0 * rowScales e false (srcFmt e) + i % extent e false 0 / copyBlock (srcFmt e)) [])
def sourceValue (e : SchedEntry) (src : DWord) (bs : List (List Byte)) (i : Nat) : NumVal :=
  let v := numOf (codeFmt (srcFmt e)) (sourceCode e src bs i)
  if srcFmt e = 5 then (v.times (blockScale (sourceScale e bs i))).times (numOf .bf16 e.band.toNat)
  else if 7 ≤ srcFmt e ∧ srcFmt e ≤ 9 then v.times (e8m0 (sourceScale e bs i)) else v

/-- The source element of destination element i (R327). -/
def fromOf (e : SchedEntry) (i : Nat) : Nat :=
  let x := indexOf e true i
  if crosses e then x 1 + e.size.getD 0 0 * (x 0 + e.size.getD 1 0 * (x 2 + e.size.getD 2 0 * x 3)) else i

/-- A value as a number. -/
def asNum : FVal → NumVal
  | .nan => .nan
  | .inf n => .inf n
  | .fin n m x => .val n ((m : Rat) * (2 : Rat) ^ x)

/-- SR of a number, which is first rounded to FP32 (R237, R329). -/
def StochasticOf (F : Fmt) (v : NumVal) (r code : Nat) : Prop :=
  ∃ w : Word, Rounded32 v w ∧ Stochastic F (F.frac + 1) (1 - (F.bias : Int)) (num w) r code

/-- The E3M5 scale code of a block of values: 0 where none is finite and not zero, else the least whose value is the greatest magnitude ÷ (6 × BAND) or more,
0xFF where none is (R328). -/
def Pip4Scale (band : Rat) (n : Nat) (val : Nat → NumVal) (c : Nat) : Prop :=
  let quot (t : Rat) : Prop := (∃ j < n, ∃ g q, val j = .val g q ∧ t = q / (6 * band)) ∧ ∀ j < n, ∀ g q, val j = .val g q → q / (6 * band) ≤ t
  let least (t : Rat) (d : Nat) : Prop := ∃ u, blockScale d = .val false u ∧ t ≤ u
  ((∀ j < n, ∀ g q, val j = .val g q → q = 0) → c = 0) ∧
  ∀ t, quot t → t ≠ 0 → (63 / 4 < t → c = 255) ∧ (t ≤ 63 / 4 → least t c ∧ ∀ d < c, ¬least t d)

/-- The E2M1 code of a value under a scale code (R328). -/
def Pip4Code (band : Rat) (c : Nat) (v : NumVal) (code : Nat) : Prop :=
  ((c = 0 ∨ v = .nan) → code = 0) ∧
  (c ≠ 0 → v ≠ .nan → ∃ u, blockScale c = .val false u ∧ Rounded .e2m1 (v.times (.val false (1 / (band * u)))) code)

/-- The write of destination element i, whose block has scale code c (R328, R329). -/
def DataIs (e : SchedEntry) (src : DWord) (bs : List (List Byte)) (i c : Nat) (d : Item) : Prop :=
  let k := fromOf e i
  let v := sourceValue e src bs k
  let F := codeFmt (dstFmt e)
  (e.kind = 1 → ∃ x, asNum x = v ∧ d.add = some (x, if randoms e then some (randomAt e.seed e.ctr k) else none)) ∧
  (e.kind ≠ 1 → d.add = none ∧
    (requants e = true → dstFmt e = 5 → ∀ q, numOf .bf16 e.band.toNat = .val false q → Pip4Code q c v d.code) ∧
    (requants e = true → 7 ≤ dstFmt e → Rounded F (v.times (.val false ((2 : Rat) ^ (127 - (c : Int))))) d.code) ∧
    (requants e = false → srcFmt e = dstFmt e → d.code = sourceCode e src bs k) ∧
    (requants e = false → srcFmt e ≠ dstFmt e → if randoms e then StochasticOf F v (randomAt e.seed e.ctr k) d.code else Rounded F v d.code))

/-- The scale code of block j of the destination's row r (R64, R328). A copied scale comes with its block; where a transposition regroups the blocks the spec states
none (log 35). -/
def ScaleIs (e : SchedEntry) (src : DWord) (bs : List (List Byte)) (r j c : Nat) : Prop :=
  let b := copyBlock (dstFmt e)
  let n := min b (extent e true 0 - j * b)
  let val (t : Nat) : NumVal := if t < n then sourceValue e src bs (fromOf e (r * extent e true 0 + j * b + t)) else .val false 0
  (requants e = true → dstFmt e = 5 → ∀ q, numOf .bf16 e.band.toNat = .val false q → Pip4Scale q n val c) ∧
  (requants e = true → 7 ≤ dstFmt e → BlockScale ([8, 15, 2].getD (dstFmt e - 7) 8) val c) ∧
  (requants e = false → crosses e = false → c = littleEndian (bs.getD (boxCount e + r * rowScales e true (dstFmt e) + j) []))

/-- What an entry writes, of the bytes read from its source: one item for each destination element and one for each of its scales (R327 to R329). -/
def ItemsAre (e : SchedEntry) (src : DWord) (bs : List (List Byte)) (is : List Item) : Prop :=
  let n := rowScales e true (dstFmt e)
  ∃ data sc, is = data ++ sc ∧ data.length = boxCount e ∧ sc.length = sideRows e true * n ∧
    (∀ (j : Nat) (d : Item), sc[j]? = some d →
      d = { addr := scalePlace e true e.dst (dstFmt e) (j / n) (j % n), code := d.code } ∧ ScaleIs e src bs (j / n) (j % n) d.code) ∧
    ∀ (i : Nat) (d : Item), data[i]? = some d →
      d.addr = (placeOf e true e.dst (dstFmt e) i).1 ∧ d.hi = (placeOf e true e.dst (dstFmt e) i).2 ∧ d.bits = copyWidth (dstFmt e) ∧
      DataIs e src bs i ((sc[i / extent e true 0 * n + i % extent e true 0 / copyBlock (dstFmt e)]?.map Item.code).getD 0) d

/-- The write beats of items: one for each 64-byte block in which an item begins, in ascending order, each with its items in theirs (R187). -/
def BeatsAre (is : List Item) (beats : List (Nat × List Item)) : Prop :=
  (beats.map Prod.fst).Pairwise (· < ·) ∧ (∀ i ∈ is, ∃ b ∈ beats, b.1 = i.addr / 64) ∧
    ∀ b ∈ beats, b.2 = is.filter (fun i => i.addr / 64 == b.1) ∧ b.2 ≠ []

/-- The first and the last byte of each of a side's elements and scales, which may lie in two granules. -/
def pieceEnds (e : SchedEntry) (dst : Bool) (addr : DWord) (fmt : Nat) : List Nat :=
  (sidePieces e dst addr fmt).flatMap fun p => [p.1, p.1 + (p.2 - 1)]

/-- The addresses of a destination in compartments 1 and 2 of a tenant world, with their compartments (R123). -/
def GatedAt (s : State) (c : Nat) (e : SchedEntry) (a : Nat) (k : BitVec 2) : Prop :=
  (s.ctx c).world ≠ 0 ∧ e.dst.toNat < 2 ^ 56 ∧ a ∈ pieceEnds e true e.dst (dstFmt e) ∧
    ∃ t, s.engineLead c a .gate = .ok t ∧ t.comp = k ∧ k ≠ 0

/-- A granule that a copy into compartment k reads is of compartment 0 and its tensor matches a gate (R123). -/
def GateNamed (s : State) (c : Nat) (k : BitVec 2) (a : Nat) : Prop :=
  ∀ t, s.engineLead c a .load = .ok t → ∃ b i w, s.targetOf t a = .here b i w 0 ∧ regionOf b = .hbm ∧
    ∃ g ∈ (s.world (s.ctx c).world.toNat).gates, g.dst.toNat = k.toNat ∧ g.tensor = (s.mem.tensorAt b).id

/-- What an entry's writes count as: plain stores; the writes of a gate copy that R123 admits; or a refusal. That a copy from scratchpad, which
reads no granule, is admitted as a gate copy is the model's choice (log 66). -/
def GateSays (s : State) (c : Nat) (e : SchedEntry) (src : DWord) (r : Except EFault Access) : Prop :=
  let admitted (k : BitVec 2) : Prop := src.toNat < 2 ^ 56 → ∀ b ∈ pieceEnds e false src (srcFmt e), GateNamed s c k b
  ((∀ a k, ¬GatedAt s c e a k) → r = .ok .store) ∧
  ((∃ a k, GatedAt s c e a k) → (∀ a k, GatedAt s c e a k → admitted k) → r = .ok .gate) ∧
  ((∃ a k, GatedAt s c e a k ∧ ¬admitted k) → ∃ a k, GatedAt s c e a k ∧ r = .error { cause := 5, addr := a })

/-- The bytes of the first watchpoint of a context that the writes of a beat strike together, or 0 (R191, R207). -/
def BeatStrikes (x : Ctx) (is : List Item) (m : BitVec 16) : Prop :=
  let hits (w : Watch) (j : Nat) : Prop := ∃ i ∈ is, Hits w .store i.addr (max 1 (i.bits / 8)) j
  ((∀ p ∈ x.watch, ∀ j < 16, ¬hits p.2 j) → m = 0) ∧
  ∀ p, FirstWith (fun q => ∃ j < 16, hits q.2 j) x.watch p → ∀ j < 16, m.getLsbD j = true ↔ hits p.2 j

/-- Beats performed one after another: up to one whose access fails, which is not performed, or one that strikes a watchpoint, which is
(R187, R188, R209). -/
def BeatsRun (c tid : Nat) (k : Access) (tm : Team) (e : SchedEntry) (watch : Bool) : List (Nat × List Item) → State → Nat → CopyRun → Prop
  | [], s, n, r => r = { s := s, done := n }
  | b :: rest, s, n, r =>
    let o := s.memBeat c k (codeFmt (dstFmt e)) b
    (¬e.dst.toNat < 2 ^ 56 → BeatsRun c tid k tm e watch rest (s.spmBeats tid tm e (codeFmt (dstFmt e)) b) (n + 1) r) ∧
    (e.dst.toNat < 2 ^ 56 → (∀ x, o.fail = some x → r = { s := o.s, done := n, fail := some x }) ∧
      (o.fail = none → ∃ m, BeatStrikes (o.s.ctx c) b.2 m ∧
        (watch = true → m ≠ 0 → r = { s := o.s, done := n + 1, struck := some (m, 64 * b.1) }) ∧
        (watch = false ∨ m = 0 → BeatsRun c tid k tm e watch rest o.s (n + 1) r)))

/-- An item's bytes over those before: a nibble, the bits of an element, or the exact sum rounded once (R328, R329). -/
def ItemPuts (F : Fmt) (d : Item) (old new : Nat → Byte) : Prop :=
  let n := max 1 (d.bits / 8)
  let number (f : Nat → Byte) : Nat := littleEndian ((List.range n).map fun j => f (d.addr + j))
  (∀ a, (a < d.addr ∨ d.addr + n ≤ a) → new a = old a) ∧
  (d.bits = 4 → (new d.addr).toNat = if d.hi then d.code % 16 * 16 + (old d.addr).toNat % 16 else (old d.addr).toNat / 16 * 16 + d.code % 16) ∧
  (d.bits ≠ 4 → (d.add = none → number new = d.code % 2 ^ d.bits) ∧
    (∀ x, d.add = some (x, none) → Rounded F ((numOf F (number old)).plus (asNum x)) (number new)) ∧
    (∀ x r, d.add = some (x, some r) → StochasticOf F ((numOf F (number old)).plus (asNum x)) r (number new)))

/-- Items put one over another. -/
def ItemsPut (F : Fmt) : List Item → (Nat → Byte) → (Nat → Byte) → Prop
  | [], old, new => new = old
  | d :: rest, old, new => ∃ mid, ItemPuts F d old mid ∧ ItemsPut F rest mid new

/-- An item of a width that copies have, inside block b; one that adds has the width of its format. -/
def Inside (F : Fmt) (b : Nat) (d : Item) : Prop :=
  (d.bits = 4 ∨ d.bits = 8 ∨ d.bits = 16 ∨ d.bits = 32 ∨ d.bits = 64) ∧ (d.add ≠ none → d.bits ≠ 4 ∧ d.bits = F.width + 1) ∧
    64 * b ≤ d.addr ∧ d.addr + max 1 (d.bits / 8) ≤ 64 * b + 64

/-- Block b of a context leads to the 64 bytes at a of this device, whatever those bytes become, by walks that leave nothing; no result of a
collective under way goes there (R44, R101). -/
def LeadsTo (s : State) (c : Nat) (k : Access) (b a : Nat) (i : BitVec 3) (w : BitVec 6) (m : BitVec 2) : Prop :=
  ∀ z : State, z = { s with mem := { s.mem with cells := z.mem.cells, lines := z.mem.lines } } →
    (∀ p, p / 64 ≠ s.place i.toNat a / 64 → z.mem.get p = s.mem.get p ∧ Sparse.get {} (p / 64) z.mem.lines = Sparse.get {} (p / 64) s.mem.lines) →
    ∀ j < 64, (∃ t, z.engineLead c (64 * b + j) k = .ok t ∧ z.targetOf t (64 * b + j) = .here (a + j) i w m) ∧
      z.walkFor c (64 * b + j) = z ∧ z.mixed (a + j) = false

/-- The 64 bytes of a block of a state's memory are these, the tag of an HBM line as for the write, and nothing else differs (R127, R213). -/
def BlockPut (s z : State) (p a : Nat) (w : BitVec 6) (m : BitVec 2) (new : Nat → Byte) : Prop :=
  z = { s with mem := { s.mem with cells := z.mem.cells, lines := z.mem.lines } } ∧
    (∀ x, z.mem.get x = if p ≤ x ∧ x < p + 64 then new (x - p) else s.mem.get x) ∧
    ∀ l, Sparse.get {} l z.mem.lines = if regionOf a = .hbm ∧ l = p / 64 then s.mem.tagFor a w m else Sparse.get {} l s.mem.lines

/-- A pairwise combination of a reduction (R41). -/
def Combines (fmt op : Nat) (x y w : Word) : Prop :=
  let n (v : Word) : Int := if fmt = 5 then v.toInt else v.toNat
  (fmt ≤ 4 → (op = 0 → Rounded32 ((num x).plus (num y)) w) ∧ (op = 1 → w = fminWord x y) ∧ (op = 2 → w = fmaxWord x y)) ∧
  (4 < fmt → (op = 0 → w.toNat = (x.toNat + y.toNat) % 2 ^ 32) ∧ (op = 1 → n w = min (n x) (n y)) ∧ (op = 2 → n w = max (n x) (n y)) ∧
    (op = 3 → ∀ i < 32, w.getLsbD i = (x.getLsbD i && y.getLsbD i)) ∧ (op = 4 → ∀ i < 32, w.getLsbD i = (x.getLsbD i || y.getLsbD i)) ∧
    (op = 5 → ∀ i < 32, w.getLsbD i = (x.getLsbD i != y.getLsbD i)))

/-- The words at the leaves combined pairwise in the order of a tree (R6, R41). -/
def CombinesTo (fmt op : Nat) (leaf : Nat → Word) : CombTree → Word → Prop
  | .leaf r, w => w = leaf r
  | .node l r, w => ∃ x y, CombinesTo fmt op leaf l x ∧ CombinesTo fmt op leaf r y ∧ Combines fmt op x y w

/-- The reduction of the elements x r of the ranks r, as a code: contributions widened exactly, combined, and the end narrowed once, the minimum or maximum exactly (R41). -/
def ReducedTo (fmt op : Nat) (x : Nat → Nat) (t : CombTree) (code : Nat) : Prop :=
  let F := codeFmt fmt
  ∃ (leaf : Nat → Word) (w : Word), CombinesTo fmt op leaf t w ∧
    (fmt ≤ 4 → (∀ r, num (leaf r) = numOf F (x r)) ∧ (op = 0 → Rounded F (num w) code) ∧
      (op ≠ 0 → numOf F code = num w ∧ (num w = .nan → code = F.cnan))) ∧
    (4 < fmt → (∀ r, leaf r = BitVec.ofNat 32 (x r)) ∧ code = w.toNat)

/-- The fields of a parameter block (R334). -/
structure BlockIs (bs : List Byte) (b : CollBlock) : Prop where
  what  : b.kind = numAt bs 0 1 ∧ b.fmt = numAt bs 1 1 ∧ b.op = numAt bs 2 1 ∧ b.lbit = numAt bs 3 1 ∧ b.gbit = numAt bs 4 1 ∧ b.root = numAt bs 6 2
  ranks : b.group = numAt bs 8 4 ∧ b.ranks = numAt bs 0xC 2 ∧ b.stride = numAt bs 0xE 2 ∧ b.first = numAt bs 0x10 2
  where' : b.buf = numAt bs 0x18 8 ∧ b.count = numAt bs 0x20 8 ∧ b.dst = numAt bs 0x28 8
  zeros : b.zeros = true ↔ numAt bs 5 1 = 0 ∧ numAt bs 0x12 6 = 0 ∧ numAt bs 0x30 16 = 0

/-- Bytes of an element, the elements of the two buffers, and where the results go (R334, R336). -/
def elemBytes (b : CollBlock) : Nat := [4, 2, 2, 1, 1, 4, 4].getD b.fmt 1
def bufLen (b : CollBlock) : Nat := if b.kind = 1 ∨ b.kind = 3 then b.ranks * b.count else b.count
def outLen (b : CollBlock) : Nat := if b.kind = 2 ∨ b.kind = 3 then b.ranks * b.count else b.count
def outVa (b : CollBlock) : Nat := if 1 ≤ b.kind ∧ b.kind ≤ 3 then b.dst else b.buf

/-- A block that raises PARAM_BAD (R334). -/
def BlockBad (s : State) (c : Nat) (b : CollBlock) : Prop :=
  let dst := 1 ≤ b.kind ∧ b.kind ≤ 3
  let n := s.fabric.deviceNum.toNat
  let last := b.first + (b.ranks - 1) * b.stride
  let lo := (s.subtreeOf c).2.1.toNat
  5 < b.kind ∨ 7 < b.fmt ∨ b.zeros = false ∨ b.ranks = 0 ∨ 4096 < b.ranks ∨ b.stride = 0 ∨ 4095 < b.stride ∨ b.count = 0 ∨
  (b.kind ≤ 1 ∧ (5 < b.op ∨ b.fmt = 7 ∨ (b.fmt ≤ 4 ∧ 3 ≤ b.op))) ∨ (b.kind = 4 ∧ b.ranks ≤ b.root) ∨
  (b.kind = 5 ∧ (b.count ≤ 2 ^ b.lbit ∨ b.ranks ≤ 2 ^ b.gbit ∨ (∀ x, b.ranks ≠ 2 ^ x) ∨ ∀ x, b.count ≠ 2 ^ x)) ∨
  (¬dst ∧ b.dst ≠ 0) ∨ b.buf % elemBytes b ≠ 0 ∨ (dst ∧ b.dst % elemBytes b ≠ 0) ∨
  (dst ∧ b.buf < b.dst + outLen b * elemBytes b ∧ b.dst < b.buf + bufLen b * elemBytes b) ∨
  4095 < last ∨ b.first < lo ∨ lo + (s.subtreeOf c).2.2.toNat ≤ last ∨ ¬∃ d < b.ranks, n = b.first + d * b.stride

/-- The outgoing elements of rank d in their order (R43, R336, R354). -/
def sentOf (b : CollBlock) (d : Nat) : List Nat :=
  if b.kind = 4 then (if d = b.root then List.range b.count else [])
  else if b.kind = 5 then (List.range b.count).filter fun i => i.testBit b.lbit != d.testBit b.gbit
  else List.range (bufLen b)

/-- The rank that outgoing element i of rank d goes to; none where every rank takes it, or the tree of the group (R41 to R43, R336). -/
def goesTo (b : CollBlock) (d i : Nat) : Option Nat :=
  if b.kind = 3 then some (i / b.count) else if b.kind = 5 then some (d ^^^ 2 ^ b.gbit) else none

/-- The outgoing elements in batches, with the number of them up to the end of each: neighbours that lie in one aligned block of 256 bytes and go
one way, and as many as do (the model's choice, log 69). -/
def BatchesAre (b : CollBlock) (d : Nat) (gs : List (Nat × List Nat)) : Prop :=
  let with' (i j : Nat) : Prop := (b.buf + i * elemBytes b) / 256 = (b.buf + j * elemBytes b) / 256 ∧ goesTo b d i = goesTo b d j
  (gs.map Prod.snd).flatten = sentOf b d ∧
  (∀ (n : Nat) (g : Nat × List Nat), gs[n]? = some g → g.2 ≠ [] ∧ g.1 = ((gs.take (n + 1)).map fun x => x.2.length).sum ∧ ∀ i ∈ g.2, ∀ j ∈ g.2, with' i j) ∧
  ∀ (n : Nat) (g h : Nat × List Nat) (i j : Nat), gs[n]? = some g → gs[n + 1]? = some h → g.2.getLast? = some i → h.2.head? = some j → ¬with' i j

/-- A batch leaves in one packet with its codes, on the plane of the fabric address where its first element is read, or has to wait for it (R32, R35,
R41 to R47, R106; the plane is the model's choice, log 69). -/
def BatchSent (s t : State) (c : Nat) (o : CleOp) (b : CollBlock) (d : Nat) (elems : List (Nat × Nat)) : Prop :=
  let first := (elems.headD (0, 0)).1
  let va := b.buf + first * elemBytes b
  (∀ e, s.engineLead c va .load = .error e → t = s) ∧
  ∀ tr, s.engineLead c va .load = .ok tr →
    let p : CollElems :=
      { dst := (goesTo b d first).map fun r => BitVec.ofNat 12 (b.first + r * b.stride), subtree := (s.subtreeOf c).1, world := tr.world, comp := tr.comp
        addr := tr.dev ++ BitVec.ofNat 44 (tr.frame + va % 4096), group := b.group, inst := o.inst, elems := elems }
    let x := s.sendPacket (s.planeOf p.addr.toNat) c (1 + (elems.length * elemBytes b + 31) / 32) (.element s.fabric.deviceNum s.fabric.nextSeq p)
    (x.2 = true → t = { x.1 with fabric := { x.1.fabric with nextSeq := x.1.fabric.nextSeq + 1 } }) ∧ (x.2 = false → t = x.1)

/-- Batches one after another: one read before is passed over; of another the elements not yet read are read and kept, and where they go to another
rank they leave; a read that fails ends it (R43, R188, R354). -/
def BatchesRun (tm : Team) (c : Nat) (b : CollBlock) (d : Nat) : List (Nat × List Nat) → CollRun → CollRun → Prop
  | [], r, t => t = r
  | g :: rest, r, t =>
    let n := r.o.taken.length
    let start := g.1 - g.2.length
    (g.1 ≤ n → BatchesRun tm c b d rest r t) ∧
    (n < g.1 → ∃ y bs f, ReadsAll tm c true ((g.2.drop (n - start)).map fun i => (b.buf + i * elemBytes b, elemBytes b)) r.s y bs f ∧
      let o := { r.o with taken := r.o.taken ++ bs.map littleEndian }
      (∀ x, f = some x → t = { s := y, o := o, fail := some x }) ∧
      (f = none → (b.leaves d g.2 = false → BatchesRun tm c b d rest { s := y, o := o } t) ∧
        (b.leaves d g.2 = true → ∃ z, BatchSent y z c o b d (g.2.zip (o.taken.drop start)) ∧ BatchesRun tm c b d rest { s := z, o := o } t)))

/-- The planes that carried packets of a context from s to t are heard from: their packets are acknowledged (R48, R336). -/
def Heard (s t u : State) (c : Nat) : Prop :=
  u = { t with fabric := { t.fabric with links := u.fabric.links } } ∧
  ∀ k, (k < 16 → SentFor s t k c → u.link k = { t.link k with txFails := 0 }) ∧ (¬(k < 16 ∧ SentFor s t k c) → u.link k = t.link k)

/-- The elements that rank d receives, with their codes, `e r i` being element i of rank r's buffer (R41, R43, R336, R354). -/
def Receives (b : CollBlock) (d : Nat) (e : Nat → Nat → Nat) (t : CombTree) (rs : List (Nat × Nat)) : Prop :=
  let whole (n : Nat) (code : Nat → Nat → Prop) : Prop := rs.length = n ∧ ∀ (i : Nat) (x : Nat × Nat), rs[i]? = some x → x.1 = i ∧ code i x.2
  (b.kind = 0 → whole b.count fun i => ReducedTo b.fmt b.op (fun r => e r i) t) ∧
  (b.kind = 1 → whole b.count fun i => ReducedTo b.fmt b.op (fun r => e r (d * b.count + i)) t) ∧
  (b.kind = 2 → whole (b.ranks * b.count) fun i code => code = e (i / b.count) (i % b.count)) ∧
  (b.kind = 3 → whole (b.ranks * b.count) fun i code => code = e (i / b.count) (d * b.count + i % b.count)) ∧
  (b.kind = 4 → if d = b.root then rs = [] else whole b.count fun i code => code = e b.root i) ∧
  (b.kind = 5 → rs = ((List.range b.count).filter fun i => i.testBit b.lbit != d.testBit b.gbit).map fun i =>
    (i, e (d ^^^ 2 ^ b.gbit) (i ^^^ 2 ^ b.lbit)))

/-- The bytes kept at issue: those of this device's memory that a collective's results will replace (R44). -/
def OldNoted (s : State) (c va n : Nat) (olds : List (Option Byte)) : Prop :=
  olds.length = n ∧ ∀ j < n, let p := max va ((va + j) / 8 * 8)
    ∀ t a i w m, s.engineLead c p .load = .ok t → s.targetOf t p = .here a i w m → MemByte a → Clean s i w m a →
      olds.getD j none = some (s.mem.get (s.place i.toNat a + (va + j - p)))

/-- The 64 bytes of a stop record (R191). -/
def StopBytes (r : StopRec) (bs : List Byte) : Prop :=
  bs.length = 64 ∧ numAt bs 0 1 = r.engine.toNat ∧ numAt bs 1 1 = r.cause.toNat ∧ numAt bs 2 1 = r.skid.toNat ∧ numAt bs 3 1 = (if r.precise then 1 else 0) ∧
    numAt bs 4 2 = r.unit.toNat ∧ numAt bs 6 2 = r.warp.toNat ∧ numAt bs 8 4 = r.team.toNat ∧ numAt bs 12 4 = r.userTag.toNat ∧
    numAt bs 16 8 = r.pcOrOp.toNat ∧ numAt bs 24 8 = r.addr.toNat ∧ numAt bs 32 2 = r.byteMask.toNat ∧ numAt bs 34 2 = r.ctx.toNat ∧ numAt bs 36 28 = 0

/-- The header-only image of a halt that finds no team (R192, R199). -/
def EmptyImage (c : Nat) (cause : BitVec 8) (bs : List Byte) : Prop :=
  bs.length = 128 ∧ numAt bs 0 2 = 1 ∧ numAt bs 2 1 = cause.toNat ∧ numAt bs 3 1 = 0 ∧ numAt bs 4 4 = 0xFFFFFFFF ∧ numAt bs 8 2 = c % 2 ^ 16 ∧
    numAt bs 0xA 62 = 0 ∧ numAt bs 0x48 8 = 1 ∧ numAt bs 0x50 48 = 0

/-- Teams saved one after another with full images: the one that holds the fault with the halt's cause, one stopped by a recoverable fault of
its own with that cause, whose miss is then reported (R109, R192). -/
def SavedInTurn (c : Nat) (h : Halt) : List (Nat × Team) → State → State → List Nat → Prop
  | [], s, y, ps => y = s ∧ ps = []
  | p :: rest, s, y, ps => ∃ wish z pos more, ps = pos :: more ∧
      s.saveTeam p.1 p.2 true (if h.team = some p.1 then h.cause else match p.2.place with | .stopping x => x | _ => 0) false wish = .ok (z, pos) ∧
      SavedInTurn c h rest (match p.2.fault with | some r => z.reportMiss p.1 r ((s.ctx c).areaVa pos) | none => z) y more

/-- The images of a chain, each with the next one's address in NEXT_IMAGE (R192, R199). -/
def Linked (c : Nat) : List Nat → State → State → Prop
  | [], s, y => y = s
  | p :: rest, s, y => ∃ z bs, numAt bs 0 8 = (rest.head?.map (s.ctx c).areaVa).getD 0 % 2 ^ 64 ∧ bs.length = 8 ∧
      s.saveWrite c (p + 0x40) bs = .ok z ∧ Linked c rest z y

/-- Bytes of a halt itself noted in its context's save area. -/
def ExtraNoted (s y : State) (c pos n : Nat) : Prop :=
  OnlyCtx s y c { s.ctx c with halt := (s.ctx c).halt.map fun h => { h with extra := h.extra ++ [(pos, n)] } }

/-- A halt saved: every resident team's image, the chain from the image of the team that holds the fault on, the stop records named by the
first image, and a KIND 2 record for the handler, the root's where a world rule refused the access (R120, R122, R192). -/
def HaltSaved (s t : State) (c : Nat) (h : Halt) : Prop :=
  ∃ (lead others : List (Nat × Team)) (y z u v w : State) (ps chain : List Nat) (first p : Nat) (bs link : List Byte) (r : HRec),
    (lead ++ others).Perm (s.teamsOf c) ∧ (∀ x ∈ lead, h.team = some x.1) ∧ (∀ x ∈ others, h.team ≠ some x.1) ∧
    (others.map fun x => x.2.index).Pairwise (· ≤ ·) ∧
    SavedInTurn c h ((lead ++ others).filter fun x => x.2.holds) s y ps ∧
    (let old (l : List (Nat × Team)) : List Nat := l.filterMap fun x => match x.2.place with | .saved q _ _ _ => some q | _ => none
     chain = old lead ++ if ps = [] then old others else ps) ∧
    (chain ≠ [] → z = y ∧ chain.head? = some first) ∧
    (chain = [] → ∃ img x, EmptyImage c h.cause img ∧ (∃ wish, (y.ctx c).areaPos 128 wish = some first) ∧ y.holdImage c first img = .ok x ∧ ExtraNoted x z c first 128) ∧
    Linked c (if chain = [] then [first] else chain) z u ∧ (∃ wish, (z.ctx c).areaPos (64 * h.recs.length) wish = some p) ∧
    bs.length = 64 * h.recs.length ∧ (∀ (i : Nat) (k : StopRec), h.recs[i]? = some k → StopBytes k ((bs.drop (64 * i)).take 64)) ∧
    (∃ x, u.saveWrite c p bs = .ok x ∧ ExtraNoted x v c p (64 * h.recs.length)) ∧
    link.length = 10 ∧ numAt link 0 8 = (u.ctx c).areaVa p % 2 ^ 64 ∧ numAt link 8 2 = h.recs.length % 2 ^ 16 ∧ v.saveWrite c (first + 0x10) link = .ok w ∧
    (let q := if h.toRoot then w.rootOf c else c
     let x (k : Nat) : Ctx := if k = c then { w.ctx c with halt := (w.ctx c).halt.map fun h => { h with saved := true } } else w.ctx k
     r.kind = 2 ∧ r.cause = h.cause ∧ r.stage = 0 ∧ r.userTag = h.userTag ∧ r.ctx = BitVec.ofNat 16 c ∧ r.origin = BitVec.ofNat 16 c ∧ r.addr = h.addr ∧
       r.image = BitVec.ofNat 64 ((w.ctx c).areaVa first) ∧ r.pc = h.pc ∧ r.team = ((h.recs.head?.map StopRec.team).getD 0xFFFFFFFF) ∧ r.seq = (w.ctx q).faultSeq ∧
       t = { w with ctxs := t.ctxs } ∧
       ∀ k, t.ctx k = if k = q then { x q with hqWaiting := (x q).hqWaiting ++ [r], faultSeq := (x q).faultSeq + 1 } else x k)

/-! ## Translation -/

/-- A table word read at its home under an access's tags: the eight bytes, the lowest first, unless their transfer fails on the network, they are
poisoned or their tag fails (R57, R69, R128, R130). -/
def TableWord (s : State) (here : Miss) (i : BitVec 3) (w : BitVec 6) (c : BitVec 2) (a : Nat) (r : Except Miss (Nat × List Dep)) : Prop :=
  let lost := Table.find a s.input.hits = some .networkTag
  MemByte a → a % 8 = 0 →
    (lost → r = .error { here with why := .tampered }) ∧
    (¬lost → s.mem.poisoned (s.place i.toNat a) = true → r = .error { here with why := .spoiled 0x11 }) ∧
    (¬lost → s.mem.poisoned (s.place i.toNat a) = false → s.mem.tagOk (s.place i.toNat a) a w c = false → r = .error { here with why := .spoiled 0x12 }) ∧
    (¬lost → Clean s i w c a → ∃ ds, r = .ok (littleEndian ((List.range 8).map fun j => s.mem.get (s.place i.toNat a + j)), ds))

/-- VALID, SIZE and FRAME of an entry (R97). -/
def validIn (e : Nat) : Bool := e.testBit 0
def sizeIn (e : Nat) : Nat := e / 2 ^ 10 % 4
def frameIn (e : Nat) : Nat := e / 2 ^ 12 % 2 ^ 44 * 4096

/-- The walk of one stage from a table on with n levels left: the miss, or the leaf's entry, the address it maps to and its page size
(R96, R97). -/
def StageWalk (rd : Nat → Except Miss (Nat × List Dep)) (ok : Nat → Nat → Bool) (here : Miss) (va : Nat) :
    Nat → Nat → Except Miss (Nat × Nat × Nat) → Prop
  | 0, _, r => r = .error here
  | n + 1, table, r =>
    let i := if n = 4 then va / 2 ^ 48 % 256 else va / 2 ^ (12 + 9 * n) % 512
    (∀ m, rd (table + 8 * i) = .error m → r = .error m) ∧
    ∀ e ds, rd (table + 8 * i) = .ok (e, ds) →
      let leaf (size : Nat) : Prop := r = .ok (e, frameIn e / size * size + va % size, size)
      (validIn e = false ∨ sizeIn e = 3 → r = .error here) ∧
      (validIn e = true → sizeIn e = 0 → (n = 0 ∨ ok e 0 = false → r = .error here) ∧ (n ≠ 0 → ok e 0 = true → StageWalk rd ok here va n (frameIn e) r)) ∧
      (validIn e = true → sizeIn e = 1 → if n ≤ 2 ∧ ok e (2 ^ (12 + 9 * n)) = true then leaf (2 ^ (12 + 9 * n)) else r = .error here) ∧
      (validIn e = true → sizeIn e = 2 →
        let same := ∀ j < 16, ∃ es, rd (table + 8 * (i / 16 * 16 + j)) = .ok (e, es)
        (n = 0 → same → ok e 65536 = true → leaf 65536) ∧ (¬(n = 0 ∧ same ∧ ok e 65536 = true) → r = .error here))

/-- A root-stage entry that counts as VALID in full service, with a page size or as a pointer (size 0): its frame's region, FLASH and MXALIAS, its tags, and a flash
stack in service (R22, R52, R95, R121). That a pointer to flash, an MX window or another device counts as VALID clear is the model's choice (log 61). -/
def RootEntryOk (s : State) (e size : Nat) : Prop :=
  let dev := frameIn e / 2 ^ 44
  let a := frameIn e % 2 ^ 44
  let own := dev = s.fabric.deviceNum.toNat
  let a0 := a / size * size
  let w := e / 2 ^ 56 % 64
  let c := e / 2 ^ 62 % 4
  (if w = 0 then c = 0 else c ≠ 3) ∧
  (size = 0 → own ∧ MemByte a ∧ e.testBit 5 = false ∧ e.testBit 6 = false) ∧
  (size ≠ 0 → regionOf a0 ≠ .hole ∧ regionOf (a0 + size - 1) = regionOf a0 ∧ (e.testBit 5 = true ↔ regionOf a0 = .flash) ∧
    (e.testBit 6 = true ↔ regionOf a0 = .mxWindow) ∧ (regionOf a0 = .sbm → size ≤ 2 ^ 21) ∧
    (regionOf a0 = .hbm → a0 / 2 ^ 36 = (a0 + size - 1) / 2 ^ 36) ∧ (own → regionOf a0 = .flash → s.power.flashOk.getLsbD (a0 / 2 ^ 41 % 2) = true))

/-- All threads left of a team are parked at `bar` or at marked branches, there is one, and they are not all at one marked branch (R164). -/
def Stuck (tm : Team) : Prop :=
  let left (a : Thread) : Prop := ∃ w ∈ tm.warps, a ∈ w.threads ∧ Left a
  (∃ a, left a) ∧ (∀ a, left a → (∃ n, a.park = .bar n) ∨ ∃ x, a.park = .marked x) ∧
    ¬∃ pc, ∀ a, left a → (∃ x, a.park = .marked x) ∧ a.pc = pc

/-! ## The dispatcher and the fetch -/

/-- A warp of context `c` can issue on core `core`. -/
def Offered (s : State) (core c : Nat) : Prop := ∃ o ∈ s.offers core, o.ctx = c

/-- The record of a context in a table of dispatchers or link ports, by unit (R106, R144). -/
def recordAt (t : List (Nat × Disp)) (unit c : Nat) : Disp := passOf t unit c

/-- The records of a unit brought up to date with the contexts runnable now, given in order: a context that was runnable keeps its PASS; one
that becomes runnable takes the greater of its own and the lowest PASS of those that were, or, where none was, the first keeps its own and
the others take the greater of their own and the first's (R144; the order is the model's, log 55). -/
def Refreshed (t u : List (Nat × Disp)) (unit : Nat) (now : List Nat) : Prop :=
  let pass (d : Nat) : Nat := (recordAt t unit d).pass.toNat
  let was (d : Nat) : Prop := d ∈ now ∧ (recordAt t unit d).runnable = true
  ∀ c < 4096,
    (c ∉ now → recordAt u unit c = { recordAt t unit c with runnable := false }) ∧
    (was c → recordAt u unit c = recordAt t unit c) ∧
    (c ∈ now → (recordAt t unit c).runnable = false →
      (∀ d, was d → (∀ e, was e → pass d ≤ pass e) → recordAt u unit c = { pass := BitVec.ofNat 64 (max (pass c) (pass d)), runnable := true }) ∧
      ((∀ d, ¬was d) → ∀ d, now.head? = some d →
        recordAt u unit c = { pass := BitVec.ofNat 64 (max (pass c) (pass d)), runnable := true }))

/-- T of a context: its SELF weight and the weights of its live children (R105). -/
def shareTotal (s : State) (k : ShareOf) (n : Nat) : Nat :=
  (s.ctx n).selfWeight k + ((s.ctxs.filter fun p => p.2.live && p.2.level != 0 && p.2.parent.toNat == n).map fun p => p.2.weight k).sum

/-- E of a context, from the root's share 1 down its chain (R105). -/
def exactShare (s : State) (k : ShareOf) (n : Nat) : Rat :=
  ((s.chainOf n).dropLast.map fun p => (p.2.weight k : Rat) / (shareTotal s k p.2.parent.toNat : Nat)).prod *
    (((s.ctx n).selfWeight k : Rat) / (shareTotal s k n : Nat))

/-- The state differs from one before it as waits that are over end, as the dispatchers' and link ports' records follow, and as answers leave
on the links in their turn: the record of no other unit, context or queue and no memory changes. -/
def UpToDate (s y : State) : Prop :=
  y = { s with
    teams := y.teams, fabric := { s.fabric with links := y.fabric.links }
    eng := { s.eng with disp := y.eng.disp, ports := y.eng.ports, portWait := y.eng.portWait } } ∧
  ∀ t, (s.team? t = none → y.team? t = none) ∧ ∀ tm, s.team? t = some tm →
    ∃ tm', y.team? t = some tm' ∧ tm' = { tm with warps := tm'.warps } ∧ tm'.warps.length = tm.warps.length

/-- Answers posted on a link leave, at most n, while its port gives the turn to a context that has one: the oldest of that context, which is charged
for its flits (R36, R106; log 70). -/
def AnswersLeave (i : Nat) : Nat → State → State → Prop
  | 0, s, t => t = s
  | n + 1, s, t => ∃ ports, Refreshed s.eng.ports ports i (s.rivalsOn i) ∧
      ((∀ c, PortGoesTo ports i (s.rivalsOn i) c → ∀ p, (c, p) ∉ (s.link i).answers) → t = s) ∧
      ∀ (c : Nat) (p : FarPacket) (before behind : List (Nat × FarPacket)), c < 4096 → PortGoesTo ports i (s.rivalsOn i) c →
        (s.link i).answers = before ++ (c, p) :: behind → (∀ x ∈ before, x.1 ≠ c) →
        ∃ l y, Queued { s.link i with answers := before ++ behind } l p ∧
          y = { s with fabric := { s.fabric with links := y.fabric.links }, eng := { s.eng with ports := y.eng.ports } } ∧
          y.link i = l ∧ (∀ k, k ≠ i → y.link k = s.link k) ∧ PortCharged s ports y.eng.ports i c p.flits ∧ AnswersLeave i n y t

/-- Link ports brought up to date one after another: a context that has waited 4,096 steps without coming back waits no longer, a port's records
follow the contexts with traffic queued on its link, and answers leave in their turn (R106; log 70). -/
def PortsFollow : List Nat → State → State → Prop
  | [], s, t => t = s
  | i :: rest, s, t =>
    let q : State := { s with eng := { s.eng with portWait := s.eng.portWait.filter fun w => w.1 != i || decide (s.steps < w.2.2 + 4096) } }
    ∃ ports y, Refreshed s.eng.ports ports i (q.rivalsOn i) ∧
      AnswersLeave i (s.link i).answers.length { q with eng := { q.eng with ports := ports } } y ∧ PortsFollow rest y t

/-- Warp a goes strictly before warp b of the same context and slot: one passed over 1,024 times first, then the higher PRIORITY, then
the one that issued less recently, where 0 stands for no issue since placement, then the earlier placed, then the lower number
(R145). -/
def GoesBefore (a b : Offer) : Prop :=
  (1024 ≤ a.wp.overlooked ∧ b.wp.overlooked < 1024) ∨ ((1024 ≤ a.wp.overlooked ↔ 1024 ≤ b.wp.overlooked) ∧
    (b.prio < a.prio ∨ (a.prio = b.prio ∧
      (a.wp.lastIssue < b.wp.lastIssue ∨ (a.wp.lastIssue = b.wp.lastIssue ∧
        (a.wp.placed < b.wp.placed ∨ (a.wp.placed = b.wp.placed ∧ a.wn < b.wn)))))))

/-- The program counter that an issue of a warp selects (R147). -/
def PcChosen (w : Warp) (pc : Word) : Prop :=
  let el (t : Thread) : Prop := t ∈ w.threads ∧ t.park = .none
  ((∃ t, el t ∧ 64 ≤ t.passed) → ∃ t, el t ∧ t.pc = pc ∧ (∀ x, el x → x.passed ≤ t.passed) ∧
    ∀ x, el x → x.passed = t.passed → pc.toNat ≤ x.pc.toNat) ∧
  ((∀ t, el t → t.passed < 64) → (∃ t, el t ∧ t.pc = pc) ∧ ∀ x, el x → pc.toNat ≤ x.pc.toNat)

/-- An opportunity charged to the context of the warp it goes to: its PASS grows by its STRIDE, and each other warp of the context on the slot
counts the opportunities it could use since it last could not (R144, R145). -/
structure Charged (q x : State) (core slot : Nat) (o : Offer) : Prop where
  rest   : x = { q with teams := x.teams, eng := { q.eng with disp := x.eng.disp } }
  chosen : recordAt x.eng.disp core o.ctx = { recordAt q.eng.disp core o.ctx with
             pass := (recordAt q.eng.disp core o.ctx).pass + BitVec.ofNat 64 (2 ^ 48 / q.effWeight .core o.ctx) }
  others : ∀ k c, c < 4096 → ¬(k = core ∧ c = o.ctx) → recordAt x.eng.disp k c = recordAt q.eng.disp k c
  gone   : ∀ t, q.team? t = none → x.team? t = none
  team   : ∀ t tm, q.team? t = some tm → ∃ tm', x.team? t = some tm' ∧ tm' = { tm with warps := tm'.warps } ∧
             Each (fun v w => w = { v with overlooked := w.overlooked }) tm.warps tm'.warps ∧
             ∀ (n : Nat) (v w : Warp), tm.warps[n]? = some v → tm'.warps[n]? = some w →
               let aside := q.ctxOf tm ≠ o.ctx ∨ v.core ≠ core ∨ v.slot ≠ slot ∨ (t = o.team ∧ n = o.wn)
               (aside → w = v) ∧ (¬aside → w.overlooked =
                 if (q.offers core).any (fun a => a.wp.slot == slot && a.ctx == o.ctx && a.team == t && a.wn == n) then v.overlooked + 1 else 0)

/-- An issue, from y on, that leaves t and takes place at z: none of its accesses waits for its plane, and each port that it sent packets
through gives them their turn, so that its contexts wait there no longer (R47, R106; log 70). -/
def Settles (y t z : State) : Prop :=
  t.stall = none ∧ EveryTurn y t ∧ z = { t with eng := { t.eng with portWait := z.eng.portWait } } ∧
    ∀ w, w ∈ z.eng.portWait ↔ w ∈ t.eng.portWait ∧ ¬SentFor y t w.1 w.2.1

/-- An opportunity that q gives, whose issue or fetch leaves t, comes to r: what `more` makes of it where it takes place; else the opportunity
passes, and its contexts wait for their turns at the ports, or only the links that a packet found exhausted enter KEY_EXHAUSTED (R47,
R106; log 70). -/
structure Used (q t r : State) (more : State → State → Prop) : Prop where
  takes : ∀ z, Settles q t z → more z r
  late  : t.stall = none → ¬EveryTurn q t →
            r = { q with stamp := q.stamp + 1, eng := { q.eng with ports := r.eng.ports, portWait := r.eng.portWait } } ∧
            ∀ k c, k < 16 → q.turnOn t k = false → SentFor q t k c → ∃ n, (k, c, n) ∈ r.eng.portWait
  wait  : t.stall ≠ none → r = { q with stamp := q.stamp + 1, fabric := { q.fabric with links := r.fabric.links } } ∧
            ∀ k < 16, r.link k = if (t.link k).state = 3 ∧ (q.link k).state ≠ 3 then { q.link k with state := 3 } else q.link k

/-- An issue makes the walks of the addresses of its lanes in the context's own space, at most, and then has its effect at the state w that
they leave (R98, R253, R304; log 68). -/
def IssuedAt (i : Instr) (y w : State) : Prop :=
  (memoryOps i = none → w = y) ∧
  ∃ vas : List Nat, w = vas.foldl (fun z va => match y.focus? with | some f => z.walkFor f.ctx va | none => z) y ∧
    ∀ va ∈ vas, ∃ M f, memoryOps i = some M ∧ y.focus? = some f ∧ ∃ l ∈ M.lanes f (takes f M.h.g), ownSpace l.2 ∧ va = l.2.toNat

/-- The instruction at hand issued for further warps one after another, each at its own active set; one that does not take place then is
passed over (R146). -/
def AlsoIssued (i : Instr) : List (Offer × Word × List Nat) → State → State → Prop
  | [], y, u => u = y
  | a :: rest, y, u =>
    let x : State := { y with issue := some { team := a.1.team, warp := a.1.wn, active := a.2.2, pc := a.2.1 } }
    ∃ w v, IssuedAt i x w ∧ (∀ t z, exec i w = .next t → Settles y t z → v = z) ∧
      ((∀ t, exec i w = .next t → t.stall ≠ none ∨ ¬EveryTurn y t) → v = y) ∧ AlsoIssued i rest v u

/-- The active set of a warp at a program counter: the lanes of its eligible threads there, rising (R147). -/
def ActiveSet (w : Warp) (pc : Word) (ls : List Nat) : Prop :=
  ls.Pairwise (· ≤ ·) ∧ ls.Perm ((w.threads.filter fun t => t.park == .none && t.pc == pc).map Thread.lane)

/-- The lanes of a team's warps (R166). -/
def warpLanes (q : State) (t : Nat) : Nat := match q.team? t with | some tm => 8 * 2 ^ (q.kernelOf tm).width | none => 0

/-- Two warps of one slot may leave in one issue: the same kernel, equal selected program counters, disjoint lane ranges (R146). -/
def MayPack (q : State) (a b : Offer) : Prop :=
  (∃ x y, q.team? a.team = some x ∧ q.team? b.team = some y ∧ x.bundle = y.bundle ∧ x.kernel = y.kernel) ∧
  (∃ pc, PcChosen a.wp pc ∧ PcChosen b.wp pc) ∧
  (a.wp.base + warpLanes q a.team ≤ b.wp.base ∨ b.wp.base + warpLanes q b.team ≤ a.wp.base)

/-- The warp an opportunity goes to has been charged and is at issue. -/
def AtIssue (q x : State) (core slot : Nat) (o : Offer) (pc : Word) (active : List Nat) : Prop :=
  PcChosen o.wp pc ∧ ActiveSet o.wp pc active ∧ ∃ y, Charged (calm q) y core slot o ∧
    x = { y with issue := some { team := o.team, warp := o.wn, active := active, pc := pc } }

/-- What a fetch of a word remembers besides: the word for later issues of its kernel, and the translation (R100, R248). -/
structure Remembered (x y : State) (f : Focus) (word : Word) : Prop where
  rest  : y = { x with bundles := y.bundles, eng := { x.eng with castle := y.eng.castle } }
  kept  : ∀ b k n, x.bundle? b = some k →
            ∃ k', y.bundle? b = some k' ∧ k' = { k with kernels := k'.kernels } ∧ k'.kernels.length = k.kernels.length ∧
              ∀ r r', k.kernels[n]? = some r → k'.kernels[n]? = some r' →
                r' = { r with code := r'.code } ∧ (¬(b = f.tm.bundle ∧ n = f.tm.kernel) → r' = r) ∧
                ∀ e, e ∈ r'.code ↔ e ∈ r.code ∨ (b = f.tm.bundle ∧ n = f.tm.kernel ∧ e = (f.pc.toNat, word))
  none  : ∀ b, x.bundle? b = .none → y.bundle? b = .none
  cast  : ∀ e, e ∈ x.eng.castle → e ∈ y.eng.castle
  new   : ∀ e, e ∈ y.eng.castle → e ∈ x.eng.castle ∨ (e.ctx = f.ctx ∧ e.page = (f.k.codeBase.toNat + f.pc.toNat) / 4096)

/-! ## Parts of statements: each is half of the obligation that names it. -/

/-- R265, R272, R273, R274: the arithmetic vector instructions wherever they are ready: the destination of each taking lane takes
the result modulo 2^32 (2^64 in pairs), and nothing else changes but the accounting of the issue. -/
def IntegerArithmetic : Prop := ∀ i F, arithmetic i = some F → VecRuns i F

/-- R265 to R269, R272 to R274: the same for the instructions whose result is told bit by bit: logic, shifts, carry-less products, bit
fields, permutations, reversal. -/
def IntegerBits : Prop := ∀ i F, bitwise i = some F → VecRuns i F

/-- R270, R274 to R276, R280: the same for moves, selections, constants, identifiers and `clz`. -/
def MovesAndConstants : Prop := ∀ i F, moves i = some F → VecRuns i F

/-- R276, R278, R280: the uniform instructions write their uniform registers once when at least one thread takes part. -/
def UniformResults : Prop := ∀ i F, uniforms i = some F → UniRuns i F

/-- R271, R273, R277: the integer compares and the predicate functions write the destination predicate of the threads that take
part, and a write to p0 is discarded. -/
def PredicateResults : Prop := ∀ i F, predicates i = some F → PredRuns i F

/-- R279: `scmp` writes the predicate of every thread of the warp that has not exited, when at least one thread takes part. -/
def UniformCompare : Prop :=
  ∀ (h : Hdr) (c : ICond) (p : PReg) (a b : Reg) (s : State) (f : Focus), Ready (.scmp h c p a b) h.s s f →
    ∃ t, exec (.scmp h c p a b) s = .next t ∧
      PredEffect f t (fun x => takes f h.g ≠ [] ∧ x.park ≠ .exited) p (fun _ => holds c (sA f a) (sB f b))

/-- R281, R315, R346, R349, R351: the instructions that change one field of the warp's record, when at least one thread takes
part: `nop` none, `rsb` and `rse` the depth of sections (at most 255, at least 0), `wbase` the window, `syswr` USER_TAG. -/
def WarpFields : Prop :=
  ∀ (h : Hdr) (s : State) (f : Focus),
    (Ready (.nop h) h.s s f → ∃ t, exec (.nop h) s = .next t ∧ WarpEffect f t f.wp) ∧
    (Ready (.rsb h) h.s s f → ∃ t, exec (.rsb h) s = .next t ∧
      WarpEffect f t { f.wp with rsec := if takes f h.g = [] then f.wp.rsec else if f.wp.rsec < 255 then f.wp.rsec + 1 else 255 }) ∧
    (Ready (.rse h) h.s s f → ∃ t, exec (.rse h) s = .next t ∧
      WarpEffect f t { f.wp with rsec := if takes f h.g = [] ∨ f.wp.rsec = 0 then f.wp.rsec else f.wp.rsec - 1 }) ∧
    (∀ a, Ready (.wbase h a) h.s s f → ∃ t, exec (.wbase h a) s = .next t ∧
      WarpEffect f t { f.wp with window := if takes f h.g = [] then f.wp.window else a.toNat }) ∧
    (∀ a, Ready (.syswr h 22 a) h.s s f → ∃ t, exec (.syswr h 22 a) s = .next t ∧
      WarpEffect f t { f.wp with userTag := if takes f h.g = [] then f.wp.userTag else sA f a })

/-- R349: `sysrd` writes the special register's value before the issue: grid coordinates and sizes, warp, WIDTH, warps, core, die,
device, context, level, PLY_LEFT, ISSUE_COUNT, STAGE, WINDOW, ALLOC_PAGES, RSEC_DEPTH, argument bytes, USER_TAG. -/
def SpecialRegisters : Prop :=
  ∀ (h : Hdr) (d a : Reg) (s : State) (f : Focus), Ready (.sysrd h d a) h.s s f →
    ∃ t, exec (.sysrd h d a) s = .next t ∧ UniEffect f t (takes f h.g) d.toNat 1 fun _ w => w = special f a.toNat

/-- R288, R289, R291 to R298: every floating-point, packed, complex, error-free, unary and conversion instruction runs wherever it
is ready, whatever values it meets, and writes the word of its function in each taking lane; which words these are, the
statements on numbers below say. -/
def FloatResults : Prop := ∀ i F, floats i = some F → VecRuns i F

/-- R290, R291: the floating compares write the condition on the two numbers: −0 equals +0, and a NaN is unordered with every
value. -/
def FloatCompares : Prop := ∀ i F, floatCompares i = some F → PredRuns i F

/-- R289: `fmin` and `fmax` return an operand bit for bit, the lesser or the greater with −0 below +0; with one NaN the other
operand, with two the canonical NaN. -/
def FloatMinMax : Prop :=
  ∀ a b : Word,
    (num a = .nan → num b = .nan → fminWord a b = 0x7FC00000 ∧ fmaxWord a b = 0x7FC00000) ∧
    (num a = .nan → num b ≠ .nan → fminWord a b = b ∧ fmaxWord a b = b) ∧
    (num a ≠ .nan → num b = .nan → fminWord a b = a ∧ fmaxWord a b = a) ∧
    (num a ≠ .nan → num b ≠ .nan → (before a b → fminWord a b = a ∧ fmaxWord a b = b) ∧
      (before b a → fminWord a b = b ∧ fmaxWord a b = a) ∧ (¬before a b → ¬before b a → fminWord a b = a ∧ fmaxWord a b = a))

/-- R292: each 16-bit element of a packed result is the exact result on the elements, rounded once to BF16 or FP16. -/
def PackedArithmetic : Prop :=
  ∀ F ∈ [Fmt.bf16, Fmt.f16], ∀ (a b d : Word), ∀ e < 2,
    Rounded F ((numOf F (half a e)).plus (numOf F (half b e))) (half (packedAdd F a b) e) ∧
    Rounded F ((numOf F (half a e)).times (numOf F (half b e))) (half (packedMul F a b) e) ∧
    Rounded F (((numOf F (half a e)).times (numOf F (half b e))).plus (numOf F (half d e))) (half (packedFma F a b d) e)

/-- R293: each part of a complex result is exact and rounded once. -/
def ComplexArithmetic : Prop :=
  ∀ a b d : DWord,
    let re := ((num (part a 0)).times (num (part b 0))).plus ((num (part a 1)).times (num (part b 1))).opp
    let im := ((num (part a 0)).times (num (part b 1))).plus ((num (part a 1)).times (num (part b 0)))
    Rounded32 re (part (cmulPair a b) 0) ∧ Rounded32 im (part (cmulPair a b) 1) ∧
    Rounded32 ((num (part d 0)).plus re) (part (cfmaPair a b d) 0) ∧ Rounded32 ((num (part d 1)).plus im) (part (cfmaPair a b d) 1)

/-- R296: the four roundings to an integer: a NaN gives the canonical NaN, an infinity, a zero and a magnitude of 2^23 or more are
returned unchanged, and otherwise the result is the floor, the ceiling, the truncation or the nearest even integer, a zero
keeping the sign. -/
def RoundingsToInteger : Prop :=
  ∀ a : Word, ∀ r ∈ [(IntRound.floor, fun q : Rat => q.floor), (.ceil, fun q => q.ceil), (.trunc, truncInt), (.near, nearestInt)],
    match num a with
    | .nan => froundWord r.1 a = 0x7FC00000
    | .inf _ => froundWord r.1 a = a
    | .val neg q => (q = 0 ∨ 2 ^ 23 ≤ q → froundWord r.1 a = a) ∧
        (q ≠ 0 → q < 2 ^ 23 → num (froundWord r.1 a) = .val neg (r.2 (signed neg q)).natAbs)

/-- R239, R298: the conversions: integers to FP32 rounded to nearest, FP32 to integers saturating with a NaN giving 0, narrowing
rounded to nearest, and widening exact. -/
def Conversions : Prop :=
  ∀ a : Word,
    Rounded32 (ofRat false a.toInt) (cvtF32I32Word a) ∧ Rounded32 (ofRat false a.toNat) (cvtF32N32Word a) ∧
    (∀ F ∈ [Fmt.bf16, Fmt.f16, Fmt.e4m3, Fmt.e5m2], Rounded F (num a) (narrowTo F a)) ∧
    (∀ F ∈ [Fmt.bf16, Fmt.f16, Fmt.e4m3, Fmt.e5m2], ∀ c < 2 ^ (F.width + 1),
      if numOf F c = .nan then widenFrom F c = 0x7FC00000 else num (widenFrom F c) = numOf F c) ∧
    (∀ lo hi : Int, (lo, hi) ∈ [(-2 ^ 31, 2 ^ 31 - 1), (0, 2 ^ 32 - 1)] →
      match num a with
      | .nan => toIntSat .near lo hi a = 0 ∧ toIntSat .trunc lo hi a = 0
      | .inf neg => toIntSat .near lo hi a = wI (if neg then lo else hi) ∧ toIntSat .trunc lo hi a = wI (if neg then lo else hi)
      | .val neg q => toIntSat .near lo hi a = wI (max lo (min hi (nearestInt (signed neg q)))) ∧
          toIntSat .trunc lo hi a = wI (max lo (min hi (truncInt (signed neg q)))))

/-- R245: `frcp` and `fsqrt` are correctly rounded on every positive or negative finite operand they accept, and `frsq` is the true
result or one of the two FP32 values around it, which one being a free value. -/
def ReciprocalsAndRoots : Prop :=
  ∀ (a : Word) (neg : Bool) (q : Rat), num a = .val neg q → q ≠ 0 →
    Rounded32 (.val neg (1 / q)) (frcpWord a) ∧
    (neg = false → ∃ c, (fsqrtWord a).toNat = c ∧ c ≤ Fmt.f32.maxCode ∧
      ((mag .f32 (c - 1) + mag .f32 c) / 2) ^ 2 ≤ q ∧ q ≤ ((mag .f32 c + mag .f32 (c + 1)) / 2) ^ 2) ∧
    (neg = false → ∃ c, ((frsqWord a).toNat = c ∧ mag .f32 c ^ 2 * q = 1) ∨
      (((frsqWord a).toNat = c ∨ (frsqWord a).toNat = c + 1) ∧ mag .f32 c ^ 2 * q < 1 ∧ 1 < mag .f32 (c + 1) ^ 2 * q))

/-- R245, with a slack of 2^-90 that is this statement's own weakening and not the rule's: `fexp2`, `flog2`, `fsinp` and `fcosp` of a finite
operand that is no exact case give one of the two FP32 values adjacent to a number that lies within 2^-90 of the true result in proportion,
or that no FP32 value separates from the true result. -/
def FaithfulFunctions : Prop :=
  ∀ (a : Word) (neg : Bool) (q : Rat), num a = .val neg q →
    let x : ℝ := ((signed neg q : Rat) : ℝ)
    (signed neg q < 128 → ((∀ n : Int, signed neg q ≠ n) ∨ signed neg q < -149) → Near ((2 : ℝ) ^ x) (fexp2Word a)) ∧
    (neg = false → q ≠ 0 → (∀ n : Int, q ≠ (2 : Rat) ^ n) → Near (Real.logb 2 x) (flog2Word a)) ∧
    ((∀ n : Int, 2 * q ≠ n) → Near (Real.sin (Real.pi * x)) (fsinpWord a) ∧ Near (Real.cos (Real.pi * x)) (fcospWord a))

/-- R245: the special cases of the seven functions: NaNs, infinities, zeros, operands below zero, and the exact cases that
are whole numbers. -/
def UnarySpecials : Prop :=
  ∀ a : Word,
    (num a = .nan → ∀ g ∈ [frcpWord, fsqrtWord, frsqWord, fexp2Word, flog2Word, fsinpWord, fcospWord], g a = 0x7FC00000) ∧
    (∀ neg q, num a = .val neg q → neg = true → q ≠ 0 → ∀ g ∈ [fsqrtWord, frsqWord, flog2Word], g a = 0x7FC00000) ∧
    (∀ n : Int, ∀ neg, num a = .val neg n.natAbs → (n < 0 ↔ neg = true ∧ n ≠ 0) →
      (-149 ≤ n → n ≤ 127 → num (fexp2Word a) = .val false ((2 : Rat) ^ n)) ∧ (128 ≤ n → fexp2Word a = 0x7F800000) ∧
      num (fsinpWord a) = .val neg 0 ∧ num (fcospWord a) = .val (decide (n % 2 ≠ 0)) 1) ∧
    (∀ n : Int, num a = .val false ((2 : Rat) ^ n) → num (flog2Word a) = ofRat false n) ∧
    (∀ n : Int, ∀ neg q, num a = .val neg q → signed neg q = n + 1 / 2 →
      num (fsinpWord a) = .val (decide (n % 2 ≠ 0)) 1 ∧ fcospWord a = 0) ∧
    ([frcpWord, fsqrtWord, frsqWord, fexp2Word, flog2Word, fsinpWord, fcospWord].map fun g => g 0xFF800000) =
      [0x80000000, 0x7FC00000, 0x7FC00000, 0, 0x7FC00000, 0x7FC00000, 0x7FC00000] ∧
    ([frcpWord, fsqrtWord, frsqWord, fexp2Word, flog2Word, fsinpWord, fcospWord].map fun g => g 0x80000000) =
      [0xFF800000, 0x80000000, 0xFF800000, 0x3F800000, 0xFF800000, 0x80000000, 0x3F800000] ∧
    ([frcpWord, fsqrtWord, frsqWord, fexp2Word, flog2Word, fsinpWord, fcospWord].map fun g => g 0) =
      [0x7F800000, 0, 0x7F800000, 0x3F800000, 0xFF800000, 0, 0x3F800000] ∧
    ([frcpWord, fsqrtWord, frsqWord, fexp2Word, flog2Word, fsinpWord, fcospWord].map fun g => g 0x7F800000) =
      [0, 0x7F800000, 0, 0x7F800000, 0x7F800000, 0x7FC00000, 0x7FC00000]

/-- R297: `fclass` writes the one bit of the operand's class. -/
def FloatClasses : Prop :=
  ∀ a : Word, fclassWord a = wN (2 ^ (match num a with
    | .nan => 8
    | .inf neg => if neg then 0 else 7
    | .val neg q =>
      if q = 0 then (if neg then 3 else 4)
      else if q < (2 : Rat) ^ (-126 : Int) then (if neg then 2 else 5) else if neg then 1 else 6))

/-- R264, R299 to R303: each cross-lane read and each instruction of the groups PCOL, WRED and PFX runs wherever it is ready; when a
thread takes part its results, computed from the sources as read at issue, become outstanding, and no register changes yet. -/
def CrossLaneResults : Prop :=
  ∀ i P, producers i = some P → ∀ s f, Ready i P.h.s s f →
    ∃ t cells, exec i s = .next t ∧ PendEffect f t (takes f P.h.g) cells ∧ (takes f P.h.g ≠ [] → P.ok f (takes f P.h.g) cells)

/-- R302: the exact sum of `wred.fadd` is rounded once, whatever the order of the lanes. -/
def ReductionRounded : Prop :=
  ∀ xs : List Word, xs ≠ [] → Rounded32 (sumNums (xs.map num)) (toF32 (FVal.sum (xs.map f32Of)))

/-- R171: a read of a register yields its stored value where no result for it is outstanding and known, and otherwise that value or
one of the outstanding results, by a free choice of each read. -/
def OutstandingReads : Prop :=
  ∀ (f : Focus) (pos lane r : Nat),
    (knownResults f.wp false lane (f.wp.window * 8 + r) = [] → f.v pos lane r = f.wp.vRaw lane (f.wp.window * 8 + r)) ∧
    (f.v pos lane r = f.wp.vRaw lane (f.wp.window * 8 + r) ∨ f.v pos lane r ∈ knownResults f.wp false lane (f.wp.window * 8 + r)) ∧
    (knownResults f.wp true 0 r = [] → f.u pos r = f.wp.uRaw r) ∧
    (f.u pos r = f.wp.uRaw r ∨ f.u pos r ∈ knownResults f.wp true 0 r)

/-- R170, R171: RESULT_RETURN of a result whose every part is known brings it to the registers named at issue, removes it from the
outstanding ones, and marks the earlier outstanding results of the same registers; then what waited for it goes on. -/
def ResultsReturn : Prop :=
  ∀ (s : State) (tm : Team) (p : Pend), s.team? s.input.team = some tm → s.input.warp < tm.warps.length →
    (tm.warp s.input.warp).pend[s.input.num]? = some p → p.tok = none → (∀ c ∈ p.cells, c.val ≠ none) →
    ∃ x w, exec .resultReturn s = .next (x.after s.input.team s.input.warp) ∧
      OnlyTeam s x s.input.team { tm with warps := tm.warps.set s.input.warp w } ∧
      w = { tm.warp s.input.warp with uni := w.uni, threads := w.threads, pend := w.pend } ∧
      w.pend = marked (fun c => p.cells.any fun d => d.uni == c.uni && d.reg == c.reg && (c.uni || d.lane == c.lane))
          ((tm.warp s.input.warp).pend.take s.input.num) ++ (tm.warp s.input.warp).pend.drop (s.input.num + 1) ∧
      (∀ r, Returned p true 0 r ((tm.warp s.input.warp).uRaw r) (w.uRaw r)) ∧
      Each (fun a b => b = { a with regs := b.regs } ∧
        ∀ idx, if idx < (tm.warp s.input.warp).pages * 32 then Returned p false a.lane idx (reg a idx) (reg b idx) else reg b idx = reg a idx)
        (tm.warp s.input.warp).threads w.threads

/-- R282 to R284: `br`, `call` and `brx` send each thread that takes part to the target and every other active one to the next
instruction; `call` writes the offset of the next instruction to v127 of the window. -/
def Branches : Prop :=
  ∀ i h target n, branches i = some (h, target, n) → ∀ s f, Ready i h.s s f →
    ∃ t, exec i s = .next t ∧
      VecEffectTo f t (fun a => if a.lane ∈ takes f h.g then target f a.lane else f.pc + 4) (takes f h.g) 127 n fun _ _ w => w = f.pc + 4

/-- R162, R284: at a marked branch every active thread parks, with the target its guard chooses. -/
def MarkedBranches : Prop :=
  ∀ i h target, markedBranches i = some (h, target) → ∀ s f, Ready i h.s s f →
    ∃ x w, exec i s = .next (x.after f.tid f.wn) ∧ OnlyWarp f x w ∧
      IssuedAs f f.wp w fun a => if a.lane ∈ f.active
        then { a with pc := f.pc, park := .marked (if pr f h.g a.lane then target f a.lane else f.pc + 4) } else a

/-- R264, R344: `exit` parks the threads that take part until their warp's results, tokens and stores are done; when none takes
part, it only counts. -/
def ExitParks : Prop :=
  ∀ (h : Hdr) (s : State) (f : Focus), Ready (.exit h) h.s s f →
    (takes f h.g ≠ [] → ∃ x w, exec (.exit h) s = .next (x.after f.tid f.wn) ∧ OnlyWarp f x w ∧
      IssuedAs f f.wp w (parkHere f (takes f h.g) .exiting)) ∧
    (takes f h.g = [] → ∃ t, exec (.exit h) s = .next t ∧ WarpEffect f t f.wp)

/-- R344, R155: threads that wait at `exit` exit once no variable-latency result is outstanding, every token holds 0 and no access is
queued, unless a remote miss has lost an access of the warp (R39, log 31); a warp left without threads owes no grace period. -/
def ExitsFinish : Prop :=
  ∀ w : Warp,
    ((∀ p ∈ w.pend, p.tok ≠ none) ∧ (∀ k < 8, w.tokens.getD k 0 = 0) ∧ w.mem = [] ∧ w.lost = false →
      Each (fun a b => b = if a.park = .exiting then { a with park := .exited } else a) w.threads w.finishExits.threads ∧
      (Gone w.finishExits → w.finishExits.owes = false ∧ w.finishExits.clearing = none ∧ w.finishExits.trailing = none) ∧
      w.finishExits = { w with
        threads := w.finishExits.threads, owes := w.finishExits.owes, clearing := w.finishExits.clearing, trailing := w.finishExits.trailing } ∧
      (¬Gone w.finishExits → w.finishExits.owes = w.owes ∧ w.finishExits.clearing = w.clearing ∧ w.finishExits.trailing = w.trailing)) ∧
    (¬((∀ p ∈ w.pend, p.tok ≠ none) ∧ (∀ k < 8, w.tokens.getD k 0 = 0) ∧ w.mem = [] ∧ w.lost = false) → w.finishExits = w)

/-- R316, R317: the three forms of `bar`, once the accesses they release are performed: the threads that take part arrive (but for
`bar.hold`), phases that are over complete, and those whose arrival still stands park (but for `bar.mark`). -/
def Barriers : Prop :=
  ∀ (h : Hdr) (n : Reg) (s : State) (f : Focus), takes f h.g ≠ [] →
    (Ready (.barMark h n) h.s s f → f.wp.mem = [] → ∃ x w, exec (.barMark h n) s = .next (x.after f.tid f.wn) ∧
      IssuedAs f f.wp w (fun a => if a.lane ∈ takes f h.g then { a with arrived := a.arrived ||| 1#16 <<< n.toNat } else a) ∧
      OnlyTeam s x f.tid ({ f.tm with warps := f.tm.warps.set f.wn w } : Team).settleBarriers) ∧
    (Ready (.barJoin h n) h.s s f → f.wp.mem = [] → ∃ x w tm, exec (.barJoin h n) s = .next (x.after f.tid f.wn) ∧
      IssuedAs f f.wp w (fun a => if a.lane ∈ takes f h.g then { a with arrived := a.arrived ||| 1#16 <<< n.toNat } else a) ∧
      tm = ({ f.tm with warps := f.tm.warps.set f.wn w } : Team).settleBarriers ∧
      OnlyTeam s x f.tid { tm with warps := tm.warps.set f.wn { tm.warp f.wn with
        threads := (tm.warp f.wn).threads.map fun a =>
          if a.lane ∈ takes f h.g ∧ a.arrived.getLsbD n.toNat = true then { a with park := .bar n.toNat, pc := f.pc } else a } }) ∧
    (Ready (.barHold h n) h.s s f → ∃ x w, exec (.barHold h n) s = .next (x.after f.tid f.wn) ∧ OnlyWarp f x w ∧
      IssuedAs f f.wp w (fun a =>
        if a.lane ∈ takes f h.g ∧ a.arrived.getLsbD n.toNat = true then { a with park := .bar n.toNat, pc := f.pc } else a))

/-- R178, R316: a barrier whose phase is over inverts its phase bit and empties its set, and every other one is left alone. -/
def PhaseCompletion : Prop :=
  ∀ (tm : Team) (n : Nat), n < 16 →
    tm.settleBarriers = { tm with phase := tm.settleBarriers.phase, warps := tm.settleBarriers.warps } ∧
    (tm.settleBarriers.phase.getLsbD n = true ↔ (tm.phase.getLsbD n = true ↔ ¬PhaseOver tm n)) ∧
    Each (fun v w => w = { v with threads := w.threads } ∧
      Each (fun a b => b = { a with arrived := b.arrived } ∧
        (b.arrived.getLsbD n = true ↔ a.arrived.getLsbD n = true ∧ ¬PhaseOver tm n)) v.threads w.threads) tm.warps tm.settleBarriers.warps

/-- R318 to R320: `gate` passes where the gate is open and parks the threads that take part where it is not; `dlrel` records the gate
for its warp once the accesses it releases are performed; both raise GATE_BAD where the bundle's mask has the bit clear,
whatever the guard. -/
def Gates : Prop :=
  ∀ (h : Hdr) (g : Reg) (s : State) (f : Focus) (b : Bundle), s.bundle? f.tm.bundle = some b →
    (Ready (.gate h g) h.s s f → b.gateWait.getLsbD g.toNat = true →
      (GateOpen s f.tm.bundle g.toNat → ∃ t, exec (.gate h g) s = .next t ∧ WarpEffect f t f.wp) ∧
      (¬GateOpen s f.tm.bundle g.toNat → ∃ t w, exec (.gate h g) s = .next t ∧ OnlyWarp f t w ∧
        IssuedAs f f.wp w (parkHere f (takes f h.g) (.gate g.toNat)))) ∧
    (Ready (.gate h g) h.s s f → b.gateWait.getLsbD g.toNat = false → ∃ t, exec (.gate h g) s = .next t ∧ Stops f t 14 0 0 false) ∧
    (Ready (.dlrel h g) h.s s f → f.wp.mem = [] → b.gateRel.getLsbD g.toNat = true →
      (takes f h.g ≠ [] → ∃ x w, exec (.dlrel h g) s = .next (x.after f.tid f.wn) ∧ OnlyWarp f x w ∧
        IssuedAs f { f.wp with dlrel := f.wp.dlrel ||| 1#16 <<< g.toNat } w id) ∧
      (takes f h.g = [] → ∃ t, exec (.dlrel h g) s = .next t ∧ WarpEffect f t f.wp)) ∧
    (Ready (.dlrel h g) h.s s f → f.wp.mem = [] → b.gateRel.getLsbD g.toNat = false →
      ∃ t, exec (.dlrel h g) s = .next t ∧ Stops f t 14 0 0 false)

/-- R320: a team releases a gate once every warp it has left has executed `dlrel` for it. -/
def GateReleases : Prop :=
  ∀ (tm : Team) (g : Nat), g < 16 →
    tm.releaseGates = { tm with gateRel := tm.releaseGates.gateRel } ∧
    (tm.releaseGates.gateRel.getLsbD g = true ↔
      tm.gateRel.getLsbD g = true ∨ ∀ w ∈ tm.warps, Gone w ∨ w.dlrel.getLsbD g = true)

/-- R154, R155: taking the tag of a grace period: while one is in progress the next is asked for, and otherwise a period starts and
each warp of the context owes it unless it is quiescent. -/
def GraceTags : Prop :=
  ∀ (s : State) (c : Nat),
    TagTaken s (s.takeTag c).2 c (s.takeTag c).1 ∧ (∀ k, k ≠ c → (s.takeTag c).2.ctx k = s.ctx k) ∧
    (s.takeTag c).2 = { s with ctxs := (s.takeTag c).2.ctxs, teams := (s.takeTag c).2.teams } ∧
    ((s.ctx c).tempo.running = false →
      Each (fun p q => q.1 = p.1 ∧ q.2 = { p.2 with warps := q.2.warps } ∧
        if s.ctxOf p.2 = c then Each (fun v w => w = { v with owes := w.owes, clearing := none, trailing := none } ∧ (w.owes = true ↔ OwesNow s c p.2 v))
          p.2.warps q.2.warps else q.2.warps = p.2.warps) s.teams (s.takeTag c).2.teams)

/-- R154 to R156, R346 to R348: `gpw` inside a section is ILLEGAL_INSTRUCTION; outside one, once the earlier stores are performed, it
takes a tag and parks its threads. `dfree` takes a tag and queues each lane's address with it, and parks unissued while the
deferred-free queue has no room; that such an issue is not counted is the model's choice (log 33: R156 and R347 are silent). -/
def GracePeriods : Prop :=
  ∀ (h : Hdr) (a : Reg) (s : State) (f : Focus), takes f h.g ≠ [] → StoresPerformed f.wp →
    (Ready (.gpw h) h.s s f → f.wp.rsec ≠ 0 → ∃ t, exec (.gpw h) s = .next t ∧ Stops f t 2 0 0 false) ∧
    (Ready (.gpw h) h.s s f → f.wp.rsec = 0 → ∃ y w x tm, exec (.gpw h) s = .next (x.after f.tid f.wn) ∧
      OnlyWarp f y w ∧ IssuedAs f f.wp w id ∧ (y.takeTag f.ctx).2.team? f.tid = some tm ∧
      OnlyTeam (y.takeTag f.ctx).2 x f.tid { tm with warps := tm.warps.set f.wn { tm.warp f.wn with
        threads := (tm.warp f.wn).threads.map (parkHere f (takes f h.g) .gpw)
        gpwTag := (y.takeTag f.ctx).1
        clearing := if (tm.warp f.wn).owes then some (tm.warp f.wn).nextReq else (tm.warp f.wn).clearing } }) ∧
    (Ready (.dfree h a) h.s s f → (s.ctx f.ctx).tempo.deferred.length + (takes f h.g).length ≤ 4096 →
      ∃ y w t, exec (.dfree h a) s = .next t ∧ OnlyWarp f y w ∧ IssuedAs f f.wp w id ∧
        t = { (y.takeTag f.ctx).2 with ctxs := t.ctxs, teams := t.teams } ∧
        (∀ k, t.team? k = (y.takeTag f.ctx).2.team? k) ∧ (∀ k, k ≠ f.ctx → t.ctx k = (y.takeTag f.ctx).2.ctx k) ∧
        t.ctx f.ctx = { (y.takeTag f.ctx).2.ctx f.ctx with tempo := { ((y.takeTag f.ctx).2.ctx f.ctx).tempo with
          deferred := (s.ctx f.ctx).tempo.deferred ++
            (takes f h.g).map fun l => (BitVec.ofNat 56 (vA64 f a l), (y.takeTag f.ctx).1) } }) ∧
    (Ready (.dfree h a) h.s s f → 4096 < (s.ctx f.ctx).tempo.deferred.length + (takes f h.g).length →
      ∃ t, exec (.dfree h a) s = .next t ∧ OnlyTeam s t f.tid { f.tm with warps := f.tm.warps.set f.wn { f.wp with
        threads := f.wp.threads.map (parkHere f (takes f h.g) .dfree) } })

/-- R152, R168, R350: `ralloc` beyond 32 pages is REG_GROW_IMPOSSIBLE; the one that follows a re-entry completes without growing; any
other parks with its request and the slot's parked warps are served. `rfree` of all pages or more is REG_RANGE; otherwise the
pages go, with the registers in them and the results that come to them, and the slot is served. -/
def RegisterPages : Prop :=
  ∀ (h : Hdr) (n : Reg) (s : State) (f : Focus), takes f h.g ≠ [] →
    (Ready (.ralloc h n) h.s s f → 32 < f.wp.pages + n.toNat → ∃ t, exec (.ralloc h n) s = .next t ∧ Stops f t 11 0 0 false) ∧
    (Ready (.ralloc h n) h.s s f → f.wp.pages + n.toNat ≤ 32 → f.wp.freeRalloc = true →
      ∃ t w, exec (.ralloc h n) s = .next t ∧ OnlyWarp f t w ∧ IssuedAs f { f.wp with freeRalloc := false } w id) ∧
    (Ready (.ralloc h n) h.s s f → f.wp.pages + n.toNat ≤ 32 → f.wp.freeRalloc = false →
      ∃ x w v, exec (.ralloc h n) s = .next (x.serveSlot f.wp.core f.wp.slot (s.stamp + 1)) ∧ OnlyWarp f x w ∧
        IssuedAs f f.wp v (parkHere f (takes f h.g) .ralloc) ∧
        w = { v with rallocAsk := n.toNat, rallocAt := s.stamp + 1, lastSpt := f.wp.lastSpt }) ∧
    (Ready (.rfree h n) h.s s f → f.wp.pages ≤ n.toNat → ∃ t, exec (.rfree h n) s = .next t ∧ Stops f t 3 0 0 false) ∧
    (Ready (.rfree h n) h.s s f → n.toNat < f.wp.pages →
      ∃ x w, exec (.rfree h n) s = .next (x.serveSlot f.wp.core f.wp.slot 0) ∧ OnlyWarp f x w ∧
        Counted f { f.wp with pages := f.wp.pages - n.toNat } w ∧ w.uni = f.wp.uni ∧
        w.pend = (f.wp.pend.map fun p => { p with cells := p.cells.filter fun c => c.uni || decide (c.reg < (f.wp.pages - n.toNat) * 32) }) ∧
        Each (fun a b => b = { wentOn f a with regs := b.regs } ∧
          ∀ idx, reg b idx = if idx < (f.wp.pages - n.toNat) * 32 then reg a idx else 0) f.wp.threads w.threads)

/-- R152, R168: a slot's parked warp is served when every lane octet of its range has the pages free and none before it stays parked:
of a slot whose one parked warp fits, that warp grows and its threads go on. -/
def RegisterService : Prop :=
  ∀ (s : State) (core slot fresh t n p lanes : Nat) (w : Warp) (tm : Team),
    s.parkedRallocs core slot = [(t, n, p, lanes, w)] → s.team? t = some tm → tm.warp n = w → ¬StopStands s tm →
    (∀ i < lanes / 8, octetUsed (s.slotWarps core slot) (w.base + 8 * i) + w.rallocAsk ≤ 32) →
    OnlyTeam s (s.serveSlot core slot fresh) t { tm with warps := tm.warps.set n { w with
      pages := w.pages + w.rallocAsk, rallocAsk := 0, lastSpt := none
      threads := w.threads.map fun a => if a.park = .ralloc then { a with park := .none, pc := a.pc + 4 } else a } }

/-- R172, R175, R180, R323, R337 to R341: an operation of the matrix engine, once the warp's scratchpad stores are performed and its token
has room, raises SHAPE_BAD, then SHAPE_MISMATCH, or joins the engine's queue bound to its token, with the record `tst` and the forms that
read one captured (a pitch of 5 to 7 chunks taken as 8: log 26). -/
def MatrixIssue : Prop :=
  ∀ i M, matrixOps i = some M → ∀ s f, Ready i M.h.s s f → f.wp.tokens.getD M.h.g.toNat 0 < 63 → ScratchpadDrained f.wp →
    (M.bad f → ∃ t, exec i s = .next t ∧ Stops f t 8 0 0 false) ∧
    (¬M.bad f → M.mism f → ∃ t, exec i s = .next t ∧ Stops f t 7 0 0 false) ∧
    (¬M.bad f → ¬M.mism f → ∃ t, exec i s = .next t ∧ Engaged f t M.h.g (M.kind f) M.res)

/-- R177, R323, R338: the record an operation captures is that of the warp's latest `tld` of the register still queued, whatever was
queued after it, else the stored one, or, until the warp has waited on a copy stage that rewrote the register, an earlier one. That a
register which another warp's `tld` loads gives the record stored when the operation issues is the model's choice (log 37: R338 lets either be
captured). -/
def CapturedRecords : Prop :=
  ∀ (f : Focus) (pos n : Nat),
    let mine := f.s.eng.mxe.filter fun o => o.team == f.tid && o.warp == f.wn
    (∀ l o later r, mine = l ++ o :: later → o.kind = .tld n r → (∀ x ∈ later, ∀ y, x.kind ≠ .tld n y) → f.capture pos n = r) ∧
    ((∀ o ∈ mine, ∀ r, o.kind ≠ .tld n r) →
      ((∀ x ∈ f.wp.stale, x.tile ≠ n) → f.capture pos n = f.tm.tile (f.wp.core - f.tm.core) n) ∧
      (f.capture pos n = f.tm.tile (f.wp.core - f.tm.core) n ∨ ∃ x ∈ f.wp.stale, x.tile = n ∧ f.capture pos n = x.old))

/-- R172, R187, R323: MXE_OPERATION_COMPLETE of the oldest operation of a warp, in a context that is not halted: the operation leaves the
queue, has its effect on its team, its token goes down, and what waited for it goes on. -/
def MatrixCompletes : Prop :=
  ∀ (s : State) (o : MxeOp) (tm : Team), s.eng.mxe.find? (fun x => x.id == s.input.num) = some o → s.team? o.team = some tm →
    (∀ x, s.eng.mxe.find? (fun x => x.team == o.team && x.warp == o.warp) = some x → x.id = o.id) →
    (s.ctx (s.ctxOf tm)).halt = none → (∀ p b r n, tm.place ≠ .saved p b r n) →
    ∃ x w, exec .mxeOperationComplete s = .next (x.after o.team o.warp) ∧
      OnlyTeam { s with eng := { s.eng with mxe := s.eng.mxe.filter fun y => y.id != o.id } } x o.team
        { o.kind.apply ((tm.warp o.warp).core - tm.core) tm with
          warps := (o.kind.apply ((tm.warp o.warp).core - tm.core) tm).warps.set o.warp w } ∧
      w = { tm.warp o.warp with tokens := lowered o.tok (tm.warp o.warp).tokens, pend := w.pend } ∧
      ((∀ d t, o.kind ≠ .tst d t) → w.pend = (tm.warp o.warp).pend) ∧
      (∀ d rec, o.kind = .tst d rec → ∀ l p r, (tm.warp o.warp).pend = l ++ p :: r → p.tok = some o.tok →
        (∃ c ∈ p.cells, c.reg = d ∧ c.val = none) → (∀ e ∈ l, ¬(e.tok = some o.tok ∧ ∃ c ∈ e.cells, c.reg = d ∧ c.val = none)) →
        w.pend = l ++ { p with cells := p.cells.map fun c => { c with
          val := some (rec.extractLsb' (32 * (c.reg - d)) 32) } } :: r)

/-- R176, R240 to R244, R338 to R341: what the operations leave in tile registers, accumulators and scratchpad, and that they leave the
others alone. -/
def MatrixEffects : Prop :=
  ∀ (tm : Team) (half d : Nat),
    (∀ t r, (MxeKind.tld t r).apply half tm = { tm with tiles := ((MxeKind.tld t r).apply half tm).tiles } ∧
      ∀ k, Sparse.get 0 k ((MxeKind.tld t r).apply half tm).tiles = if k = half * 16 + t then r else Sparse.get 0 k tm.tiles) ∧
    (∀ a t, (MxeKind.tst a t).apply half tm = tm) ∧
    (∀ n, (MxeKind.accZero d n).apply half tm = { tm with accs := ((MxeKind.accZero d n).apply half tm).accs } ∧
      ∀ k i, i < 4096 → Sparse.get 0 (k * 4096 + i) ((MxeKind.accZero d n).apply half tm).accs =
        if half * 16 + d ≤ k ∧ k < half * 16 + d + n then 0 else Sparse.get 0 (k * 4096 + i) tm.accs) ∧
    (∀ a b fresh, let t := tm.mma half d a b fresh
      t = { tm with accs := t.accs } ∧
      (∀ k i, i < 4096 → k ≠ half * 16 + d → Sparse.get 0 (k * 4096 + i) t.accs = Sparse.get 0 (k * 4096 + i) tm.accs)) ∧
    (∀ a b fresh, let t := tm.cmma half d a b fresh
      t = { tm with accs := t.accs } ∧
      (∀ k i, i < 4096 → (k < half * 16 + d ∨ half * 16 + d + 4 ≤ k) → Sparse.get 0 (k * 4096 + i) t.accs = Sparse.get 0 (k * 4096 + i) tm.accs)) ∧
    (∀ fn h, let t := tm.accLd half d fn h
      t = { tm with accs := t.accs } ∧
      (∀ k i, i < 4096 → (k < half * 16 + d ∨ half * 16 + d + (if fn = .cf32 then 4 else 1) ≤ k) →
        Sparse.get 0 (k * 4096 + i) t.accs = Sparse.get 0 (k * 4096 + i) tm.accs) ∧
      (fn ≠ .cf32 → ∀ m < 64, ∀ n < 64, t.acc half d (64 * m + n) =
        if m < h.rows ∧ n < h.kext then widenFrom (formatOf h.fmt) (tm.elem h m n) else 0) ∧
      (fn = .cf32 → ∀ m < 64, ∀ n < 64, ∀ j < 4, t.acc half (d + j) (64 * m + n) =
        if m < h.rows ∧ n < h.kext ∧ j < 2 then widenFrom .f32 (tm.elem h m n / 2 ^ (32 * j) % 2 ^ 32) else 0)) ∧
    (∀ fn h seed ctr, let t := tm.accSt half d fn h seed ctr
      let rows := if fn = .cf32Split then 2 * h.rows else h.rows
      t = { tm with spm := t.spm, dirty := t.dirty } ∧
      (h.fmt = storeFmt fn → (∀ off, (∀ m < rows, ∀ n < h.kext, ¬(elementAt h m n ≤ off ∧ off < elementAt h m n + elementBytes h)) →
        Sparse.get 0 off t.spm = Sparse.get 0 off tm.spm) ∧
        (∀ m < h.rows, ∀ n < h.kext, t.elem h m n = tm.stCode half d fn seed ctr (64 * m + n)) ∧
        (fn = .cf32Split → ∀ m < h.rows, ∀ n < h.kext, t.elem h (h.rows + m) n =
          (tm.acc half (d + 2) (64 * m + n)).toNat + 2 ^ 32 * (tm.acc half (d + 3) (64 * m + n)).toNat))) ∧
    (∀ a b fresh, (MxeKind.mma d a b fresh false).apply half tm = tm.mma half d (fieldsOf a) (fieldsOf b) fresh ∧
      (MxeKind.mma d a b fresh true).apply half tm = tm.cmma half d (fieldsOf a) (fieldsOf b) fresh) ∧
    (∀ fn r seed ctr, (MxeKind.accSt d fn r seed ctr).apply half tm = tm.accSt half d fn (fieldsOf r) seed ctr) ∧
    (∀ fn r, (MxeKind.accLd d fn r).apply half tm = tm.accLd half d fn (fieldsOf r))

/-- R237, R238, R244, R340: the code that each function of `acc.st` writes for an element: the FP32 bits, the element rounded to nearest or
with its random word, the two folded parts, or the two parts of hi. -/
def StoredCodes : Prop :=
  ∀ (tm : Team) (half d : Nat) (seed ctr : Word), ∀ i < 4096,
    let w (k : Nat) : Word := tm.acc half (d + k) i
    let code (fn : AccStFn) : Nat := tm.stCode half d fn seed ctr i
    code .f32 = (w 0).toNat ∧ Rounded .bf16 (num (w 0)) (code .bf16Rn) ∧ Rounded .e4m3 (num (w 0)) (code .e4m3Rn) ∧
    Rounded .e5m2 (num (w 0)) (code .e5m2Rn) ∧ Stochastic .bf16 8 (-126) (num (w 0)) (randomAt seed ctr i) (code .bf16Sr) ∧
    Stochastic .e4m3 4 (-6) (num (w 0)) (randomAt seed ctr i) (code .e4m3Sr) ∧
    (∃ re im : Word, code .cf32Fold = re.toNat + 2 ^ 32 * im.toNat ∧ Rounded32 ((num (w 0)).plus (num (w 2))) re ∧
      Rounded32 ((num (w 1)).plus (num (w 3))) im) ∧
    code .cf32Split = (w 0).toNat + 2 ^ 32 * (w 1).toNat

/-- R170, R213, R215 to R217, R304 to R308, R310 to R314: a memory instruction whose lanes all pass the probe enters its warp's queue with
its parts; a load's or returning atomic's results become outstanding; no memory changes yet. It waits while an earlier acquire, sc
access or fence holds it back, and while its core has no room. With no thread taking part it does nothing. -/
def RequestsEnter : Prop :=
  ∀ i M, memoryOps i = some M → ∀ s f, Ready i M.h.s s f →
    let part := takes f M.h.g
    let ls := M.lanes f part
    let room := s.coreRequests f.wp.core + M.takes part.length ≤ 4096
    (part = [] → ∃ t, exec i s = .next t ∧ WarpEffect f t f.wp) ∧
    (part ≠ [] → Held f.wp → ∃ t, exec i s = .next t ∧
      OnlyTeam s t f.tid { f.tm with warps := f.tm.warps.set f.wn { f.wp with hold := some .order } }) ∧
    (part ≠ [] → ¬Held f.wp → ¬room → ∃ t, exec i s = .next t ∧
      OnlyTeam s t f.tid { f.tm with warps := f.tm.warps.set f.wn { f.wp with hold := some (.room (M.takes part.length)) } }) ∧
    (part ≠ [] → ¬Held f.wp → room → (∀ l ∈ ls, Passes f M l) →
      ∃ t x w us, exec i s = .next t ∧ Parts f M ls us ∧ OnlyWarp f x w ∧
        IssuedAs f { f.wp with
          nextReq := f.wp.nextReq + 1
          mem := f.wp.mem ++ [{ id := f.wp.nextReq, kind := M.kind, order := M.order, scope := M.scope, pc := f.pc, units := us }]
          pend := f.wp.pend ++ (if M.cells f ls = [] then [] else
            [{ req := some f.wp.nextReq, size := M.size, acq := M.order == .acq || M.order == .sc, cells := M.cells f ls }]) } w id ∧
        t = { x with eng := { s.eng with castle := t.eng.castle } } ∧
        ∀ e ∈ t.eng.castle, e ∈ s.eng.castle ∨
          ∃ l ∈ ls, ownSpace l.2 ∧ f.lead l.1 l.2 = .ok e.tr ∧ e.ctx = f.ctx ∧ e.page = l.2.toNat / 4096)

/-- R217, R315: `fence` makes the warp's later memory instructions wait for the accesses before it: to be performed for rel and sc, to
return for acq and sc, besides what an earlier fence still waits for. -/
def Fences : Prop :=
  ∀ (h : Hdr) (o : FenceOrder) (c : Scope) (s : State) (f : Focus), Ready (.fence h o c) h.s s f →
    let old := f.wp.fence
    let new : Fence :=
      { upto := f.wp.nextReq
        perf := o == .rel || o == .sc || (old.perf && f.wp.mem.any fun r => decide (r.id < old.upto))
        ret := o == .acq || o == .sc || (old.ret && ((f.wp.mem.any fun r => decide (r.id < old.upto) && r.kind != .store) ||
          f.wp.pend.any fun p => p.req.any fun n => decide (n < old.upto))) }
    ∃ t, exec (.fence h o c) s = .next t ∧ WarpEffect f t { f.wp with fence := if takes f h.g = [] then old else new }

/-- R57, R171, R213 to R217, R224, R305 to R308, R313, R314: HOME_PERFORM of a part that its order admits, in scratchpad, or in HBM or
SBM that verifies: a load's registers take the bytes, of memory or of the youngest overlapping store of its warp when that covers the
access; a store's bytes are written; an atomic's word takes its step and the lanes take what it returns; every other byte, warp and unit
is as before. -/
def HomeAccesses : Prop :=
  ∀ (s : State) (tm : Team) (earlier later : List MemReq) (r : MemReq) (u : MemUnit),
    AtHand s tm earlier r later u → InOrder earlier r → Sound s u → s.input.home = .plain →
    let bytes := (List.range u.len).map (byteOf s tm u)
    (r.kind = .load → Apart s earlier u → ∃ x, exec .homePerform s = .next (x.after s.input.unit.team s.input.unit.warp) ∧
      Done s x tm r u [(u.lane, bytes)] tm s.mem) ∧
    (r.kind = .load → ∀ old e young x lane, earlier = old ++ e :: young → Apart s young u → e.kind = .store → Overlaps s e u x →
      (∀ y, Overlaps s e u y → y.lane = lane ∧ ¬inWindow y.tgt) →
      (∀ i < u.size, ∃ y, Overlaps s e u y ∧ Stores s u y (wholeAt s u + i)) →
      ∃ x' bs, exec .homePerform s = .next (x'.after s.input.unit.team s.input.unit.warp) ∧ Done s x' tm r u [(u.lane, bs)] tm s.mem ∧
        bs.length = u.len ∧ ∀ i < u.len, u.off + i < u.size → ∃ y, Overlaps s e u y ∧ Stores s u y (wholeAt s u + u.off + i) ∧
          bs[i]? = some (y.data.getD (wholeAt s u + u.off + i - (s.keyOf y.tgt).2) 0)) ∧
    (r.kind = .store → ∃ x tm' mem, exec .homePerform s = .next (x.after s.input.unit.team s.input.unit.warp) ∧
      Done s x tm r u [] tm' mem ∧ Written s tm u u.mask u.data tm' mem) ∧
    (∀ op w64 ret, r.kind = .atom op w64 ret → u.len = (if w64 then 8 else 4) → (u.ops.map Prod.fst).Nodup → u.ops ≠ [] →
      let out := atomStep op w64 (BitVec.ofNat 64 (littleEndian bytes)) (u.ops.map Prod.snd)
      let le (w : DWord) : List Byte := (List.range u.len).map fun j => BitVec.ofNat 8 (w.toNat / 256 ^ j)
      ∃ x tm' mem rets, exec .homePerform s = .next (x.after s.input.unit.team s.input.unit.warp) ∧
        Done s x tm r u rets tm' mem ∧ Written s tm u 0xFF (le out.2) tm' mem ∧
        rets.map Prod.fst = u.ops.map Prod.fst ∧ rets.map Prod.snd = out.1.map le)

/-- R68 to R70, R128, R130, R188, R306, R307, R314: HOME_PERFORM of a part whose unit is poisoned, or whose line's tag does not verify: a
load's or atomic's registers take zeros, a partial store and an atomic leave memory unchanged, and the context is halted imprecisely with
ECC_UNCORRECTABLE or CIPHER_INTEGRITY, the latter counted in SEC_EVENT. A store of a whole SBM word makes it good. A tag that fails on the
network discards the part and raises the tamper alarm. -/
def HomeFailures : Prop :=
  ∀ (s : State) (tm : Team) (earlier later : List MemReq) (r : MemReq) (u : MemUnit) (a : Nat) (i : BitVec 3) (w : BitVec 6) (c : BitVec 2),
    AtHand s tm earlier r later u → InOrder earlier r → (r.kind = .load → Apart s earlier u) → u.tgt = .here a i w c →
    let k := s.place i.toNat a
    let poisoned := s.mem.poisoned k = true
    let bad := s.mem.tagOk k a w c = false
    let cause : BitVec 8 := if s.mem.poisoned k then 0x11 else 0x12
    let alone := ∀ n y b j w' c', r.units[n]? = some y → n ≠ s.input.unit.unit → y.tgt = .here b j w' c' → b / 64 ≠ a / 64
    (s.input.home = .plain → regionOf a = .hbm ∨ regionOf a = .sbm → u.len ≤ 8 → u.data.length ≤ 8 → poisoned ∨ bad →
      (r.kind ≠ .store → 0 < u.len) → (r.kind = .store → alone ∧ u.data ≠ [] ∧
        (regionOf a = .sbm → u.mask % 256 ≠ 0 ∧ ∃ j < 8, u.mask.testBit j = false)) →
      ∃ x t, exec .homePerform s = .next (t.after s.input.unit.team s.input.unit.warp) ∧ Failed (countedIn s cause) x tm r u ∧
        HaltRaised x t (s.ctxOf tm) (queuedRecord s tm r u cause) false (some s.input.unit.team)) ∧
    (s.input.home = .plain → regionOf a = .sbm → poisoned → r.kind = .store → a % 8 = 0 → alone → u.len = 8 → u.data.length = 8 →
      u.mask = 0xFF → ∃ x mem, exec .homePerform s = .next (x.after s.input.unit.team s.input.unit.warp) ∧ Done s x tm r u [] tm mem ∧
        mem = { s.mem with cells := mem.cells, poison := mem.poison } ∧
        (∀ n, mem.get n = if a ≤ n ∧ n < a + 8 then u.data.getD (n - a) 0 else s.mem.get n) ∧
        ∀ n, Sparse.get false n mem.poison = if n = a then false else Sparse.get false n s.mem.poison) ∧
    (s.input.home = .networkTag → ∃ x t, Failed s x tm r u ∧
      HaltRaised x t (s.ctxOf tm) (queuedRecord s tm r u 0x12) false (some s.input.unit.team) ∧
      exec .homePerform s = .next (t.tamperAlarmed.after s.input.unit.team s.input.unit.warp))

/-- R62 to R65: HOME_PERFORM of a part in an MX window: a load reads the BF16 images of the elements and zeros beyond the array; a store
gives its block's elements their new values, a new scale and new codes, in one step, and leaves every other byte alone; a byte that
counts and lies beyond the array sets OVERRUN. -/
def WindowAccesses : Prop :=
  ∀ (s : State) (tm : Team) (earlier later : List MemReq) (r : MemReq) (u : MemUnit) (a : Nat) (i : BitVec 3) (w : BitVec 6) (c : BitVec 2),
    AtHand s tm earlier r later u → InOrder earlier r → u.tgt = .here a i w c → regionOf a = .mxWindow → s.input.home = .plain →
    let n := (a - 0x90000000000) / 2 ^ 34
    let off := (a - 0x90000000000) % 2 ^ 34
    let d := Sparse.get {} n s.cfg.aliases
    let ends (t : State) := Host.Outcome.next (t.after s.input.unit.team s.input.unit.warp)
    (r.kind = .load → Apart s earlier u → (∀ j < u.len, s.mixed (a + j) = false) →
      (∀ j < u.len, Covered d ((off + j) / 2) → Clean s i w c (elemAt d ((off + j) / 2)) ∧ Clean s i w c (scaleAt d ((off + j) / 2))) →
      ∃ z x bs, exec .homePerform s = ends x ∧ Overrun s z n (∀ j < u.len, Covered d ((off + j) / 2)) ∧ Done z x tm r u [(u.lane, bs)] tm s.mem ∧
        bs.length = u.len ∧ ∀ j < u.len, (¬Covered d ((off + j) / 2) → bs[j]? = some 0) ∧
          (Covered d ((off + j) / 2) → ∃ img, Rounded .bf16 (winNum s d i ((off + j) / 2)) img ∧
            bs[j]? = some (BitVec.ofNat 8 (img / 256 ^ ((off + j) % 2))))) ∧
    (r.kind = .store →
      let put (k : Nat) : Option Byte := if off ≤ k ∧ k < off + u.data.length ∧ u.mask.testBit (k - off) = true then u.data[k - off]? else none
      let all := ∀ k, put k ≠ none → Covered d (k / 2)
      let some' := ∃ k, put k ≠ none ∧ Covered d (k / 2)
      let block := scaleAt d (off / 64 * 32) :: (List.range 32).map fun j => elemAt d (off / 64 * 32 + j)
      (¬some' → ∃ z x, exec .homePerform s = ends x ∧ Overrun s z n all ∧ Done z x tm r u [] tm s.mem) ∧
      (some' → off % 64 + u.data.length ≤ 64 → (∀ x ∈ block, Clean s i w c x) → (block.eraseDups.map (s.place i.toNat)).Nodup →
        scaleAt d (off / 64 * 32) ∉ block.tail →
        ∃ (z x : State) (mem : Mem) (val : Nat → NumVal) (sc : Nat) (codes : Nat → Nat), exec .homePerform s = ends x ∧ Overrun s z n all ∧ Done z x tm r u [] tm mem ∧
          mem = { s.mem with cells := mem.cells } ∧ StoredVals s d i (off / 64) (fun k => put (off / 64 * 64 + k)) val ∧
          BlockScale (winEmax d) val sc ∧
          (∀ j < 32, Rounded (winFmt d) ((val j).times (.val false ((2 : Rat) ^ (127 - (sc : Int))))) (codes j)) ∧
          mem.get (s.place i.toNat (scaleAt d (off / 64 * 32))) = BitVec.ofNat 8 sc ∧
          (∀ j < 32, mem.get (s.place i.toNat (elemAt d (off / 64 * 32 + j))) = BitVec.ofNat 8
            (if d.fmt = 2 then codes (j / 2 * 2) + 16 * codes (j / 2 * 2 + 1) else codes j)) ∧
          ∀ k, (∀ x ∈ block, s.place i.toNat x ≠ k) → mem.get k = s.mem.get k))

/-- R8, R16, R17, R20, R21, R26, R27, R133, R135: MAIN_POWER_ON, and a write of GO to RESET_CTL by the physical function, start the device:
every register at its Reset value, HBM and SBM zero, fuses, training records and flash kept, SEC_EVENT kept by RESET_CTL; a failure of
steps 1 and 2 ends the start in PHASE 15. MAIN_POWER_OFF loses all else. A write by another than the physical
function has no effect. -/
def Starts : Prop :=
  ∀ s : State, s.mem.wf = true →
    (s.power.stage = .off → ∃ t, exec .mainPowerOn s = .next t ∧ Started s t false {}) ∧
    (s.power.stage ≠ .off → ∃ t, exec .mainPowerOff s = .next t ∧ FlashKept s.mem t.mem ∧
      t = { ({} : State) with power := { fuses s.power false with stage := .off }, mem := t.mem, stamp := s.stamp, freeCtr := s.freeCtr
                              input := s.input, agenda := s.agenda }) ∧
    (s.power.stage ≠ .off → s.power.stage ≠ .hostLink → s.input.writer = .pf →
      ∃ t, exec .resetGo s = .next t ∧ Started s t s.input.cold s.cfg.sec) ∧
    (s.power.stage ≠ .off → s.power.stage ≠ .hostLink → s.input.writer ≠ .pf → exec .resetGo s = .next s)

/-- A storage location on HBM stack n or in SBM slice n (R57, R59). -/
def OnUnit (n k : Nat) : Prop :=
  (regionOf k = .hbm ∧ k / 2 ^ 36 = n) ∨ (regionOf k = .sbm ∧ (k - 0x80000000000) / 256 % 1536 / 192 = n)

/-- HBM stack n and SBM slice n are zeroed: no byte but zero, no poison, no tag, no full word; all else stands as it did (R18, R20; the tags
and poison are the model's choice, log 10). -/
structure UnitZeroed (m x : Mem) (n : Nat) : Prop where
  rest  : x = { m with cells := x.cells, poison := x.poison, lines := x.lines, full := x.full }
  zero  : ∀ k, OnUnit n k → x.get k = 0 ∧ x.poisoned k = false ∧ Sparse.get {} (k / 64) x.lines = {}
  empty : ∀ w, OnUnit n (0x80000000000 + 8 * w) → Sparse.get false w x.full = false
  kept  : ∀ k, ¬OnUnit n k → (Sparse.wf 0 m.cells = true → x.get k = m.get k) ∧ (Sparse.wf false m.poison = true → x.poisoned k = m.poisoned k) ∧
            (Sparse.wf {} m.lines = true → Sparse.get {} (k / 64) x.lines = Sparse.get {} (k / 64) m.lines)
  full  : ∀ w, ¬OnUnit n (0x80000000000 + 8 * w) → Sparse.wf false m.full = true → Sparse.get false w x.full = Sparse.get false w m.full

/-- R15, R18, R19, R21, R22, R24, R25, R72: the steps of a start after step 2: the host link, the firmware with stacks 0 and 1 (a firmware
failure stays in PHASE 2, a failed stack or die in PHASE 15), each part once, full service; and a clock that moves by 25 MHz steps. The
stacks and SBM slices are zeroed as they are trained. The model's choices: BOOT_FAIL and BOOT_CAUSE of a failed stack or die (log 39), a
training record dropped in a cold start that was asked for (log 56), STATE FAILED of a link that fails its training (log 59), and the range of a
clock (log 60). -/
def StartSequence : Prop :=
  ∀ s : State,
    let p := s.power
    let fw := s.input.fw
    let x := s.input.train
    let signed := fw.sigOk = true ∧ p.rollback ≤ fw.version
    let failed := fw.stack0 = .failed ∨ fw.stack1 = .failed ∨ fw.die0Ok = false
    (p.stage = .hostLink → exec .hostLinkTrained s = .next { s with power := { p with stage := .firmware, phase := 2 } }) ∧
    (p.stage = .firmware → Trainable p 0 fw.stack0 → Trainable p 1 fw.stack1 →
      (¬signed → exec .firmwareLoaded s = .next { s with
        power := { p with stage := .failed }, cfg := { s.cfg with sec := { s.cfg.sec with bootFail := true, bootCause := 3 } } }) ∧
      (signed → ∃ q r t, exec .firmwareLoaded s = .next t ∧ Noted p q 0 fw.stack0 ∧ PartBits p q (.stack 0) fw.stack0 ∧
        Noted q r 1 fw.stack1 ∧ PartBits q r (.stack 1) fw.stack1 ∧
        (failed → t = { s with
          power := { r with stage := .failed, phase := 15 }, cfg := { s.cfg with sec := { s.cfg.sec with bootFail := true } } }) ∧
        (¬failed → t = { s with
          power := { r with stage := .parts, phase := 3, clk0 := 850 }
          mem := t.mem
          cfg := { s.cfg with state := .open_, sec := { s.cfg.sec with keysErased := false } }
          fabric := { s.fabric with links := t.fabric.links } } ∧ (∀ i < 16, t.link i = { state := 1 }) ∧
          ∃ m, UnitZeroed s.mem m 0 ∧ UnitZeroed m t.mem 1))) ∧
    (p.stage = .parts → p.settled.getLsbD (recordOf s.input.part) = false → Trainable p (recordOf s.input.part) x →
      ∃ t, exec .unitTrained s = .next t ∧ Noted p t.power (recordOf s.input.part) x ∧ PartBits p t.power s.input.part x ∧
        t = { s with power := t.power, mem := t.mem, fabric := { s.fabric with links := t.fabric.links, planeMap := t.fabric.planeMap } } ∧
        (∀ n, s.input.part = .stack n → UnitZeroed s.mem t.mem n.toNat) ∧ ((∀ n, s.input.part ≠ .stack n) → t.mem = s.mem) ∧
        (∀ i, t.link i = if s.input.part = .link (BitVec.ofNat 4 i) ∧ i < 16 then { s.link i with state := if x = .failed then 4 else 2 } else s.link i) ∧
        ((∀ n, s.input.part ≠ .link n) → t.fabric.planeMap = s.fabric.planeMap)) ∧
    (p.stage = .parts → (∀ n < 27, p.settled.getLsbD n = true) → p.die1Ok = true → p.stackOk = 0xFF →
      exec .fullService s = .next { s with power := { p with stage := .full, phase := 4, clk0 := 1700, clk1 := 1700 } }) ∧
    (let old := if s.input.die1 then p.clk1 else p.clk0
     old ≠ 0 → s.input.mhz.toNat ≤ 1700 → (∃ k : Int, (s.input.mhz.toNat : Int) = old.toNat + 25 * k) →
      exec .clockAdjust s = .next { s with
        power := { p with clk0 := if s.input.die1 then p.clk0 else s.input.mhz, clk1 := if s.input.die1 then s.input.mhz else p.clk1 } })

/-- R7, R16, R26, R49, R55, R56, R71 to R75, R91: the configuration writes of the physical function: CAP_W within 600 and 2,200; LOCK and
RUN in their states; a hash mask, which zeroes the HBM stacks in service; requests to rekey links; and the move to RUN, which enables
each valid function as a root context with its slots. From another writer each of these writes has no effect. -/
def ConfigurationWrites : Prop :=
  ∀ s : State,
    (∀ i ∈ pfWrites, s.power.stage ≠ .off → s.power.stage ≠ .hostLink → s.input.index.toNat < 6 → s.input.writer ≠ .pf → exec i s = .next s) ∧
    (Answers s → s.input.writer = .pf →
      let a := s.input.acc
      let n := s.input.index.toNat
      let mask := BitVec.ofNat 26 (dbits a.data 25 0)
      (lowHalf a → exec .powerCtlWrite s = .next { s with
        power := { s.power with capW := BitVec.ofNat 12 (max 600 (min 2200 (dbits a.data 11 0))) } }) ∧
      (exec .cfgLock s = .next (if s.cfg.state = .open_ then { s with cfg := { s.cfg with state := .locked } } else s)) ∧
      (exec .cfgRun s = .next (if s.cfg.state = .locked then { s with cfg := { s.cfg with moving := true } } else s)) ∧
      (lowHalf a → n < 6 → s.mem.wf = true → ∃ t, exec .hashMaskWrite s = .next t ∧
        (s.cfg.state = .locked ∨ s.cfg.state = .run → t = { s with cfg := { s.cfg with sec := { s.cfg.sec with lockWrite := true } } }) ∧
        (s.cfg.state = .open_ → s.cfg.hashMask.getD n 0 = mask → t = s) ∧
        (s.cfg.state = .open_ → s.cfg.hashMask.getD n 0 ≠ mask → t = { s with
            mem := { s.mem with cells := t.mem.cells, poison := t.mem.poison, lines := t.mem.lines }
            cfg := { s.cfg with hashMask := s.cfg.hashMask.set n mask, zeroing := true } } ∧
          ∀ k, t.mem.get k = if regionOf k = .hbm ∧ s.power.stackOk.getLsbD (k / 2 ^ 36) = true then 0 else s.mem.get k)) ∧
      (lowHalf a → ∃ t, exec .owlRekey s = .next t ∧ t = { s with fabric := { s.fabric with links := t.fabric.links } } ∧
        ∀ i, t.link i = if i < 16 ∧ a.data.getLsbD i = true ∧ (s.link i).next = false then { s.link i with asked := true } else s.link i)) ∧
    (s.cfg.zeroing = true → exec .hashMaskZeroingDone s = .next { s with cfg := { s.cfg with zeroing := false } }) ∧
    (s.cfg.moving = true → s.cfg.state = .locked → ∃ (t : State) (E : Nat → Prop), exec .cfgRunDone s = .next t ∧
      t = { s with cfg := { s.cfg with state := .run, moving := false, cfgDigest := t.cfg.cfgDigest }, ctxs := t.ctxs, queues := t.queues } ∧
      let v (n : Nat) : VfCfg := Sparse.get {} n s.cfg.vf
      (∀ n, E n ↔ n < 128 ∧ (v n).enable = true ∧ (v n).qbase.toNat + (v n).qcount.toNat ≤ 1024 ∧
        ∀ m < n, E m → ¬∃ q, (v m).qbase.toNat ≤ q ∧ q < (v m).qbase.toNat + (v m).qcount.toNat ∧
          (v n).qbase.toNat ≤ q ∧ q < (v n).qbase.toNat + (v n).qcount.toNat) ∧
      (∀ n, (E n → t.ctx n = { s.ctx n with live := true, level := 0 }) ∧ (¬E n → t.ctx n = s.ctx n)) ∧
      ∀ q, (∀ n, E n → (v n).qbase.toNat ≤ q → q < (v n).qbase.toNat + (v n).qcount.toNat →
          t.queue q = { s.queue q with owner := some (BitVec.ofNat 12 n) }) ∧
        ((∀ n, E n → ¬((v n).qbase.toNat ≤ q ∧ q < (v n).qbase.toNat + (v n).qcount.toNat)) → t.queue q = s.queue q))

/-- R7, R30, R35, R62, R70, R71, R73, R75, R124, R135, R136, R181: REGISTER_WRITE of eight bytes by the physical function: the W1C fields of
SEC_EVENT, TAMPER_CTL, OSF_ID, OSF_PLANE_MAP and VF_CFG as RW-L registers, WORLD_VFS while no world command runs, MEM_ERR, MX_ALIAS and
SPM_DISCARD; and an access that is not aligned, or of another size than 4 or 8 bytes, has no effect. -/
def RegisterWrites : Prop :=
  ∀ s : State,
    let d := s.input.acc.data
    let off := s.input.off
    (s.input.bytes ≠ 4 ∧ s.input.bytes ≠ 8 ∨ off % s.input.bytes ≠ 0 → exec .registerWrite s = .next s) ∧
    (Answers s → s.input.writer = .pf → s.input.bytes = 8 →
      let e := s.cfg.sec
      (off = 0x20 → exec .registerWrite s = .next { s with cfg := { s.cfg with sec := { e with
        lockWrite := e.lockWrite && !d.getLsbD 0, bootFail := e.bootFail && !d.getLsbD 1, linkLost := e.linkLost && !d.getLsbD 4
        integrity := e.integrity && !d.getLsbD 9, resync := e.resync && !d.getLsbD 10, tamper := e.tamper && !d.getLsbD 11 } } }) ∧
      (off = 0x28 → ∃ t, exec .registerWrite s = .next t ∧ Lockable s t { s with cfg := { s.cfg with eraseEn := d.getLsbD 0 } }) ∧
      (off = 0x30 → ∃ t, exec .registerWrite s = .next t ∧ Lockable s t { s with fabric := { s.fabric with
        deviceNum := BitVec.ofNat 12 (dbits d 11 0), enable := d.getLsbD 12 } }) ∧
      (off = 0x58 → ∃ t, exec .registerWrite s = .next t ∧ Lockable s t { s with fabric := { s.fabric with
        planeMap := (List.range 16).map fun i => BitVec.ofNat 4 (dbits d (4 * i + 3) (4 * i)) } }) ∧
      (off = 0x48 ∨ off = 0x50 → exec .registerWrite s = .next (if s.cfg.wStatus = 1 then s else { s with cfg := { s.cfg with
        wVfs := if off = 0x48 then s.cfg.wVfs.extractLsb' 64 64 ++ d else d ++ s.cfg.wVfs.extractLsb' 0 64 } })) ∧
      (∀ i < 10, off = 0x100 + 8 * i → ∃ t, exec .registerWrite s = .next t ∧ t = { s with cfg := { s.cfg with memErr := t.cfg.memErr } } ∧
        ∀ k, Sparse.get {} k t.cfg.memErr =
          let m : MemErr := Sparse.get {} k s.cfg.memErr
          if k = i then { m with corrected := BitVec.ofNat 16 (dbits d 15 0), uncorr := m.uncorr && !d.getLsbD 16, overflow := m.overflow && !d.getLsbD 17 }
          else m) ∧
      (∀ n < 128, off = 0x400 + 8 * n → ∃ t, exec .registerWrite s = .next t ∧
        (s.cfg.state = .locked ∨ s.cfg.state = .run → t = { s with cfg := { s.cfg with sec := { e with lockWrite := true } } }) ∧
        (s.cfg.state = .open_ → t = { s with cfg := { s.cfg with vf := t.cfg.vf } } ∧ ∀ k, Sparse.get {} k t.cfg.vf =
          if k = n then { qbase := BitVec.ofNat 10 (dbits d 9 0), qcount := BitVec.ofNat 11 (dbits d 20 10), enable := d.getLsbD 21 }
          else Sparse.get {} k s.cfg.vf)) ∧
      (∀ n < 64, off = 0x800 + 16 * n ∨ off = 0x808 + 16 * n → ∃ t, exec .registerWrite s = .next t ∧
        t = { s with cfg := { s.cfg with aliases := t.cfg.aliases } } ∧ ∀ k, Sparse.get {} k t.cfg.aliases =
          let m : MxAlias := Sparse.get {} k s.cfg.aliases
          if k ≠ n then m
          else if off % 16 = 0 then { m with
            dataFrame := BitVec.ofNat 32 (dbits d 31 0), fmt := BitVec.ofNat 2 (dbits d 33 32), en := d.getLsbD 34
            overrun := m.overrun && !d.getLsbD 35, blocks := BitVec.ofNat 28 (dbits d 63 36) }
          else { m with scaleAddr := BitVec.ofNat 44 (dbits d 43 0) }) ∧
      (∀ c < 192, off = 0x1000 + 8 * c → ∃ t, exec .registerWrite s = .next t ∧ t = { s with cfg := { s.cfg with discard := t.cfg.discard } } ∧
        ∀ k, Sparse.get 0 k t.cfg.discard = if k = c then BitVec.ofNat 32 (dbits d 31 0) else Sparse.get 0 k s.cfg.discard))

/-- R39, R47, R69, R77, R85, R99, R128: an access by the command processor within an aligned word walks for its address, then reads and writes its place in
memory; a longer one goes word by word and fails where one fails; a write that not every word admits stores nothing. That an access to
poisoned or unverified data counts as failed is the model's choice (log 23), as is a walk for each access (log 68). -/
def CommandAccesses : Prop :=
  (∀ (s0 : State) (c va n : Nat), 0 < n → va % 8 + n ≤ 8 →
    let s := s0.walkFor c va
    (∀ t a i w m, s.lead (cpxSalt va) c va .load = .ok t → s.targetOf t va = .here a i w m → MemByte a → s.input.hits = [] →
      Clean s i w m a → (∀ j < n, s.mixed (a + j) = false) →
      s0.readVa c va n = { s := s, bytes := some ((List.range n).map fun j => s.mem.get (s.place i.toNat a + j)) }) ∧
    (∀ t a i w m, s.lead (cpxSalt va) c va .load = .ok t → s.targetOf t va = .here a i w m → MemByte a → s.input.hits = [] →
      ¬Clean s i w m a → (s0.readVa c va n).bytes = none ∧ NoAccess s (s0.readVa c va n).s) ∧
    (∀ r, s.lead (cpxSalt va) c va .load = .refused r → s0.readVa c va n = { s := s }) ∧
    (∀ m, s.lead (cpxSalt va) c va .load = .miss m → (s0.readVa c va n).bytes = none ∧ NoAccess s (s0.readVa c va n).s) ∧
    (∀ t a i w m, ∀ bs : List Byte, bs.length = n → s0.canWrite c va n = true → s.lead (cpxSalt va) c va .store = .ok t →
      s.targetOf t va = .here a i w m → MemByte a → s.input.hits = [] → Clean s i w m a → ∃ z, s0.tryWrite c va bs = { s := z, ok := true } ∧
        z = { s with mem := { s.mem with cells := z.mem.cells, lines := z.mem.lines } } ∧
        ∀ k, z.mem.get k = if s.place i.toNat a ≤ k ∧ k < s.place i.toNat a + n then bs.getD (k - s.place i.toNat a) 0 else s.mem.get k)) ∧
  (∀ (s : State) (c va n : Nat), 8 < va % 8 + n →
    let h := 8 - va % 8
    let first := s.readVa c va h
    (first.bytes = none → s.readVa c va n = first) ∧
    ∀ bs, first.bytes = some bs → s.readVa c va n =
      { s := (first.s.readVa c (va + h) (n - h)).s, bytes := (first.s.readVa c (va + h) (n - h)).bytes.map fun r => bs ++ r }) ∧
  ∀ (s : State) (c va : Nat) (bs : List Byte),
    (s.canWrite c va bs.length = true ↔ ∀ k < bs.length, ∃ j, k - 7 ≤ j ∧ j ≤ k ∧ (j = 0 ∨ (va + j) % 8 = 0) ∧ (∀ m, j < m → m ≤ k → (va + m) % 8 ≠ 0) ∧
      ∃ t, s.lead (cpxSalt (va + j)) c (va + j) .store = .ok t) ∧
    (s.canWrite c va bs.length = false → (s.tryWrite c va bs).ok = false ∧ NoAccess s (s.tryWrite c va bs).s)

/-- The states of walks for consecutive pages of a context, one after another. -/
def Walks (s : State) (c va : Nat) (w : Nat → State) : Prop := w 0 = s ∧ ∀ j, w (j + 1) = (w j).walkFor c (va + 4096 * j)

/-- R22, R67, R85, R86, R87, R99, R127: WRITE stores its bytes or is ADDR_BAD; FAULT_DONE of a child, or of a root itself, is DENIED, STALE, or
lets the team of the fault re-enter; FLOG_APPEND walks for its pages, reads its source and waits for its commit, which puts every page in
flash in one step and counts the append, or is NO_SPACE or ADDR_BAD. That free flash is lacking comes with the event (the model's choice, log 42); a
read of poisoned or unverified data fails (log 23). -/
def WritesAndAppends : Prop :=
  PacketReaches .write 4 (fun y q c p t =>
    let r := y.tryWrite c (pnum p 8 8) ((p.bytes.drop 24).take (pnum p 16 1))
    Completed r.s t q p (if r.ok = true then 0 else 2) 0) ∧
  PacketRuns .faultDone 5 (fun y q c p t =>
    let d := pnum p 8 2
    let mine := ChildOf y c d ∨ (c = d ∧ (y.ctx c).level = 0)
    (¬mine → Completed y t q p 6 0) ∧
    (mine → (∀ f ∈ (y.ctx d).pending, f.seq.toNat ≠ pnum p 12 4) → Completed y t q p 7 0) ∧
    (mine → ∀ f, FirstWith (fun g => g.seq.toNat = pnum p 12 4) (y.ctx d).pending f → ∃ z,
      OnlyCtx y z d { y.ctx d with pending := (y.ctx d).pending.filter fun g => g.seq != f.seq } ∧ Completed (z.returnTeam f.team) t q p 0 0)) ∧
  PacketReaches .flogAppend 6 (fun y q c p t =>
    let n := pnum p 24 4
    ∀ w : Nat → State, Walks y c (pnum p 8 8) w →
    let flash := ∀ j < n, ∃ tr, FlashPage (w (j + 1)) c (pnum p 8 8 + 4096 * j) tr
    (¬flash → ∃ z, NoAccess y z ∧ Completed z t q p 2 0) ∧
    ∀ st : Nat → State, st 0 = w n → (∀ j, st (j + 1) = ((st j).readVa c (pnum p 16 8 + 4096 * j) 4096).s) →
      let page (j : Nat) := ((st j).readVa c (pnum p 16 8 + 4096 * j) 4096).bytes
      (∀ m < n, flash → (∀ j < m, page j ≠ none) → page m = none → Completed (st (m + 1)) t q p 2 0) ∧
      (flash → (∀ j < n, page j ≠ none) → ∃ pages : List (List Byte), pages.length = n ∧ (∀ j < n, pages[j]? = page j) ∧
        t = { st n with eng := { (st n).eng with
          nextId := (st n).eng.nextId + 1
          cmds := (st n).eng.cmds ++
            [{ id := (st n).eng.nextId, kind := .flog (pnum p 8 8) pages, ctx := BitVec.ofNat 12 c, queue := some (BitVec.ofNat 10 q, p) }] } })) ∧
  (∀ (s : State) (k : Cmd) (dst : Nat) (pages : List (List Byte)) (q : Slot) (p : Packet),
    s.eng.cmds.find? (fun c => c.id == s.input.num) = some k → k.kind = .flog dst pages → k.queue = some (q, p) →
    let y (x : State) : State := { x with eng := { x.eng with cmds := x.eng.cmds.filter fun c => c.id != k.id } }
    ∀ w : Nat → State, Walks (calm s) k.ctx.toNat dst w →
    let n := pages.length
    let flash := ∀ j < n, ∃ tr, FlashPage (w (j + 1)) k.ctx.toNat (dst + 4096 * j) tr
    let put := State.commitPages k.ctx.toNat dst pages (w n)
    ∃ t, TakesPlace .flogAppendCommit s t ∧
      (s.input.flag = true → Completed (y (calm s)) t q.toNat p 3 0) ∧
      (s.input.flag = false → ¬flash → ∃ z, NoAccess (calm s) z ∧ Completed (y z) t q.toNat p 2 0) ∧
      (s.input.flag = false → flash →
        Completed (y { put with mem := { put.mem with appends := put.mem.appends + 1 } }) t q.toNat p 0 (BitVec.ofNat 128 n))) ∧
  ∀ (s : State) (c dst : Nat) (page : List Byte) (rest : List (List Byte)), page.length = 4096 →
    ((∀ tr, ¬FlashPage s c dst tr) → State.commitPages c dst (page :: rest) s = State.commitPages c (dst + 4096) rest s) ∧
    ∀ tr, FlashPage s c dst tr → tr.frame % 4096 = 0 → regionOf tr.frame = .flash → ∃ z, State.commitPages c dst (page :: rest) s = State.commitPages c (dst + 4096) rest z ∧
      z = { s with mem := { s.mem with cells := z.mem.cells, flashKey := z.mem.flashKey, poison := z.mem.poison } } ∧
      (∀ k, z.mem.get k = if tr.frame ≤ k ∧ k < tr.frame + 4096 then page.getD (k - tr.frame) 0 else s.mem.get k) ∧
      (∀ k, z.mem.poisoned k = if tr.frame ≤ k ∧ k < tr.frame + 4096 then false else s.mem.poisoned k)

/-- R124 to R126: WORLD_CMD of the physical function with CREATE, KEY or DESTROY, while no command runs: in the state RUN, of a tenant world, with what
each needs, it starts; otherwise it ends at once with STATUS 2 or 3. DESTROY stops every context of the world. STATUS 2 for a world that was never
created is the model's choice (log 67). -/
def WorldStarts : Prop :=
  ∀ s : State,
    let d := s.input.acc.data
    let w := dbits d 5 0
    let comp := BitVec.ofNat 2 (dbits d 9 8)
    let page := BitVec.ofNat 44 (dbits d 55 12)
    let named (n : Nat) := n < 128 ∧ s.cfg.wVfs.getLsbD n = true
    let y (st : BitVec 3) (op : Option WorldOp) : State := { s with cfg := { s.cfg with
      wWorld := BitVec.ofNat 6 w, wComp := comp, wAddr := page, wStatus := st, wOp := op } }
    (Answers s → s.input.writer = .pf → s.cfg.wStatus ≠ 1 →
      let bad := s.cfg.state ≠ .run ∨ w = 0
      let hbm := regionOf (page.toNat * 4096) = .hbm ∧ regionOf (page.toNat * 4096 + 4096) = .hbm
      let taken := (s.world w).live = true ∨ ∃ n, named n ∧ ((s.ctx n).world ≠ 0 ∨ (s.ctx n).started = true)
      let held := (comp = 1 ∧ (s.world w).key1 = true) ∨ (comp = 2 ∧ (s.world w).key2 = true)
      let known := (comp = 1 ∨ comp = 2) ∧ (s.world w).live = true
      ((bad ∨ ¬hbm) → exec .worldCreate s = .next (y 2 none)) ∧
      (¬bad → hbm → taken → exec .worldCreate s = .next (y 3 none)) ∧
      (¬bad → hbm → ¬taken → exec .worldCreate s = .next (y 1 (some .create))) ∧
      ((bad ∨ ¬known ∨ (¬held ∧ (s.world w).kem = false)) → exec .worldKey s = .next (y 2 none)) ∧
      (¬bad → known → held → exec .worldKey s = .next (y 3 none)) ∧
      (¬bad → known → ¬held → (s.world w).kem = true → exec .worldKey s = .next (y 1 (some .key))) ∧
      ((bad ∨ (s.world w).live = false) → exec .worldDestroy s = .next (y 2 none)) ∧
      (¬bad → (s.world w).live = true → ∃ t, exec .worldDestroy s = .next t ∧ t = { y 1 (some .destroy) with ctxs := t.ctxs } ∧
        (∀ c ∈ s.worldContexts w, (t.ctx c).halt.any (fun h => h.tamper && h.saved) = true) ∧ ∀ c, c ∉ s.worldContexts w → t.ctx c = s.ctx c))

/-- R47, R69, R124 to R128: WORLD_CMD_DONE ends the command. KEY: the owner's key comes from the capsule in the page (STATUS 4 once both
owners' are held, the private key then gone). CREATE: the world lives with a new key pair, its policy digest, gates and functions, in a new key generation,
and its report page is written. DESTROY, when nothing of the world is under way: the world and its keys are gone, its generation is new, its memory
fails its tags, and each function is in world 0 with its queues IDLE. The model's choices: the pages are read and written under INTERLEAVE 1
and the tags of world 0 (log 7), and a page whose data fail ends the command with STATUS 2 (log 23). -/
def WorldEnds : Prop :=
  ∀ s : State,
    let v := s.cfg.wWorld.toNat
    let x := s.world v
    let a := s.cfg.wAddr.toNat * 4096
    let z (st : BitVec 3) : State := { calm s with cfg := { s.cfg with wStatus := st, wOp := none } }
    let clean := PageClean s 1 0 0 a
    (s.cfg.wOp = some .key ∨ s.cfg.wOp = some .create → s.input.hits = [] → regionOf a = .hbm → ¬clean → ∃ t, exec .worldCmdDone s = .next t ∧
      t = { z 2 with cfg := t.cfg } ∧ t.cfg = { s.cfg with wStatus := 2, wOp := none, sec := t.cfg.sec }) ∧
    (s.cfg.wOp = some .key → s.input.hits = [] → regionOf a = .hbm → clean → s.input.flag = false → exec .worldCmdDone s = .next (z 2)) ∧
    (s.cfg.wOp = some .key → s.input.hits = [] → regionOf a = .hbm → clean → s.input.flag = true → ∀ page, PageIs s 1 a page →
      let one := s.cfg.wComp = 1
      let both := (if one then x.key2 else x.key1) = true
      let key := Config.decapsulate x.pair (page.take 1568)
      ∃ t, exec .worldCmdDone s = .next t ∧ t = { z (if both then 4 else 0) with worlds := t.worlds } ∧ (∀ k, k ≠ v → t.world k = s.world k) ∧
        t.world v = { x with
          key1 := (if one then true else x.key1), key2 := (if one then x.key2 else true), kem := (x.kem && !decide both)
          key1Val := (if one then key else x.key1Val), key2Val := (if one then x.key2Val else key) }) ∧
    (s.cfg.wOp = some .create → s.input.hits = [] → regionOf a = .hbm → clean → ∀ page, PageIs s 1 a page →
      let n := littleEndian (page.take 4)
      (2 ^ 20 ≤ s.mem.leaves ∨ 16 < n → exec .worldCmdDone s = .next (z 2)) ∧
      (s.mem.leaves < 2 ^ 20 → n ≤ 16 → ∃ t, exec .worldCmdDone s = .next t ∧ t.cfg.wStatus = 0 ∧ t.cfg.wOp = none ∧
        (∃ gates : List PolicyGate, t.world v = { live := true, kem := true, pair := s.mem.leaves, joint := Config.jointKey s.mem.leaves
                                                  vfs := s.cfg.wVfs, policy := Config.sha256 page, gates := gates } ∧
          gates.length = n ∧ ∀ i < n, gates[i]? = some { src := page.getD (16 + 16 * i) 0, dst := page.getD (17 + 16 * i) 0
                                                         tensor := BitVec.ofNat 32 (littleEndian ((page.drop (20 + 16 * i)).take 4)) }) ∧
        t.mem.leaves = s.mem.leaves + 1 ∧ t.mem.genOf s.cfg.wWorld = s.mem.genOf s.cfg.wWorld + 1 ∧
        (∀ k, (∀ i < 128, ¬(s.place 1 (a + 4096 + 32 * i) ≤ k ∧ k < s.place 1 (a + 4096 + 32 * i) + 32)) → t.mem.get k = s.mem.get k) ∧
        ∀ n, (t.ctx n).world = if n < 128 ∧ s.cfg.wVfs.getLsbD n = true then s.cfg.wWorld else (s.ctx n).world)) ∧
    (s.cfg.wOp = some .destroy → s.input.hits = [] → (∀ c ∈ s.worldContexts v, s.subtreeQuiet c = true) →
      ∃ t, TakesPlace .worldCmdDone s t ∧ t.world v = {} ∧ t.cfg.wStatus = 0 ∧ t.cfg.wOp = none ∧
        t.mem.genOf s.cfg.wWorld = s.mem.genOf s.cfg.wWorld + 1 ∧
        (∀ k b m, regionOf b = .hbm → (Sparse.get {} (k / 64) t.mem.lines).gen = s.mem.genOf s.cfg.wWorld → t.mem.tagOk k b s.cfg.wWorld m = false) ∧
        ∀ c, InWorld s v c → (s.ctx c).level = 0 → BackInWorldZero t c)

/-- Pages of a context walked for one after another, up to one that has no translation, and what the walks leave (R39, R99). -/
def PagesWalked (c : Nat) : Nat → Nat → State → State → Prop
  | 0, _, s, t => t = s
  | n + 1, va, s, t =>
    let u := s.walkFor c va
    let found := u.translate (0x9300000 + va / 4096 % 16) c va
    (∀ tr, found = .ok tr → PagesWalked c n (va + 4096) u t) ∧ (∀ m, found = .error m → NoAccess u t)

/-- R127 to R129: TENSOR packets: ADDR_BAD unless every granule maps, aligned, to HBM of the context's world with WRITE; DENIED when VERSION is
not above a granule's HIGH (DECLARE, REVISE), or HIGH can rise no further (RETIRE); else each granule's entry is set, and its lines are
zero (DECLARE, RETIRE) or carried over (REVISE). Its pages are walked for first, one after another, up to one that has no translation (the
model's choice, log 68). -/
def TensorPackets : Prop :=
  let run (i : Instr) (op : Nat) (no : Tensor → Packet → Prop) (entry : Tensor → Packet → Tensor) (eff : Packet → State → Granule → State) : Prop :=
    (∀ s q c p, Heads s 15 q c p → pnum p 32 1 = op → ∃ y w t, Begun s y q c.toNat p ∧ TakesPlace i s t ∧
      PagesWalked c.toNat (pnum p 16 8 / 4096) (pnum p 8 8) y w ∧ NoAccess y w ∧ w.mem.tensor = y.mem.tensor ∧
      let gs := w.granules c.toNat (pnum p 16 8 / 65536) (pnum p 8 8)
      (gs = none → Completed w t q p 2 0) ∧
      (∀ l, gs = some l → (∃ g ∈ l, no (w.mem.tensorAt g.addr) p) → Completed w t q p 6 0) ∧
      ∀ l, gs = some l → (∀ g ∈ l, ¬no (w.mem.tensorAt g.addr) p) → Completed (l.foldl (eff p) w) t q p 0 0) ∧
    ∀ (p : Packet) (z : State) (g : Granule), (eff p z g) = { z with mem := (eff p z g).mem } ∧
      ∀ k, Sparse.get {} k (eff p z g).mem.tensor = if k = g.addr / 65536 then entry (z.mem.tensorAt g.addr) p else Sparse.get {} k z.mem.tensor
  let v (p : Packet) : Word := BitVec.ofNat 32 (pnum p 28 4)
  run .tensorDeclare 1 (fun t p => (v p).toNat ≤ t.high.toNat) (fun _ p => { id := BitVec.ofNat 32 (pnum p 24 4), version := v p, high := v p })
    (fun p z g => z.zeroGranule (fun _ => { id := BitVec.ofNat 32 (p.field 24 4), version := p.version, high := p.version }) g) ∧
  run .tensorRevise 2 (fun t p => (v p).toNat ≤ t.high.toNat) (fun t p => { t with version := v p, high := v p }) (fun p z g => z.reviseGranule p.version g) ∧
  run .tensorRetire 3 (fun t _ => t.high = 0xFFFFFFFF) (fun t _ => { id := 0, version := t.high + 1, high := t.high + 1 })
    (fun _ z g => z.zeroGranule z.mem.retired g)

/-- R127, R129: a granule declared or retired reads as zeros afterwards, under its new entry, and no byte outside it changes. -/
def GranulesZero : Prop :=
  ∀ (z : State) (g : Granule) (e : Granule → Tensor), z.mem.wf = true → regionOf g.addr = .hbm → g.addr % 65536 = 0 →
    let t := z.zeroGranule e g
    (∀ i < 1024, ∀ j < 64, t.mem.get (z.place g.tr.inter.toNat (g.addr + 64 * i) + j) = 0) ∧
    (∀ i < 1024, t.mem.tagOk (z.place g.tr.inter.toNat (g.addr + 64 * i)) (g.addr + 64 * i) g.tr.world g.tr.comp = true) ∧
    ∀ k, (∀ i < 1024, ¬(z.place g.tr.inter.toNat (g.addr + 64 * i) ≤ k ∧ k < z.place g.tr.inter.toNat (g.addr + 64 * i) + 64)) →
      t.mem.get k = z.mem.get k

/-- R128, R129: a granule revised keeps every byte; each line whose tag verified verifies under the new VERSION, one that had failed is left as it is,
and no other line's tag changes. -/
def GranulesRevised : Prop :=
  ∀ (z : State) (g : Granule) (v : Word), regionOf g.addr = .hbm → g.addr % 65536 = 0 →
    let t := z.reviseGranule v g
    let line (i : Nat) := z.place g.tr.inter.toNat (g.addr + 64 * i)
    (∀ k, t.mem.get k = z.mem.get k) ∧ (t.mem.tensorAt g.addr) = { z.mem.tensorAt g.addr with version := v, high := v } ∧
    (∀ i < 1024, z.mem.tagOk (line i) (g.addr + 64 * i) g.tr.world g.tr.comp = true → t.mem.tagOk (line i) (g.addr + 64 * i) g.tr.world g.tr.comp = true) ∧
    (∀ i < 1024, z.mem.tagOk (line i) (g.addr + 64 * i) g.tr.world g.tr.comp = false →
      Sparse.get {} (line i / 64) t.mem.lines = Sparse.get {} (line i / 64) z.mem.lines) ∧
    ∀ k, (∀ i < 1024, k ≠ line i / 64) → Sparse.get {} k t.mem.lines = Sparse.get {} k z.mem.lines

/-- R47, R69, R128, R132 to R136: BCH_CHUNK of a busy channel: a page the channel may not use, or data that fail, puts it in RESYNC; an outbound chunk
is sealed into the host's memory, an inbound one opened into its page, each under NEXT; a tag that fails sets RESYNC there and in SEC_EVENT.
BCH_STATUS_RECORD writes at BCH_REC the world, channel, DIR, DONE and NEXT with a signature, burns the counters it names and makes the channel IDLE.
TAMPER_ALARM sets TAMPER, and with ERASE_EN it erases every key, stops every context and leaves three registers answering. -/
def ProtectedTransfers : Prop :=
  (∀ s : State,
    let c := s.input.ctx.toNat
    let k := s.input.ch.toNat
    let b := (s.ctx c).bounceAt k
    let x := s.ctx c
    let owner := if b.comp = 1 then (s.world x.world.toNat).key1Val else (s.world x.world.toNat).key2Val
    let key := Config.channelKey owner k b.dir
    let host := b.host.toNat + 4160 * b.done.toNat
    let va := b.dev.toNat / 4096 * 4096 + 4096 * b.done.toNat
    let put (y t : State) (z : Bounce) : Prop := OnlyCtx y t c { y.ctx c with bounce := Table.put k z (y.ctx c).bounce }
    let next := { b with done := b.done + 1, next := b.next + 1, state := (if b.done + 1 = b.chunks then 0 else b.state) }
    let w := (calm s).walkFor c va
    let usable (tr : Trans) : Prop := va < 2 ^ 56 ∧ w.translate 0x9400000 c va = .ok tr ∧ tr.world = x.world ∧ tr.comp = b.comp ∧
      (b.dir = true → tr.read = true) ∧ (b.dir = false → tr.write = true ∧ tr.flash = false)
    (x.live = true → x.level = 0 → x.world ≠ 0 → s.cfg.erased = false → b.state = 1 →
      ((∀ tr, ¬usable tr) → ∃ z t, TakesPlace .bchChunk s t ∧ NoAccess (calm s) z ∧ put z t { b with state := 2 }) ∧
      (∀ tr, usable tr → b.dir = true → ∃ t, TakesPlace .bchChunk s t ∧
        let g := w.getChunk c va (w.targetOf tr va)
        (g.bytes = none → put g.s t { b with state := 2 }) ∧
        ∀ bs, g.bytes = some bs →
          put { g.s with mem := g.s.mem.writeHost host (exactly 4112 (Config.gcmSeal key b.next.toNat bs)) } t next) ∧
      (∀ tr, usable tr → b.dir = false → s.input.flag = true → ∃ t, TakesPlace .bchChunk s t ∧
        let r := w.putChunk c va (w.targetOf tr va) (exactly 4096 (Config.gcmOpen key b.next.toNat (s.mem.readHost host 4112)))
        (r.ok = true → put r.s t next) ∧ (r.ok = false → put r.s t { b with state := 2, next := b.next + 1 })) ∧
      (∀ tr, usable tr → b.dir = false → s.input.flag = false → ∃ t, TakesPlace .bchChunk s t ∧
        put { w with cfg := { w.cfg with sec := { w.cfg.sec with resync := true } } } t { b with state := 2, next := b.next + 1 })) ∧
    (b.state = 2 → s.cfg.erased = false → s.mem.leaves < 2 ^ 20 →
      let n := b.next + BitVec.ofNat 64 (min s.input.num (b.first + b.chunks.setWidth 64 - b.next).toNat)
      let le (m v : Nat) : List Byte := (List.range m).map fun j => BitVec.ofNat 8 (v / 256 ^ j)
      let body := le 8 b.world.toNat ++ le 8 k ++ le 8 (if b.dir then 1 else 0) ++ le 8 b.done.toNat ++ le 8 n.toNat ++ le 24 0
      ∃ t z, exec .bchStatusRecord s = .next t ∧ put z t { b with state := 0, next := n } ∧
        z = { s with mem := { s.mem.writeHost b.rec_.toNat (body ++ s.signature body) with leaves := s.mem.leaves + 1 }
                     cfg := { s.cfg with sec := { s.cfg.sec with signExhausted := s.cfg.sec.signExhausted || decide (2 ^ 20 ≤ s.mem.leaves + 1) } } })) ∧
  ∀ s : State, s.power.stage ≠ .off →
    let sec := { s.cfg.sec with tamper := true }
    (s.cfg.eraseEn = false → exec .tamperAlarm s = .next { s with cfg := { s.cfg with sec := sec } }) ∧
    (s.cfg.eraseEn = true → ∃ t, exec .tamperAlarm s = .next t ∧
      t = { s with cfg := { s.cfg with erased := true, sec := { sec with keysErased := true } }, mem := { s.mem with keyGen := t.mem.keyGen }
                   worlds := t.worlds, ctxs := t.ctxs, eng := { s.eng with cmds := t.eng.cmds } } ∧
      (∀ w : BitVec 6, t.mem.genOf w = s.mem.genOf w + 1) ∧
      (∀ k, (t.world k).key1 = false ∧ (t.world k).key2 = false ∧ (t.world k).kem = false ∧ (t.world k).live = (s.world k).live) ∧
      (∀ c, (s.ctx c).live = true → (t.ctx c).halt.any (fun h => h.tamper && h.saved) = true) ∧
      ∀ c, (s.ctx c).live = false → t.ctx c = s.ctx c)

/-- R64, R69, R127, R128, R132: a line of a context that is read gives its bytes, or fails where a sector is poisoned or the tag fails; a line written takes
the bytes and the writer's tag and is good again. A page of 64 lines is read and written line by line, up to the first failure. That such a
read fails on poison or a failed tag, with no rule that names these units, is the model's choice (log 23). -/
def LinesMoved : Prop :=
  (∀ (s : State) (c va : Nat) (x : Target) (k a : Nat) (w : BitVec 6) (m : BitVec 2), LineAt s x k a w m → s.input.hits = [] →
    ((∀ j < 64, s.mem.poisoned (k + j) = false) → s.mem.tagOk k a w m = true → (∀ j < 64, s.mixed (a + j) = false) →
      s.fetchLine c va x = { s := s, bytes := some ((List.range 64).map fun j => s.mem.get (k + j)) }) ∧
    ((∃ j < 64, s.mem.poisoned (k + j) = true) ∨ s.mem.tagOk k a w m = false →
      (s.fetchLine c va x).bytes = none ∧ NoAccess s (s.fetchLine c va x).s) ∧
    ∀ bs : List Byte, bs.length = 64 → (s.sendLine c va x bs).ok = true ∧ LinePut s (s.sendLine c va x bs).s k a w m bs) ∧
  ∀ (s : State) (c va : Nat) (x : Target) (bs : List Byte),
    (∀ st : Nat → State, st 0 = s → (∀ i, st (i + 1) = ((st i).fetchLine c (va + 64 * i) (x.plus (64 * i))).s) →
      let line (i : Nat) := ((st i).fetchLine c (va + 64 * i) (x.plus (64 * i))).bytes
      (∀ n < 64, (∀ i < n, line i ≠ none) → line n = none → s.getChunk c va x = { s := st (n + 1) }) ∧
      ((∀ i < 64, line i ≠ none) → s.getChunk c va x = { s := st 64, bytes := some ((List.range 64).flatMap fun i => (line i).getD []) })) ∧
    ∀ st : Nat → State, st 0 = s → (∀ i, st (i + 1) = ((st i).sendLine c (va + 64 * i) (x.plus (64 * i)) ((bs.drop (64 * i)).take 64)).s) →
      let ok (i : Nat) := ((st i).sendLine c (va + 64 * i) (x.plus (64 * i)) ((bs.drop (64 * i)).take 64)).ok
      (∀ n < 64, (∀ i < n, ok i = true) → ok n = false → s.putChunk c va x bs = { s := st (n + 1), ok := false }) ∧
      ((∀ i < 64, ok i = true) → s.putChunk c va x bs = { s := st 64 })

/-- R47, R113, R126, R129, R133, R134: SCRUB: DENIED with every leaf spent; ADDR_BAD where its list, its receipt's place or a range cannot be used;
METHOD 0 and 2 write zero line by line; METHOD 1 and 2 retire the granules in world 0 and destroy a tenant world; the count rises, a leaf
is spent, and the signed receipt of the world, METHOD, count and ranges is stored at RECEIPT_VA (whole granules, layout: logs 48, 49). -/
def Scrubs : Prop :=
  PacketReaches .scrub 16 (fun y q c p t =>
    let n := pnum p 16 4
    let method := pnum p 20 1
    let world := (y.ctx c).world
    let list := y.readVa c (pnum p 8 8) (16 * n)
    (2 ^ 20 ≤ y.mem.leaves → Completed y t q p 6 0) ∧
    (y.mem.leaves < 2 ^ 20 → list.bytes = none → Completed list.s t q p 2 0) ∧
    (y.mem.leaves < 2 ^ 20 → ∀ l ranges bs, list.bytes = some l → RangesOf l n ranges →
      ReceiptIs list.s world method (list.s.mem.scrubs.toNat + 1) (ranges.flatMap (list.s.localParts c)) bs →
      let r := list.s.scrubbed c method ranges
      (list.s.canWrite c (pnum p 24 8) bs.length = false → Completed list.s t q p 2 0) ∧
      (list.s.canWrite c (pnum p 24 8) bs.length = true → r.2 ≠ 0 → Completed r.1 t q p r.2 0) ∧
      (list.s.canWrite c (pnum p 24 8) bs.length = true → r.2 = 0 → ∃ m,
        m = { r.1 with mem := { r.1.mem with scrubs := r.1.mem.scrubs + 1, leaves := r.1.mem.leaves + 1 }
                       cfg := { r.1.cfg with sec := { r.1.cfg.sec with
                         signExhausted := r.1.cfg.sec.signExhausted || decide (2 ^ 20 ≤ r.1.mem.leaves + 1) } } } ∧
        let w := m.putVa c (pnum p 24 8) bs
        (w.ok = false → Completed w.s t q p 2 0) ∧
        (w.ok = true → method = 0 ∨ (w.s.ctx c).world = 0 → Completed w.s t q p 0 0) ∧
        (w.ok = true → method ≠ 0 → (w.s.ctx c).world ≠ 0 →
          t = { w.s with ctxs := t.ctxs, eng := { w.s.eng with
            nextId := w.s.eng.nextId + 1
            cmds := w.s.eng.cmds ++ [{ id := w.s.eng.nextId, kind := .scrub, ctx := BitVec.ofNat 12 c, queue := some (BitVec.ofNat 10 q, p) }] } } ∧
          (∀ d, InWorld w.s (w.s.ctx c).world.toNat d → (t.ctx d).halt.any (fun h => h.tamper && h.saved) = true))))) ∧
  (∀ (s : State) (c method : Nat) (ranges : List (Nat × Nat)) (parts : List (List (Nat × Nat))),
    parts.length = ranges.length → (∀ (i : Nat) (r : Nat × Nat) (p : List (Nat × Nat)), ranges[i]? = some r → parts[i]? = some p → LineParts r.1 r.2 p) →
    ∀ w : Nat → State, w 0 = s → (∀ (j : Nat) (p : Nat × Nat), parts.flatten[j]? = some p → w (j + 1) = (w j).walkFor c p.1) →
    let ok := ∀ (j : Nat) (p : Nat × Nat), parts.flatten[j]? = some p → (w (j + 1)).scrubLead c p.1 ≠ none
    let y := w parts.flatten.length
    let z := (ranges.zip parts).foldl (fun r x => x.2.foldl (State.scrubPart c x.1) r) { s := y }
    (¬ok → ∃ x, NoAccess s x ∧ s.scrubbed c method ranges = (x, 2)) ∧
    (ok → method = 0 → s.scrubbed c method ranges = (z.s, if z.ok then 0 else 2)) ∧
    (ok → method = 1 → s.scrubbed c method ranges = y.scrubKeys c ranges) ∧
    (ok → method = 2 → s.scrubbed c method ranges = if z.ok then z.s.scrubKeys c ranges else (z.s, 2))) ∧
  (∀ (s : State) (c : Nat) (g p : Nat × Nat) (tr : Trans) (w : BitVec 6) (m : BitVec 2), s.scrubLead c p.1 = some tr → s.input.hits = [] →
    (∀ k a, p.2 = 64 → LineAt s (s.targetOf tr p.1) k a w m →
      ∃ t, State.scrubPart c g { s := s } p = { s := t } ∧ LinePut s t k a w m (List.replicate 64 0)) ∧
    ∀ (a : Nat) (i : BitVec 3), 0 < p.2 → p.1 % 64 + p.2 ≤ 64 → p.2 < 64 → s.targetOf tr p.1 = .here a i w m → a % 64 = p.1 % 64 → MemByte a →
      (∀ j < p.2, Clean s i w m (a + j)) → ∃ t, State.scrubPart c g { s := s } p = { s := t } ∧
        t = { s with mem := { s.mem with cells := t.mem.cells, lines := t.mem.lines } } ∧
        ∀ k, t.mem.get k = if s.place i.toNat a ≤ k ∧ k < s.place i.toNat a + p.2 then 0 else s.mem.get k) ∧
  (∀ (s : State) (c : Nat) (ranges : List (Nat × Nat)),
    ((s.ctx c).world ≠ 0 → s.scrubKeys c ranges = (s, 0)) ∧
    ((s.ctx c).world = 0 → s.rangeGranules c ranges = none → s.scrubKeys c ranges = (s, 2)) ∧
    ∀ gs, (s.ctx c).world = 0 → s.rangeGranules c ranges = some gs →
      ((∃ g ∈ gs, (s.mem.tensorAt g.addr).high = 0xFFFFFFFF) → s.scrubKeys c ranges = (s, 6)) ∧
      ((∀ g ∈ gs, (s.mem.tensorAt g.addr).high ≠ 0xFFFFFFFF) →
        s.scrubKeys c ranges = (gs.foldl (fun st g => st.zeroGranule st.mem.retired g) s, 0))) ∧
  ∀ (s : State) (k : Cmd), s.eng.cmds.find? (fun c => c.id == s.input.num) = some k → k.kind = .scrub → s.input.hits = [] →
    let w := (s.ctx k.ctx.toNat).world
    (∀ c ∈ s.worldContexts w.toNat, s.subtreeQuiet c = true) → ∃ t, TakesPlace .revokeComplete s t ∧ t.world w.toNat = {} ∧
      t.mem.genOf w = s.mem.genOf w + 1 ∧ ∀ c, InWorld s w.toNat c → (s.ctx c).level = 0 → BackInWorldZero t c

/-- R36, R45 to R49, R131, R133, R135: a key that firmware agreed for a link that asked spends a leaf and stands ready, or lets an exhausted direction
resume from the packet held; with every leaf spent there is none. A tag failure counts; the eighth in a row takes the link out of service, on
either side; a retransmission of any packet sent takes fresh counter values, or is held. -/
def Links : Prop :=
  ∀ s : State,
    let i := s.input.link.toNat
    let l := s.link i
    let serves := l.state = 2 ∨ l.state = 3
    (serves → l.asked = true → l.next = false → 2 ^ 20 ≤ s.mem.leaves → exec .linkKeyInstalled s = .refused .noOccasion) ∧
    (serves → l.asked = true → l.next = false → s.mem.leaves < 2 ^ 20 → ∃ y t, exec .linkKeyInstalled s = .next t ∧
      y = { s with
        mem := { s.mem with leaves := s.mem.leaves + 1 }
        cfg := { s.cfg with sec := { s.cfg.sec with signExhausted := s.cfg.sec.signExhausted || decide (2 ^ 20 ≤ s.mem.leaves + 1) } } } ∧
      (l.state = 2 → OnlyLink y t i { l with next := true, rxNext := true, asked := false }) ∧
      (l.state = 3 → ∃ m, OnlyLink y t i m ∧ Resumed l m)) ∧
    (serves → l.rxFails < 8 → ∃ t, exec .linkTagFailure s = .next t ∧ OnlyLink s t i { l with rxFails := l.rxFails + 1 }) ∧
    (serves → 8 ≤ l.rxFails → ∃ t, exec .linkFailed s = .next t ∧ LinkLost s t i) ∧
    (∀ p, serves → l.sent[s.input.num]? = some p → l.txFails < 7 → ∃ m t, exec .retransmissionRequest s = .next t ∧ OnlyLink s t i m ∧
      Queued (keyed { l with txFails := l.txFails + 1 } s.input.flag) m p) ∧
    (∀ p, serves → l.sent[s.input.num]? = some p → 7 ≤ l.txFails → ∃ y t, exec .retransmissionRequest s = .next t ∧
      OnlyLink s y i { l with txFails := 8 } ∧ LinkLost y t i)

/-- R30 to R40, R45 to R48, R69, R106, R214, R306, R314: REMOTE_REQUEST_SEND, in its order and behind no access to the same bytes, sends a part with all that travel
with it as one request on the link of its slot, when it is its context's turn there and no lost packet goes first, or finds the key
exhausted; with the fabric disabled it is a miss of KIND 3. REMOTE_ACK of a packet brings its parts, loads and atomics among them, their bytes, or the
failure of its data, which zeroes the lanes that it touches and stops the context. REMOTE_MISS_REPLY and UNDELIVERABLE make it a remote miss. A packet
is taken up on a link in service whose tags have not failed for good, with the fabric enabled and keys present. -/
def RemoteRequests : Prop :=
  ∀ (s : State) (tm : Team) (earlier later : List MemReq) (r : MemReq) (u : MemUnit) (d : BitVec 12) (a : Nat),
    Afar s tm earlier r later u d a →
    let n := s.input.unit
    let v := tm.warp n.warp
    let c := s.ctxOf tm
    let i := s.planeOf a
    let k := keyed (s.link i) s.input.flag
    let starts (z : MemUnit) := Travels r d a z ∧ z.sent = false
    let answered (z : MemUnit) := Travels r d a z ∧ z.sent = true
    let l := s.link s.input.link.toNat
    let takes := s.fabric.enable = true ∧ s.cfg.erased = false ∧ (l.state = 2 ∨ l.state = 3) ∧ l.rxFails < 8
    let heard (z : State) := ∃ y, OnlyLink s y s.input.link.toNat { l with rxFails := 0, rxNext := l.rxNext && !s.input.newKey } ∧
      OnlyLink y z i { y.link i with txFails := 0 }
    (u.sent = false → InOrder earlier r → (∀ z ∈ r.units, starts z → ¬Behind s earlier z) →
      (s.fabric.enable = false → ∃ t, exec .remoteRequestSend s = .next (t.after n.team n.warp) ∧ SourceMiss s t tm r d a 3 starts) ∧
      (s.fabric.enable = true → (s.link i).state = 2 → (s.link i).rxFails < 8 → (s.link i).held = [] → c < 4096 →
        (∀ m ∈ s.resends i, ∃ n, u.seq = some n ∧ n ≤ m) →
        ∃ ports, Refreshed s.eng.ports ports i (s.rivalsOn i) ∧ (PortGoesTo ports i (s.rivalsOn i) c →
          ∃ t q, exec .remoteRequestSend s = .next t ∧ RequestIs s tm r u a starts q ∧
            (¬Fits k (flitsOf q) → t.teams = s.teams ∧ t.link i = { k with state := 3 } ∧ t.fabric.nextSeq = s.fabric.nextSeq) ∧
            (Fits k (flitsOf q) →
              t.link i = { k with
                tx := k.tx + BitVec.ofNat 48 (flitsOf q), sent := freshened k { flits := flitsOf q, body := .request q } :: k.sent, switched := false } ∧
              (∀ m, m ≠ i → t.link m = s.link m) ∧ PortCharged s ports t.eng.ports i c (flitsOf q) ∧
              t.fabric.nextSeq = s.fabric.nextSeq + (if u.seq = none then 1 else 0) ∧ t.mem = s.mem ∧
              (∀ j, j ≠ n.team → t.team? j = s.team? j) ∧ ∃ w, t.team? n.team = some { tm with warps := tm.warps.set n.warp w } ∧
              w = { v with mem := w.mem } ∧ Each (fun x y => if x.id = r.id then y = { x with units := y.units } ∧
                  (x = r → Each (fun z z' => (starts z → z' = { z with sent := true, seq := some q.seq }) ∧ (¬starts z → z' = z)) x.units y.units)
                else y = x) v.mem w.mem)))) ∧
    (u.sent = true → takes → ∃ z, heard z ∧
      ∀ (is : List Nat) os, is.Pairwise (· < ·) → (∀ j, j ∈ is ↔ ∃ x, r.units[j]? = some x ∧ answered x) → Brought r is s.input.ext os →
        let taken (bad : List Nat) (x : State) : Prop :=
          x = { z with teams := x.teams, freeCtr := s.freeCtr + 1 } ∧ (∀ k, k ≠ n.team → x.team? k = s.team? k) ∧
          ∃ w, x.team? n.team = some { tm with warps := tm.warps.set n.warp w } ∧ AnswerTaken r is bad os v w
        ((∀ cause, ¬ReportedFailure s.input.home cause) → ∃ x, exec .remoteAck s = .next (x.after n.team n.warp) ∧ taken [] x) ∧
        ∀ cause bad, ReportedFailure s.input.home cause → bad.Pairwise (· < ·) →
          (∀ j, j ∈ bad ↔ j ∈ is ∧ ∃ x, r.units[j]? = some x ∧ ¬PartSound s r x) →
          ∃ x t first, exec .remoteAck s = .next (t.after n.team n.warp) ∧ taken bad x ∧
            (bad = [] → first = u) ∧ (∀ b, bad.head? = some b → r.units[b]? = some first) ∧
            HaltRaised x t c (queuedRecord s tm r first cause) false (some n.team)) ∧
    (u.sent = true → takes → s.input.flag = false → ∃ z, heard z ∧
      (s.input.kind ≠ 3 → ∃ t, exec .remoteMissReply s = .next (t.after n.team n.warp) ∧ SourceMiss z t tm r d a s.input.kind answered) ∧
      ∃ t, exec .undeliverable s = .next (t.after n.team n.warp) ∧ SourceMiss z t tm r d a 3 answered)

/-- R81, R82, R90, R91, R105, R107 to R110, R114, R137, R138: LAUNCH reads its chain of records and makes a bundle whose teams wait for placement,
or fails; either way the gates it releases bind to it. CHILD_CREATE is DENIED, or makes a context of the next level with its slots, or finds no
number free. SET_SHARE sets a context's own weights, or those of a child, whose barred cores it frees. -/
def LaunchPackets : Prop :=
  PacketReaches .launch 1 (fun y q c p t =>
    let va := pnum p 8 8
    let mine (n : Nat) : Bool := (y.queue n).owner == some (BitVec.ofNat 12 c)
    let head := (y.readVa c va 256).bytes.getD []
    let num (off : Nat) : Nat := littleEndian ((head.drop off).take 2)
    let r := State.readChain c mine 4 [] va y
    let bound (x : Queue) (n : Nat) (ps : List (Nat × Nat)) : Prop := ∀ g < 16, Table.find g ps = if (num 0x4C).testBit g then some n else Table.find g x.producers
    (∀ st, r.2 = .error st → ∃ z ps, OnlyQueue r.1 z q { r.1.queue q with producers := ps } ∧ bound (r.1.queue q) 0 ps ∧
      Completed z t q p st 0) ∧
    (∀ ks, r.2 = .ok ks → ∃ ps bs,
      let b : Bundle :=
        { ctx := BitVec.ofNat 12 c, queue := BitVec.ofNat 10 q, index := p.index, tag := BitVec.ofNat 32 (pnum p 4 4), cpl := (pnum p 0 4).testBit 8
          ring := BitVec.ofNat 10 (num 0x4E), priority := littleEndian ((head.drop 0x3F).take 1), gateWait := BitVec.ofNat 16 (num 0x4A)
          gateRel := BitVec.ofNat 16 (num 0x4C), binds := bs, kernels := ks }
      t = { r.1 with queues := t.queues, eng := { r.1.eng with nextId := r.1.eng.nextId + 1 }, bundles := Table.put r.1.eng.nextId b r.1.bundles } ∧
      (∀ k, k ≠ q → t.queue k = r.1.queue k) ∧ t.queue q = { r.1.queue q with producers := ps } ∧ bound (r.1.queue q) (r.1.eng.nextId + 1) ps ∧
      ∀ g < 16, Table.find g bs = if (num 0x4A).testBit g then (match Table.find g (r.1.queue q).producers with | some (b + 1) => some b | _ => none) else none)) ∧
  PacketRuns .childCreate 7 (fun y q c p t =>
    let slot (k : Nat) : Prop := pnum p 24 4 % 2 ^ 10 ≤ k ∧ k < pnum p 24 4 % 2 ^ 10 + pnum p 24 4 / 2 ^ 10 % 2 ^ 11
    let first := pnum p 34 2
    let last := first + pnum p 36 2
    let range := (y.subtreeOf c).2
    let dev := y.fabric.deviceNum.toNat
    let denied := (∃ k, slot k ∧ (1024 ≤ k ∨ (y.queue k).owner ≠ some (BitVec.ofNat 12 c) ∨ (y.queue k).state ≠ .idle)) ∨
      (∃ x ∈ y.ctxs, x.2.live = true ∧ (y.subtreeOf x.1).1.toNat = pnum p 32 2) ∨ dev < first ∨ last ≤ dev ∨ first < range.1.toNat ∨
      range.1.toNat + range.2.toNat < last
    (denied → Completed y t q p 6 0) ∧
    (¬denied → (∀ n, 128 ≤ n → n < 4096 → (y.ctx n).live = true) → Completed y t q p 3 0) ∧
    (¬denied → ∀ n, 128 ≤ n → n < 4096 → (y.ctx n).live = false → (∀ m, 128 ≤ m → m < n → (y.ctx m).live = true) →
      ∃ z, z = { y with ctxs := z.ctxs, queues := z.queues } ∧ z.ctx n = childOf (y.ctx c) c p ∧ (∀ k, k ≠ n → z.ctx k = y.ctx k) ∧
        (∀ k, slot k → z.queue k = { owner := some (BitVec.ofNat 12 n), waiting := (y.queue k).waiting }) ∧ (∀ k, ¬slot k → z.queue k = y.queue k) ∧
        Completed z t q p 0 (BitVec.ofNat 128 n))) ∧
  PacketRuns .setShare 8 (fun y q c p t =>
    let d := pnum p 8 2
    let core := BitVec.ofNat 8 (pnum p 10 1)
    let link := BitVec.ofNat 8 (pnum p 11 1)
    (d = c → ∃ z, OnlyCtx y z c { y.ctx c with coreSelf := core, linkSelf := link } ∧ Completed z t q p 0 0) ∧
    (d ≠ c → ChildOf y c d → ∃ z, OnlyCtx y z d { y.ctx d with coreWeight := core, linkWeight := link, barred := [] } ∧ Completed z t q p 0 0) ∧
    (d ≠ c → ¬ChildOf y c d → Completed y t q p 6 0))

/-- R81, R137 to R139: a launch record is read, checked, and its arguments and copy schedule read, in that order, and the first failure met gives
the status; a chain of at most four records, none twice, gives a bundle's kernels. -/
def LaunchRecords : Prop :=
  (∀ (s : State) (c va : Nat) (first : Bool) (mine : Nat → Bool),
    let r := s.readVa c va 256
    (r.bytes = none → s.readRecord c first mine va = (r.s, .error 2)) ∧
    ∀ bs, r.bytes = some bs →
      let num (off n : Nat) : Nat := littleEndian ((bs.drop off).take n)
      (¬LaunchRecordOk bs first mine → s.readRecord c first mine va = (r.s, .error 1)) ∧
      (LaunchRecordOk bs first mine →
        let a := r.s.readVa c (num 0x18 8) (num 0x46 2)
        (a.bytes = none → s.readRecord c first mine va = (a.s, .error 2)) ∧
        ∀ ws, a.bytes = some ws →
          let e := a.s.readVa c (num 0x10 8) (64 * num 0x48 2)
          (e.bytes = none → s.readRecord c first mine va = (e.s, .error 2)) ∧
          ∀ es, e.bytes = some es →
            let early := (num 0x3B 1).testBit 0 = false ∧ ∃ i < num 0x48 2, littleEndian ((es.drop (64 * i)).take 2) = 0
            (early → s.readRecord c first mine va = (e.s, .error 1)) ∧
            (¬early → ∃ k, KernelOf bs ws es k ∧ s.readRecord c first mine va = (e.s, .ok (k, num 0x20 8))))) ∧
  ∀ (s : State) (c : Nat) (mine : Nat → Bool) (n va : Nat) (before : List Nat),
    (n = 0 ∨ va ∈ before → State.readChain c mine n before va s = (s, .error 1)) ∧
    (va ∉ before →
      let r := s.readRecord c (decide (before = [])) mine va
      (∀ st, r.2 = .error st → State.readChain c mine (n + 1) before va s = (r.1, .error st)) ∧
      (∀ k, r.2 = .ok (k, 0) → State.readChain c mine (n + 1) before va s = (r.1, .ok [k])) ∧
      ∀ k link, r.2 = .ok (k, link) → link ≠ 0 →
        let more := State.readChain c mine n (va :: before) link r.1
        (∀ st, more.2 = .error st → State.readChain c mine (n + 1) before va s = (more.1, .error st)) ∧
        ∀ ks, more.2 = .ok ks → State.readChain c mine (n + 1) before va s = (more.1, .ok (k :: ks)))

/-- R99, R102, R103, R111 to R118, R133, R207: the commands on a subtree are DENIED unless they name a child (or, for THAW, INVAL,
REVOKE and CHECKPOINT, the root itself); FREEZE and CHECKPOINT set their flag; THAW clears its flag and resumes a halted context; PREEMPT
asks the teams of the chosen cores to stop; INVAL forgets the translations of its range; REVOKE ends overlapping CHECKPOINTs, ABORTED, and stops
the subtree for good. With ALL, FREEZE, THAW and REVOKE go to the other devices of the range as well; the planes of those packets are the model's choice
(log 69), as are what THAW makes of saved teams (log 44) and the moments of CHECKPOINT's steps (log 18). -/
def SubtreeStarts : Prop :=
  PacketReaches .freeze 9 (fun y q c p t =>
    let d := pnum p 8 2
    (¬Commands y c d false → Completed y t q p 6 0) ∧
    (Commands y c d false → ∃ z, FlagsSet y z d (flagBit y c d) ∧ Began z t .freeze (forwarded y .freeze c d) c d q p)) ∧
  PacketReaches .thaw 10 (fun y q c p t =>
    let d := pnum p 8 2
    let z := y.thawHere d (if c = d then 0 else 1#4 <<< flagBit y c d)
    (¬Commands y c d true → Completed y t q p 6 0) ∧
    (Commands y c d true → (pnum p 10 1).testBit 0 = false → Completed z.1 t q p (if z.2 then 6 else 0) 0) ∧
    (Commands y c d true → (pnum p 10 1).testBit 0 = true →
      ∃ u, ForwardBegun z.1 u (forwarded y .thaw c d) c d q p z.2 ∧ t = u.settleForwards)) ∧
  PacketRuns .checkpoint 11 (fun y q c p t =>
    let d := pnum p 8 2
    (¬Commands y c d true → Completed y t q p 6 0) ∧
    (Commands y c d true → ∃ z, FlagsSet y z d (flagBit y c d) ∧
      t = joined z (.checkpoint ((y.ctx d).freeze.getLsbD (flagBit y c d)) false []) d (some (BitVec.ofNat 10 q, p)))) ∧
  PacketReaches .revoke 12 (fun y q c p t =>
    let d := pnum p 8 2
    (¬Commands y c d true → Completed y t q p 6 0) ∧
    (Commands y c d true → Began (y.beginRevoke d) t (.revoke (c == d)) (forwarded y .revoke c d) c d q p)) ∧
  (∀ (s : State) (d : Nat), (∀ k ∈ (s.beginRevoke d).eng.cmds, k ∈ s.eng.cmds) ∧
    (∀ k q p, OverlapsCheckpoint s d k → k.queue = some (q, p) → k ∉ (s.beginRevoke d).eng.cmds ∧
      ∃ r ∈ ((s.beginRevoke d).queue q.toNat).waiting, r.kind = 1 ∧ r.status = 4 ∧ r.index = p.index) ∧
    ∀ c ∈ s.subtree d, StoppedForGood (s.beginRevoke d) c) ∧
  PacketRuns .preempt 13 (fun y q c p t =>
    let d := pnum p 8 2
    let cores := (y.coresOf d).take (pnum p 12 2)
    (¬Commands y c d false → Completed y t q p 6 0) ∧
    (Commands y c d false → ∃ z, t = (joined z (.preempt cores) d (some (BitVec.ofNat 10 q, p))).settlePreempts ∧ z = { y with teams := z.teams, ctxs := z.ctxs } ∧
      (∀ k tm, y.team? k = some tm → z.team? k = some (if tm.place = .resident ∧ tm.ask = .none ∧ y.within d (y.ctxOf tm) = true ∧
          (∃ w ∈ tm.warps, w.core ∈ cores ∧ w.holdsPages = true) then { tm with ask := .preempt } else tm)) ∧
      (∀ k, k ≠ d → z.ctx k = y.ctx k) ∧ ((pnum p 10 1).testBit 0 = false → z.ctx d = y.ctx d) ∧
      ((pnum p 10 1).testBit 0 = true → z.ctx d = { y.ctx d with barred := (z.ctx d).barred } ∧ ∀ k, k ∈ (z.ctx d).barred ↔ k ∈ (y.ctx d).barred ∨ k ∈ cores))) ∧
  PacketRuns .inval 14 (fun y q c p t =>
    let d := pnum p 8 2
    (¬Commands y c d true → Completed y t q p 6 0) ∧
    (Commands y c d true →
      t = joined (y.forget d (pnum p 16 8) (pnum p 24 8)) (.inval (pnum p 16 8) (pnum p 24 8)) d (some (BitVec.ofNat 10 q, p)))) ∧
  ∀ (s : State) (d base pages : Nat), s.forget d base pages = { s with eng := { s.eng with castle := (s.forget d base pages).eng.castle } } ∧
    ∀ e, e ∈ (s.forget d base pages).eng.castle ↔ e ∈ s.eng.castle ∧
      ∀ x ∈ e.tr.deps, ¬(x.ctx = d ∧ (pages = 0 ∨ (base / 4096 < x.page + x.pages ∧ x.page < base / 4096 + pages)))

/-- R39, R112, R117, R203, R205: THAW clears its flag on every context of the subtree. A context not halted stays as it is; one halted for
REMOTE_PIN_MISS, or stopped for good, stays halted; one whose images all restore is halted no more, its teams that wait for no FAULT_DONE may
re-enter, and the images of the halt itself are freed; else it stays halted. -/
def Thaws : Prop :=
  ∀ (s : State) (d : Nat) (f : BitVec 4),
    let z := s.clearFlags d f
    s.thawHere d f = z.resume d ∧
    (∀ c, (c ∈ s.subtree d → (z.ctx c).freeze = (s.ctx c).freeze &&& ~~~f) ∧ (c ∉ s.subtree d → (z.ctx c).freeze = (s.ctx c).freeze)) ∧
    ((s.ctx d).halt = none → s.resume d = (s, false)) ∧
    ∀ h, (s.ctx d).halt = some h →
      let r := teamsRestore (s.teamsOf d) (s.headerOk d h)
      (h.fatal = true ∨ h.tamper = true → s.resume d = (s, true)) ∧
      (h.fatal = false → h.tamper = false → r.2 = false → s.resume d = (r.1, true)) ∧
      (h.fatal = false → h.tamper = false → r.2 = true → ∃ t, s.resume d = (t, false) ∧ (t.ctx d).halt = none ∧
        (∀ e ∈ h.extra, ∀ i ∈ (t.ctx d).images, i.1 ≠ e.1) ∧
        ∀ n tm, r.1.team? n = some tm → r.1.ctxOf tm = d → tm.fault = none →
          (∀ pos b x y, tm.place = .saved pos b x y → ∃ m, t.team? n = some { tm with place := .saved pos b true m }) ∧
          ((∀ pos b x y, tm.place ≠ .saved pos b x y) → t.team? n = some tm))

/-- R47, R103, R111, R113, R117 to R119, R133, R207: FREEZE ends when every warp of the subtree is still; INVAL when no access that used a covered
translation is pending; REVOKE when nothing of the subtree is under way, and leaves nothing of it. A CHECKPOINT whose subtree is still makes its copy,
thaws the subtree and later commits its manifest, COMMIT last in memory, or in one append in flash; each failure ends it with its status. The layout
of its staging area is the model's choice (log 14), as are the moments of its steps (log 18), what REVOKE leaves (log 45) and the place of Tempo's bytes
(log 47). -/
def SubtreeEnds : Prop :=
  (∀ (s : State) (k : Cmd), Names s k →
    let d := k.ctx.toNat
    let issuer (q : Slot) := ((s.queue q.toNat).owner.getD k.ctx).toNat
    (k.kind = .freeze → s.subtreeStill d = true → ∃ t, exec .freezeComplete s = .next t.settleForwards ∧ Ends (calm s) t k 0 0) ∧
    (∀ base pages, k.kind = .inval base pages → k.answer = none → s.coveredPending d base pages = false →
      ∃ t, exec .invalComplete s = .next t ∧ Ends ((s.forget d base pages).refreshSubtree d base pages) t k 0 0) ∧
    (∀ self, k.kind = .revoke self → s.subtreeQuiet d = true → ∃ y t, TakesPlace .revokeComplete s t.settleForwards ∧ Ends y t k 0 0 ∧
      (∀ q p, k.queue = some (q, p) → Destroyed s y d self (some q.toNat))) ∧
    (∀ frozen shards q p, k.kind = .checkpoint frozen false shards → k.queue = some (q, p) → k.answer = none → s.subtreeStill d = true →
      let c := (calm s).copyShards (issuer q) d p
      let z := if frozen then c.s else c.s.clearFlags d (if issuer q = d then 8 else 1#4 <<< (c.s.ctx (issuer q)).level.toNat)
      ∃ t, TakesPlace .freezeComplete s t ∧ (∀ st, c.res = .error st → Ends z t k st 0) ∧
        ∀ out, c.res = .ok out → t = { z with eng := { z.eng with
          cmds := z.eng.cmds.map fun x => if x.id = k.id then { x with kind := .checkpoint frozen true out } else x } }) ∧
    (∀ frozen shards q p, k.kind = .checkpoint frozen true shards → k.queue = some (q, p) → k.answer = none →
      (2 ^ 20 ≤ s.mem.leaves → ∃ t, exec .checkpointCommit s = .next t ∧ Ends (calm s) t k 6 0) ∧
      (s.mem.leaves < 2 ^ 20 → ∃ m bs t, m = { calm s with
          mem := { s.mem with leaves := s.mem.leaves + 1 }
          cfg := { s.cfg with sec := { s.cfg.sec with signExhausted := s.cfg.sec.signExhausted || decide (2 ^ 20 ≤ s.mem.leaves + 1) } } } ∧
        (∀ commit, ManifestIs s (pnum p 56 8) (s.subtreeOf d).1.toNat commit shards (bs commit)) ∧
        TakesPlace .checkpointCommit s t ∧
        let r := m.putManifest (issuer q) (pnum p 48 8) bs (pnum p 56 8) s.input.flag
        Ends r.s t k r.status 0))) ∧
  (∀ (s : State) (c va seq : Nat) (bs : Nat → List Byte) (full : Bool), (∀ tr, ¬FlashPage (s.walkFor c va) c va tr) →
    let first := s.tryWrite c va (bs 0)
    let commit := first.s.tryWrite c (va + 16) ((List.range 8).map fun j => BitVec.ofNat 8 (seq / 256 ^ j))
    (first.ok = false → s.putManifest c va bs seq full = { s := first.s, status := 2 }) ∧
    (first.ok = true → s.putManifest c va bs seq full = { s := commit.s, status := if commit.ok then 0 else 2 })) ∧
  (∀ (s : State) (c va seq : Nat) (bs : Nat → List Byte) (full : Bool) (tr : Trans) (pages : List (List Byte)) (n : Nat) (w : Nat → State),
    Walks s c va w → FlashPage (w 1) c va tr → pages.flatten = bs seq ++ List.replicate n 0 → n < 4096 → (∀ p ∈ pages, p.length = 4096) → pages ≠ [] →
    let flash := ∀ j < pages.length, ∃ x, FlashPage (w (j + 1)) c (va + 4096 * j) x
    let put := State.commitPages c va pages (w pages.length)
    (full = true → s.putManifest c va bs seq full = { s := w 1, status := 3 }) ∧
    (full = false → ¬flash → ∃ z, NoAccess s z ∧ s.putManifest c va bs seq full = { s := z, status := 2 }) ∧
    (full = false → flash →
      s.putManifest c va bs seq full = { s := { put with mem := { put.mem with appends := put.mem.appends + 1 } }, status := 0 })) ∧
  ∀ (s : State) (issuer d : Nat) (p : Packet),
    let n := pnum p 12 4
    let list := s.readVa issuer (pnum p 16 8) (16 * n)
    (list.bytes = none → s.copyShards issuer d p = { s := list.s, res := .error 2 }) ∧
    ∀ l rs (st : Nat → State), list.bytes = some l → RangesOf l n rs → st 0 = list.s →
      let got (j : Nat) := (st j).readVa d (rs.getD j (0, 0)).1 (rs.getD j (0, 0)).2
      (∀ j, st (j + 1) = (got j).s) →
      (∀ m < n, (∀ j < m, (got j).bytes ≠ none) → (got m).bytes = none → s.copyShards issuer d p = { s := st (m + 1), res := .error 2 }) ∧
      ((∀ j < n, (got j).bytes ≠ none) →
        let ranges := (List.range n).map fun j => (got j).bytes.getD []
        let i := (st n).copyImages d
        let images := i.bytes.getD []
        let all := ranges.flatten ++ images
        let stage := i.s.tryWrite issuer (pnum p 24 8) all
        let dest := stage.s.tryWrite issuer (pnum p 40 8) all
        (pnum p 32 8 < all.length → s.copyShards issuer d p = { s := i.s, res := .error 3 }) ∧
        (all.length ≤ pnum p 32 8 → stage.ok = false → s.copyShards issuer d p = { s := stage.s, res := .error 2 }) ∧
        (all.length ≤ pnum p 32 8 → stage.ok = true → dest.ok = false → s.copyShards issuer d p = { s := dest.s, res := .error 2 }) ∧
        (all.length ≤ pnum p 32 8 → stage.ok = true → dest.ok = true → ∃ shards, ShardsAre ranges images shards ∧
          s.copyShards issuer d p = { s := dest.s, res := .ok shards }))

/-- R81, R137, R140 to R143, R159, R165, R195: TEAM_PLACE seats the new team that comes next: its index, its warps at their cores, slots and lanes, its threads
at code offset 0 with their coordinates, its arguments in the uniform registers, every other register zero, PLY_LEFT full. Nothing else
changes but the bundle's turn, or, of a kernel with an entry stage, the release of stage 0. -/
def TeamPlacement : Prop :=
  ∀ (s : State) (b kn : Nat) (x : Seat) (bd : Bundle) (k : Kernel),
    s.nextSeat = some x → x.who = .new b kn → s.bundle? b = some bd → bd.kernels[kn]? = some k →
    let n := s.eng.nextId
    let lanes := 8 * 2 ^ k.width
    ∃ z tm bd', exec .teamPlace s = .next (if k.entryStage then z.releaseStage n 0 0 else z) ∧
      z = { s with stamp := s.stamp + 1, eng := { s.eng with nextId := n + 1 }, bundles := Table.put b bd' s.bundles, teams := Table.put n tm s.teams } ∧
      bd' = { bd with kernels := bd'.kernels, turn := (kn + 1) % bd.kernels.length } ∧ bd'.kernels = bd.kernels.set kn { k with nextTeam := k.nextTeam + 1 } ∧
      tm = { bundle := b, kernel := kn, index := k.nextTeam, core := x.core, tag := s.stamp, warps := tm.warps } ∧ tm.warps.length = x.bases.length ∧
      ∀ (j : Nat) (w : Warp), tm.warps[j]? = some w →
        w = { core := x.core + (k.seat j).1, slot := (k.seat j).2, base := x.bases.getD j 0, placed := s.stamp, pages := k.regPages, uni := w.uni
              threads := w.threads, plyLeft := k.ply, userTag := k.userTag } ∧
        (∀ r, w.uRaw r = k.args.getD r 0) ∧ w.threads.length = lanes ∧
        ∀ (l : Nat) (a : Thread), w.threads[l]? = some a →
          a = { lane := l, tx := (j * lanes + l) % k.teamX, ty := (j * lanes + l) / k.teamX % k.teamY, tz := (j * lanes + l) / (k.teamX * k.teamY) }

/-- R140, R142: of the contexts that have a team which fits, the placement with the lowest ratio of the context's resident warps on its core to E comes
next. A context that is frozen or halted places none; else its first re-entering team that fits, in the order of readiness; then new teams, of bundles by PRIORITY and age,
of each kernel in turn, by index. A team that does not fit holds back its kernel. -/
def PlacementOrder : Prop :=
  (∀ s : State, (∀ p ∈ s.ctxs, p.2.live = true → 0 < exactShare s .core p.1) →
    let ratio (x : Seat) : Rat := (residentOn s (fun c => c == x.ctx) x.core : Rat) / exactShare s .core x.ctx
    (s.nextSeat = none ↔ ∀ p ∈ s.ctxs, p.2.live = true → s.ctxSeat p.1 = none) ∧
    ∀ x, s.nextSeat = some x → (∃ p ∈ s.ctxs, p.2.live = true ∧ s.ctxSeat p.1 = some x) ∧
      ∀ p ∈ s.ctxs, p.2.live = true → ∀ y, s.ctxSeat p.1 = some y → ratio x < ratio y ∨ (ratio x = ratio y ∧ x.ctx ≤ y.ctx)) ∧
  ∀ (s : State) (c : Nat),
    let ready := s.readyTeams c
    let bundles := s.openBundles c
    let core (tm : Team) : Option (Nat × List Nat) := s.bestCore c (s.kernelOf tm) (tm.asks (s.kernelOf tm))
    let leads (l : List (Nat × Nat × Team)) (tm : Team) : Prop := ∀ y ∈ l, ¬(y.2.2.bundle = tm.bundle ∧ y.2.2.kernel = tm.kernel)
    let noneOf (l : List (Nat × Nat × Team)) : Prop := ∀ l1 y l2, l = l1 ++ y :: l2 → leads l1 y.2.2 → core y.2.2 = none
    let offers (p : Nat × Bundle) (kn : Nat) (k : Kernel) : Prop := p.2.kernels[kn]? = some k ∧ k.nextTeam < k.gridX * k.gridY * k.gridZ ∧
      ∀ y ∈ ready, ¬(y.2.2.bundle = p.1 ∧ y.2.2.kernel = kn)
    let stays := (s.ctx c).freeze ≠ 0 ∨ (s.ctx c).halt ≠ none ∨ s.cfg.erased = true
    (∀ y, y ∈ ready ↔ y.2 ∈ s.teams ∧ s.ctxOf y.2.2 = c ∧ ∃ p b, y.2.2.place = .saved p b true y.1) ∧ ready.Pairwise (fun a b => a.1 ≤ b.1) ∧
    (∀ p, p ∈ bundles ↔ p ∈ s.bundles ∧ p.2.ctx.toNat = c ∧ ∃ k ∈ p.2.kernels, k.nextTeam < k.gridX * k.gridY * k.gridZ) ∧
    bundles.Pairwise (fun a b => b.2.priority < a.2.priority ∨ (a.2.priority = b.2.priority ∧ a.1 ≤ b.1)) ∧
    (stays → s.ctxSeat c = none) ∧
    (¬stays → ∀ l since t tm r n bs, ready = l ++ (since, t, tm) :: r → noneOf l → leads l tm → core tm = some (n, bs) →
      s.ctxSeat c = some { who := .again t, ctx := c, core := n, bases := bs }) ∧
    (¬stays → noneOf ready →
      (∀ l p r i k n bs, bundles = l ++ p :: r → i < p.2.kernels.length →
        let kn (j : Nat) : Nat := (p.2.turn + j) % p.2.kernels.length
        offers p (kn i) k → s.bestCore c k k.asks = some (n, bs) → (∀ j < i, ∀ k', offers p (kn j) k' → s.bestCore c k' k'.asks = none) →
        (∀ p' ∈ l, ∀ m k', offers p' m k' → s.bestCore c k' k'.asks = none) →
        s.ctxSeat c = some { who := .new p.1 (kn i), ctx := c, core := n, bases := bs }) ∧
      ((∀ p ∈ bundles, ∀ m k, offers p m k → s.bestCore c k k.asks = none) → s.ctxSeat c = none))

/-- R114, R139, R141, R174: a team fits on a permitted core with its granules, accumulators and tile registers (sixteen each a core: log 28) free and a lane range
for each of its warps, of a pair on an even core and the next; of the cores where it fits it takes the one with the fewest resident warps, then
the lowest number. -/
def CoreChoice : Prop :=
  (∀ (k : Kernel) (n : Nat) (a : WarpAsk), k.asks[n]? = some a → (a.half, a.slot) = seatOf k n ∧ a.pages = k.regPages) ∧
  (∀ k : Kernel, k.asks.length = k.teamX * k.teamY * k.teamZ / (8 * 2 ^ k.width)) ∧
  (∀ (tm : Team) (k : Kernel) (n : Nat) (w : Warp), tm.warps[n]? = some w → ∃ a, (tm.asks k)[n]? = some a ∧ a.half = (seatOf k n).1 ∧ a.slot = w.slot ∧
    (Gone w → a.pages = 0) ∧ (¬Gone w → a.pages = w.pages)) ∧
  ∀ (s : State) (c : Nat) (k : Kernel) (asks : List WarpAsk),
    let load (core : Nat) : Nat := residentOn s (fun _ => true) core + if k.pair then residentOn s (fun _ => true) (core + 1) else 0
    (∀ core bs, s.fitsCore c k asks core = some bs ↔ FitsAt s c k asks core bs) ∧
    (s.bestCore c k asks = none ↔ ∀ core < 192, ∀ bs, ¬FitsAt s c k asks core bs) ∧
    ∀ core bs, s.bestCore c k asks = some (core, bs) ↔ core < 192 ∧ FitsAt s c k asks core bs ∧
      ∀ d < 192, ∀ ds, FitsAt s c k asks d ds → load core < load d ∨ (load core = load d ∧ core ≤ d)

/-- R86, R99, R120, R148 to R151, R155, R196 to R198, R203, R205: TEAM_IMAGE_COMMIT saves a still team that stops for a fault, or is asked to and has every
warp parked, where its image has room: the team holds its place in the save area, and a fault's record goes to the handler of the stage
that missed, naming the image. TEAM_REENTRY seats the saved team that comes next from its image, or halts its context with PARAM_BAD, unless the
reading of the image has halted it already; ENGINE_ID 0 in that record is the model's choice (log 25). -/
def TeamSaving : Prop :=
  (∀ (s s1 : State) (tm : Team) (pos : Nat),
    let n := s.input.team
    let c := s.ctxOf tm
    s.team? n = some tm → (s.ctx c).halt = none → s.teamStill n tm = true → (∃ w ∈ tm.warps, ∃ a ∈ w.threads, Left a) →
    (∀ cause, tm.place = .stopping cause → (calm s).saveTeam n tm true cause false s.input.pos = .ok (s1, pos) →
      TakesPlace .teamImageCommit s (State.after (match tm.fault with
        | some r => s1.reportMiss n r ((s.ctx c).areaVa pos)
        | none => s1) n 0)) ∧
    (tm.place = .resident → tm.ask = .preempt → (∀ w ∈ tm.warps, ∀ a ∈ w.threads, a.park ≠ .none ∧ a.park ≠ .exiting) →
      (calm s).saveTeam n tm false 0 true s.input.pos = .ok (s1, pos) → TakesPlace .teamImageCommit s (s1.after n 0))) ∧
  (∀ (s s1 : State) (n pos wish : Nat) (tm : Team) (full ready : Bool) (cause : BitVec 8), s.saveTeam n tm full cause ready wish = .ok (s1, pos) →
    let i := s.teamImage tm full cause
    let x := i.s.ctx (s.ctxOf tm)
    (∃ z, i.s.saveWrite (s.ctxOf tm) pos i.bytes = .ok z) ∧
    pos % 4096 = 0 ∧ 20 ≤ x.saveLog2.toNat ∧ x.saveLog2.toNat ≤ 40 ∧ pos + i.bytes.length ≤ 2 ^ x.saveLog2.toNat ∧
    (∀ e ∈ x.images ++ (x.halt.map Halt.extra).getD [], pos + i.bytes.length ≤ e.1 ∨ e.1 + e.2 ≤ pos) ∧
    ((∀ w ∈ tm.warps, ∀ b, w.zug ≠ some (pos, b)) → (pos, i.bytes.length) ∈ (s1.ctx (s.ctxOf tm)).images) ∧
    ∃ t, s1.team? n = some t ∧ t = { i.tm with place := .saved pos i.bytes.length ready s.stamp, ask := .none, warps := t.warps } ∧
      Each (fun v w => w = { v with hold := none, owes := w.owes, clearing := w.clearing, trailing := w.trailing } ∧
        (v.rsec = 0 → w.owes = false ∧ w.trailing = none) ∧ (v.rsec ≠ 0 → w.owes = v.owes ∧ w.trailing = v.trailing)) i.tm.warps t.warps) ∧
  (∀ (s : State) (n image : Nat) (r : HRec), let t := s.reportMiss n r image
    let m := r.ctx.toNat
    OnlyCtx s t m { s.ctx m with
      pending := (s.ctx m).pending ++ [{ seq := (s.ctx m).faultSeq, team := n }], faultSeq := (s.ctx m).faultSeq + 1
      hqWaiting := (s.ctx m).hqWaiting ++ [{ r with image := BitVec.ofNat 64 image, seq := (s.ctx m).faultSeq }] }) ∧
  ∀ (s : State) (tm : Team) (x : Seat) (pos bytes since : Nat) (ready : Bool),
    let n := s.input.team
    let r := (calm s).restored tm pos
    s.nextSeat = some x → s.team? n = some tm → x.who = .again n → tm.place = .saved pos bytes ready since →
    (∀ tm1, r.2 = some tm1 → ∃ z, TakesPlace .teamReentry s (z.after n 0) ∧
      OnlyTeam (({ r.1 with stamp := s.stamp + 1 } : State).freeImage (s.ctxOf tm) pos) z n { tm1 with
        core := x.core, place := .resident, ask := .none, fault := none, tag := s.stamp
        warps := (List.range tm1.warps.length).map fun j =>
          { tm1.warp j with core := x.core + (seatOf (s.kernelOf tm) j).1, base := x.bases.getD j 0, placed := s.stamp } }) ∧
    (r.2 = none → ∃ y t, TakesPlace .teamReentry s t ∧ OnlyTeam r.1 y n { tm with place := .saved pos bytes false s.stamp } ∧
      ((r.1.ctx (s.ctxOf tm)).halt ≠ none → t = y) ∧ ((r.1.ctx (s.ctxOf tm)).halt = none → HaltRaised y t (s.ctxOf tm) { engine := 0, cause := 13, team := BitVec.ofNat 32 tm.index, ctx := BitVec.ofNat 16 (s.ctxOf tm) } false (some n)))

/-- R193, R194, R196, R199 to R202: the image of a team is its header, one record for each warp, full or as its safe-point entry says, then its tile
registers, accumulators and dirty granules, all coded in blocks. -/
def ImageContents : Prop :=
  ∀ (s : State) (tm : Team) (full : Bool) (cause : BitVec 8),
    let k := s.kernelOf tm
    let i := s.teamImage tm full cause
    WellShaped k tm → ∃ (es : List (Option (Nat × SptEntry))) (recs : List (List Byte)) (rest : List Byte),
      EntriesRead (s.ctxOf tm) k full tm.warps s i.s es ∧
      i.tm = { tm with tileSaved := i.tm.tileSaved, accSaved := i.tm.accSaved, warps := i.tm.warps } ∧
      Each (fun v w => w = { v with zug := none, img := w.img }) tm.warps i.tm.warps ∧
      MaskSaved es k.tiles SptEntry.tiles i.tm.tileSaved ∧ MaskSaved es k.accs SptEntry.accs i.tm.accSaved ∧
      HeaderIs tm k (s.ctxOf tm) cause i.tm.tileSaved i.tm.accSaved (i.bytes.length - 128) i.bytes ∧ 128 ≤ i.bytes.length ∧
      recs.length = tm.warps.length ∧
      (∀ (n : Nat) (w : Warp) (e : Option (Nat × SptEntry)) (r : List Byte), tm.warps[n]? = some w → es[n]? = some e → recs[n]? = some r →
        RecordIs w n k tm.stage e r) ∧
      SectionsAre tm k i.tm.tileSaved i.tm.accSaved rest ∧ CodedAs (recs.flatten ++ rest) (i.bytes.drop 128)

/-- R200 to R205: a saved team whose image is as it was written comes back with every saved value: uniform and vector registers, predicates, arrivals, tile
registers, accumulators and scratchpad; what the image does not hold reads zero. An image with COMMIT other than 1 fails, as does a record with a PC that is not
a multiple of 4; a thread whose PC was edited starts there, unparked. -/
def ImageRestored : Prop :=
  (∀ (s : State) (tm u : Team) (full : Bool) (cause : BitVec 8) (es : List (Option (Nat × SptEntry))),
    let k := s.kernelOf tm
    let i := s.teamImage tm full cause
    let halves := if k.pair then 2 else 1
    WellShaped k tm → i.bytes.length < 2 ^ 32 → EntriesRead (s.ctxOf tm) k full tm.warps s i.s es →
    u = { i.tm with place := u.place, ask := u.ask, warps := u.warps } →
    Each (fun v w => w = { v with hold := none, owes := w.owes, clearing := w.clearing, trailing := w.trailing }) i.tm.warps u.warps →
    ∃ v, u.restore k i.bytes = some v ∧ v = { u with warps := v.warps, tiles := v.tiles, accs := v.accs, spm := v.spm } ∧
      (∀ h < halves, ∀ t < 16, v.tile h t = if i.tm.tileSaved.getLsbD t then tm.tile h t else 0) ∧
      (∀ h < halves, ∀ a < 16, ∀ j < 4096, v.acc h a j = if i.tm.accSaved.getLsbD a then tm.acc h a j else 0) ∧
      (∀ a, Sparse.get 0 a v.spm = if ∃ d ∈ tm.dirty, d.1 = a / 4096 then Sparse.get 0 a tm.spm else 0) ∧
      v.warps.length = u.warps.length ∧
      ∀ (n : Nat) (x y : Warp) (e : Option (Nat × SptEntry)), u.warps[n]? = some x → v.warps[n]? = some y → es[n]? = some e →
        y = { x with uni := y.uni, threads := y.threads, dyn := keptDyn x tm.stage, lastIssue := 0, overlooked := 0, lastSpt := none } ∧
        (∀ r < 128, y.uRaw r = if (keptUni e).getLsbD r then x.uRaw r else 0) ∧ Each (ThreadBack x e) x.threads y.threads) ∧
  (∀ (u : Team) (k : Kernel) (img : List Byte), numAt img 0x48 8 ≠ 1 → u.restore k img = none) ∧
  ∀ (w : Warp) (k : Kernel) (stage : Nat) (rec' : List Byte),
    ((∃ l < 8 * 2 ^ k.width, numAt rec' (0x40 + 8 * l) 4 % 4 ≠ 0) → w.restore k stage rec' = none) ∧
    ((∀ l < 8 * 2 ^ k.width, numAt rec' (0x40 + 8 * l) 4 % 4 = 0) → ∃ x, w.restore k stage rec' = some x ∧
      Each (fun a b => Left a → BitVec.ofNat 32 (numAt rec' (0x40 + 8 * a.lane) 4) ≠ a.pc →
        b.park = .none ∧ b.pc = BitVec.ofNat 32 (numAt rec' (0x40 + 8 * a.lane) 4) ∧ b.passed = a.passed) w.threads x.threads)

/-- R162, R163: MARKED_BRANCH_RENDEZVOUS of a team that all stands, with nothing outstanding, at one marked branch: in each exchange group the threads of a
lane fill its warps from the lowest number on in the order of their targets, each going on at its target; every other part of each warp
stays. The word at issue that is no instruction stops its warp with ILLEGAL_INSTRUCTION (R253). -/
def Rendezvous : Prop :=
  (∀ (s : State) (f : Focus), s.focus? = some f → ∃ t, exec .illegalInstruction s = .next t ∧ Stops f t 2 0 0 false) ∧
  ∀ (s : State) (tm : Team),
    let n := s.input.team
    let lanes := 8 * 2 ^ (s.kernelOf tm).width
    s.team? n = some tm → tm.meets.isSome = true → tm.idle = true → ¬StopStands s tm → (s.ctx (s.ctxOf tm)).halt = none →
    (∀ w ∈ tm.warps, (w.threads.map Thread.lane).Nodup) →
    ∃ y tm1 k, exec .markedBranchRendezvous s = .next (y.after n k) ∧ OnlyTeam s y n tm1 ∧ tm1 = { tm with warps := tm1.warps } ∧
      Each (fun v w => w = { v with threads := w.threads } ∧ (Gone v → w = v)) tm.warps tm1.warps ∧
      ∀ (j : Nat) (v w : Warp), tm.warps[j]? = some v → tm1.warps[j]? = some w → ¬Gone v →
        let group (x : Warp) : Prop := ¬Gone x ∧ x.core = v.core ∧ x.slot = v.slot ∧ x.base = v.base ∧ x.window = v.window ∧ x.pages = v.pages ∧ x.rsec = v.rsec
        (∀ b ∈ w.threads, b.lane < lanes ∧ ∃ x ∈ tm.warps, group x ∧ ∃ a ∈ x.threads, Left a ∧ b = { a with pc := a.target, park := .none }) ∧
        (∀ x ∈ tm.warps, group x → ∀ a ∈ x.threads, Left a → a.lane < lanes → ∃ (i : Nat) (x' w' : Warp), tm.warps[i]? = some x' ∧ group x' ∧
          tm1.warps[i]? = some w' ∧ { a with pc := a.target, park := .none } ∈ w'.threads) ∧
        ∀ (i : Nat) (x w' : Warp), i < j → tm.warps[i]? = some x → group x → tm1.warps[i]? = some w' → ∀ b ∈ w.threads,
          ∃ a ∈ w'.threads, a.lane = b.lane ∧ a.pc.toNat ≤ b.pc.toNat

/-- R164, R178, R185, R191: once a change of a warp is settled, no barrier phase of the team is over; then the team is deadlocked exactly where every thread left is parked at `bar` or at a
marked branch and no rendezvous can complete: TEAM_DEADLOCK is raised, naming the lowest warp with a parked thread and the pc of its
lowest lane. No check is made of a frozen, stopping or halted team. -/
def Deadlock : Prop :=
  (∀ (s : State) (n k : Nat) (tm : Team), s.team? n = some tm →
    let y := (((s.settleTeam n k).settleTempo (s.ctxOf tm)).wakeAll).serveAll
    s.after n k = ((y.checkDeadlock n).reap n).settlePreempts ∧
    ((∀ p b r x, tm.place ≠ .saved p b r x) → ∃ z, y.team? n = some z ∧ ∀ b < 16, ¬PhaseOver z b)) ∧
  ∀ (s : State) (n : Nat) (tm : Team), s.team? n = some tm →
    (¬Stuck tm ∨ StopStands s tm ∨ (s.ctx (s.ctxOf tm)).halt ≠ none → s.checkDeadlock n = s) ∧
    (Stuck tm → ¬StopStands s tm → (s.ctx (s.ctxOf tm)).halt = none → ∃ (j : Nat) (w : Warp), tm.warps[j]? = some w ∧ ¬Gone w ∧
      (∀ i < j, ∀ v, tm.warps[i]? = some v → Gone v) ∧ ∃ a ∈ w.threads, Left a ∧ (∀ b ∈ w.threads, Left b → a.lane ≤ b.lane) ∧
      HaltRaised s (s.checkDeadlock n) (s.ctxOf tm)
        { engineRecord 0 tm j (s.ctxOf tm) 0x0A (a.pc.setWidth 64) 0 with precise := true, warp := BitVec.ofNat 16 j } false (some n))

/-- R22, R52, R91, R95 to R99, R121: a translation composes one walk for each level: the root stage from ROOT_PTB over the entries that count as valid there; a
child's stage over tables that its parent's composed translation leads to, which must grant READ. The frame is the product, the page size the
least, READ, WRITE, EXEC and PIN the AND, all else the root's; a miss names the stage that misses. A walk of an address no translation of which is
cached leaves what its reads do: errors noted at their homes and packets to the devices of tables. That root tables are read under the plain pattern and
world 0's tags (log 7), that a failing word ends the walk (log 23), what counts as a valid root entry beyond the cases of R52 (log 61) and that each access
walks anew (log 68) are the model's choices. -/
def TranslationWalk : Prop :=
  (∀ (s : State) (n : Nat) (c : Ctx) (va : Nat),
    let here : Miss := { ctx := n, addr := va }
    (¬MemByte (c.ptb.toNat * 4096) → s.compose [(n, c)] va = .error here) ∧
    (MemByte (c.ptb.toNat * 4096) → ∃ q, StageWalk (s.rootTableWord here) s.rootEntryOk here va 5 (c.ptb.toNat * 4096) q ∧
      (∀ m, q = .error m → s.compose [(n, c)] va = .error m) ∧
      ∀ e a size, q = .ok (e, a, size) → ∃ ds, s.compose [(n, c)] va = .ok
        { dev := BitVec.ofNat 12 (a / 2 ^ 44), frame := a % 2 ^ 44 / 4096 * 4096, size := size, read := e.testBit 1, write := e.testBit 2
          exec := e.testBit 3, pin := e.testBit 4, flash := e.testBit 5, mx := e.testBit 6, inter := BitVec.ofNat 3 (e / 2 ^ 7)
          world := BitVec.ofNat 6 (e / 2 ^ 56), comp := BitVec.ofNat 2 (e / 2 ^ 62), deps := ds })) ∧
  (∀ (s : State) (n : Nat) (c : Ctx) (x : Nat × Ctx) (rest : List (Nat × Ctx)) (va : Nat),
    let here : Miss := { ctx := n, addr := va }
    ∃ q, StageWalk (fun a => s.childTableWord here (s.compose (x :: rest) a) a) (fun _ _ => true) here va 5 c.tableVa.toNat q ∧
      (∀ m, q = .error m → s.compose ((n, c) :: x :: rest) va = .error m) ∧
      ∀ e a size, q = .ok (e, a, size) →
        (∀ m, s.compose (x :: rest) (a % 2 ^ 56) = .error m → s.compose ((n, c) :: x :: rest) va = .error m) ∧
        ∀ t, s.compose (x :: rest) (a % 2 ^ 56) = .ok t → ∃ ds, s.compose ((n, c) :: x :: rest) va = .ok
          { t with size := min size t.size, read := t.read && e.testBit 1, write := t.write && e.testBit 2, exec := t.exec && e.testBit 3
                   pin := t.pin && e.testBit 4, deps := ds ++ t.deps }) ∧
  (∀ (s : State) (here : Miss) (a : Nat), TableWord s here 1 0 0 (a % 2 ^ 44) (s.rootTableWord here a)) ∧
  (∀ (s : State) (here : Miss) (a : Nat),
    (∀ m, s.childTableWord here (.error m) a = .error m) ∧
    ∀ t, (t.read = false → s.childTableWord here (.ok t) a = .error here) ∧
      (t.read = true → t.dev = s.fabric.deviceNum → TableWord s here t.inter t.world t.comp (t.frame + a % 4096) (s.childTableWord here (.ok t) a))) ∧
  (∀ (s : State) (e size : Nat), s.power.phase = 4 → (size = 0 ∨ size = 2 ^ 12 ∨ size = 2 ^ 16 ∨ size = 2 ^ 21 ∨ size = 2 ^ 30) →
    (s.rootEntryOk e size = true ↔ RootEntryOk s e size)) ∧
  ∀ (s : State) (c va : Nat),
    let w := s.walkFor c va
    (2 ^ 56 ≤ va ∨ s.cached c va ≠ [] ∨ ((s.ctx c).level = 0 ∧ s.input.hits = []) → w = s) ∧
    w = { s with
      mem := { s.mem with poison := w.mem.poison, lines := w.mem.lines }
      cfg := { s.cfg with memErr := w.cfg.memErr }
      fabric := { s.fabric with links := w.fabric.links, nextSeq := w.fabric.nextSeq }
      eng := { s.eng with ports := w.eng.ports }
      stall := w.stall } ∧
    (s.input.hits = [] → w.mem = s.mem ∧ w.cfg = s.cfg) ∧
    (s.fabric.enable = false → w.fabric = s.fabric ∧ w.eng = s.eng ∧ w.stall = s.stall)

/-- R109, R120, R122, R188, R191, R192: HALT_SAVE_COMPLETE of a halted context whose stores are drained and engines stopped, where its save area has room: every resident team is
saved with a full image, the images are chained from that of the team that holds the fault on, the first names the stop records, and a KIND 2 record waits for the handler queue of
the context, or of its root for a fault of a world rule. A save that fails waits, which is the model's choice (log 23). -/
def HaltRecords : Prop :=
  ∀ (s : State) (h : Halt),
    let c := s.input.ctx.toNat
    (s.ctx c).halt = some h → h.saved = false → h.tamper = false → s.drainedCtx c = true → s.enginesStopped c h = true →
    (∀ t, (calm s).saveHalt c h s.input.places = .ok t →
      HaltSaved (calm s) t c h ∧ TakesPlace .haltSaveComplete s ((t.settleTempo c).wakeAll.serveAll.settlePreempts)) ∧
    ∀ f, (calm s).saveHalt c h s.input.places = .error f → s.input.hits = [] → s.input.farHits = [] → s.input.refusing = [] →
      exec .haltSaveComplete s = .refused .noOccasion

/-- R188, R191, R207, R209, R331: TCE_ENTRY_COMPLETE of a released entry, in a context that is not halted: PARAM_BAD of an entry that breaks a rule; else its
beats are performed; a fault stops it at its beat, a beat that strikes a watchpoint raises WATCH after at most eight more, and a whole one completes the entry. -/
def EntryEvents : Prop :=
  ∀ (s : State) (o : TceOp) (tm : Team) (e : SchedEntry),
    let k := s.kernelOf tm
    let c := s.ctxOf tm
    let run := ({ calm s with freeCtr := s.freeCtr + 1 } : State).copyEntry tm c o e none true
    let rec' (cause : BitVec 8) (beat addr : Nat) : StopRec := engineRecord 1 tm o.warp c cause (entryBeat o.entry beat) (BitVec.ofNat 64 addr)
    s.eng.tce.find? (fun o => o.id == s.input.num) = some o → s.team? o.team = some tm → k.sched[o.entry]? = some e → (s.ctx c).halt = none →
    (∀ p b r n, tm.place ≠ .saved p b r n) →
    (e.bad k (o.src e) = true → ∃ t, exec .tceEntryComplete s = .next t ∧ HaltRaised (calm s) t c (rec' 13 0 0) false (some o.team)) ∧
    (e.bad k (o.src e) = false → run.1.fail = none → run.1.struck = none → TakesPlace .tceEntryComplete s (run.1.s.finishTce o e k.pair)) ∧
    (e.bad k (o.src e) = false → run.1.s.team? o.team = some tm → ∀ x, run.1.fail = some x → ∃ t, TakesPlace .tceEntryComplete s t ∧
      EngineFails (run.1.s.setBeats o.id run.1.done) t c (rec' x.cause run.1.done x.addr) x o.team) ∧
    (e.bad k (o.src e) = false → run.1.fail = none → ∀ m a, run.1.struck = some (m, a) → run.1.s.ctxOf tm = c →
      ∃ (more : Nat) (t : State) (tm1 : Team), more ≤ 8 ∧
        let r := (run.1.s.copyEntry tm c { o with beats := run.1.done } e (some more) false).1
        run.1.done ≤ r.done ∧ r.done ≤ run.1.done + more ∧ (r.s.team? o.team = some tm1 → tm1.bundle = tm.bundle →
          HaltRaised (r.s.setBeats o.id r.done) t c { rec' 16 (run.1.done - 1) a with byteMask := m, skid := BitVec.ofNat 8 (r.done - run.1.done) } false (some o.team)) ∧
        TakesPlace .tceEntryComplete s (match r.fail with
          | some x => Marked x t
          | none => if r.done = run.2 then t.finishTce o e k.pair else t))

/-- R66, R123, R183, R325 to R329, R331: an entry reads every element of its source and every scale; a read that fails ends it, and so does a refused gate copy, with no byte
written. Else each destination element has its place and its code or its addend from its source element, each block its scale, and
the beats of one 64-byte block each are performed in ascending order from the first not yet performed on. -/
def EntryCopies : Prop :=
  ∀ (s : State) (tm : Team) (c : Nat) (o : TceOp) (e : SchedEntry) (most : Option Nat) (watch : Bool),
    let src := e.src + o.dyn
    let r := s.copyEntry tm c o e most watch
    e.bad (s.kernelOf tm) src = false →
    ∃ (y : State) (bs : List (List Byte)) (f : Option EFault) (g : Except EFault Access),
      ReadsAll tm c (decide (src.toNat < 2 ^ 56)) (sidePieces e false src (srcFmt e)) s y bs f ∧ GateSays s c e src g ∧
      (∀ x, f = some x → r.1 = { s := y, done := o.beats, fail := some x }) ∧
      (f = none → ∀ x, g = .error x → r.1 = { s := y, done := o.beats, fail := some x }) ∧
      (f = none → ∀ k, g = .ok k → ∃ is beats, ItemsAre e src bs is ∧ BeatsAre is beats ∧ r.2 = beats.length ∧
        let todo := beats.drop o.beats
        BeatsRun c o.team k tm e watch (todo.take (most.getD todo.length)) y o.beats r.1)

/-- R174, R181, R187, R213, R225, R329, R330: a beat in this device's memory puts its items over the 64 bytes of its block in one step; in scratchpad over those of the team, or of each
live team that a multicast names; a team that is gone loses the beat, which is counted for its core. -/
def EntryBeats : Prop :=
  (∀ (s : State) (c b a : Nat) (k : Access) (F : Fmt) (is : List Item) (i : BitVec 3) (w : BitVec 6) (m : BitVec 2),
    let p := s.place i.toNat a
    (k = .store ∨ k = .gate) → is ≠ [] → (∀ d ∈ is, Inside F b d) → a % 64 = 0 → MemByte a → (∀ j < 64, Clean s i w m (a + j)) → s.input.hits = [] →
    LeadsTo s c k b a i w m →
    ∃ z new, s.memBeat c k F (b, is) = { s := z } ∧ ItemsPut F is (fun x => s.mem.get (p + (x - 64 * b))) new ∧
      BlockPut s z p a w m fun x => new (64 * b + x)) ∧
  (∀ (tm : Team) (F : Fmt) (b : Nat) (is : List Item), (∀ d ∈ is, Inside F b d) → ∃ new,
    ItemsPut F is (fun x => Sparse.get 0 x tm.spm) new ∧ (tm.spmBeat F (b, is)) = { tm with spm := (tm.spmBeat F (b, is)).spm, dirty := (tm.spmBeat F (b, is)).dirty } ∧
      ∀ x, Sparse.get 0 x (tm.spmBeat F (b, is)).spm = new x) ∧
  ∀ (s : State) (n : Nat) (tm t : Team) (k : Kernel) (F : Fmt) (b : Nat × List Item), s.team? n = some t →
    let lives := (∀ p x r y, t.place ≠ .saved p x r y) ∧ ∃ w ∈ t.warps, ¬Gone w
    (lives → OnlyTeam s (s.arrive n t k F b) n (t.spmBeat F b)) ∧
    (¬lives → ∃ z, s.arrive n t k F b = z ∧ z = { s with cfg := { s.cfg with discard := z.cfg.discard } } ∧
      let core := if k.pair ∧ k.spmBytes / 2 ≤ 64 * b.1 then t.core + 1 else t.core
      ∀ x, Sparse.get 0 x z.cfg.discard = if x = core then (if Sparse.get 0 core s.cfg.discard = 0xFFFFFFFF then 0xFFFFFFFF else Sparse.get 0 core s.cfg.discard + 1)
        else Sparse.get 0 x s.cfg.discard) ∧
    (∀ e : SchedEntry, e.kind ≠ 2 → s.spmBeats n tm e F b = s.arrive n t (s.kernelOf tm) F b) ∧
    (∀ (e : SchedEntry) (j q : Nat) (u : Team), e.kind = 2 → j < 32 → e.mcast = BitVec.ofNat 32 (2 ^ j) → s.mcastTeam tm j = some (q, u) →
      s.spmBeats n tm e F b = s.arrive q u (s.kernelOf tm) F b ∧ u.bundle = tm.bundle ∧ u.kernel = tm.kernel ∧ u.index = tm.index / 32 * 32 + j) ∧
    ∀ (e x y : SchedEntry) (j : Nat), e.kind = 2 → j < 32 → e.mcast.toNat < 2 ^ (j + 1) → 2 ^ j ≤ e.mcast.toNat →
      x = { e with mcast := e.mcast ^^^ BitVec.ofNat 32 (2 ^ j) } → y = { e with mcast := BitVec.ofNat 32 (2 ^ j) } →
      s.spmBeats n tm e F b = (s.spmBeats n tm x F b).spmBeats n tm y F b

/-- R172, R175, R327, R332, R338: a completed entry that wrote a scratchpad tile leaves its record in TILE_REG of the team, on both halves of a pair; a warp that has
not yet waited on the stage may still see the earlier one. The last entry of its stage lowers the token that each warp bound to the stage. -/
def StageEnds : Prop :=
  ∀ (s : State) (o : TceOp) (e : SchedEntry) (pair : Bool) (tm : Team),
    let tile := tiles e && decide (2 ^ 56 ≤ e.dst.toNat)
    let rest := s.eng.tce.filter fun x => x.id != o.id
    let last := ∀ x ∈ rest, ¬(x.team = o.team ∧ x.stage = o.stage)
    let bound (w : Warp) : List (BitVec 3) := (w.bound.filter fun b => b.1 == o.stage).map Prod.snd
    s.team? o.team = some tm → e.stage = o.stage → e.tileReg.toNat < 16 →
    ∃ (y : State) (z : Team), s.finishTce o e pair = y.after o.team o.warp ∧ y = { s with teams := y.teams, eng := { s.eng with tce := rest } } ∧
      (∀ n, n ≠ o.team → y.team? n = s.team? n) ∧ y.team? o.team = some z ∧ z = { tm with tiles := z.tiles, warps := z.warps } ∧
      (∀ h < 2, ∀ n < 16, ¬(tile = true ∧ n = e.tileReg.toNat ∧ (h = 0 ∨ pair = true)) → z.tile h n = tm.tile h n) ∧
      (tile = true → ∀ h < (if pair then 2 else 1), fieldsOf (z.tile h e.tileReg.toNat) =
        { base := e.dst.toNat % 2 ^ 56 / 64 % 2 ^ 16, rows := extent e true 1 % 2 ^ 8, kext := extent e true 0 % 2 ^ 12, fmt := dstFmt e, scale := e.scaleBase % 2 ^ 16
          band := e.band.toNat, valid := true, zero := 0 }) ∧
      Each (fun v w => w = { v with stale := w.stale, tokens := w.tokens, bound := w.bound } ∧
        w.stale = v.stale ++ (if tile then (bound v).map fun k => { tile := e.tileReg.toNat, old := tm.tile (tm.half v) e.tileReg.toNat, tok := k } else []) ∧
        (¬last → w.tokens = v.tokens ∧ w.bound = v.bound) ∧
        (last → w.tokens = v.tokens.mapIdx (fun i n => n - (bound v).countP fun k => k.toNat == i) ∧ w.bound = v.bound.filter fun b => b.1 != o.stage)) tm.warps z.warps

/-- R44, R172, R213, R224, R334, R335: `coll`, once the warp's earlier accesses are performed and its token has room, reads its block and starts one
instance of its group, bound to the token, and what its results will replace is noted; a block off its 64-byte boundary, or one that R334 refuses, is
PARAM_BAD, and a read that fails stops the context. -/
def CollIssue : Prop :=
  ∀ (h : Hdr) (a : Reg) (s : State) (f : Focus), Ready (.coll h a) h.s s f → f.wp.mem = [] → f.wp.tokens.getD h.g.toNat 0 < 63 →
    let va := sA64 f a
    ∃ y w, OnlyWarp f y w ∧ IssuedAs f { f.wp with tokens := raised h.g f.wp.tokens } w id ∧
      let r := y.engineRead f.ctx va 64 .load
      let group := numAt r.bytes 8 4
      let count := (Table.find group (r.s.ctx f.ctx).collCount).getD 0
      let Op (n : Nat) (bs : List Byte) (at' : Nat) (old : List (Option Byte)) : CleOp :=
        { id := r.s.eng.nextId, ctx := BitVec.ofNat 12 f.ctx, team := f.tid, warp := f.wn, tok := h.g, pc := f.pc
          userTag := f.wp.userTag, block := bs, inst := n, outAt := at', outOld := old }
      let started (z : State) (o : CleOp) : State := { z with eng := { z.eng with cle := z.eng.cle ++ [o], nextId := z.eng.nextId + 1 } }
      let bad (cause : BitVec 8) (at' : Nat) : StopRec := engineRecord 3 f.tm f.wn f.ctx cause (f.pc.setWidth 64) (BitVec.ofNat 64 at')
      (va % 64 ≠ 0 → ∃ t, exec (.coll h a) s = .next t ∧ HaltRaised (started r.s (Op 0 [] 0 [])) t f.ctx (bad 13 va) false (some f.tid)) ∧
      (va % 64 = 0 → ∀ x, r.fail = some x → r.s.team? f.tid = y.team? f.tid →
        ∃ t, exec (.coll h a) s = .next t ∧ EngineFails (started r.s (Op 0 [] 0 [])) t f.ctx (bad x.cause x.addr) x f.tid) ∧
      (va % 64 = 0 → r.fail = none → r.bytes.length = 64 → ∃ z b olds, OnlyCtx r.s z f.ctx { r.s.ctx f.ctx with
            collCount := Table.put group (count + 1) (r.s.ctx f.ctx).collCount } ∧ BlockIs r.bytes b ∧ collBlock r.bytes = b ∧
        (¬BlockBad z f.ctx b → OldNoted z f.ctx (outVa b) (outLen b * elemBytes b) olds ∧
          exec (.coll h a) s = .next (started z (Op count r.bytes (outVa b) olds))) ∧
        (BlockBad z f.ctx b → ∃ t, exec (.coll h a) s = .next t ∧
          HaltRaised (started z (Op count r.bytes 0 [])) t f.ctx (bad 13 va) false (some f.tid)))

/-- R30, R32, R35, R39 to R48, R172, R183, R188, R334 to R336, R354: COLL_COMPLETE of an operation whose block is bad or whose members' parameters do not agree is PARAM_BAD; with the fabric disabled and more than one
rank it is a miss of KIND 3. Else each outgoing element is read once, in order, and kept, and those that go to other ranks leave with their codes, a packet for
each batch; then what it receives is written, line by line, its token is lowered and it is done; a fault on the way halts with the progress kept. The batches,
and the plane of a packet, are the model's choice (log 69), as are PEER and LOCAL_ADDR of OSF_ERR with the fabric disabled (log 36). -/
def CollCompletes : Prop :=
  (∀ (b : CollBlock) (d : Nat), BatchesAre b d (b.batches d) ∧
    ∀ i g, b.leaves d (i :: g) = true ↔ b.ranks ≠ 1 ∧ goesTo b d i ≠ some d) ∧
  ∀ (s : State) (o : CleOp) (tm : Team),
    let b := collBlock o.block
    let c := o.ctx.toNat
    let rec' (cause : BitVec 8) (addr : Nat) : StopRec := engineRecord 3 tm o.warp c cause (o.pc.setWidth 64) (BitVec.ofNat 64 addr)
    s.eng.cle.find? (fun o => o.id == s.input.num) = some o → s.team? o.team = some tm → s.ctxOf tm = c → (s.ctx c).halt = none →
    (o.block = [] ∨ BlockBad s c b ∨ s.input.coll.agree = false →
      ∃ t, exec .collComplete s = .next t ∧ HaltRaised (calm s) t c (rec' 13 0) false (some o.team)) ∧
    ∀ d, o.block ≠ [] → ¬BlockBad s c b → s.input.coll.agree = true → d < b.ranks → s.fabric.deviceNum.toNat = b.first + d * b.stride →
      (1 < b.ranks → s.fabric.enable = false → ∃ t z, OsfNoted { calm s with freeCtr := s.freeCtr + 1 } z c
          (BitVec.ofNat 12 (b.first + (if d = 0 then 1 else 0) * b.stride)) 3 (b.buf % 2 ^ 44) ∧
        exec .collComplete s = .next t ∧ HaltRaised z t c (rec' 6 ((b.first + (if d = 0 then 1 else 0) * b.stride) * 2 ^ 44 + b.buf % 2 ^ 44)) false (some o.team)) ∧
      ((b.ranks = 1 ∨ (s.fabric.enable = true ∧ ({ calm s with freeCtr := s.freeCtr + 1 } : State).pinned c b.buf (bufLen b * elemBytes b) = true ∧
          (1 ≤ b.kind → b.kind ≤ 3 → ({ calm s with freeCtr := s.freeCtr + 1 } : State).pinned c b.dst (outLen b * elemBytes b) = true))) →
        (b.kind ≤ 1 → treeOf b.ranks s.input.coll.tree = true) →
        let start := ({ calm s with freeCtr := s.freeCtr + 1 } : State).dropCle o.id
        let spans := ((b.results d (fun _ _ => 0) (.leaf 0)).map fun x => (outVa b + x.1 * elemBytes b, elemBytes b))
        ∃ r : CollRun, TakesPlace .collComplete s (collEnd tm b spans r) ∧
          (∀ rs, o.left = some rs → r = writeResults (elemBytes b) (outVa b) (resultLines (elemBytes b) (outVa b) rs) { s := start, o := o }) ∧
          (o.left = none → ∃ x : CollRun, BatchesRun tm c b d (b.batches d) { s := start, o := o } x ∧ (x.fail ≠ none → r = x) ∧
            (x.fail = none → ∃ z, Heard start x.s z c ∧ r = writeResults (elemBytes b) (outVa b)
              (resultLines (elemBytes b) (outVa b) (collResults x.s x.o b d)) { s := z, o := x.o })))

/-- R41, R43, R44, R172, R188, R191, R209, R336, R354: the elements a participant receives are those of its kind: reductions over all ranks combined pairwise in the order of one tree (the
model's choice of one order: log 36), or elements moved bit for bit; they are written line by line, each byte as it is, but that where another agent has stored since the issue it
may be the byte of that store or of the issue as well (which of these is free: log 36); a struck watchpoint raises WATCH once all are written. -/
def CollDelivers : Prop :=
  (∀ (b : CollBlock) (d : Nat) (e : Nat → Nat → Nat) (t : CombTree), b.kind ≤ 5 → b.fmt ≤ 7 → 0 < b.count → (b.kind ≤ 1 → b.fmt ≤ 6) →
    (b.kind = 5 → (∃ x, b.count = 2 ^ x) ∧ 2 ^ b.lbit < b.count) → Receives b d e t (b.results d e t)) ∧
  (∀ (s : State) (o : CleOp) (b : CollBlock) (d : Nat),
    let e (r i : Nat) : Nat := if r = d then (((sentOf b d).zip o.taken).find? fun p => p.1 == i).elim 0 Prod.snd
      else numAt (s.input.coll.bufs.getD r []) (i * elemBytes b) (elemBytes b)
    let now := s.ownBytes o.ctx.toNat (outVa b, outLen b * elemBytes b)
    ∃ rs, rs = b.results d e s.input.coll.tree ∧ (collResults s o b d).length = rs.length ∧
      ∀ (j : Nat) (x y : Nat × Nat), rs[j]? = some x → (collResults s o b d)[j]? = some y → y.1 = x.1 ∧ y.2 < 256 ^ elemBytes b ∧
        ∀ k < elemBytes b, y.2 / 256 ^ k % 256 = x.2 / 256 ^ k % 256 ∨
          ∃ v old, now[x.1 * elemBytes b + k]? = some (some v) ∧ o.outOld[x.1 * elemBytes b + k]? = some (some old) ∧ v ≠ old ∧
            (y.2 / 256 ^ k % 256 = v.toNat ∨ y.2 / 256 ^ k % 256 = old.toNat)) ∧
  (∀ (size base : Nat) (ls : List (List (Nat × Nat))) (l : List (Nat × Nat)) (r : CollRun),
    writeResults size base [] r = { r with o := { r.o with left := some [] } } ∧
    let w := r.s.putResults r.o.ctx.toNat size base l
    (w.fail = none → writeResults size base (l :: ls) r = writeResults size base ls { r with s := w.s }) ∧
    ∀ x, w.fail = some x → writeResults size base (l :: ls) r = { s := w.s, o := { r.o with left := some (l ++ ls.flatten) }, fail := some x }) ∧
  (∀ (s : State) (c size base l a : Nat) (rs : List (Nat × Nat)) (i : BitVec 3) (w : BitVec 6) (m : BitVec 2),
    let p := s.place i.toNat a
    (size = 1 ∨ size = 2 ∨ size = 4) → rs ≠ [] → (rs.map Prod.fst).Nodup → (∀ x ∈ rs, 64 * l ≤ base + x.1 * size ∧ base + x.1 * size + size ≤ 64 * l + 64) →
    a % 64 = 0 → MemByte a → (∀ j < 64, Clean s i w m (a + j)) → s.input.hits = [] → LeadsTo s c .store l a i w m →
    ∃ z new, s.putResults c size base rs = { s := z } ∧ BlockPut s z p a w m new ∧
      (∀ x ∈ rs, ∀ k < size, new (base + x.1 * size + k - 64 * l) = BitVec.ofNat 8 (x.2 / 256 ^ k)) ∧
      ∀ j < 64, (∀ x ∈ rs, ¬(base + x.1 * size ≤ 64 * l + j ∧ 64 * l + j < base + x.1 * size + size)) → new j = s.mem.get (p + j)) ∧
  ∀ (tm : Team) (b : CollBlock) (spans : List (Nat × Nat)) (r : CollRun) (tm' : Team), r.s.team? r.o.team = some tm' → r.s.ctxOf tm' = r.o.ctx.toNat →
    let c := r.o.ctx.toNat
    let rec' (cause : BitVec 8) (addr : Nat) (m : BitVec 16) : StopRec :=
      { engineRecord 3 tm r.o.warp c cause (r.o.pc.setWidth 64) (BitVec.ofNat 64 addr) with byteMask := m }
    (∀ x, r.fail = some x → EngineFails (r.s.keepCle r.o) (collEnd tm b spans r) c (rec' x.cause x.addr 0) x r.o.team) ∧
    (r.fail = none → ∃ y z : State, collEnd tm b spans r = z.after r.o.team r.o.warp ∧
      ((∀ p ∈ (r.s.ctx c).watch, ∀ x ∈ spans, ∀ j < 16, ¬Hits p.2 .store x.1 x.2 j) → y = r.s) ∧
      (∀ p, FirstWith (fun q => ∃ x ∈ spans, ∃ j < 16, Hits q.2 .store x.1 x.2 j) (r.s.ctx c).watch p →
        ∃ m at', (∀ j < 16, m.getLsbD j = true ↔ ∃ x ∈ spans, Hits p.2 .store x.1 x.2 j) ∧ HaltRaised r.s y c (rec' 16 at' m) false (some r.o.team)) ∧
      z = { y with teams := z.teams, eng := { y.eng with cle := y.eng.cle.filter fun x => x.id != r.o.id } } ∧ (∀ n, n ≠ r.o.team → z.team? n = y.team? n) ∧
      z.team? r.o.team = some { tm' with warps := tm'.warps.set r.o.warp { tm'.warp r.o.warp with tokens := lowered r.o.tok (tm'.warp r.o.warp).tokens } })

/-- R144, R145: an issue opportunity of a slot of a core goes to the context with the lowest PASS, the lowest number on a tie, of those that
have a warp there that can issue; within it to the warp that goes first. With no such warp the opportunity passes. -/
def OpportunityGoesTo : Prop :=
  ∀ (q : State) (core slot : Nat),
    let pass (o : Offer) : Nat := (recordAt q.eng.disp core o.ctx).pass.toNat
    let here (o : Offer) : Prop := o ∈ q.offers core ∧ o.wp.slot = slot
    ((∀ o, ¬here o) → q.pickWarp core slot = none ∧ q.runIssue core slot = .next q) ∧
    ((∃ o, here o) → ∃ o, q.pickWarp core slot = some o ∧ here o ∧
      (∀ a, here a → pass o < pass a ∨ (pass o = pass a ∧ o.ctx ≤ a.ctx)) ∧ ∀ a, here a → a.ctx = o.ctx → ¬GoesBefore a o)

/-- R106, R107, R144: before each move waits that are over end, the link ports are brought up to date one after another, each warp takes note of
what its next instruction waits for, and the records of the dispatchers follow the contexts that have a warp that can issue on the core; nothing
else changes. A port follows the contexts with traffic queued on its link. A port gives its turn to the context with the lowest PASS, and an
event or issue that sends packets for one context through it needs that turn. That the answers queued leave then, and that a context waits for
4,096 steps, is the model's choice (log 70). -/
def RecordsFollow : Prop :=
  (∀ (s : State) (i c : Nat), c ∈ s.rivalsOn i ↔ c ∈ s.queuedOn i ∨ (∃ n, (i, c, n) ∈ s.eng.portWait) ∨ ∃ p, (c, p) ∈ (s.link i).answers) ∧
  (∀ s : State, UpToDate s s.upToDate ∧ ∃ x y z : State, UpToDate s x ∧ x = { s with teams := x.teams } ∧ PortsFollow (List.range 16) x y ∧
    z = { y with teams := z.teams } ∧ s.upToDate = { z with eng := { z.eng with disp := s.upToDate.eng.disp } } ∧
    ∀ core, Refreshed z.eng.disp s.upToDate.eng.disp core ((z.offers core).map Offer.ctx)) ∧
  ∀ (s t : State) (k : Nat), k < 16 →
    ((∀ c, ¬SentFor s t k c) → s.turnOn t k = true) ∧
    ∀ c, SentFor s t k c → (∀ d, SentFor s t k d → d = c) → (s.eng.ports.map Prod.fst).Nodup →
      let runs (d : Nat) : Prop := d < 4096 ∧ (passOf s.eng.ports k d).runnable = true
      let pass (d : Nat) : Nat := (passOf s.eng.ports k d).pass.toNat
      ∀ own, (runs c ∨ (∀ d, ¬runs d) → own = pass c) → (¬runs c → ∀ d, runs d → (∀ e, runs e → pass d ≤ pass e) → own = max (pass c) (pass d)) →
        (s.turnOn t k = true ↔ ∀ d, runs d → d ≠ c → own < pass d ∨ (own = pass d ∧ c < d))

/-- R105, R107: the effective weight of a context at dispatchers and link ports is E, from the share tables as they stand, rounded toward
zero to a 24-bit fraction, at least one unit. -/
def EffectiveWeights : Prop :=
  ∀ (s : State) (k : ShareOf) (n : Nat), (s.effWeight k n : Int) = max 1 (exactShare s k n * 2 ^ 24).floor

/-- R144 to R147: an opportunity that goes to a warp is charged to its context once, selects the warp's program counter and its active set, and
issues the instruction fetched for it; an instruction whose effect is confined to its warp issues for the packed warps as well, each as
it would alone. An issue whose packets have to wait does not take place, and the opportunity passes (R47, R106; log 70). -/
def OpportunityUsed : Prop :=
  ∀ (q : State) (core slot : Nat) (o : Offer), q.pickWarp core slot = some o →
    ∃ pc active x, AtIssue q x core slot o pc active ∧
      (∀ t, x.fetchAndDecode = .done t → ∃ r, q.runIssue core slot = .next r ∧ Used q t r fun z r => r = z) ∧
      ∀ i y, x.fetchAndDecode = .run i y → ∃ w, IssuedAt i y w ∧ ((∀ t, exec i w ≠ .next t) → q.runIssue core slot = exec i w) ∧
        ∀ t, exec i w = .next t → ∃ (r : State) (more : List (Offer × Word × List Nat)),
        q.runIssue core slot = .next r ∧ Used q t r (AlsoIssued i more) ∧
        (issuesAlone i = true ∨ q.input.pack = [] → more = []) ∧
        (∀ a ∈ more, PcChosen a.1.wp a.2.1 ∧ ActiveSet a.1.wp a.2.1 a.2.2 ∧ a.1 ∈ q.offers core ∧ a.1.wp.slot = slot ∧ a.1.ctx = o.ctx ∧
          (a.1.team, a.1.wn) ∈ q.input.pack) ∧
        ((o :: more.map Prod.fst).Pairwise (MayPack q))

/-- R8: right after main power is applied the registers that the spec gives a reset value hold it: the fabric is off with device number 0 and
slot i of the plane map i, the hash masks pair bits 8 to 13, TAMPER_CTL.ERASE_EN is 1, the power cap is 2,200 W, no queue, context, function, alias
window, watchpoint or bounce channel holds anything but zeros, no memory byte, tensor entry or full word is other than 0, and no team is placed. -/
def ResetValues : Prop :=
  let s := State.reset
  s.fabric.deviceNum = 0 ∧ s.fabric.enable = false ∧ (∀ (i : Nat), i < 16 → s.fabric.planeMap[i]? = some (BitVec.ofNat 4 i)) ∧
  s.cfg.hashMask = [0x100, 0x200, 0x400, 0x800, 0x1000, 0x2000] ∧ s.cfg.eraseEn = true ∧ s.cfg.sec = {} ∧ s.power.capW = 2200 ∧
  s.cfg.wWorld = 0 ∧ s.cfg.wComp = 0 ∧ s.cfg.wAddr = 0 ∧ s.cfg.wStatus = 0 ∧ s.cfg.wVfs = 0 ∧
  (∀ n, Sparse.get {} n s.cfg.vf = {} ∧ Sparse.get {} n s.cfg.aliases = {} ∧ Sparse.get {} n s.cfg.memErr = {} ∧ Sparse.get 0 n s.cfg.discard = 0) ∧
  (∀ n, s.queue n = {}) ∧
  (∀ n, s.ctx n = {}) ∧ (∀ k, s.mem.get k = 0) ∧ (∀ k, s.mem.tensorAt k = { id := 0, version := 0, high := 0 }) ∧ (∀ k, s.mem.isFull k = false) ∧
  (∀ k n, ∀ b ∈ s.mem.readHost k n, b = 0) ∧ s.teams = [] ∧ s.bundles = []

/-- The memory invariant at reset: memory lists nothing, so that it is in its one canonical form. -/
def ResetMemory : Prop := MemoryOk State.reset ∧ State.reset.mem.cells = []

end Sys2Proof.Claims

section

open Sys2Proof Sys2Proof.Machine Sys2Proof.Claims

/-- R265 to R270, R272 to R276, R280: The arithmetic vector instructions wherever they are ready: the destination of each taking
lane takes the result modulo 2^32 (2^64 in pairs), and nothing else changes but the accounting of the issue. The same for the
instructions whose result is told bit by bit: logic, shifts, carry-less products, bit fields, permutations, reversal. The same
for moves, selections, constants, identifiers and `clz`. -/
def Obligations.VectorIntegers : Prop := IntegerArithmetic ∧ IntegerBits ∧ MovesAndConstants

/-- R276, R278 to R280, R349: The uniform instructions write their uniform registers once when at least one thread takes part.
`scmp` writes the predicate of every thread of the warp that has not exited, when at least one thread takes part. `sysrd` writes
the special register's value before the issue: grid coordinates and sizes, warp, WIDTH, warps, core, die, device, context,
level, PLY_LEFT, ISSUE_COUNT, STAGE, WINDOW, ALLOC_PAGES, RSEC_DEPTH, argument bytes, USER_TAG. -/
def Obligations.UniformInstructions : Prop := UniformResults ∧ UniformCompare ∧ SpecialRegisters

/-- R271, R273, R277, R290, R291: The integer compares and the predicate functions write the destination predicate of the threads
that take part, and a write to p0 is discarded. The floating compares write the condition on the two numbers: −0 equals +0, and
a NaN is unordered with every value. -/
def Obligations.Compares : Prop := PredicateResults ∧ FloatCompares

/-- R217, R281, R315, R346, R349, R351: The instructions that change one field of the warp's record, when at least one thread takes
part: `nop` none, `rsb` and `rse` the depth of sections (at most 255, at least 0), `wbase` the window, `syswr` USER_TAG. `fence`
makes the warp's later memory instructions wait for the accesses before it: to be performed for rel and sc, to return for acq
and sc, besides what an earlier fence still waits for. -/
def Obligations.RecordInstructions : Prop := WarpFields ∧ Fences

/-- R245, R288, R289, R291 to R298: Every floating-point, packed, complex, error-free, unary and conversion instruction runs
wherever it is ready, whatever values it meets, and writes the word of its function in each taking lane; which words these are,
the statements on numbers below say. `fmin` and `fmax` return an operand bit for bit, the lesser or the greater with −0 below
+0; with one NaN the other operand, with two the canonical NaN. `fclass` writes the one bit of the operand's class. The special
cases of the seven functions: NaNs, infinities, zeros, operands below zero, and the exact cases that are whole numbers. -/
def Obligations.NumberInstructions : Prop := FloatResults ∧ FloatMinMax ∧ FloatClasses ∧ UnarySpecials

/-- R226, R227, R236: rounding to nearest gives, for each of the six formats and every finite value m × 2^e, the code nearest to
it, ties to the even code, and the infinity or the largest finite code beyond the range. -/
def Obligations.RoundToNearest : Prop :=
  ∀ F ∈ [Fmt.f32, Fmt.bf16, Fmt.f16, Fmt.e4m3, Fmt.e5m2, Fmt.e2m1], ∀ (neg : Bool) (m : Nat) (e : Int),
    Rounded F (.val neg ((m : Rat) * (2 : Rat) ^ e)) (F.rn (.fin neg m e))

/-- R234, R235, R288: `fadd`, `fsub`, `fmul` and `ffma` are the exact result rounded once, with the rules of NaNs, infinities and
signed zeros. -/
def Obligations.FloatArithmetic : Prop :=
  ∀ a b d : Word,
    Rounded32 ((num a).plus (num b)) (faddWord a b) ∧ Rounded32 ((num a).plus (num b).opp) (fsubWord a b) ∧
    Rounded32 ((num a).times (num b)) (fmulWord a b) ∧ Rounded32 (((num a).times (num b)).plus (num d)) (ffmaWord a b d)

/-- R292, R293: Each 16-bit element of a packed result is the exact result on the elements, rounded once to BF16 or FP16. Each part
of a complex result is exact and rounded once. -/
def Obligations.SingleRoundings : Prop := PackedArithmetic ∧ ComplexArithmetic

/-- R294: the even register of `twosum` and `twoprod` is the rounded result; the odd one is the error, exact for `twosum`, rounded
once for `twoprod`, and +0 when the result is not finite or the error is zero. -/
def Obligations.ErrorFree : Prop :=
  ∀ a b : Word,
    let s := part (twosumPair a b) 0
    let p := part (twoprodPair a b) 0
    Rounded32 ((num a).plus (num b)) s ∧ Rounded32 ((num a).times (num b)) p ∧
    (∀ x y n q, num a = .val x q → num b = .val y n → ∀ z r, num s = .val z r →
      ∃ w t, num (part (twosumPair a b) 1) = .val w t ∧ signed z r + signed w t = signed x q + signed y n ∧ (t = 0 → w = false)) ∧
    (∀ x y q r, (num a).times (num b) = .val x q → num p = .val y r →
      Rounded32 (ofRat false (signed x q - signed y r)) (part (twoprodPair a b) 1)) ∧
    ((∀ z r, num s ≠ .val z r) → part (twosumPair a b) 1 = 0) ∧ ((∀ z r, num p ≠ .val z r) → part (twoprodPair a b) 1 = 0)

/-- R239, R296, R298: The four roundings to an integer: a NaN gives the canonical NaN, an infinity, a zero and a magnitude of 2^23
or more are returned unchanged, and otherwise the result is the floor, the ceiling, the truncation or the nearest even integer,
a zero keeping the sign. The conversions: integers to FP32 rounded to nearest, FP32 to integers saturating with a NaN giving 0,
narrowing rounded to nearest, and widening exact. -/
def Obligations.IntegerRoundings : Prop := RoundingsToInteger ∧ Conversions

/-- R245: `frcp` and `fsqrt` are correctly rounded on every positive or negative finite operand they accept, and `frsq` is the true result or one of
the two FP32 values around it, which one being a free value. `fexp2`, `flog2`, `fsinp` and `fcosp` of a finite operand that is no exact case are
faithful: one of the two FP32 values adjacent to the true result, or to a number within 2^-90 of it in proportion, where no FP32 value tells the two
apart. Which neighbour a faithful result is, is free (log 13). The slack of 2^-90, within which a result may be adjacent to a number other than the
true one, is this statement's own weakening of R245. -/
def Obligations.ReciprocalAndRoot : Prop := ReciprocalsAndRoots ∧ FaithfulFunctions

/-- R264, R299 to R303: Each cross-lane read and each instruction of the groups PCOL, WRED and PFX runs wherever it is ready; when a
thread takes part its results, computed from the sources as read at issue, become outstanding, and no register changes yet. The
exact sum of `wred.fadd` is rounded once, whatever the order of the lanes. -/
def Obligations.CrossLane : Prop := CrossLaneResults ∧ ReductionRounded

/-- R170, R171: A read of a register yields its stored value where no result for it is outstanding and known, and otherwise that
value or one of the outstanding results, by a free choice of each read. RESULT_RETURN of a result whose every part is known
brings it to the registers named at issue, removes it from the outstanding ones, and marks the earlier outstanding results of
the same registers; then what waited for it goes on. -/
def Obligations.PendingResults : Prop := OutstandingReads ∧ ResultsReturn

/-- R162 to R164, R178, R185, R191, R282 to R284: `br`, `call` and `brx` send each thread that takes part to the target and every
other active one to the next instruction; `call` writes the offset of the next instruction to v127 of the window. At a marked
branch every active thread parks, with the target its guard chooses. MARKED_BRANCH_RENDEZVOUS of a team that all stands, with
nothing outstanding, at one marked branch: in each exchange group the threads of a lane fill its warps from the lowest number on
in the order of their targets, each going on at its target; every other part of each warp stays. The word at issue that is no
instruction stops its warp with ILLEGAL_INSTRUCTION (R253). Once a change of a warp is settled, no barrier phase of the team is
over; then the team is deadlocked exactly where every thread left is parked at `bar` or at a marked branch and no rendezvous can
complete: TEAM_DEADLOCK is raised, naming the lowest warp with a parked thread and the pc of its lowest lane. No check is made
of a frozen, stopping or halted team. -/
def Obligations.BranchesAndRendezvous : Prop := Branches ∧ MarkedBranches ∧ Rendezvous ∧ Deadlock

/-- R253, R165, R195: a core instruction that fails a decode check raises ILLEGAL_INSTRUCTION, one that names a register which does not
exist REG_RANGE, and any but `spt` with PLY_LEFT 0 SAFEPOINT_DISTANCE, in this order and with no effect of its own. -/
def Obligations.DecodeStops : Prop :=
  ∀ (i : Instr) (s : State) (f : Focus), isCore i = true → s.focus? = some f → Unhindered f →
    (i.wellFormed = false → ∃ t, exec i s = .next t ∧ Stops f t 2 0 0 false) ∧
    (i.wellFormed = true → f.regsOk i.uses = false → ∃ t, exec i s = .next t ∧ Stops f t 3 0 0 false) ∧
    (i.wellFormed = true → f.regsOk i.uses = true → f.wp.plyLeft = 0 → (∀ s' n, i ≠ .spt s' n) →
      ∃ t, exec i s = .next t ∧ Stops f t 9 0 0 false)

/-- R345: `trap n` raises cause 0x80 + n and `brk` BREAK, complete and precise: the issue counts and the threads go on, and the halt
line of the context is raised with a record at the instruction. -/
def Obligations.Traps : Prop :=
  ∀ (h : Hdr) (a : Reg) (s : State) (f : Focus), takes f h.g ≠ [] →
    (Ready (.trap h a) h.s s f → ∃ x w t, exec (.trap h a) s = .next t ∧ OnlyWarp f x w ∧ IssuedAs f f.wp w id ∧
      HaltRaised x t f.ctx (coreRecord f (BitVec.ofNat 8 (128 + a.toNat)) 0 0) false (some f.tid)) ∧
    (Ready (.brk h) h.s s f → ∃ x w t, exec (.brk h) s = .next t ∧ OnlyWarp f x w ∧ IssuedAs f f.wp w id ∧
      HaltRaised x t f.ctx (coreRecord f 15 0 0) false (some f.tid))

/-- R155, R264, R344: `exit` parks the threads that take part until their warp's results, tokens and stores are done; when none
takes part, it only counts. Threads that wait at `exit` exit once no variable-latency result is outstanding, every token holds 0
and no access is queued, unless a remote miss has lost an access of the warp (R39, log 31); a warp left without threads owes no
grace period. -/
def Obligations.Exits : Prop := ExitParks ∧ ExitsFinish

/-- R178, R316, R317: The three forms of `bar`, once the accesses they release are performed: the threads that take part arrive (but
for `bar.hold`), phases that are over complete, and those whose arrival still stands park (but for `bar.mark`). A barrier whose
phase is over inverts its phase bit and empties its set, and every other one is left alone. -/
def Obligations.BarrierPhases : Prop := Barriers ∧ PhaseCompletion

/-- R318 to R320: `gate` passes where the gate is open and parks the threads that take part where it is not; `dlrel` records the
gate for its warp once the accesses it releases are performed; both raise GATE_BAD where the bundle's mask has the bit clear,
whatever the guard. A team releases a gate once every warp it has left has executed `dlrel` for it. -/
def Obligations.GatesAndReleases : Prop := Gates ∧ GateReleases

/-- R172, R324, R338: `wait` makes the results of the tokens it names readable where they all hold 0, and parks the active threads
where they do not. -/
def Obligations.Waits : Prop :=
  ∀ (s' : Bool) (m : Byte) (s : State) (f : Focus), Ready (.wait s' m) s' s f →
    ((∀ k < 8, m.getLsbD k = true → f.wp.tokens.getD k 0 = 0) → ∃ t w, exec (.wait s' m) s = .next t ∧ OnlyWarp f t w ∧
      Counted f { f.wp with stale := f.wp.stale.filter fun x => !m.getLsbD x.tok.toNat } w ∧
      w.pend = (f.wp.pend.filter fun p => !(p.tok.any fun k => m.getLsbD k.toNat)) ∧
      (∀ r, Taken (covered f.wp m) r (f.wp.uRaw r) (w.uRaw r)) ∧ w.threads = f.wp.threads.map (wentOn f)) ∧
    ((∃ k < 8, m.getLsbD k = true ∧ f.wp.tokens.getD k 0 ≠ 0) → ∃ t w, exec (.wait s' m) s = .next t ∧ OnlyWarp f t w ∧
      IssuedAs f f.wp w (parkHere f f.active (.wait m)))

/-- R195, R196, R342, R348: `spt` issues with any PLY_LEFT, reloads it, and passes on at once while no stop request stands; under
one the active threads park behind it. A warp outside sections that owes a grace period and reaches the safe point whole, or
passes it, settles its debt once its earlier loads and atomics have returned. -/
def Obligations.SafePoints : Prop :=
  ∀ (s' : Bool) (i : BitVec 17) (s : State) (f : Focus), s.focus? = some f → (s' = true → f.wp.outstanding = false) →
    (¬StopStands s f.tm → ∃ x w v, exec (.spt s' i) s = .next (x.after f.tid f.wn) ∧ OnlyWarp f x w ∧ IssuedAs f f.wp v id ∧
      w = { v with plyLeft := f.k.ply, lastSpt := some i.toNat
                   clearing := if f.wp.rsec = 0 ∧ f.wp.owes = true then some f.wp.nextReq else f.wp.clearing }) ∧
    (StopStands s f.tm → ∃ x w v, exec (.spt s' i) s = .next (x.after f.tid f.wn) ∧ OnlyWarp f x w ∧
      IssuedAs f f.wp v (fun a => if a.lane ∈ f.active then { a with park := .spt i.toNat } else a) ∧
      w = { v with plyLeft := f.k.ply, lastSpt := some i.toNat
                   clearing := if f.wp.rsec = 0 ∧ f.wp.owes = true ∧ v.atSpt = true
                     then some f.wp.nextReq else f.wp.clearing })

/-- R154 to R156, R346 to R348: Taking the tag of a grace period: while one is in progress the next is asked for, and otherwise a period starts and
each warp of the context owes it unless it is quiescent. `gpw` inside a section is ILLEGAL_INSTRUCTION; outside one, once the earlier stores are
performed, it takes a tag and parks its threads. `dfree` takes a tag and queues each lane's address with it, and parks unissued while the
deferred-free queue has no room. That a `dfree` without room parks with its effect not issued is the model's choice (log 33). -/
def Obligations.TempoTags : Prop := GraceTags ∧ GracePeriods

/-- R152, R168, R350: `ralloc` beyond 32 pages is REG_GROW_IMPOSSIBLE; the one that follows a re-entry completes without growing;
any other parks with its request and the slot's parked warps are served. `rfree` of all pages or more is REG_RANGE; otherwise
the pages go, with the registers in them and the results that come to them, and the slot is served. A slot's parked warp is
served when every lane octet of its range has the pages free and none before it stays parked: of a slot whose one parked warp
fits, that warp grows and its threads go on. -/
def Obligations.RegisterAllocation : Prop := RegisterPages ∧ RegisterService

/-- R88, R89, R352: `cpost` posts a record of KIND 3 with the quad as its payload to the ring of its bundle, once the earlier
accesses are performed, and parks unissued while the ring has no room. -/
def Obligations.CompletionPosts : Prop :=
  ∀ (h : Hdr) (d : Reg) (s : State) (f : Focus) (b : Bundle), Ready (.cpost h d) h.s s f → takes f h.g ≠ [] → f.wp.mem = [] →
    s.bundle? f.tm.bundle = some b →
    (s.ringTakes b.ring.toNat (s.queue b.ring.toNat).waiting.length = true →
      ∃ x w t, exec (.cpost h d) s = .next t ∧ OnlyWarp f x w ∧ IssuedAs f f.wp w id ∧ t = { x with queues := t.queues } ∧
        (∀ q, q ≠ b.ring.toNat → t.queue q = s.queue q) ∧
        t.queue b.ring.toNat = { s.queue b.ring.toNat with waiting := (s.queue b.ring.toNat).waiting ++
          [{ kind := 3, status := 0, queue := b.queue, tag := b.tag, userTag := f.wp.userTag, index := b.index
             payload := f.u 4 (d.toNat + 3) ++ f.u 3 (d.toNat + 2) ++ f.u 2 (d.toNat + 1) ++ f.u 1 d.toNat, pkt := none }] }) ∧
    (s.ringTakes b.ring.toNat (s.queue b.ring.toNat).waiting.length = false →
      ∃ t, exec (.cpost h d) s = .next t ∧ OnlyTeam s t f.tid { f.tm with warps := f.tm.warps.set f.wn { f.wp with
        threads := f.wp.threads.map (parkHere f (takes f h.g) .cpost) } })

/-- R172, R332: `cstage` beyond the schedule's last stage is SCHEDULE_EXHAUSTED; otherwise the warp's count goes up, the pairs its
stage's entries name are captured, and the stage's operations are bound to the token. -/
def Obligations.CopyStages : Prop :=
  ∀ (h : Hdr) (s : State) (f : Focus), Ready (.cstage h) h.s s f → f.wp.mem = [] → f.wp.tokens.getD h.g.toNat 0 < 63 →
    ((∀ e ∈ f.k.sched, e.stage ≤ f.wp.cstage) → ∃ t, exec (.cstage h) s = .next t ∧ Stops f t 12 0 0 false) ∧
    ((∃ e ∈ f.k.sched, f.wp.cstage < e.stage) → ∃ x w, exec (.cstage h) s = .next (x.after f.tid f.wn) ∧ OnlyWarp f x w ∧
      IssuedAs f { f.wp with
        tokens := raised h.g f.wp.tokens
        cstage := f.wp.cstage + 1
        bound := f.wp.bound ++ [(f.wp.cstage + 1, h.g)]
        dyn := w.dyn } w id ∧
      ∃ new, w.dyn = f.wp.dyn ++ new ∧
        (∀ r, (∃ v, (f.wp.cstage + 1, r, v) ∈ new) ↔ r < 128 ∧ r % 2 = 0 ∧ ∃ e ∈ f.k.sched, e.stage = f.wp.cstage + 1 ∧ e.dynReg.toNat = 128 + r) ∧
        ∀ x ∈ new, x.1 = f.wp.cstage + 1 ∧ x.2.2 = f.u (1 + x.2.1) (x.2.1 + 1) ++ f.u (1 + x.2.1) x.2.1)

/-- R172, R175, R177, R180, R323, R337 to R341: The record an operation captures is that of the warp's latest `tld` of the register still queued,
whatever was queued after it, else the stored one, or, until the warp has waited on a copy stage that rewrote the register, an earlier one. An
operation of the matrix engine, once the warp's scratchpad stores are performed and its token has room, raises SHAPE_BAD, then SHAPE_MISMATCH, or
joins the engine's queue bound to its token, with the record `tst` and the forms that read one captured (a pitch of 5 to 7 chunks taken as 8: log
26). That a register last loaded by another warp's `tld` gives the stored record, always, is the model's choice (log 37). -/
def Obligations.MatrixRequests : Prop := CapturedRecords ∧ MatrixIssue

/-- R172, R176, R187, R237, R238, R240 to R244, R323, R338 to R341: MXE_OPERATION_COMPLETE of the oldest operation of a warp, in a
context that is not halted: the operation leaves the queue, has its effect on its team, its token goes down, and what waited for
it goes on. What the operations leave in tile registers, accumulators and scratchpad, and that they leave the others alone. The
code that each function of `acc.st` writes for an element: the FP32 bits, the element rounded to nearest or with its random
word, the two folded parts, or the two parts of hi. -/
def Obligations.MatrixOperations : Prop := MatrixCompletes ∧ MatrixEffects ∧ StoredCodes

/-- R240 to R243: each element of a real matrix operation is the old element plus the exact product sum, rounded once; the two
parts of a complex one are so for hi, and lo takes the exact residual, rounded once, or +0 where hi is not finite. -/
def Obligations.MatrixAccumulation : Prop :=
  ∀ (tm : Team) (half d : Nat) (a b : Shape) (fresh : Bool) (m n : Nat), m < 64 → n < 64 → a.fmt ≤ 6 → b.fmt ≤ 6 →
    (Rounded32 ((if fresh then .val false 0 else num (tm.acc half d (64 * m + n))).plus (matrixSum tm a b m n))
      ((tm.mma half d a b fresh).acc half d (64 * m + n))) ∧
    ∀ im : Bool,
      let old (k : Nat) : NumVal := if fresh then .val false 0 else num (tm.acc half (d + k) (64 * m + n))
      let new (k : Nat) : Word := (tm.cmma half d a b fresh).acc half (d + k) (64 * m + n)
      let p := complexSum tm a b m n im
      Rounded32 ((old (if im then 1 else 0)).plus p) (new (if im then 1 else 0)) ∧
      match num (new (if im then 1 else 0)) with
      | .val sg q => Rounded32 ((old (if im then 3 else 2)).plus (plusZero (((old (if im then 1 else 0)).plus p).plus (NumVal.val sg q).opp)))
          (new (if im then 3 else 2))
      | _ => new (if im then 3 else 2) = 0

/-- R173, R184, R206 to R208, R304, R309: the checks of the probe in their order, each over all lanes that take part, the first failing
lane naming the address: MISALIGNED, PERMISSION by the aperture rules, a page miss that swaps the team out, that of its lowest-numbered warp
being the one reported (or the fault of a table word that cannot be read), PERMISSION of the composed translation, a watchpoint. The
instruction has no effect. The imprecise fault of a table word is the model's choice (log 23), as are that an atomic needs READ and WRITE
(log 38), that a store or atomic to another device's flash stops here (log 62) and that watchpoints do not strike scratchpad (log 20). -/
def Obligations.ProbeStops : Prop :=
  ∀ i M, memoryOps i = some M → ∀ s f, Ready i M.h.s s f → ¬Held f.wp → s.coreRequests f.wp.core + M.takes (takes f M.h.g).length ≤ 4096 →
    takes f M.h.g ≠ [] →
    let ls := M.lanes f (takes f M.h.g)
    let aligned := ∀ l ∈ ls, l.2.toNat % M.n = 0
    let admitted := ∀ l ∈ ls, Admitted f.k.spmBytes M.n l.2
    let mapped := ∀ l ∈ ls, ownSpace l.2 → ∃ t, f.lead l.1 l.2 = .ok t
    let granted (l : Nat × DWord) := ownSpace l.2 → ∀ t, f.lead l.1 l.2 = .ok t → t.world = (s.ctx f.ctx).world ∧ Permitted M.acc t.world t
    ∀ l,
      (FirstWith (fun l => l.2.toNat % M.n ≠ 0) ls l → ∃ t, exec i s = .next t ∧ Stops f t 4 l.2 0 false) ∧
      (aligned → FirstWith (fun l => ¬Admitted f.k.spmBytes M.n l.2) ls l → ∃ t, exec i s = .next t ∧ Stops f t 5 l.2 0 false) ∧
      (aligned → admitted → ∀ m, FirstWith (fun l => ownSpace l.2 ∧ ∃ m, f.lead l.1 l.2 = .error m) ls l → f.lead l.1 l.2 = .error m →
        (m.why = .absent → ∃ t, exec i s = .next t ∧ t.stamp = s.stamp ∧ t.freeCtr = s.freeCtr ∧
          (f.tm.ask = .fault → f.tm.faultWarp ≤ f.wn → OnlyTeam s t f.tid f.tm) ∧
          (f.tm.ask ≠ .fault ∨ f.wn < f.tm.faultWarp → OnlyTeam s t f.tid { f.tm with
          ask := .fault
          place := .stopping 1
          fault := some { kind := 1, cause := 1, stage := (s.ctx m.ctx).level, userTag := f.wp.userTag, ctx := BitVec.ofNat 16 m.ctx
                          origin := BitVec.ofNat 16 f.ctx, seq := 0, addr := BitVec.ofNat 64 m.addr, image := 0, pc := f.pc.setWidth 64
                          team := BitVec.ofNat 32 f.tm.index }
          faultWarp := f.wn })) ∧
        (∀ cause, m.why = .spoiled cause → ∃ x y, OnlyTeam s x f.tid f.tm ∧ x.stamp = s.stamp ∧ x.freeCtr = s.freeCtr ∧
          HaltRaised x y f.ctx { coreRecord f cause l.2 0 with precise := false } false (some f.tid) ∧ exec i s = .next (countedIn y cause)) ∧
        (∀ dev a kind, m.why = .far dev a kind → ∃ x y t, OnlyTeam s x f.tid f.tm ∧ x.stamp = s.stamp ∧ x.freeCtr = s.freeCtr ∧
          OsfNoted x y f.ctx dev kind a ∧ exec i s = .next t ∧
          HaltRaised y t f.ctx { coreRecord f 6 (BitVec.ofNat 64 (dev.toNat * 2 ^ 44 + a)) 0 with precise := false } false (some f.tid)) ∧
        (∀ cause, m.why = .farFailed cause → ∃ x t, OnlyTeam s x f.tid f.tm ∧ x.stamp = s.stamp ∧ x.freeCtr = s.freeCtr ∧ exec i s = .next t ∧
          HaltRaised x t f.ctx { coreRecord f cause l.2 0 with precise := false } false (some f.tid)) ∧
        (m.why = .tampered → ∃ x y, OnlyTeam s x f.tid f.tm ∧ x.stamp = s.stamp ∧ x.freeCtr = s.freeCtr ∧
          HaltRaised x y f.ctx { coreRecord f 0x12 l.2 0 with precise := false } false (some f.tid) ∧ exec i s = .next y.tamperAlarmed)) ∧
      (aligned → admitted → mapped → FirstWith (fun l => ¬granted l) ls l →
        ∃ t tr, exec i s = .next t ∧ f.lead l.1 l.2 = .ok tr ∧ Stops f t 5 l.2 0 (decide (tr.world ≠ (s.ctx f.ctx).world))) ∧
      (aligned → admitted → mapped → (∀ l ∈ ls, granted l) → f.wp.skipWatch = false → ∀ m,
        FirstWith (fun l => ∃ m, Strikes (s.ctx f.ctx) M.acc l.2.toNat M.n m) ls l → Strikes (s.ctx f.ctx) M.acc l.2.toNat M.n m →
        ∃ t x, exec i s = .next t ∧ OnlyTeam s x f.tid { f.tm with warps := f.tm.warps.set f.wn { f.wp with skipWatch := true } } ∧
          HaltRaised x t f.ctx (coreRecord f 0x10 l.2 m) false (some f.tid))

/-- R22, R52, R91, R95 to R99, R121, R170, R213, R215 to R217, R304 to R308, R310 to R314: A memory instruction whose lanes all pass the probe
enters its warp's queue with its parts; a load's or returning atomic's results become outstanding; no memory changes yet. It waits while an earlier
acquire, sc access or fence holds it back, and while its core has no room. With no thread taking part it does nothing. A translation composes one
walk for each level: the root stage from ROOT_PTB over the entries that count as valid there; a child's stage over tables that its parent's composed
translation leads to, which must grant READ. The frame is the product, the page size the least, READ, WRITE, EXEC and PIN the AND, all else the
root's; a miss names the stage that misses. The model's choices in it: root tables are read under the plain pattern and world 0's tags (log 7);
watchpoints do not strike scratchpad (log 20); a table word that fails ends the walk (log 23); an atomic needs READ and WRITE (log 38); a store or atomic to
another device's flash does not pass (log 62); which root
entries beyond the cases of R52 count as VALID clear (log 61); each access walks anew (log 68). -/
def Obligations.MemoryIssue : Prop := RequestsEnter ∧ TranslationWalk

/-- R311 to R313: the step of an atomic: each lane returns the word the lanes before it leave, and the last word is stored; `atom.fadd`
adds the pairwise tree of the lanes' values to the old word, and a lane returns the old word plus the tree of the lanes before it. -/
def Obligations.AtomicStep : Prop :=
  ∀ (op : AtomOp) (w64 : Bool) (old : DWord) (vals : List (DWord × DWord)), vals ≠ [] → vals.length ≤ 64 →
    (w64 = false → old.toNat < 2 ^ 32) → (w64 = true → op ≠ .fadd ∧ op ≠ .fmax) →
    let out := atomStep op w64 old vals
    out.1.length = vals.length ∧
    (op ≠ .fadd → ∃ cur : List DWord, cur.length = vals.length + 1 ∧ cur[0]? = some old ∧ cur = out.1 ++ [out.2] ∧
      ∀ (j : Nat) (v : DWord × DWord) (c : DWord), vals[j]? = some v → cur[j]? = some c → cur[j + 1]? = some (combine op w64 c v.1 v.2)) ∧
    (op = .fadd →
      let vs := vals.map fun v => v.1.setWidth 32
      (∃ c, TreeSum vs c ∧ out.2 = (faddWord (old.setWidth 32) c).setWidth 64) ∧ out.1[0]? = some old ∧
      ∀ j, 0 < j → j < vals.length → ∃ c, TreeSum (vs.take j) c ∧ out.1[j]? = some ((faddWord (old.setWidth 32) c).setWidth 64))

/-- R57, R62 to R65, R68 to R70, R128, R130, R171, R188, R213 to R217, R224, R305 to R308, R313, R314: HOME_PERFORM of a part that its order admits,
in scratchpad, or in HBM or SBM that verifies: a load's registers take the bytes, of memory or of the youngest overlapping store of its warp when
that covers the access; a store's bytes are written; an atomic's word takes its step and the lanes take what it returns; every other byte, warp and
unit is as before. HOME_PERFORM of a part whose unit is poisoned, or whose line's tag does not verify: a load's or atomic's registers take zeros, a
partial store and an atomic leave memory unchanged, and the context is halted imprecisely with ECC_UNCORRECTABLE or CIPHER_INTEGRITY, the latter
counted in SEC_EVENT. A store of a whole SBM word makes it good. A tag that fails on the network discards the part and raises the tamper alarm.
HOME_PERFORM of a part in an MX window: a load reads the BF16 images of the elements and zeros beyond the array; a store gives its block's elements
their new values, a new scale and new codes, in one step, and leaves every other byte alone; a byte that counts and lies beyond the array sets
OVERRUN. The model's choices in it: what counts as covering a unit or line whole (log 21); the elements and scales of an MX window are reached under
the tags and INTERLEAVE of the entry that maps it (log 22); the zeros that a failure on the network leaves (log 38). -/
def Obligations.AccessesAtHome : Prop := HomeAccesses ∧ HomeFailures ∧ WindowAccesses

/-- R8, R15 to R22, R24 to R27, R72, R133, R135: MAIN_POWER_ON, and a write of GO to RESET_CTL by the physical function, start the device: every
register at its Reset value, HBM and SBM zero, fuses, training records and flash kept, SEC_EVENT kept by RESET_CTL; a failure of steps 1 and 2 ends
the start in PHASE 15. MAIN_POWER_OFF loses all else. A write by another than the physical function has no effect. The steps of a start after step
2: the host link, the firmware with stacks 0 and 1 (a firmware failure stays in PHASE 2, a failed stack or die in PHASE 15), each part once, full
service; and a clock that moves by 25 MHz steps. The model's choices in it: tags and poison after the zeroing (log 10); BOOT_FAIL and BOOT_CAUSE of
a failed stack or die (log 39); GO and COLD, and the record that a failed full training drops (log 56); STATE of a link whose training failed (log
59); how far a clock may move (log 60). -/
def Obligations.DeviceStart : Prop := Starts ∧ StartSequence

/-- R7, R16, R26, R30, R35, R49, R55, R56, R62, R70 to R75, R91, R124, R135, R136, R181: The configuration writes of the physical function: CAP_W
within 600 and 2,200; LOCK and RUN in their states; a hash mask, which zeroes the HBM stacks in service; requests to rekey links; and the move to
RUN, which enables each valid function as a root context with its slots. From another writer each of these writes has no effect. REGISTER_WRITE of
eight bytes by the physical function: the W1C fields of SEC_EVENT, TAMPER_CTL, OSF_ID, OSF_PLANE_MAP and VF_CFG as RW-L registers, WORLD_VFS while
no world command runs, MEM_ERR, MX_ALIAS and SPM_DISCARD; and an access that is not aligned, or of another size than 4 or 8 bytes, has no effect.
The model's choice in it: a write to an RW-L field before CONFIG_OPEN has no effect (log 40). -/
def Obligations.PhysicalFunction : Prop := ConfigurationWrites ∧ RegisterWrites

/-- R76 to R79, R89, R122: the writes of queue registers by a writer that reaches the slot: CQ_WRITE is taken while it stays in the ring and is
INDEX_BAD otherwise; ENABLE in IDLE runs the queue, or is BAD_CONFIG or INDEX_BAD; a clear of ENABLE stops it, a blocked packet ending ABORTED;
RESTART and CQ_READ act in their states, none of them in FROZEN (over ERROR: log 54); CR_READ makes room. From elsewhere a write has no effect. The
model's choices in it: a write by a function before RUN has no effect (log 52); the fields of the KIND 3 record that have no meaning there are zero
(log 25); what FROZEN shows over ERROR (log 54); a mailbox packet keeps its place in ERROR until RESTART (log 64); ENABLE acts before RESTART (log
65). -/
def Obligations.QueueWrites : Prop :=
  ∀ s : State,
    let q := s.input.slot.toNat
    let x := s.queue q
    let v := s.input.value
    (¬Reaches s s.input.writer q → ∀ i ∈ [Instr.cqWrite, .cqEnable, .cqDisable, .cqRestart, .cqReadWrite, .crReadWrite], exec i s = .next s) ∧
    (Reaches s s.input.writer q →
      (∃ t, exec .cqWrite s = .next t ∧
        (InState s q .idle → OnlyQueue s t q { x with widx := v }) ∧
        (¬InState s q .idle → IndexOk x v → OnlyQueue s t q { x with widx := v }) ∧
        (x.state = .error → ¬IndexOk x v → t = s) ∧
        (¬InState s q .idle → x.state ≠ .error → ¬IndexOk x v → Errored s t q x 9)) ∧
      (let y := { x with cqLog2 := s.input.cqLog2, crLog2 := s.input.crLog2, enable := true }
       let u := s.modQueue q fun z => { z with cqLog2 := s.input.cqLog2, crLog2 := s.input.crLog2 }
       let bad := ¬LogOk s.input.cqLog2 ∨ ¬LogOk s.input.crLog2 ∨
         u.ringElsewhere (x.owner.getD 0).toNat x.base (2 ^ s.input.cqLog2.toNat * 64) = true ∨
         u.ringElsewhere (x.owner.getD 0).toNat x.crBase (2 ^ s.input.crLog2.toNat * 32) = true
       ∃ t, exec .cqEnable s = .next t.wakeAll ∧ (¬InState s q .idle → OnlyQueue s t q y) ∧
         (InState s q .idle → (bad → Errored s t q { y with cur := none } 10) ∧
           (¬bad → 2 ^ s.input.cqLog2.toNat < (x.widx - x.ridx).toNat → Errored s t q { y with cur := none } 9) ∧
           (¬bad → (x.widx - x.ridx).toNat ≤ 2 ^ s.input.cqLog2.toNat → OnlyQueue s t q { y with cur := none, state := .run }))) ∧
      (let y := { x with cqLog2 := s.input.cqLog2, crLog2 := s.input.crLog2 }
       let z := { y with enable := false, state := .idle, cur := none }
       ∃ t, exec .cqDisable s = .next t.wakeAll ∧ (x.enable = false → OnlyQueue s t q y) ∧
         (x.enable = true → x.state ≠ .blocked ∨ x.cur = none → OnlyQueue s t q z) ∧
         ∀ p, x.enable = true → x.state = .blocked → x.cur = some p → OnlyQueue s t q { z with
           ridx := x.ridx + 1, open_ := x.open_ ++ [p.index]
           waiting := x.waiting ++ [{ kind := 1, status := 4, queue := BitVec.ofNat 10 q, tag := p.tag, userTag := 0, index := p.index
                                      payload := 0, pkt := some (q, p.index.toNat) }] }) ∧
      (∃ t, exec .cqRestart s = .next t ∧ (InState s q .error → OnlyQueue s t q { x with state := .run, cur := none }) ∧
        (¬InState s q .error → t = s)) ∧
      (let fits := (x.widx - v).toNat ≤ 2 ^ x.cqLog2.toNat
       ∃ t, exec .cqReadWrite s = .next t ∧
        ((InState s q .idle ∨ InState s q .error) → fits → OnlyQueue s t q { x with ridx := v, cur := none }) ∧
        (¬((InState s q .idle ∨ InState s q .error) ∧ fits) → t = s)) ∧
      ∃ t, exec .crReadWrite s = .next t.wakeAll ∧ OnlyQueue s t q { x with crRead := v })

/-- R93, R104, R132, R133, R157, R206, R207: the registers of a context's page and blocks: ROOT_PTB with an INVAL of the whole root stage, HQ_READ,
BCH_CTL, GO and ABORT of a bounce channel, TEMPO_RING, and a watchpoint, whose address is translated at the write. That the translation of a
watchpoint sends no packet is the model's choice (log 68). -/
def Obligations.ContextRegisterWrites : Prop :=
  ∀ s : State,
    let d := s.input.acc.data
    let w := s.input.writer
    let k := s.input.ch.toNat
    (∀ n, w = .vf n → Present s w →
      let c := n.toNat
      (s.input.acc.half = .full → ∃ y, OnlyCtx s y c { s.ctx c with ptb := BitVec.ofNat 32 (dbits d 43 12) } ∧
        exec .rootPtbWrite s = .next ((y.forget c 0 0).refreshSubtree c 0 0)) ∧
      ∃ t, exec .rootHqIdxWrite s = .next t ∧ OnlyCtx s t c { s.ctx c with hqRead := s.input.value }) ∧
    (∀ c, ActsAsRoot s w c → (s.ctx c).world ≠ 0 → (s.ctx c).live = true →
      let b := (s.ctx c).bounceAt k
      let put (t : State) (z : Bounce) : Prop := OnlyCtx s t c { s.ctx c with bounce := Table.put k z (s.ctx c).bounce }
      (∃ t, exec .bchEnable s = .next t ∧
        put t { b with comp := BitVec.ofNat 2 (dbits d 1 0), dir := d.getLsbD 2, enable := true, next := if b.enable then b.next else 0 }) ∧
      (∃ t, exec .bchGo s = .next t ∧
        (b.enable = true → (b.comp = 1 ∨ b.comp = 2) → b.state = 0 →
          put t { b with done := 0, chunks := s.input.value, state := if s.input.value = 0 then 0 else 1, first := b.next, world := (s.ctx c).world }) ∧
        (b.enable = false ∨ (b.comp ≠ 1 ∧ b.comp ≠ 2) ∨ b.state ≠ 0 → put t b)) ∧
      ∃ t, exec .bchAbort s = .next t ∧ put t { b with state := if b.state = 1 then 2 else b.state }) ∧
    (∀ c, w = .ctx c → Present s w → ∃ t, exec .tempoRingWrite s = .next t ∧ OnlyCtx s t c.toNat { s.ctx c.toNat with
      tempo := { (s.ctx c.toNat).tempo with ringBase := BitVec.ofNat 56 (dbits d 55 0), ringLog2 := BitVec.ofNat 5 (dbits d 60 56), written := 0 } }) ∧
    (∀ a, Present s w → actsAs w = some a → (s.ctx s.input.ctx.toNat).live = true → s.within a s.input.ctx.toNat = true → s.input.index.toNat ≤ 1 →
      let c := s.input.ctx.toNat
      let old := (s.ctx c).watchAt k
      let new : Watch :=
        if s.input.index = 0 then { old with addr := BitVec.ofNat 56 (dbits d 55 0) }
        else { old with mask := BitVec.ofNat 16 (dbits d 15 0), load := d.getLsbD 16, store := d.getLsbD 17, atomic := d.getLsbD 18
                        en := d.getLsbD 19, late := old.late && !d.getLsbD 21 }
      ∃ t z, exec .watchWrite s = .next t ∧ OnlyCtx s t c { s.ctx c with watch := Table.put k z (s.ctx c).watch } ∧
        (∀ tr, s.walk c new.addr.toNat = .ok tr →
          z = { new with unmapped := false, fabric := some (tr.dev ++ BitVec.ofNat 44 (tr.frame + new.addr.toNat % 4096))
                         deps := tr.deps.map fun x => (x.ctx, x.page, x.pages) }) ∧
        ∀ m, s.walk c new.addr.toNat = .error m → z = { new with unmapped := true, fabric := none, deps := [(m.ctx, m.addr / 4096, 1)] })

/-- R23, R47, R77 to R80, R111, R112, R116, R117, R125: PACKET_START reads the packet at RIDX once: from an address that fails, or malformed, it
makes the queue ERROR with ADDR_BAD or BAD_PACKET; one that may not start yet shows BLOCKED, as does a queue whose world lacks its owners' keys. The
conditions of starting. The model's choices in it: the low 12 bits of CQ_BASE do not count (log 24); the zero fields of the KIND 3 record (log 25);
data that fail are an address that fails (log 23); the walk for the packet's address comes first (log 68). -/
def Obligations.PacketStarts : Prop :=
  (∀ s q c p, s.mayStart q c p = true ↔ MayBegin s q c p) ∧
  ∀ (s : State) (c : CtxId),
    let q := s.input.slot.toNat
    let x := s.queue q
    let a := x.base.toNat / 4096 * 4096 + x.ridx.toNat % 2 ^ x.cqLog2.toNat * 64
    x.owner = some c → (x.state = .run ∨ x.state = .blocked) → x.ridx ≠ x.widx → (s.ctx c.toNat).freeze = 0 → s.cfg.erased = false →
    (∀ p, x.cur = some p → x.state = .run → ¬MayBegin s q c.toNat p →
      ∃ t, exec .packetStart s = .next t ∧ OnlyQueue (calm s) t q { x with state := .blocked }) ∧
    (x.cur = none → ∃ z t, z = ((calm s).readVa c.toNat a 64).s ∧ TakesPlace .packetStart s t ∧
      (((calm s).readVa c.toNat a 64).bytes = none → Errored z t q (z.queue q) 2) ∧
      ∀ bs, ((calm s).readVa c.toNat a 64).bytes = some bs →
        let p : Packet := { index := x.ridx, bytes := bs }
        (p.malformed (s.ctx c.toNat).level.toNat = false →
          ∃ y, OnlyQueue z y q { x with cur := some p } ∧
            (MayBegin y q c.toNat p → t = y) ∧ (¬MayBegin y q c.toNat p → OnlyQueue y t q { x with cur := some p, state := .blocked })) ∧
        (p.malformed (s.ctx c.toNat).level.toNat = true → ErroredWith (BitVec.ofNat 32 (pnum p 4 4)) z t q (z.queue q) 8))

/-- R39, R47, R61, R69, R83, R84, R191: MBOX_PUT and MBOX_TAKE: ADDR_BAD where the word, or TAKE's destination, cannot be reached; the effect
when the word is empty (PUT) or full (TAKE) and nothing of the kind waits on it; else the queue blocks with the packet waiting, and is
served when the word allows, the longest waiting first; a poisoned word stops the context of a TAKE. That the address is translated again when a
packet that waited is served, and that another device's SBM is ADDR_BAD, are the model's choices (log 52), as is the fault of failed data (log 23); each
attempt walks for its address (log 68). -/
def Obligations.Mailboxes : Prop :=
  ∀ (i : Instr) (ty : Nat) (k : Access), (i = .mboxPut ∧ ty = 2 ∧ k = .store) ∨ (i = .mboxTake ∧ ty = 3 ∧ k = .load) →
    ∀ (s : State) (q : Nat) (c : CtxId) (p : Packet),
      let w := if pnum p 8 8 % 8 = 0 then (calm s).walkFor c.toNat (pnum p 8 8) else calm s
      let dest := ty = 2 ∨ pnum p 16 8 = 0 ∨ w.canWrite c.toNat (pnum p 16 8) 8 = true
      (Heads s ty q c p → ∃ t, TakesPlace i s t ∧ (w.stall ≠ none → t.stall ≠ none) ∧
        (w.stall = none → NoMailbox w c.toNat p k ∨ ¬dest → ∃ y z, Begun w y q c.toNat p ∧ NoAccess y z ∧ Completed z t q p 2 0) ∧
        (∀ word tr, w.stall = none → MailboxAt w c.toNat p k word tr → dest → s.mem.isFull word = decide (ty = 3) → ¬WaitsBefore s ty word s.stamp →
          s.input.hits = [] → ∃ y, Begun w y q c.toNat p ∧ Served y q c.toNat ty p word t) ∧
        (∀ word tr, w.stall = none → MailboxAt w c.toNat p k word tr → dest →
          (s.mem.isFull word ≠ decide (ty = 3) ∨ WaitsBefore s ty word s.stamp) →
          OnlyQueue { w with stamp := s.stamp + 1 } t q { s.queue q with state := .blocked, cur := some { p with waits := some (s.stamp, word) } })) ∧
      (∀ since word, s.input.slot.toNat = q → (s.queue q).cur = some p → (s.queue q).owner = some c → pnum p 0 1 = ty →
        p.waits = some (since, word) → s.mem.isFull word = decide (ty = 3) → ¬WaitsBefore s ty word since → MayBegin s q c.toNat p →
        s.input.hits = [] → ∃ t, TakesPlace .mboxWaitServed s t ∧ (w.stall ≠ none → t.stall ≠ none) ∧
          (w.stall = none → ∃ y, Begun w y q c.toNat p ∧
            (∀ tr, MailboxAt w c.toNat p k word tr → Served y q c.toNat ty p word t) ∧
            (∀ other tr, other ≠ word → MailboxAt w c.toNat p k other tr → Completed y t q p 2 0) ∧
            (NoMailbox w c.toNat p k → ∃ z, NoAccess y z ∧ Completed z t q p 2 0)))

/-- R22, R39, R47, R67, R69, R77, R85 to R87, R99, R127, R128: An access by the command processor within an aligned word reads and writes its place
in memory; a longer one goes word by word and fails where one fails; a write that not every word admits stores nothing. WRITE stores its bytes or is
ADDR_BAD; FAULT_DONE of a child, or of a root itself, is DENIED, STALE, or lets the team of the fault re-enter; FLOG_APPEND reads its source and
waits for its commit, which puts every page in flash in one step and counts the append, or is NO_SPACE or ADDR_BAD. The model's choices in it: an
access to poisoned or unverified data counts as failed (log 23); whether flash has room is an operand (log 42); each access walks for its address
(log 68). -/
def Obligations.MemoryPackets : Prop := CommandAccesses ∧ WritesAndAppends

/-- R47, R82, R88, R89, R93, R112, R120, R192: BUNDLE_RETIRE posts the KIND 2 record of a bundle whose teams have all been placed and are gone;
COMPLETION_RECORD_WRITE writes the oldest waiting record of a ring that has room, with PHASE, and completes its packet or bundle;
HANDLER_RECORD_WRITE does so for a handler queue, of the host for a root and of its parent for a child. The bytes of a record with PHASE are written
last. The model's choices in it: the zero fields of records (log 25); a record whose bytes fail at their home is an access that fails (log 23); each
piece walks for its address (log 68). -/
def Obligations.RecordWrites : Prop :=
  (∀ (s : State) (b : Bundle), s.bundle? s.input.num = some b → b.retiring = false →
    (∀ k ∈ b.kernels, k.gridX * k.gridY * k.gridZ ≤ k.nextTeam) → (∀ t ∈ s.teams, t.2.bundle ≠ s.input.num) →
    ∃ y t, exec .bundleRetire s = .next t ∧ y = { s with bundles := Table.put s.input.num { b with retiring := true } s.bundles } ∧
      OnlyQueue y t b.ring.toNat { s.queue b.ring.toNat with waiting := (s.queue b.ring.toNat).waiting ++
        [{ kind := 2, status := 0, queue := b.queue, tag := b.tag, userTag := 0, index := b.index, payload := 0
           pkt := some (b.queue.toNat, b.index.toNat) }] }) ∧
  (∀ (s : State) (c : CtxId) (r : CRec) (rest : List CRec),
    let q := s.input.slot.toNat
    let x := s.queue q
    x.waiting = r :: rest → x.owner = some c → s.ringTakes q 0 = true →
    let le (n v : Nat) : List Byte := (List.range n).map fun j => BitVec.ofNat 8 (v / 256 ^ j)
    let bytes := le 4 (r.kind.toNat + 2 ^ 8 * r.status.toNat + 2 ^ 16 * r.queue.toNat + 2 ^ 31 * (if x.crFlip then 0 else 1)) ++ le 4 r.tag.toNat ++
      le 4 r.userTag.toNat ++ le 4 r.index.toNat ++ le 16 r.payload.toNat
    let y := (calm s).writeRecordVa c.toNat (x.recPlace x.crWrite) bytes
    ∃ z t, TakesPlace .completionRecordWrite s t.wakeAll ∧
      OnlyQueue y z q { y.queue q with
        waiting := (y.queue q).waiting.drop 1, crWrite := (y.queue q).crWrite + 1
        crFlip := (if ((y.queue q).crWrite + 1).toNat % 2 ^ (y.queue q).crLog2.toNat = 0 then !(y.queue q).crFlip else (y.queue q).crFlip) } ∧
      (r.kind ≠ 2 → r.pkt = none → t = z) ∧
      (∀ k i, r.kind ≠ 2 → r.pkt = some (k, i) → OnlyQueue z t k { z.queue k with open_ := (z.queue k).open_.filter fun j => j != r.index }) ∧
      (r.kind = 2 → ∀ b, FirstWith (fun b => b.2.queue.toNat = r.queue.toNat ∧ b.2.index = r.index ∧ b.2.retiring = true) z.bundles b →
        let gone := { z with bundles := Table.drop b.1 z.bundles }
        let k := r.queue.toNat
        (b.2.cpl = true → OnlyQueue gone t k { z.queue k with waiting := (z.queue k).waiting ++
          [{ kind := 1, status := r.status, queue := b.2.queue, tag := b.2.tag, userTag := 0, index := r.index, payload := 0
             pkt := some (k, r.index.toNat) }] }) ∧
        (b.2.cpl = false → OnlyQueue gone t k { z.queue k with open_ := (z.queue k).open_.filter fun j => j != r.index }))) ∧
  (∀ (s : State) (c va n : Nat) (bs : List Byte) (st : Nat → State), va % 8 = 0 → 0 < n → bs.length = 8 * n →
    (∀ a t, s.lead (cpxSalt a) c a .store = .ok t → (s.targetOf t a).inWindow = false) →
    let parts := (va + 4, 4) :: ((List.range (n - 1)).map fun i => (va + 8 + 8 * i, 8)) ++ [(va, 4)]
    st 0 = s → (∀ (j : Nat) (p : Nat × Nat), parts[j]? = some p →
      st (j + 1) = ((st j).writePiece c p ((bs.drop (p.1 - va)).take p.2) (va, bs.length)).s) →
    s.writeRecordVa c va bs = st parts.length) ∧
  ∀ (s y : State) (i : Word) (r : HRec) (rest : List HRec),
    let c := s.input.ctx.toNat
    let x := s.ctx c
    let le (n v : Nat) : List Byte := (List.range n).map fun j => BitVec.ofNat 8 (v / 256 ^ j)
    let bytes := le 4 (r.kind.toNat + 2 ^ 8 * r.cause.toNat + 2 ^ 16 * r.stage.toNat + 2 ^ 31 * (if x.hqFlip then 0 else 1)) ++ le 4 r.userTag.toNat ++
      le 2 r.ctx.toNat ++ le 2 r.origin.toNat ++ le 4 r.seq.toNat ++ le 8 r.addr.toNat ++ le 8 r.image.toNat ++ le 8 r.pc.toNat ++
      le 4 r.team.toNat ++ le 20 0
    let place := x.hqBase.toNat + x.hqWrite.toNat % 2 ^ x.hqLog2.toNat * 64
    x.hqWaiting = r :: rest → HqRead (calm s) c y i → LogOk x.hqLog2 → (x.hqWrite - i).toNat < 2 ^ x.hqLog2.toNat →
    (x.level ≠ 0 → y.canWrite x.parent.toNat place 64 = true) →
    ∃ w z t, w = (if x.level = 0 then { y with mem := y.mem.writeHost place bytes } else y.writeRecordVa x.parent.toNat place bytes) ∧
      TakesPlace .handlerRecordWrite s t ∧
      OnlyCtx w z c { w.ctx c with
        hqWaiting := (w.ctx c).hqWaiting.drop 1, hqWrite := x.hqWrite + 1
        hqFlip := (if (x.hqWrite + 1).toNat % 2 ^ x.hqLog2.toNat = 0 then !x.hqFlip else x.hqFlip) } ∧
      (r.kind ≠ 2 → t = z) ∧
      (r.kind = 2 → OnlyCtx z t r.ctx.toNat { z.ctx r.ctx.toNat with halt := (z.ctx r.ctx.toNat).halt.map fun h => { h with reported := true } })

/-- R47, R69, R124 to R128: WORLD_CMD of the physical function with CREATE, KEY or DESTROY, while no command runs: in the state RUN, of a tenant
world, with what each needs, it starts; otherwise it ends at once with STATUS 2 or 3. DESTROY stops every context of the world. WORLD_CMD_DONE ends
the command. KEY: the owner's key comes from the capsule in the page (STATUS 4 once both owners' are held, the private key then gone). CREATE: the
world lives with a new key pair, its policy digest, gates and functions, in a new key generation, and its report page is written. DESTROY, when
nothing of the world is under way: the world and its keys are gone, its generation is new, its memory fails its tags, and each function is in world
0 with its queues IDLE. The model's choices in it: policy, report and capsule pages are reached under INTERLEAVE 1 and world 0's tags (log 7);
STATUS 2 for data that fail (log 23) and for a world never created (log 67); keys and signatures are opaque (log 17). -/
def Obligations.WorldCommands : Prop := WorldStarts ∧ WorldEnds

/-- R127 to R129: TENSOR packets: ADDR_BAD unless every granule maps, aligned, to HBM of the context's world with WRITE; DENIED when
VERSION is not above a granule's HIGH (DECLARE, REVISE), or HIGH can rise no further (RETIRE); else each granule's entry is set,
and its lines are zero (DECLARE, RETIRE) or carried over (REVISE). A granule declared or retired reads as zeros afterwards,
under its new entry, and no byte outside it changes. A granule revised keeps every byte; each line whose tag verified verifies
under the new VERSION, one that had failed is left as it is, and no other line's tag changes. -/
def Obligations.TensorGranules : Prop := TensorPackets ∧ GranulesZero ∧ GranulesRevised

/-- R47, R64, R69, R113, R126 to R129, R132 to R136: BCH_CHUNK of a busy channel: a page the channel may not use, or data that fail, puts it in
RESYNC; an outbound chunk is sealed into the host's memory, an inbound one opened into its page, each under NEXT; a tag that fails sets RESYNC there
and in SEC_EVENT. BCH_STATUS_RECORD writes at BCH_REC the world, channel, DIR, DONE and NEXT with a signature, burns the counters it names and makes
the channel IDLE. TAMPER_ALARM sets TAMPER, and with ERASE_EN it erases every key, stops every context and leaves three registers answering. A line
of a context that is read gives its bytes, or fails where a sector is poisoned or the tag fails; a line written takes the bytes and the writer's tag
and is good again. A page of 64 lines is read and written line by line, up to the first failure. SCRUB: DENIED with every leaf spent; ADDR_BAD where
its list, its receipt's place or a range cannot be used; METHOD 0 and 2 write zero line by line; METHOD 1 and 2 retire the granules in world 0 and
destroy a tenant world; the count rises, a leaf is spent, and the signed receipt of the world, METHOD, count and ranges is stored at RECEIPT_VA
(whole granules, layout: logs 48, 49). The model's choices in it: RESYNC for a page whose data fail, and which reads of a line fail (log 23); keys,
seals and signatures are opaque (log 17). -/
def Obligations.SecureTransfers : Prop := ProtectedTransfers ∧ LinesMoved ∧ Scrubs

/-- R30 to R40, R45 to R49, R69, R106, R131, R133, R135, R214, R306, R314: A key that firmware agreed for a link that asked spends a leaf and stands
ready, or lets an exhausted direction resume from the packet held; with every leaf spent there is none. A tag failure counts; the eighth in a row
takes the link out of service, on either side; a retransmission of any packet sent takes fresh counter values, or is held. REMOTE_REQUEST_SEND, in
its order and behind no access to the same bytes, sends a part with all that travel with it as one request on the link of its slot, when it is its
context's turn there and no lost packet goes first, or finds the key exhausted; with the fabric disabled it is a miss of KIND 3. REMOTE_ACK of a
packet brings its parts, loads and atomics among them, their bytes, or the failure of its data, which zeroes the lanes it touches and stops the
context. REMOTE_MISS_REPLY and UNDELIVERABLE make it a remote miss. The model's choices in it: flits of a packet (log 11); a lost access holds back
`exit` (log 31); firmware's early key switch is an operand (log 43); one link takes all the slots of a lost one (log 58). -/
def Obligations.FabricSource : Prop := Links ∧ RemoteRequests

/-- R30, R36, R38 to R40, R46, R48, R57, R69, R190, R207, R306, R313: REMOTE_REQUEST_ARRIVE: a request waits in the reorder buffer for those sent
before it, and one presented already is only answered again. In its turn, one whose address no pinned entry of the member context leads to (KIND 0),
or none of its tags (KIND 2), or none that permits it (KIND 1), is recorded in OSF_ERR of the context, which unless it is halted already is sent a
KIND 4 record and halted with REMOTE_PIN_MISS; one that passes is performed and answered: a load leaves memory alone and returns its bytes, or says
which of them are sound, a store writes the bytes of its mask and no other, and an atomic makes its step. USER_TAG, ORIGIN, IMAGE and PC of the KIND
4 record at 0 and TEAM at 0xFFFFFFFF are the model's choice (log 25), as is the entry that a request passes by where several do (log 52). That the
answer waits for its turn at the port is the model's choice too (log 70). -/
def Obligations.RemoteArrivals : Prop :=
  ∀ s : State,
    let q := s.input.remote
    let i := s.input.link.toNat
    let l := s.link i
    let key := q.src.toNat * 16 + i
    let turn := Sparse.get 0 key s.fabric.presented
    let seen (a : FarAnswer) := FirstWith (fun p => p.1 = q.src.toNat ∧ p.2.1 = q.seq) s.fabric.seen (q.src.toNat, q.seq, a)
    let new := ∀ p ∈ s.fabric.seen, ¬(p.1 = q.src.toNat ∧ p.2.1 = q.seq)
    s.fabric.enable = true → s.cfg.erased = false → q.src ≠ s.fabric.deviceNum → q.dev = s.fabric.deviceNum → (l.state = 2 ∨ l.state = 3) →
    l.rxFails < 8 →
    ∃ y t, OnlyLink s y i { l with rxFails := 0, rxNext := l.rxNext && !s.input.newKey } ∧ exec .remoteRequestArrive s = .next t ∧
      (turn < q.place → (∃ p ∈ s.fabric.reorder, p.1.src = q.src ∧ p.1.seq = q.seq ∧ p.2.1 = s.input.link) → t = y) ∧
      (turn < q.place → (∀ p ∈ s.fabric.reorder, ¬(p.1.src = q.src ∧ p.1.seq = q.seq ∧ p.2.1 = s.input.link)) →
        t = { y with fabric := { y.fabric with reorder := s.fabric.reorder ++ [(q, s.input.link, s.input.home)] } }) ∧
      (q.place < turn → (new → t = y) ∧ ∀ a, seen a → Replied y t i q a) ∧
      (q.place = turn → (∀ p ∈ s.fabric.reorder, ¬(p.1.src = q.src ∧ p.2.1 = s.input.link ∧ p.1.place = turn + 1)) →
        ∃ z, z = { y with freeCtr := y.freeCtr + 1, fabric := { y.fabric with presented := z.fabric.presented } } ∧
          (∀ n, Sparse.get 0 n z.fabric.presented = if n = key then turn + 1 else Sparse.get 0 n s.fabric.presented) ∧
          (∀ a, seen a → Replied z t i q a) ∧
          (new → z.member q.subtree = none → Finished z t i q (.miss 0)) ∧
          let pinned (m : Nat) (x : Trans) := x ∈ z.entriesTo m q.addr.toNat ∧ x.pin = true
          let tagged (m : Nat) (x : Trans) := pinned m x ∧ x.world = q.world ∧ x.comp = q.comp
          let admits (m : Nat) (x : Trans) := tagged m x ∧ Permitted (remoteAcc q.kind) 0 x
          (∀ m x, x ∈ z.entriesTo m q.addr.toNat ↔ ∃ va, z.translate 0xD000000 m va = .ok x ∧ x.dev = s.fabric.deviceNum ∧
            x.frame = q.addr.toNat / 4096 * 4096 ∧ (va ∈ z.mapsTo q.addr.toNat (z.chainOf m) ∨
              ∃ e ∈ s.eng.castle, e.ctx = m ∧ e.page * 4096 = va ∧ e.tr.dev = s.fabric.deviceNum ∧ e.tr.frame = q.addr.toNat / 4096 * 4096)) ∧
          (new → ∀ m kind, z.member q.subtree = some m →
            ((∀ x, ¬pinned m x) ∧ kind = 0) ∨ ((∃ x, pinned m x) ∧ (∀ x, ¬tagged m x) ∧ kind = 2) ∨
              ((∃ x, tagged m x) ∧ (∀ x, ¬admits m x) ∧ kind = 1) →
            let fa : DWord := BitVec.ofNat 64 (s.fabric.deviceNum.toNat * 2 ^ 44 + q.addr.toNat)
            let x := { s.ctx m with osfErr :=
              if (s.ctx m).osfErr.valid then { (s.ctx m).osfErr with overflow := true }
              else { (s.ctx m).osfErr with peer := q.src, isTarget := true, kind := kind, valid := true, localAddr := BitVec.ofNat 44 q.addr.toNat } }
            ((s.ctx m).halt ≠ none → ∃ o, OnlyCtx z o m x ∧ Finished o t i q (.miss kind)) ∧
            ((s.ctx m).halt = none → ∃ o h, OnlyCtx z o m { x with
                faultSeq := x.faultSeq + 1
                hqWaiting := x.hqWaiting ++ [{ kind := 4, cause := kind.setWidth 8, stage := 0, userTag := 0, ctx := BitVec.ofNat 16 m, origin := 0
                                               seq := x.faultSeq, addr := fa, image := 0, pc := 0, team := 0xFFFFFFFF }] } ∧
              HaltRaised o h m { engine := 4, cause := 6, pcOrOp := q.src.setWidth 64, addr := fa, ctx := BitVec.ofNat 16 m } false none ∧
              Finished h t i q (.miss kind))) ∧
          (new → ∀ m tr, z.member q.subtree = some m → FirstWith (admits m) (z.entriesTo m q.addr.toNat) tr → s.input.home = .plain →
            (∀ c ∈ s.ctxs, c.2.watch = []) →
            (regionOf q.addr.toNat = .hbm ∨ regionOf q.addr.toNat = .sbm) →
            let a := q.addr.toNat
            let p := s.place tr.inter.toNat a
            let good (n : Nat) := (∀ j < n, s.mem.poisoned (p + j) = false) ∧ (∀ j < n, z.mixed (a + j) = false) ∧ s.mem.tagOk p a tr.world tr.comp = true
            let sound (j : Nat) := s.mem.poisoned (p + j) = false ∧ s.mem.tagOk p a tr.world tr.comp = true
            (q.kind = .load → a % 64 = 0 → (∀ j < 64, q.bytes.testBit j = true → sound j ∧ z.mixed (a + j) = false) →
              Finished z t i q (.done (((List.range 64).filter fun j => q.bytes.testBit j).map fun j => s.mem.get (p + j)))) ∧
            (q.kind = .load → a % 64 = 0 → (∃ j < 64, q.bytes.testBit j = true ∧ ¬sound j) → ∃ x cause mask bs, Finished x t i q (.failed cause mask bs) ∧
              x = { z with cfg := { z.cfg with sec := x.cfg.sec } } ∧ ∀ j < 64, mask.testBit j = true ↔ q.bytes.testBit j = true ∧ sound j) ∧
            (∀ data, q.kind = .store data → data.length = 64 → a % 64 = 0 → good 64 → ∃ x, Finished x t i q (.done []) ∧
              x = { z with mem := { s.mem with cells := x.mem.cells, lines := x.mem.lines } } ∧
              ∀ k, x.mem.get k = if p ≤ k ∧ k < p + 64 ∧ q.bytes.testBit (k - p) = true then data.getD (k - p) 0 else s.mem.get k) ∧
            ∀ code w64 vals op, q.kind = .atom code w64 vals → atomOfCode code.toNat = some op →
              let n := if w64 then 8 else 4
              let old := (List.range n).map fun j => s.mem.get (p + j)
              let word := (atomStep op w64 (BitVec.ofNat 64 (littleEndian old)) vals).2
              a % n = 0 → good n → ∃ x, Finished x t i q (.done old) ∧
                x = { z with mem := { s.mem with cells := x.mem.cells, lines := x.mem.lines } } ∧
                ∀ k, x.mem.get k = if p ≤ k ∧ k < p + n then BitVec.ofNat 8 (word.toNat / 256 ^ (k - p)) else s.mem.get k))

/-- R81, R82, R90, R91, R105, R107 to R110, R114, R137 to R139: LAUNCH reads its chain of records and makes a bundle whose teams wait for placement,
or fails; either way the gates it releases bind to it. CHILD_CREATE is DENIED, or makes a context of the next level with its slots, or finds no
number free. SET_SHARE sets a context's own weights, or those of a child, whose barred cores it frees. A launch record is read, checked, and its
arguments and copy schedule read, in that order, and the first failure met gives the status; a chain of at most four records, none twice, gives a
bundle's kernels, every field of a record and of its schedule's entries taken as R138 and R325 lay it out. -/
def Obligations.LaunchAndChildren : Prop := LaunchPackets ∧ LaunchRecords

/-- R39, R47, R99, R102, R103, R111 to R119, R133, R203, R205, R207: The commands on a subtree are DENIED unless they name a child (or, for THAW,
INVAL, REVOKE and CHECKPOINT, the root itself); FREEZE and CHECKPOINT set their flag; THAW clears its flag and resumes a halted context; PREEMPT
asks the teams of the chosen cores to stop; INVAL forgets the translations of its range; REVOKE ends overlapping CHECKPOINTs, ABORTED, and stops the
subtree for good. THAW clears its flag on every context of the subtree. A context not halted stays as it is; one halted for REMOTE_PIN_MISS, or
stopped for good, stays halted; one whose images all restore is halted no more, its teams that wait for no FAULT_DONE may re-enter, and the images
of the halt itself are freed; else it stays halted. FREEZE ends when every warp of the subtree is still; INVAL when no access that used a covered
translation is pending; REVOKE when nothing of the subtree is under way, and leaves nothing of it. A CHECKPOINT whose subtree is still makes its
copy, thaws the subtree and later commits its manifest, COMMIT last in memory, or in one append in flash; each failure ends it with its status. The
model's choices in it: the layout of what CHECKPOINT stages (log 14) and the moments of its steps (log 18); what THAW does with halts (log 44); what
REVOKE leaves, and the room counted (log 45); the bytes of Tempo in a copy (log 47); planes of forwarded commands, for which no device is waited
with the fabric disabled (log 69). -/
def Obligations.SubtreeCommands : Prop := SubtreeStarts ∧ Thaws ∧ SubtreeEnds

/-- R30, R46, R48, R92, R115 to R117: a command forwarded from another device acts on this device's member of the SUBTREE, and that device is
answered once the part is done, for THAW at once; with no member it has no effect, and is answered so. An answer to a command that this device
forwarded is counted; once the last has come and its own part is done, its packet ends with the count of members reached in bytes 16 and 17 of its
record, DENIED where this device denied it. Both are taken up on a link in service, with the fabric enabled and keys present. The plane of an answer
whose link is lost is the model's choice (log 69). So is that a forwarded command holds others only while its own part lasts (log 32), and that an
answer waits for its turn at the port (log 70). -/
def Obligations.ForwardedCommands : Prop :=
  (∀ s : State,
    let f := s.input.fwd
    let l := s.link s.input.link.toNat
    s.fabric.enable = true → s.cfg.erased = false → (l.state = 2 ∨ l.state = 3) → l.rxFails < 8 → s.input.dev ≠ s.fabric.deviceNum →
    ∃ y, OnlyLink (calm s) y s.input.link.toNat { l with rxFails := 0, rxNext := l.rxNext && !s.input.newKey } ∧
    (s.member f.subtree = none → ∃ t, exec .forwardedCommand s = .next t ∧ CommandAnswered y t s.input.dev s.input.link.toNat none false) ∧
    ∀ d, s.member f.subtree = some d → (∀ k ∈ s.eng.cmds, s.within k.ctx.toNat d = false ∧ s.within d k.ctx.toNat = false) →
      (f.cmd = .freeze → ∃ z, FlagsSet y z d f.level.toNat ∧
        exec .forwardedCommand s = .next (joinedPart z .freeze d s.input.dev s.input.link)) ∧
      (f.cmd = .thaw → (∀ h, (s.ctx d).halt = some h → h.reported = true ∨ h.tamper = true) → ∃ t, TakesPlace .forwardedCommand s t ∧
        CommandAnswered (y.thawHere d (if f.self then 0 else 1#4 <<< f.level.toNat)).1 t s.input.dev s.input.link.toNat (some d) true) ∧
      (f.cmd = .revoke →
        exec .forwardedCommand s = .next (joinedPart (y.beginRevoke d) (.revoke f.self) d s.input.dev s.input.link))) ∧
  (∀ (s : State) (k : Cmd) (left : List Nat) (n : Nat) (denied : Bool), Names s k → k.kind = .forward left n denied → s.input.dev.toNat ∈ left →
    let l := s.link s.input.link.toNat
    let plane := s.planeOf (s.input.dev.toNat * 2 ^ 44)
    let kind : CmdKind := .forward (left.filter fun x => x != s.input.dev.toNat) (if s.input.flag then n + 1 else n) denied
    let cmds := s.eng.cmds.map fun c => if c.id = k.id then { c with kind := kind } else c
    s.fabric.enable = true → s.cfg.erased = false → (l.state = 2 ∨ l.state = 3) → l.rxFails < 8 →
    ∃ y z, OnlyLink s y s.input.link.toNat { l with rxFails := 0, rxNext := l.rxNext && !s.input.newKey } ∧
      OnlyLink y z plane { y.link plane with txFails := 0 } ∧
      exec .forwardedCommandAnswer s = .next (State.settleForwards { z with eng := { z.eng with cmds := cmds } })) ∧
  ∀ (s : State) (l r : List Cmd) (k : Cmd) (n : Nat) (denied : Bool), s.eng.cmds = l ++ k :: r → k.kind = .forward [] n denied → k.answer = none →
    (∀ c ∈ l ++ r, ∀ m x, c.kind ≠ .forward [] m x) →
    ((∃ c ∈ s.eng.cmds, c.ctx = k.ctx ∧ c.queue = none) → s.settleForwards = s) ∧
    ((∀ c ∈ s.eng.cmds, c.ctx = k.ctx → c.queue ≠ none) → Ends s s.settleForwards k (if denied then 6 else 0) (BitVec.ofNat 128 n))

/-- R81, R86, R99, R114, R120, R137, R139 to R143, R148 to R151, R155, R159, R165, R174, R195 to R198, R203, R205: Of the contexts that have a team
which fits, the placement with the lowest ratio of the context's resident warps on its core to E comes next. A context that is frozen or halted
places none; else its first re-entering team that fits, in the order of readiness; then new teams, of bundles by PRIORITY and age, of each kernel in
turn, by index. A team that does not fit holds back its kernel. A team fits on a permitted core with its granules, accumulators and tile registers
(sixteen each a core: log 28) free and a lane range for each of its warps, of a pair on an even core and the next; of the cores where it fits it
takes the one with the fewest resident warps, then the lowest number. TEAM_PLACE seats the new team that comes next: its index, its warps at their
cores, slots and lanes, its threads at code offset 0 with their coordinates, its arguments in the uniform registers, every other register zero,
PLY_LEFT full. Nothing else changes but the bundle's turn, or, of a kernel with an entry stage, the release of stage 0. TEAM_IMAGE_COMMIT saves a
still team that stops for a fault, or is asked to and has every warp parked, where its image has room: the team holds its place in the save area,
and a fault's record goes to the handler of the stage that missed, naming the image. TEAM_REENTRY seats the saved team that comes next from its
image, or halts its context with PARAM_BAD. The model's choices in it: the load of a pair is the sum of both cores and the ratio is taken for each
candidate core (log 46); the record of a failed re-entry has ENGINE_ID 0 (log 25). -/
def Obligations.TeamsPlacedAndSaved : Prop := PlacementOrder ∧ CoreChoice ∧ TeamPlacement ∧ TeamSaving

/-- R109, R120, R122, R188, R191 to R194, R196, R199 to R205: HALT_SAVE_COMPLETE of a halted context whose stores are drained and engines stopped,
where its save area has room: every resident team is saved with a full image, the images are chained from that of the team that holds the fault on,
the first names the stop records, and a KIND 2 record waits for the handler queue of the context, or of its root for a fault of a world rule. The
image of a team is its header, one record for each warp, full or as its safe-point entry says, then its tile registers, accumulators and dirty
granules, all coded in blocks. A saved team whose image is as it was written comes back with every saved value: uniform and vector registers,
predicates, arrivals, tile registers, accumulators and scratchpad; what the image does not hold reads zero. An image with COMMIT other than 1 fails,
as does a record with a PC that is not a multiple of 4; a thread whose PC was edited starts there, unparked. The model's choices in it: a save that
finds bytes unwritable waits (log 23); where an image is placed, and the order of its sections (log 14); a thread that waits to exit is saved
unparked (log 29); the header-only image of a halt without teams (log 44). -/
def Obligations.HaltSaves : Prop := HaltRecords ∧ ImageContents ∧ ImageRestored

/-- R187, R188, R191: ENGINE_HALT_STOP of an engine instance that holds work of a halted context and has no stop record yet: its stop record joins
the halt, with what it has still performed: the collective engine at most two packets of elements, the matrix engine at most its operation, the copy
engine at most eight beats. That an engine without work in progress has SKID 0 (log 45), and which elements make one packet (log 69), are the
model's choices. -/
def Obligations.EngineStops : Prop :=
  ∀ (s : State) (n team warp : Nat) (tm : Team) (h : Halt) (id : BitVec 8) (c : Nat),
    let rec' (op : DWord) (skid : Nat) : StopRec := { engineRecord id tm warp c 0 op 0 with skid := BitVec.ofNat 8 skid }
    s.team? team = some tm → (s.ctx c).halt = some h → h.saved = false → h.tamper = false →
    (∀ r ∈ h.recs, ¬(r.engine = id ∧ r.unit.toNat = (tm.warp warp).core)) →
    (∀ o, s.input.engine = .cle n → s.eng.cle.find? (fun o => o.id == n) = some o → o.team = team → o.warp = warp → o.ctx.toNat = c → id = 3 →
      let b := collBlock o.block
      ∃ (d : Nat) (gs : List (Nat × List Nat)) (x : CollRun) (y t : State), gs <+: b.batches d ∧ BatchesRun tm c b d gs { s := calm s, o := o } x ∧
        let sent := gs.countP fun g => decide (o.taken.length < g.1) && b.leaves d g.2 && decide (g.1 ≤ x.o.taken.length)
        sent ≤ min s.input.num 2 ∧
        y = { x.s with eng := { x.s.eng with cle := x.s.eng.cle.map fun (z : CleOp) => if z.id = o.id then x.o else z } } ∧
        HaltRaised y t c (rec' (o.pc.setWidth 64) sent) false (some team) ∧
        TakesPlace .engineHaltStop s (match x.fail with | some f => Marked f t | none => t)) ∧
    (∀ o, s.input.engine = .mxe n → s.eng.mxe.find? (fun o => o.id == n) = some o → o.team = team → o.warp = warp → s.ctxOf tm = c → id = 2 →
      (∀ p b r k, tm.place ≠ .saved p b r k) → s.eng.mxe.find? (fun x => x.team == team && x.warp == warp) = some o →
      ∃ t, HaltRaised (calm s) t c (rec' (o.pc.setWidth 64) (if s.input.flag then 1 else 0)) false (some team) ∧
        exec .engineHaltStop s = .next (if s.input.flag then t.finishMxe o else t)) ∧
    (∀ o e, s.input.engine = .tce n → s.eng.tce.find? (fun o => o.id == n) = some o → o.team = team → o.warp = warp → s.ctxOf tm = c → id = 1 →
      (∀ p b r k, tm.place ≠ .saved p b r k) → (s.kernelOf tm).sched[o.entry]? = some e →
      let run := ({ calm s with freeCtr := s.freeCtr + 1 } : State).copyEntry tm c o e (some (min s.input.num 8)) false
      o.beats ≤ run.1.done ∧ run.1.done - o.beats ≤ 8 ∧
      (e.bad (s.kernelOf tm) (o.src e) = true → ∃ t, exec .engineHaltStop s = .next t ∧ HaltRaised (calm s) t c (rec' (entryBeat o.entry o.beats) 0) false (some team)) ∧
      (e.bad (s.kernelOf tm) (o.src e) = false → ∃ t,
        HaltRaised (run.1.s.setBeats o.id run.1.done) t c (rec' (entryBeat o.entry run.1.done) (run.1.done - o.beats)) false (some team) ∧
        TakesPlace .engineHaltStop s (match run.1.fail with
          | some x => Marked x t
          | none => if run.1.done = run.2 then t.finishTce o e (s.kernelOf tm).pair else t)))

/-- R66, R123, R172, R174, R175, R181, R183, R187, R188, R191, R207, R209, R213, R225, R325 to R332, R338: TCE_ENTRY_COMPLETE of a released entry,
in a context that is not halted: PARAM_BAD of an entry that breaks a rule; else its beats are performed; a fault stops it at its beat, a beat that
strikes a watchpoint raises WATCH after at most eight more, and a whole one completes the entry. An entry reads every element of its source and
every scale; a read that fails ends it, and so does a refused gate copy, with no byte written. Else each destination element has its place and its
code or its addend from its source element, each block its scale, and the beats of one 64-byte block each are performed in ascending order from the
first not yet performed on. A beat in this device's memory puts its items over the 64 bytes of its block in one step; in scratchpad over those of
the team, or of each live team that a multicast names; a team that is gone loses the beat, which is counted for its core. A completed entry that
wrote a scratchpad tile leaves its record in TILE_REG of the team, on both halves of a pair; a warp that has not yet waited on the stage may still
see the earlier one. The last entry of its stage lowers the token that each warp bound to the stage. The model's choices in it: the tile record on
both halves of a pair (log 27); the source is read whole before the first beat, a gate is judged before it, and which core counts a lost beat (log
35); a copy from scratchpad to compartment 1 or 2 is an admitted gate copy (log 66). -/
def Obligations.CopyEntries : Prop := EntryEvents ∧ EntryCopies ∧ EntryBeats ∧ StageEnds

/-- R30, R39 to R41, R43, R44, R172, R183, R188, R191, R209, R213, R224, R334 to R336, R354: `coll`, once the warp's earlier accesses are performed
and its token has room, reads its block and starts one instance of its group, bound to the token, and what its results will replace is noted; a
block off its 64-byte boundary, or one that R334 refuses, is PARAM_BAD, and a read that fails stops the context. COLL_COMPLETE of an operation whose
block is bad or whose members' parameters do not agree is PARAM_BAD; with the fabric disabled and more than one rank it is a miss of KIND 3. Else
each outgoing element is read once, in order, and kept, and those that go to other ranks leave with their codes; then what it receives is written,
line by line, its token is lowered and it is done; a fault on the way halts with the progress kept. The elements a participant receives are those of
its kind: reductions over all ranks combined pairwise in the order of one tree (the model's choice of one order: log 36), or elements moved bit for
bit; they are written line by line, each byte as it is, but that where another agent has stored since the issue it may be the byte of that store or
of the issue as well; a struck watchpoint raises WATCH once all are written. The model's choices in it: PEER and LOCAL_ADDR of OSF_ERR with the
fabric disabled, the one tree, and which of the codes a byte stored meanwhile has (log 36); the grouping of elements in packets and their plane (log
69). -/
def Obligations.Collectives : Prop := CollIssue ∧ CollCompletes ∧ CollDelivers

/-- R9, R152, R153, R155 to R157, R203, R350: ZUGZWANG_SWAP of a slot none of whose warps makes progress saves the warp parked at `ralloc` of the
lowest PRIORITY, of these the one placed last, and serves the slot; ZUGZWANG_REENTRY brings a swapped warp back when its lanes hold its old pages
and its request, or its image fails and halts the context; RIPE_ENTRY_WRITE moves the oldest deferred entry whose period is over to a ripe ring with
room. The record of a re-entry that fails, with ENGINE_ID 0 and CAUSE PARAM_BAD, is the model's choice (log 25), as are which warp has the highest
slot-local number (log 50), the full ring (log 51) and a ring whose data fail (log 23). -/
def Obligations.ZugzwangAndRipe : Prop :=
  (∀ (s s1 : State) (t n a b pos : Nat) (w : Warp) (tm : Team),
    let core := s.input.core.toNat
    let slot := s.input.coreSlot.toNat
    let c := s.ctxOf tm
    let img := (calm s).zugImage tm n w
    (s.slotWarps core slot).any s.progresses = false → (t, n, a, b, w) ∈ s.parkedRallocs core slot →
    (∀ x ∈ s.parkedRallocs core slot, x ≠ (t, n, a, b, w) → a < x.2.2.1 ∨ (a = x.2.2.1 ∧ (x.2.2.2.2.placed < w.placed ∨ (x.2.2.2.2.placed = w.placed ∧ x.2.1 < n)))) →
    s.team? t = some tm →
    (img.1.ctx c).areaPos img.2.2.length s.input.pos = some pos → img.1.holdImage c pos img.2.2 = .ok s1 → s1.team? t = some tm →
    ∃ y v, TakesPlace .zugzwangSwap s ((y.serveSlot core slot 0).after t n) ∧ OnlyTeam s1 y t { tm with warps := tm.warps.set n v } ∧
      v = { tm.warp n with hold := none, owes := v.owes, clearing := v.clearing, trailing := v.trailing, zug := some (pos, img.2.2.length), img := img.2.1 } ∧
      ((tm.warp n).rsec = 0 → v.owes = false ∧ v.trailing = none)) ∧
  (∀ (s : State), (s.slotWarps s.input.core.toNat s.input.coreSlot.toNat).any s.progresses = true ∨
      s.parkedRallocs s.input.core.toNat s.input.coreSlot.toNat = [] → exec .zugzwangSwap s = .refused .noOccasion) ∧
  (∀ (s : State) (core slot : Nat) (x : Nat × Nat × Nat × Nat × Warp), x ∈ s.parkedRallocs core slot ↔
    ∃ tm, s.team? x.1 = some tm ∧ (x.1, x.2.1, x.2.2.2.1, x.2.2.2.2) ∈ s.slotWarps core slot ∧ x.2.2.1 = s.priorityOf tm ∧ ∃ a ∈ x.2.2.2.2.threads, a.park = .ralloc) ∧
  (∀ (s : State) (tm : Team) (pos bytes : Nat),
    let t := s.input.team
    let n := s.input.warp
    let w := tm.warp n
    let c := s.ctxOf tm
    let g := (calm s).imageNow c pos
    let back := g.bytes.bind (w.zugBack (s.kernelOf tm) tm.stage)
    s.team? t = some tm → w.zug = some (pos, bytes) → ¬StopStands s tm → (s.ctx c).halt = none → (s.slotWarps w.core w.slot).length < 32 →
    rangeFree (s.slotWarps w.core w.slot) w.base (8 * 2 ^ (s.kernelOf tm).width) (w.pages + w.rallocAsk) = true →
    (∀ w1, back = some w1 → g.s.team? t = some tm → w1.pages = w.pages + w.rallocAsk ∧ w1.rallocAsk = 0 ∧ w1.zug = none ∧ w1.freeRalloc = !w.img.full ∧
      (∀ a ∈ w1.threads, a.park ≠ .ralloc) ∧ ∃ y, TakesPlace .zugzwangReentry s (y.after t n) ∧
      OnlyTeam (({ g.s with stamp := s.stamp + 1 } : State).freeImage c pos) y t { tm with warps := tm.warps.set n { w1 with placed := s.stamp } }) ∧
    (back = none → (g.s.ctx c).halt ≠ none → TakesPlace .zugzwangReentry s g.s) ∧
    (back = none → (g.s.ctx c).halt = none → ∃ z, TakesPlace .zugzwangReentry s z ∧
      HaltRaised g.s z c { engine := 0, cause := 13, team := BitVec.ofNat 32 tm.index, ctx := BitVec.ofNat 16 c } false (some t))) ∧
  ∀ (s s1 : State) (a : BitVec 56) (tag : Nat) (i : DWord) (rest : List (BitVec 56 × Nat)),
    let c := s.input.ctx.toNat
    let x := (s.ctx c).tempo
    let n := 2 ^ x.ringLog2.toNat
    let base := x.ringBase.toNat / 4096 * 4096
    let place := base + 8 * (x.written.toNat % n)
    x.deferred = (a, tag) :: rest → tag ≤ x.gen → LogOk x.ringLog2 →
    s.canWrite c place 8 = true → s.canWrite c (base + 8 * n) 8 = true → s.canWrite c (base + 8 * n + 8) 8 = true →
    (calm s).ripeHead c (base + 8 * n + 8) = (s1, some i) → (s1.stall = none → x.written - i ≠ BitVec.ofNat 64 n) →
    let le (v : Nat) : List Byte := (List.range 8).map fun j => BitVec.ofNat 8 (v / 256 ^ j)
    let y := (s1.writeVa c place (le a.toNat)).writeVa c (base + 8 * n) (le (x.written + 1).toNat)
    (s1.stall ≠ none → TakesPlace .ripeEntryWrite s s1) ∧
    (s1.stall = none → ∃ t, TakesPlace .ripeEntryWrite s t.wakeAll ∧ OnlyCtx y t c { y.ctx c with tempo := { (y.ctx c).tempo with deferred := rest, written := x.written + 1 } })

/-- R105 to R107, R144 to R147: An issue opportunity of a slot of a core goes to the context with the lowest PASS, the lowest number on a tie, of
those that have a warp there that can issue; within it to the warp that goes first. With no such warp the opportunity passes. Before each move the
records of the dispatchers follow the contexts that have a warp that can issue on the core, and those of the link ports the contexts with traffic
queued there, whose answers leave in their turn; nothing else changes but waits that end. A port gives its turn to the context with the lowest PASS.
The effective weight of a context at dispatchers and link ports is E, from the share tables as they stand, rounded toward zero to a 24-bit fraction,
at least one unit. An opportunity that goes to a warp is charged to its context once, selects the warp's program counter and its active set, and
issues the instruction fetched for it; an instruction whose effect is confined to its warp issues for the packed warps as well, each as it would
alone. An issue whose packets have to wait does not take place, and the opportunity passes. The model's choices in it: the order in which contexts
become runnable, and what a port charges (log 55); which warps are packed, and which instructions issue alone (log 57); a step of its own decides a
turn, and how long a context waits at a port (log 70). -/
def Obligations.Dispatcher : Prop := OpportunityGoesTo ∧ RecordsFollow ∧ EffectiveWeights ∧ OpportunityUsed

/-- R248, R253, R144: a step whose next move is an operation or event is that event's meaning with its operands. A step whose next move
is an issue opportunity fetches the little-endian word at CODE_BASE + offset of the warp it goes to and runs what the word
decodes to, an early copy of the word serving as well; a word that check 1 or 2 refuses stops with ILLEGAL_INSTRUCTION; a fetch that
misses swaps the team out, one that finds EXEC clear or a flash page stops with PERMISSION, and one whose data fail stops imprecisely, which
is the model's choice (log 23). An issue whose packets have to wait for a plane or their turn passes (R47, R106; log 70), and the walks of a
memory instruction's addresses come before its effect (log 68); which move comes next, where the agenda names none, is the model's (log 4). -/
def Obligations.StepRunsDecoded : Prop :=
  let begun (s : State) (rest : List Move) (x : Input) : State := { s with agenda := rest, input := x, freeCtr := s.freeCtr + 1, steps := s.steps + 1 }
  (∀ (s : State) (i : Instr) (x : Input) (rest : List Move), s.agenda = .event i x :: rest → (s.power.stage = .off → i = .mainPowerOn) →
    ∃ y, UpToDate (begun s rest {}) y ∧ step s = exec i { y with issue := none, input := x }) ∧
  (∀ (s : State) (core slot : Nat), s.agenda = [] → s.power.stage ≠ .off → (begun s [] {}).upToDate.readySlot = some (core, slot) →
    s.stamp % 4 ≠ 0 → step s = step { s with agenda := [.issue core slot {}] }) ∧
  (∀ s : State, s.power.stage = .off → s.agenda = [] → step s = .fault .mainPowerOff) ∧
  ∀ (s x : State) (core slot : Nat) (inp : Input) (rest : List Move) (o : Offer) (pc : Word) (active : List Nat) (f0 : Focus),
    s.agenda = .issue core slot inp :: rest → s.power.stage ≠ .off →
    let q := (begun s rest inp).upToDate
    let va := f0.k.codeBase.toNat + f0.pc.toNat
    let z := x.walkFor f0.ctx va
    let f : Focus := { f0 with s := z }
    let comes (t : State) : Prop := ∃ r, step s = .next r ∧ Used q t r fun a b => b = a
    q.pickWarp core slot = some o → AtIssue q x core slot o pc active → x = { ((calm q).charged core slot o) with issue := x.issue } →
    x.focus? = some f0 →
    (z.stall ≠ none → comes z) ∧
    (z.stall = none →
      (va < 2 ^ 56 → ∀ m, z.translate 0x7000000 f.ctx va = .error m → m.why = .absent → comes (f.pageMiss m)) ∧
      (va < 2 ^ 56 → ∀ tr, z.translate 0x7000000 f.ctx va = .ok tr → tr.world = (z.ctx f.ctx).world →
        tr.exec = false ∨ tr.flash = true ∨ (tr.world ≠ 0 ∧ tr.comp ≠ 1) → ∃ t, comes t ∧ Stops f t 5 (BitVec.ofNat 64 va) 0 false) ∧
      (va < 2 ^ 56 → ∀ tr, z.translate 0x7000000 f.ctx va = .ok tr → tr.world ≠ (z.ctx f.ctx).world →
        ∃ t, comes t ∧ Stops f t 5 (BitVec.ofNat 64 va) 0 true) ∧
      (2 ^ 56 ≤ va → ∃ t, comes t ∧ Stops f t 5 (BitVec.ofNat 64 va) 0 false) ∧
      (va < 2 ^ 56 → ∀ tr a inter w c, z.translate 0x7000000 f.ctx va = .ok tr → tr.world = (z.ctx f.ctx).world → tr.exec = true → tr.flash = false →
        (tr.world = 0 ∨ tr.comp = 1) → z.targetOf tr va = .here a inter w c → MemByte a → inp.hits = [] →
        let now : Word := BitVec.ofNat 32 (littleEndian (z.readLocal inter.toNat a 4))
        let cause : BitVec 8 := if z.mem.poisoned (z.place inter.toNat a) then 0x11 else 0x12
        (Clean z inter w c a → (∀ j < 4, z.mixed (a + j) = false) →
          ∃ u y, (u = now ∨ (f.pc.toNat, u) ∈ f.k.code) ∧ Remembered z y f now ∧
            ∀ i, (decode u = .ok i ∨ (i = .illegalInstruction ∧ ∃ k, decode u = .bad k)) → issuesAlone i = true ∨ inp.pack = [] →
              ∃ v, IssuedAt i y v ∧ ((∀ t, exec i v ≠ .next t) → step s = exec i v) ∧
                ∀ t, exec i v = .next t → comes t ∧ (t.stall = none → (∀ k c, ¬SentFor q t k c) → step s = exec i v)) ∧
        (¬Clean z inter w c a → ∃ y t, OnlyTeam (countedIn z cause) y f.tid f.tm ∧ y.stamp = z.stamp ∧ y.freeCtr = z.freeCtr ∧
          HaltRaised y t f.ctx { coreRecord f cause (BitVec.ofNat 64 va) 0 with precise := false } false (some f.tid) ∧ comes t)))

/-- R246, R247, R249, R251 to R253: words written out from the encoding tables decode to the instructions they stand for, and words with a field
that must be zero are refused by the check that names it. -/
def Obligations.DecodedWords : Prop :=
  let p0 : Hdr := ⟨false, 0⟩
  decode 0x00000000 = .ok (.nop p0) ∧
  decode 0x01000180 = .ok (.barJoin p0 3) ∧
  decode 0x00200107 = .ok (.gate p0 2) ∧
  decode 0x00400005 = .ok (.spt false 5) ∧
  decode 0x3C004103 = .ok (.fadd ⟨false, 3⟩ 1 2 3) ∧
  decode 0x03240107 = .ok (.ld p0 16 2 ⟨.rlx, .team, .w256⟩) ∧
  decode 0x0322012E = .ok (.ld p0 8 2 ⟨.acq, .dev, .w128⟩) ∧
  decode 0x03620105 = .ok (.sld p0 8 2 ⟨.rlx, .team, .w64⟩) ∧
  decode 0x1381824C = .ok (.sst ⟨false, 1⟩ 6 4 ⟨.rel, .dev, .w32⟩) ∧
  decode 0x03424100 = .ok (.st p0 9 2 ⟨.rlx, .team, .x8⟩) ∧
  decode 0x03A10102 = .ok (.atomAdd p0 4 2 ⟨.rlx, .team, false, true⟩) ∧
  decode 0x04C1017E = .ok (.atomCas p0 4 2 ⟨.sc, .sys, true, true⟩) ∧
  decode 0x04E14100 = .ok (.atomFadd p0 5 2 ⟨.rlx, .team, false, false⟩) ∧
  decode 0x01200020 = .ok (.fence p0 .acq .team) ∧
  decode 0x01200050 = .ok (.fence p0 .rel .fab) ∧
  decode 0x41200068 = .ok (.fence ⟨false, 4⟩ .sc .dev) ∧
  decode 0x01200008 = .ok .illegalInstruction ∧
  decode 0x0120006C = .bad .mustBeZero ∧
  decode 0x03A10103 = .bad .mustBeZero ∧
  (∀ i, decode 0x04E14104 = .ok i → i.wellFormed = false)

/-- R246, R247, R249, R251: the word of every instruction of the core decodes to that instruction, with every operand at every value its field admits,
and a word that decodes to an instruction of the core is the word of that instruction. -/
def Obligations.DecodeEncode : Prop :=
  (∀ (i : Instr) (w : Word), encode i = some w → decode w = .ok i) ∧
  (∀ (w : Word) (i : Instr), decode w = .ok i → i ≠ .illegalInstruction → encode i = some w)

/-- R8: Right after main power is applied the registers that the spec gives a reset value hold it: the fabric is off with device
number 0 and slot i of the plane map i, the hash masks pair bits 8 to 13, TAMPER_CTL.ERASE_EN is 1, the power cap is 2,200 W, no
queue, context, function, alias window, watchpoint or bounce channel holds anything but zeros, no memory byte, tensor entry or
full word is other than 0, and no team is placed. The memory invariant at reset: memory lists nothing, so that it is in its one
canonical form. -/
def Obligations.ResetState : Prop := ResetValues ∧ ResetMemory

/-- Every step keeps memory in its one canonical form, so that two memories that read alike are the same data: a form of this model, which the host and
local memory of the spec (R51, R76) are held in. -/
def Obligations.MemoryStaysCanonical : Prop := ∀ s t : State, MemoryOk s → step s = .next t → MemoryOk t

end
end

