-- ==== Sys2Proof/Laws/Sparse.lean ====
section
/-! SUPPORT. The laws of the sparse tables: reading after writing, and the canonical form. They hold of every list, so that no
statement about a register or a byte needs the canonical form as a premise. -/

namespace Sys2Proof.Machine

variable {α : Type}

/-! ## Reading after writing -/

/-- Nothing below or at a key is left to find at that key once the leading entries up to it are dropped. -/
theorem Sparse.get_dropWhile_le (d : α) (k j : Nat) (h : j ≤ k) (m : List (Nat × α)) :
    Sparse.get d j (m.dropWhile fun p => decide (p.1 ≤ k)) = d := by
  induction m with
  | nil => rfl
  | cons p rest ih =>
    by_cases hp : p.1 ≤ k
    · simpa [List.dropWhile, hp] using ih
    · have h1 : ¬ p.1 = j := by omega
      have h2 : j < p.1 := by omega
      simp [List.dropWhile, hp, Sparse.get, h1, h2]

/-- Dropping the leading entries up to a key changes no reading above it. -/
theorem Sparse.get_dropWhile_gt (d : α) (k j : Nat) (h : k < j) (m : List (Nat × α)) :
    Sparse.get d j (m.dropWhile fun p => decide (p.1 ≤ k)) = Sparse.get d j m := by
  induction m with
  | nil => rfl
  | cons p rest ih =>
    by_cases hp : p.1 ≤ k
    · have h1 : ¬ p.1 = j := by omega
      have h2 : ¬ j < p.1 := by omega
      simpa [List.dropWhile, hp, Sparse.get, h1, h2] using ih
    · simp [List.dropWhile, hp]

/-- What is written is read. -/
@[simp] theorem Sparse.get_set_same [DecidableEq α] (d : α) (k : Nat) (x : α) (m : List (Nat × α)) :
    Sparse.get d k (Sparse.set d k x m) = x := by
  induction m with
  | nil => by_cases hx : x = d <;> simp [Sparse.set, Sparse.get, hx]
  | cons p rest ih =>
    obtain ⟨j, v⟩ := p
    by_cases h1 : k < j
    · have : ¬ j = k := by omega
      by_cases hx : x = d <;> simp [Sparse.set, Sparse.get, h1, hx, this]
    · by_cases h2 : k = j
      · subst h2
        by_cases hx : x = d
        · simp [Sparse.set, hx, Sparse.get_dropWhile_le]
        · simp [Sparse.set, Sparse.get, hx]
      · have : ¬ j = k := by omega
        simp [Sparse.set, Sparse.get, h1, h2, this, ih]

/-- A write leaves every other key alone. -/
theorem Sparse.get_set_other [DecidableEq α] (d : α) (k j : Nat) (x : α) (m : List (Nat × α)) (h : j ≠ k) :
    Sparse.get d j (Sparse.set d k x m) = Sparse.get d j m := by
  have hk : ¬ k = j := fun e => h e.symm
  induction m with
  | nil => by_cases hx : x = d <;> simp [Sparse.set, Sparse.get, hx, hk]
  | cons p rest ih =>
    obtain ⟨i, v⟩ := p
    by_cases h1 : k < i
    · by_cases hx : x = d
      · simp [Sparse.set, h1, hx]
      · by_cases h2 : j < k
        · have h3 : ¬ i = j := by omega
          have h4 : j < i := by omega
          simp [Sparse.set, Sparse.get, h1, hx, hk, h2, h3, h4]
        · simp [Sparse.set, Sparse.get, h1, hx, hk, h2]
    · by_cases h2 : k = i
      · subst h2
        by_cases hx : x = d
        · by_cases h3 : j < k
          · simp [Sparse.set, hx, Sparse.get, hk, h3, Sparse.get_dropWhile_le d k j (by omega)]
          · simp [Sparse.set, hx, Sparse.get, hk, h3, Sparse.get_dropWhile_gt d k j (by omega)]
        · simp [Sparse.set, Sparse.get, hk, hx]
      · simp [Sparse.set, Sparse.get, h1, h2, ih]

/-- Reading after writing, at any key. -/
theorem Sparse.get_set [DecidableEq α] (d : α) (k j : Nat) (x : α) (m : List (Nat × α)) :
    Sparse.get d j (Sparse.set d k x m) = if j = k then x else Sparse.get d j m := by
  by_cases h : j = k
  · subst h; simp
  · simp [h, Sparse.get_set_other d k j x m h]

/-! ## The canonical form -/

/-- A list canonical above a bound is canonical above any lower one. -/
theorem Sparse.wfFrom_mono [DecidableEq α] (d : α) (m : List (Nat × α)) (lo lo' : Nat) (h : lo' ≤ lo)
    (hw : Sparse.wfFrom d lo m = true) : Sparse.wfFrom d lo' m = true := by
  cases m with
  | nil => rfl
  | cons p rest =>
    simp only [Sparse.wfFrom, Bool.and_eq_true, decide_eq_true_eq] at hw ⊢
    exact ⟨⟨by omega, hw.1.2⟩, hw.2⟩

/-- Writing keeps the canonical form above a bound that the key respects. -/
theorem Sparse.wfFrom_set [DecidableEq α] (d : α) (k : Nat) (x : α) (m : List (Nat × α)) (lo : Nat) (hk : lo ≤ k)
    (hw : Sparse.wfFrom d lo m = true) : Sparse.wfFrom d lo (Sparse.set d k x m) = true := by
  induction m generalizing lo with
  | nil =>
    by_cases hx : x = d
    · simp [Sparse.set, hx, Sparse.wfFrom]
    · simp [Sparse.set, hx, Sparse.wfFrom, hk]
  | cons p rest ih =>
    obtain ⟨j, v⟩ := p
    simp only [Sparse.wfFrom, Bool.and_eq_true, decide_eq_true_eq] at hw
    obtain ⟨⟨h1, h2⟩, h3⟩ := hw
    by_cases hlt : k < j
    · by_cases hx : x = d
      · simp [Sparse.set, hlt, hx, Sparse.wfFrom, h1, h2, h3]
      · have h4 : k + 1 ≤ j := by omega
        simp [Sparse.set, hlt, hx, Sparse.wfFrom, h2, h3, hk, h4]
    · by_cases heq : k = j
      · subst heq
        by_cases hx : x = d
        · have h5 : rest.dropWhile (fun p => decide (p.1 ≤ k)) = rest := by
            cases rest with
            | nil => rfl
            | cons q more =>
              simp only [Sparse.wfFrom, Bool.and_eq_true, decide_eq_true_eq] at h3
              have : ¬ q.1 ≤ k := by omega
              simp [List.dropWhile, this]
          simp only [Sparse.set, Nat.lt_irrefl, if_false, if_true, hx, h5]
          exact Sparse.wfFrom_mono d rest (k + 1) lo (by omega) h3
        · simp [Sparse.set, hx, Sparse.wfFrom, h1, h3]
      · have h6 : j + 1 ≤ k := by omega
        simp [Sparse.set, hlt, heq, Sparse.wfFrom, h1, h2, ih (j + 1) h6 h3]

/-- Writing keeps the canonical form. -/
theorem Sparse.wf_set [DecidableEq α] (d : α) (k : Nat) (x : α) (m : List (Nat × α)) (hw : Sparse.wf d m = true) :
    Sparse.wf d (Sparse.set d k x m) = true := Sparse.wfFrom_set d k x m 0 (Nat.zero_le k) hw

/-- Leaving entries out keeps the canonical form above a bound. -/
theorem Sparse.wfFrom_filter [DecidableEq α] (d : α) (f : Nat × α → Bool) (m : List (Nat × α)) (lo : Nat)
    (hw : Sparse.wfFrom d lo m = true) : Sparse.wfFrom d lo (m.filter f) = true := by
  induction m generalizing lo with
  | nil => rfl
  | cons p rest ih =>
    obtain ⟨j, v⟩ := p
    simp only [Sparse.wfFrom, Bool.and_eq_true, decide_eq_true_eq] at hw
    obtain ⟨⟨h1, h2⟩, h3⟩ := hw
    by_cases hf : f (j, v) = true
    · simp [List.filter, hf, Sparse.wfFrom, h1, h2, ih (j + 1) h3]
    · simp only [List.filter, hf]
      exact ih lo (Sparse.wfFrom_mono d rest (j + 1) lo (by omega) h3)

/-- Leaving entries out keeps the canonical form. -/
theorem Sparse.wf_filter [DecidableEq α] (d : α) (f : Nat × α → Bool) (m : List (Nat × α)) (hw : Sparse.wf d m = true) :
    Sparse.wf d (m.filter f) = true := Sparse.wfFrom_filter d f m 0 hw

/-! ## Plain tables -/

/-- The record put is found. -/
@[simp] theorem Table.find_put_same (k : Nat) (x : α) (m : List (Nat × α)) : Table.find k (Table.put k x m) = some x := by
  induction m with
  | nil => simp [Table.put, Table.find]
  | cons p rest ih =>
    obtain ⟨j, v⟩ := p
    by_cases h1 : k < j
    · simp [Table.put, Table.find, h1]
    · by_cases h2 : k = j
      · simp [Table.put, Table.find, h2]
      · have : ¬ j = k := fun e => h2 e.symm
        simp [Table.put, Table.find, h1, h2, this, ih]

/-- Putting a record leaves every other key alone. -/
theorem Table.find_put_other (k j : Nat) (x : α) (m : List (Nat × α)) (h : j ≠ k) : Table.find j (Table.put k x m) = Table.find j m := by
  have hk : ¬ k = j := fun e => h e.symm
  induction m with
  | nil => simp [Table.put, Table.find, hk]
  | cons p rest ih =>
    obtain ⟨i, v⟩ := p
    by_cases h1 : k < i
    · simp [Table.put, Table.find, h1, hk]
    · by_cases h2 : k = i
      · subst h2; simp [Table.put, Table.find, hk]
      · simp [Table.put, Table.find, h1, h2, ih]

/-- Finding after putting, at any key. -/
theorem Table.find_put (k j : Nat) (x : α) (m : List (Nat × α)) :
    Table.find j (Table.put k x m) = if j = k then some x else Table.find j m := by
  by_cases h : j = k
  · subst h; simp
  · simp [h, Table.find_put_other k j x m h]

/-- A dropped key is not found. -/
@[simp] theorem Table.find_drop_same (k : Nat) (m : List (Nat × α)) : Table.find k (Table.drop k m) = none := by
  induction m with
  | nil => rfl
  | cons p rest ih =>
    simp only [Table.drop] at ih ⊢
    by_cases h : p.1 = k
    · rw [List.filter_cons_of_neg (by simp [h])]; exact ih
    · rw [List.filter_cons_of_pos (by simp [h])]; simp [Table.find, h, ih]

/-- Dropping a key leaves every other key alone. -/
theorem Table.find_drop_other (k j : Nat) (m : List (Nat × α)) (h : j ≠ k) : Table.find j (Table.drop k m) = Table.find j m := by
  induction m with
  | nil => rfl
  | cons p rest ih =>
    simp only [Table.drop] at ih ⊢
    by_cases hp : p.1 = k
    · have hj : ¬ p.1 = j := fun e => h (e ▸ hp)
      rw [List.filter_cons_of_neg (by simp [hp]), ih]; simp [Table.find, hj]
    · rw [List.filter_cons_of_pos (by simp [hp])]
      by_cases hj : p.1 = j <;> simp [Table.find, hj, ih]

end Sys2Proof.Machine
end

