-- ==== Sys2Proof/Laws/Dispatcher.lean ====
section
/-! SUPPORT. What charging an issue opportunity does, said once: to the records of dispatchers and link ports, and to the warps passed
over. -/

namespace Sys2Proof.Machine

theorem Table.find_map {α : Type} (f : Nat → α → α) (k : Nat) (l : List (Nat × α)) :
    Table.find k (l.map fun p => (p.1, f p.1 p.2)) = (Table.find k l).map (f k) := by
  induction l with
  | nil => rfl
  | cons p l ih =>
    simp only [List.map_cons, Table.find, ih]
    by_cases h : p.1 = k
    · subst h; simp
    · simp [h]

/-- The record of a context at a unit after a charge: of the one charged PASS grows, every other is as it was. -/
theorem passOf_chargePass (t : List (Nat × Disp)) (unit ctx n k c : Nat) (hx : ctx < 4096) (hc : c < 4096) :
    passOf (chargePass t unit ctx n) k c =
      if k = unit ∧ c = ctx then { passOf t unit ctx with pass := (passOf t unit ctx).pass + BitVec.ofNat 64 n } else passOf t k c := by
  rw [passOf, chargePass, Table.find_put]
  by_cases h : k = unit ∧ c = ctx
  · rw [h.1, h.2]; simp
  · rw [if_neg h, if_neg (by omega)]; rfl

/-- A team of the context charged has the warps that the opportunity passed over counted; no other changes. -/
theorem State.charged_team? (s : State) (core slot : Nat) (o : Offer) (t : Nat) :
    (s.charged core slot o).team? t = (s.team? t).map fun tm => if s.ctxOf tm == o.ctx then
      { tm with warps := (List.range tm.warps.length).map fun n => s.passOver core slot o.ctx o t n (tm.warp n) } else tm := by
  have h := Table.find_map (fun t (tm : Team) => if s.ctxOf tm == o.ctx then
      { tm with warps := (List.range tm.warps.length).map fun n => s.passOver core slot o.ctx o t n (tm.warp n) } else tm) t s.teams
  rw [State.team?, State.team?, ← h, State.charged]
  congr 1
  apply List.map_congr_left
  intro p _
  dsimp only
  split <;> rfl

@[simp] theorem State.charged_disp (s : State) (core slot : Nat) (o : Offer) :
    (s.charged core slot o).eng.disp = chargePass s.eng.disp core o.ctx (s.stride .core o.ctx) := rfl

/-- A warp passed over: counted where it could issue, else its count starts again (R145). -/
theorem State.passOver_eq (s : State) (core slot c : Nat) (o : Offer) (t wn : Nat) (w : Warp) :
    s.passOver core slot c o t wn w =
      if w.core ≠ core ∨ w.slot ≠ slot ∨ (t = o.team ∧ wn = o.wn) then w
      else { w with overlooked := if (s.offersFor core slot c).any fun x => x.team == t && x.wn == wn then w.overlooked + 1 else 0 } := by
  have hb : ((w.core != core || w.slot != slot || (t == o.team && wn == o.wn)) = true) =
      (w.core ≠ core ∨ w.slot ≠ slot ∨ (t = o.team ∧ wn = o.wn)) := by
    simp [or_assoc]
  rw [State.passOver]
  simp only [hb]
  split
  · rfl
  · split <;> rfl

end Sys2Proof.Machine
end

