-- ==== Sys2Proof/Laws/Issue.lean ====
section
/-! SUPPORT. What the issue of an instruction does, said once for each shared operation: the waits, the decode stops, the accounting,
and the writes of registers. -/

namespace Sys2Proof.Machine

/-! ## The issue -/

theorem coreIssue_none (i : Instr) (mark : Bool) (g : PReg) (hold : Focus → List Nat → Option Hold)
    (own : Focus → List Nat → Option State) (eff : Focus → List Nat → Focus → State) (s : State) (h : s.focus? = none) :
    coreIssue i mark g hold own eff s = .refused .noWarpAtIssue := by
  rw [coreIssue, h]

/-- Everything that an issue with a warp at issue can do: it waits, it stops at a decode check, it answers the instruction's own
stop, or it has the instruction's effect. -/
theorem coreIssue_some (i : Instr) (mark : Bool) (g : PReg) (hold : Focus → List Nat → Option Hold)
    (own : Focus → List Nat → Option State) (eff : Focus → List Nat → Focus → State) (s : State) (f : Focus)
    (h : s.focus? = some f) :
    coreIssue i mark g hold own eff s = .next (
      if mark && f.wp.outstanding then f.park .marker
      else match hold f (f.takers g) with
        | some w => f.park w
        | none =>
          if !i.wellFormed then f.stop Cause.illegalInstruction
          else if !f.regsOk i.uses then f.stop Cause.regRange
          else if f.wp.plyLeft == 0 && !isSpt i then f.stop Cause.safepointDistance
          else match own f (f.takers g) with
            | some t => t
            | none => eff f (f.takers g) f.commit) := by
  simp only [coreIssue, h]
  split
  · rfl
  · cases hold f (f.takers g) with
    | some w => rfl
    | none =>
      dsimp only
      split
      · rfl
      · split
        · rfl
        · split
          · rfl
          · cases own f (f.takers g) <;> rfl

/-- An issue with a warp at issue always answers a next state. -/
theorem coreIssue_next (i : Instr) (mark : Bool) (g : PReg) (hold : Focus → List Nat → Option Hold)
    (own : Focus → List Nat → Option State) (eff : Focus → List Nat → Focus → State) (s : State) (f : Focus)
    (h : s.focus? = some f) : ∃ t, coreIssue i mark g hold own eff s = .next t :=
  ⟨_, coreIssue_some i mark g hold own eff s f h⟩

/-- The instruction has its effect where nothing holds it and no check fails. -/
theorem coreIssue_eff (i : Instr) (mark : Bool) (g : PReg) (hold : Focus → List Nat → Option Hold)
    (own : Focus → List Nat → Option State) (eff : Focus → List Nat → Focus → State) (s : State) (f : Focus)
    (h : s.focus? = some f) (hm : mark = true → f.wp.outstanding = false) (hh : hold f (f.takers g) = none)
    (hw : i.wellFormed = true) (hr : f.regsOk i.uses = true) (hp : f.wp.plyLeft ≠ 0 ∨ isSpt i = true)
    (ho : own f (f.takers g) = none) :
    coreIssue i mark g hold own eff s = .next (eff f (f.takers g) f.commit) := by
  rw [coreIssue_some _ _ _ _ _ _ _ _ h]
  have h1 : (mark && f.wp.outstanding) = false := by cases mark <;> simp_all
  have h2 : (f.wp.plyLeft == 0 && !isSpt i) = false := by
    rcases hp with hp | hp <;> simp [hp]
  simp [h1, h2, hh, hw, hr, ho]

/-- The effect of an instruction that only changes its warp's registers. -/
theorem regIssue_eff (i : Instr) (mark : Bool) (g : PReg) (upd : Focus → List Nat → Warp → Warp) (s : State) (f : Focus)
    (h : s.focus? = some f) (hm : mark = true → f.wp.outstanding = false) (hw : i.wellFormed = true)
    (hr : f.regsOk i.uses = true) (hp : f.wp.plyLeft ≠ 0) :
    regIssue i mark g upd s = .next ((f.commit.withWarp (upd f (f.takers g) f.commit.wp)).close) :=
  coreIssue_eff i mark g noHold noFault _ s f h hm rfl hw hr (.inl hp) rfl

/-- The focus of a state is of that state. -/
theorem State.focus_state (s : State) (f : Focus) (h : s.focus? = some f) : f.s = s := by
  rw [State.focus?] at h
  split at h
  · cases h
  · split at h
    · cases h
    · cases h; rfl

/-- The lanes of a mask. -/
theorem laneMask_bit (ls : List Nat) (l : Nat) : (laneMask ls).getLsbD l = true ↔ l < 64 ∧ l ∈ ls := by
  have go : ∀ (ls : List Nat) (m : LaneMask), (ls.foldl (fun m x => m ||| (1#64 <<< x)) m).getLsbD l = true ↔
      m.getLsbD l = true ∨ (l < 64 ∧ l ∈ ls) := by
    intro ls
    induction ls with
    | nil => simp
    | cons x rest ih =>
      intro m
      have one : (1#64 <<< x).getLsbD l = true ↔ l < 64 ∧ l = x := by
        simp only [BitVec.getLsbD_shiftLeft, BitVec.getLsbD_one, Bool.and_eq_true, decide_eq_true_eq, Bool.not_eq_true']
        constructor
        · rintro ⟨⟨h1, h2⟩, h3, h4⟩
          have h5 : ¬ l < x := by simpa using h2
          exact ⟨h1, by omega⟩
        · rintro ⟨h1, rfl⟩
          simp [h1]
      simp only [List.foldl_cons, ih, BitVec.getLsbD_or, Bool.or_eq_true, one, List.mem_cons]
      constructor
      · rintro ((h | ⟨h1, h2⟩) | ⟨h1, h2⟩)
        · exact .inl h
        · exact .inr ⟨h1, .inl h2⟩
        · exact .inr ⟨h1, .inr h2⟩
      · rintro (h | ⟨h1, h2 | h2⟩)
        · exact .inl (.inl h)
        · exact .inl (.inr ⟨h1, h2⟩)
        · exact .inr ⟨h1, h2⟩
  have := go ls 0
  simpa [laneMask] using this

/-! ## Registers after a write -/

/-- A uniform register after a write. -/
theorem Warp.uRaw_setU (w : Warp) (r k : Nat) (x : Word) : (w.setU r x).uRaw k = if k = r then x else w.uRaw k := by
  simp only [Warp.uRaw, Warp.setU]
  split
  · next h => subst h; exact Sparse.get_set_same _ _ _ _
  · next h => exact Sparse.get_set_other _ _ _ _ _ h

@[simp] theorem Warp.setU_threads (w : Warp) (r : Nat) (x : Word) : (w.setU r x).threads = w.threads := rfl
@[simp] theorem Warp.setV_uni (w : Warp) (ls : List Nat) (r : Nat) (v : Nat → Word) : (w.setV ls r v).uni = w.uni := rfl
@[simp] theorem Warp.setV_window (w : Warp) (ls : List Nat) (r : Nat) (v : Nat → Word) : (w.setV ls r v).window = w.window := rfl
@[simp] theorem Warp.setV_vIndex (w : Warp) (ls : List Nat) (r k : Nat) (v : Nat → Word) : (w.setV ls r v).vIndex k = w.vIndex k := rfl

/-- A thread after a write of a vector register. -/
theorem Warp.setV_threads (w : Warp) (ls : List Nat) (r : Nat) (v : Nat → Word) :
    (w.setV ls r v).threads = w.threads.map fun t =>
      if ls.contains t.lane then { t with regs := Sparse.set 0 (w.window * 8 + r) (v t.lane) t.regs } else t := rfl

end Sys2Proof.Machine
end

