-- ==== Sys2Proof/Laws/Links.lean ====
section
/-! SUPPORT. What an attempt that may have to wait for a plane comes to, said once, and which fields an exhausted link leaves alone. -/

namespace Sys2Proof.Machine

/-- Links that enter KEY_EXHAUSTED leave all else alone. -/
theorem State.exhaust_eq (s : State) (links : List Nat) :
    s.exhaust links = { s with fabric := { s.fabric with links := (s.exhaust links).fabric.links } } := by
  unfold State.exhaust
  induction links generalizing s with
  | nil => rfl
  | cons i rest ih =>
    rw [List.foldl_cons, ih]
    rfl

/-- An attempt that is no event of its own takes place, waits for a plane, or waits for its turn at a port. -/
theorem State.attempt_cases (s t : State) :
    (t.stall ≠ none ∧ s.attempt t = (s.exhaust (s.exhausted t), false)) ∨
    (t.stall = none ∧ s.lateOn t = [] ∧ s.attempt t = (s.waitOver t, true)) ∨
    (t.stall = none ∧ s.lateOn t ≠ [] ∧ s.attempt t = (s.waitAt t (s.lateOn t), false)) := by
  unfold State.attempt
  rcases hs : t.stall with _ | i
  · rcases hl : s.lateOn t with _ | ⟨k, ks⟩ <;> simp
  · simp

/-- An event that may have to wait for its planes and ends in a next state: it takes place in its turn, its contexts wait for theirs, or
only links that a packet found exhausted enter KEY_EXHAUSTED. -/
theorem throughLinks_next {eff : State → Host.Outcome State Fault Refusal} {s t : State} (h : throughLinks eff s = .next t) :
    ∃ u, eff { s with stall := none } = .next u ∧
      ((u.stall = none ∧ s.lateOn u = [] ∧ t = s.waitOver u) ∨
       (u.stall = none ∧ s.lateOn u ≠ [] ∧ t = s.waitAt u (s.lateOn u)) ∨
       (u.stall ≠ none ∧ s.exhausted u ≠ [] ∧ t = s.exhaust (s.exhausted u))) := by
  unfold throughLinks at h
  split at h
  · next u hu =>
    refine ⟨u, hu, ?_⟩
    rcases hs : u.stall with _ | i
    · simp only [hs, Option.isNone_none, if_true, State.inTurn] at h
      rcases hl : s.lateOn u with _ | ⟨k, ks⟩
      · exact .inl ⟨rfl, rfl, by simpa [hl] using h.symm⟩
      · refine .inr (.inl ⟨rfl, by simp, ?_⟩)
        rw [hl] at h
        simp only [List.isEmpty_cons, Bool.false_eq_true, if_false] at h
        split at h <;> simp_all
    · refine .inr (.inr ⟨by simp, ?_⟩)
      simp only [hs, Option.isNone_some, Bool.false_eq_true, if_false] at h
      split at h <;> simp_all
  · next o hne => exact absurd h (hne t)

/-- The walk of an address that finds its translation cached, lies beyond the space, or is of a root with nothing befalling its reads,
leaves nothing. -/
theorem State.walkFor_still (s : State) (c va : Nat)
    (h : 2 ^ 56 ≤ va ∨ s.cached c va ≠ [] ∨ ((s.ctx c).level = 0 ∧ s.input.hits = [])) : s.walkFor c va = s := by
  unfold State.walkFor
  rcases h with h | h | ⟨h, g⟩
  · simp [show va ≥ 0x100000000000000 from h]
  · have : (s.cached c va).isEmpty = false := by simpa using h
    simp [this]
  · simp [h, g]

end Sys2Proof.Machine
end

