-- ==== Sys2Proof/Laws/State.lean ====
section
/-! SUPPORT. What each named update of the state leaves alone, field by field, and what it is read back as. -/

namespace Sys2Proof.Machine

/-! ## Fields that an update leaves alone -/

@[simp] theorem State.setTeam_power (s : State) (t : Nat) (v : Team) : (s.setTeam t v).power = s.power := rfl
@[simp] theorem State.setTeam_cfg (s : State) (t : Nat) (v : Team) : (s.setTeam t v).cfg = s.cfg := rfl
@[simp] theorem State.setTeam_fabric (s : State) (t : Nat) (v : Team) : (s.setTeam t v).fabric = s.fabric := rfl
@[simp] theorem State.setTeam_mem (s : State) (t : Nat) (v : Team) : (s.setTeam t v).mem = s.mem := rfl
@[simp] theorem State.setTeam_worlds (s : State) (t : Nat) (v : Team) : (s.setTeam t v).worlds = s.worlds := rfl
@[simp] theorem State.setTeam_queues (s : State) (t : Nat) (v : Team) : (s.setTeam t v).queues = s.queues := rfl
@[simp] theorem State.setTeam_ctxs (s : State) (t : Nat) (v : Team) : (s.setTeam t v).ctxs = s.ctxs := rfl
@[simp] theorem State.setTeam_bundles (s : State) (t : Nat) (v : Team) : (s.setTeam t v).bundles = s.bundles := rfl
@[simp] theorem State.setTeam_eng (s : State) (t : Nat) (v : Team) : (s.setTeam t v).eng = s.eng := rfl
@[simp] theorem State.setTeam_stamp (s : State) (t : Nat) (v : Team) : (s.setTeam t v).stamp = s.stamp := rfl
@[simp] theorem State.setTeam_freeCtr (s : State) (t : Nat) (v : Team) : (s.setTeam t v).freeCtr = s.freeCtr := rfl
@[simp] theorem State.setTeam_steps (s : State) (t : Nat) (v : Team) : (s.setTeam t v).steps = s.steps := rfl
@[simp] theorem State.setTeam_issue (s : State) (t : Nat) (v : Team) : (s.setTeam t v).issue = s.issue := rfl
@[simp] theorem State.setTeam_input (s : State) (t : Nat) (v : Team) : (s.setTeam t v).input = s.input := rfl
@[simp] theorem State.setTeam_stall (s : State) (t : Nat) (v : Team) : (s.setTeam t v).stall = s.stall := rfl
@[simp] theorem State.setTeam_agenda (s : State) (t : Nat) (v : Team) : (s.setTeam t v).agenda = s.agenda := rfl

@[simp] theorem State.setBundle_power (s : State) (b : Nat) (v : Bundle) : (s.setBundle b v).power = s.power := rfl
@[simp] theorem State.setBundle_cfg (s : State) (b : Nat) (v : Bundle) : (s.setBundle b v).cfg = s.cfg := rfl
@[simp] theorem State.setBundle_fabric (s : State) (b : Nat) (v : Bundle) : (s.setBundle b v).fabric = s.fabric := rfl
@[simp] theorem State.setBundle_mem (s : State) (b : Nat) (v : Bundle) : (s.setBundle b v).mem = s.mem := rfl
@[simp] theorem State.setBundle_worlds (s : State) (b : Nat) (v : Bundle) : (s.setBundle b v).worlds = s.worlds := rfl
@[simp] theorem State.setBundle_queues (s : State) (b : Nat) (v : Bundle) : (s.setBundle b v).queues = s.queues := rfl
@[simp] theorem State.setBundle_ctxs (s : State) (b : Nat) (v : Bundle) : (s.setBundle b v).ctxs = s.ctxs := rfl
@[simp] theorem State.setBundle_teams (s : State) (b : Nat) (v : Bundle) : (s.setBundle b v).teams = s.teams := rfl
@[simp] theorem State.setBundle_eng (s : State) (b : Nat) (v : Bundle) : (s.setBundle b v).eng = s.eng := rfl
@[simp] theorem State.setBundle_stamp (s : State) (b : Nat) (v : Bundle) : (s.setBundle b v).stamp = s.stamp := rfl
@[simp] theorem State.setBundle_freeCtr (s : State) (b : Nat) (v : Bundle) : (s.setBundle b v).freeCtr = s.freeCtr := rfl
@[simp] theorem State.setBundle_steps (s : State) (b : Nat) (v : Bundle) : (s.setBundle b v).steps = s.steps := rfl
@[simp] theorem State.setBundle_issue (s : State) (b : Nat) (v : Bundle) : (s.setBundle b v).issue = s.issue := rfl
@[simp] theorem State.setBundle_input (s : State) (b : Nat) (v : Bundle) : (s.setBundle b v).input = s.input := rfl
@[simp] theorem State.setBundle_stall (s : State) (b : Nat) (v : Bundle) : (s.setBundle b v).stall = s.stall := rfl
@[simp] theorem State.setBundle_agenda (s : State) (b : Nat) (v : Bundle) : (s.setBundle b v).agenda = s.agenda := rfl

@[simp] theorem State.setQueue_power (s : State) (q : Nat) (v : Queue) : (s.setQueue q v).power = s.power := rfl
@[simp] theorem State.setQueue_cfg (s : State) (q : Nat) (v : Queue) : (s.setQueue q v).cfg = s.cfg := rfl
@[simp] theorem State.setQueue_fabric (s : State) (q : Nat) (v : Queue) : (s.setQueue q v).fabric = s.fabric := rfl
@[simp] theorem State.setQueue_mem (s : State) (q : Nat) (v : Queue) : (s.setQueue q v).mem = s.mem := rfl
@[simp] theorem State.setQueue_worlds (s : State) (q : Nat) (v : Queue) : (s.setQueue q v).worlds = s.worlds := rfl
@[simp] theorem State.setQueue_ctxs (s : State) (q : Nat) (v : Queue) : (s.setQueue q v).ctxs = s.ctxs := rfl
@[simp] theorem State.setQueue_bundles (s : State) (q : Nat) (v : Queue) : (s.setQueue q v).bundles = s.bundles := rfl
@[simp] theorem State.setQueue_teams (s : State) (q : Nat) (v : Queue) : (s.setQueue q v).teams = s.teams := rfl
@[simp] theorem State.setQueue_eng (s : State) (q : Nat) (v : Queue) : (s.setQueue q v).eng = s.eng := rfl
@[simp] theorem State.setQueue_stamp (s : State) (q : Nat) (v : Queue) : (s.setQueue q v).stamp = s.stamp := rfl
@[simp] theorem State.setQueue_freeCtr (s : State) (q : Nat) (v : Queue) : (s.setQueue q v).freeCtr = s.freeCtr := rfl
@[simp] theorem State.setQueue_steps (s : State) (q : Nat) (v : Queue) : (s.setQueue q v).steps = s.steps := rfl
@[simp] theorem State.setQueue_issue (s : State) (q : Nat) (v : Queue) : (s.setQueue q v).issue = s.issue := rfl
@[simp] theorem State.setQueue_input (s : State) (q : Nat) (v : Queue) : (s.setQueue q v).input = s.input := rfl
@[simp] theorem State.setQueue_stall (s : State) (q : Nat) (v : Queue) : (s.setQueue q v).stall = s.stall := rfl
@[simp] theorem State.setQueue_agenda (s : State) (q : Nat) (v : Queue) : (s.setQueue q v).agenda = s.agenda := rfl

@[simp] theorem State.modQueue_power (s : State) (q : Nat) (f : Queue → Queue) : (s.modQueue q f).power = s.power := rfl
@[simp] theorem State.modQueue_cfg (s : State) (q : Nat) (f : Queue → Queue) : (s.modQueue q f).cfg = s.cfg := rfl
@[simp] theorem State.modQueue_fabric (s : State) (q : Nat) (f : Queue → Queue) : (s.modQueue q f).fabric = s.fabric := rfl
@[simp] theorem State.modQueue_mem (s : State) (q : Nat) (f : Queue → Queue) : (s.modQueue q f).mem = s.mem := rfl
@[simp] theorem State.modQueue_worlds (s : State) (q : Nat) (f : Queue → Queue) : (s.modQueue q f).worlds = s.worlds := rfl
@[simp] theorem State.modQueue_ctxs (s : State) (q : Nat) (f : Queue → Queue) : (s.modQueue q f).ctxs = s.ctxs := rfl
@[simp] theorem State.modQueue_bundles (s : State) (q : Nat) (f : Queue → Queue) : (s.modQueue q f).bundles = s.bundles := rfl
@[simp] theorem State.modQueue_teams (s : State) (q : Nat) (f : Queue → Queue) : (s.modQueue q f).teams = s.teams := rfl
@[simp] theorem State.modQueue_eng (s : State) (q : Nat) (f : Queue → Queue) : (s.modQueue q f).eng = s.eng := rfl
@[simp] theorem State.modQueue_stamp (s : State) (q : Nat) (f : Queue → Queue) : (s.modQueue q f).stamp = s.stamp := rfl
@[simp] theorem State.modQueue_freeCtr (s : State) (q : Nat) (f : Queue → Queue) : (s.modQueue q f).freeCtr = s.freeCtr := rfl
@[simp] theorem State.modQueue_steps (s : State) (q : Nat) (f : Queue → Queue) : (s.modQueue q f).steps = s.steps := rfl
@[simp] theorem State.modQueue_issue (s : State) (q : Nat) (f : Queue → Queue) : (s.modQueue q f).issue = s.issue := rfl
@[simp] theorem State.modQueue_input (s : State) (q : Nat) (f : Queue → Queue) : (s.modQueue q f).input = s.input := rfl
@[simp] theorem State.modQueue_stall (s : State) (q : Nat) (f : Queue → Queue) : (s.modQueue q f).stall = s.stall := rfl
@[simp] theorem State.modQueue_agenda (s : State) (q : Nat) (f : Queue → Queue) : (s.modQueue q f).agenda = s.agenda := rfl

@[simp] theorem State.setCtx_power (s : State) (n : Nat) (c : Ctx) : (s.setCtx n c).power = s.power := rfl
@[simp] theorem State.setCtx_cfg (s : State) (n : Nat) (c : Ctx) : (s.setCtx n c).cfg = s.cfg := rfl
@[simp] theorem State.setCtx_fabric (s : State) (n : Nat) (c : Ctx) : (s.setCtx n c).fabric = s.fabric := rfl
@[simp] theorem State.setCtx_mem (s : State) (n : Nat) (c : Ctx) : (s.setCtx n c).mem = s.mem := rfl
@[simp] theorem State.setCtx_worlds (s : State) (n : Nat) (c : Ctx) : (s.setCtx n c).worlds = s.worlds := rfl
@[simp] theorem State.setCtx_queues (s : State) (n : Nat) (c : Ctx) : (s.setCtx n c).queues = s.queues := rfl
@[simp] theorem State.setCtx_bundles (s : State) (n : Nat) (c : Ctx) : (s.setCtx n c).bundles = s.bundles := rfl
@[simp] theorem State.setCtx_teams (s : State) (n : Nat) (c : Ctx) : (s.setCtx n c).teams = s.teams := rfl
@[simp] theorem State.setCtx_eng (s : State) (n : Nat) (c : Ctx) : (s.setCtx n c).eng = s.eng := rfl
@[simp] theorem State.setCtx_stamp (s : State) (n : Nat) (c : Ctx) : (s.setCtx n c).stamp = s.stamp := rfl
@[simp] theorem State.setCtx_freeCtr (s : State) (n : Nat) (c : Ctx) : (s.setCtx n c).freeCtr = s.freeCtr := rfl
@[simp] theorem State.setCtx_steps (s : State) (n : Nat) (c : Ctx) : (s.setCtx n c).steps = s.steps := rfl
@[simp] theorem State.setCtx_issue (s : State) (n : Nat) (c : Ctx) : (s.setCtx n c).issue = s.issue := rfl
@[simp] theorem State.setCtx_input (s : State) (n : Nat) (c : Ctx) : (s.setCtx n c).input = s.input := rfl
@[simp] theorem State.setCtx_stall (s : State) (n : Nat) (c : Ctx) : (s.setCtx n c).stall = s.stall := rfl
@[simp] theorem State.setCtx_agenda (s : State) (n : Nat) (c : Ctx) : (s.setCtx n c).agenda = s.agenda := rfl

@[simp] theorem State.modCtx_power (s : State) (n : Nat) (f : Ctx → Ctx) : (s.modCtx n f).power = s.power := rfl
@[simp] theorem State.modCtx_cfg (s : State) (n : Nat) (f : Ctx → Ctx) : (s.modCtx n f).cfg = s.cfg := rfl
@[simp] theorem State.modCtx_fabric (s : State) (n : Nat) (f : Ctx → Ctx) : (s.modCtx n f).fabric = s.fabric := rfl
@[simp] theorem State.modCtx_mem (s : State) (n : Nat) (f : Ctx → Ctx) : (s.modCtx n f).mem = s.mem := rfl
@[simp] theorem State.modCtx_worlds (s : State) (n : Nat) (f : Ctx → Ctx) : (s.modCtx n f).worlds = s.worlds := rfl
@[simp] theorem State.modCtx_queues (s : State) (n : Nat) (f : Ctx → Ctx) : (s.modCtx n f).queues = s.queues := rfl
@[simp] theorem State.modCtx_bundles (s : State) (n : Nat) (f : Ctx → Ctx) : (s.modCtx n f).bundles = s.bundles := rfl
@[simp] theorem State.modCtx_teams (s : State) (n : Nat) (f : Ctx → Ctx) : (s.modCtx n f).teams = s.teams := rfl
@[simp] theorem State.modCtx_eng (s : State) (n : Nat) (f : Ctx → Ctx) : (s.modCtx n f).eng = s.eng := rfl
@[simp] theorem State.modCtx_stamp (s : State) (n : Nat) (f : Ctx → Ctx) : (s.modCtx n f).stamp = s.stamp := rfl
@[simp] theorem State.modCtx_freeCtr (s : State) (n : Nat) (f : Ctx → Ctx) : (s.modCtx n f).freeCtr = s.freeCtr := rfl
@[simp] theorem State.modCtx_steps (s : State) (n : Nat) (f : Ctx → Ctx) : (s.modCtx n f).steps = s.steps := rfl
@[simp] theorem State.modCtx_issue (s : State) (n : Nat) (f : Ctx → Ctx) : (s.modCtx n f).issue = s.issue := rfl
@[simp] theorem State.modCtx_input (s : State) (n : Nat) (f : Ctx → Ctx) : (s.modCtx n f).input = s.input := rfl
@[simp] theorem State.modCtx_stall (s : State) (n : Nat) (f : Ctx → Ctx) : (s.modCtx n f).stall = s.stall := rfl
@[simp] theorem State.modCtx_agenda (s : State) (n : Nat) (f : Ctx → Ctx) : (s.modCtx n f).agenda = s.agenda := rfl

@[simp] theorem State.setLink_power (s : State) (i : Nat) (l : Link) : (s.setLink i l).power = s.power := rfl
@[simp] theorem State.setLink_cfg (s : State) (i : Nat) (l : Link) : (s.setLink i l).cfg = s.cfg := rfl
@[simp] theorem State.setLink_mem (s : State) (i : Nat) (l : Link) : (s.setLink i l).mem = s.mem := rfl
@[simp] theorem State.setLink_worlds (s : State) (i : Nat) (l : Link) : (s.setLink i l).worlds = s.worlds := rfl
@[simp] theorem State.setLink_queues (s : State) (i : Nat) (l : Link) : (s.setLink i l).queues = s.queues := rfl
@[simp] theorem State.setLink_ctxs (s : State) (i : Nat) (l : Link) : (s.setLink i l).ctxs = s.ctxs := rfl
@[simp] theorem State.setLink_bundles (s : State) (i : Nat) (l : Link) : (s.setLink i l).bundles = s.bundles := rfl
@[simp] theorem State.setLink_teams (s : State) (i : Nat) (l : Link) : (s.setLink i l).teams = s.teams := rfl
@[simp] theorem State.setLink_eng (s : State) (i : Nat) (l : Link) : (s.setLink i l).eng = s.eng := rfl
@[simp] theorem State.setLink_stamp (s : State) (i : Nat) (l : Link) : (s.setLink i l).stamp = s.stamp := rfl
@[simp] theorem State.setLink_freeCtr (s : State) (i : Nat) (l : Link) : (s.setLink i l).freeCtr = s.freeCtr := rfl
@[simp] theorem State.setLink_steps (s : State) (i : Nat) (l : Link) : (s.setLink i l).steps = s.steps := rfl
@[simp] theorem State.setLink_issue (s : State) (i : Nat) (l : Link) : (s.setLink i l).issue = s.issue := rfl
@[simp] theorem State.setLink_input (s : State) (i : Nat) (l : Link) : (s.setLink i l).input = s.input := rfl
@[simp] theorem State.setLink_stall (s : State) (i : Nat) (l : Link) : (s.setLink i l).stall = s.stall := rfl
@[simp] theorem State.setLink_agenda (s : State) (i : Nat) (l : Link) : (s.setLink i l).agenda = s.agenda := rfl

@[simp] theorem State.chargePort_power (s : State) (link ctx flits : Nat) : (s.chargePort link ctx flits).power = s.power := rfl
@[simp] theorem State.chargePort_cfg (s : State) (link ctx flits : Nat) : (s.chargePort link ctx flits).cfg = s.cfg := rfl
@[simp] theorem State.chargePort_fabric (s : State) (link ctx flits : Nat) : (s.chargePort link ctx flits).fabric = s.fabric := rfl
@[simp] theorem State.chargePort_mem (s : State) (link ctx flits : Nat) : (s.chargePort link ctx flits).mem = s.mem := rfl
@[simp] theorem State.chargePort_worlds (s : State) (link ctx flits : Nat) : (s.chargePort link ctx flits).worlds = s.worlds := rfl
@[simp] theorem State.chargePort_queues (s : State) (link ctx flits : Nat) : (s.chargePort link ctx flits).queues = s.queues := rfl
@[simp] theorem State.chargePort_ctxs (s : State) (link ctx flits : Nat) : (s.chargePort link ctx flits).ctxs = s.ctxs := rfl
@[simp] theorem State.chargePort_bundles (s : State) (link ctx flits : Nat) : (s.chargePort link ctx flits).bundles = s.bundles := rfl
@[simp] theorem State.chargePort_teams (s : State) (link ctx flits : Nat) : (s.chargePort link ctx flits).teams = s.teams := rfl
@[simp] theorem State.chargePort_stamp (s : State) (link ctx flits : Nat) : (s.chargePort link ctx flits).stamp = s.stamp := rfl
@[simp] theorem State.chargePort_freeCtr (s : State) (link ctx flits : Nat) : (s.chargePort link ctx flits).freeCtr = s.freeCtr := rfl
@[simp] theorem State.chargePort_steps (s : State) (link ctx flits : Nat) : (s.chargePort link ctx flits).steps = s.steps := rfl
@[simp] theorem State.chargePort_issue (s : State) (link ctx flits : Nat) : (s.chargePort link ctx flits).issue = s.issue := rfl
@[simp] theorem State.chargePort_input (s : State) (link ctx flits : Nat) : (s.chargePort link ctx flits).input = s.input := rfl
@[simp] theorem State.chargePort_stall (s : State) (link ctx flits : Nat) : (s.chargePort link ctx flits).stall = s.stall := rfl
@[simp] theorem State.chargePort_agenda (s : State) (link ctx flits : Nat) : (s.chargePort link ctx flits).agenda = s.agenda := rfl

@[simp] theorem State.countIntegrity_power (s : State)  : (s.countIntegrity ).power = s.power := rfl
@[simp] theorem State.countIntegrity_fabric (s : State)  : (s.countIntegrity ).fabric = s.fabric := rfl
@[simp] theorem State.countIntegrity_mem (s : State)  : (s.countIntegrity ).mem = s.mem := rfl
@[simp] theorem State.countIntegrity_worlds (s : State)  : (s.countIntegrity ).worlds = s.worlds := rfl
@[simp] theorem State.countIntegrity_queues (s : State)  : (s.countIntegrity ).queues = s.queues := rfl
@[simp] theorem State.countIntegrity_ctxs (s : State)  : (s.countIntegrity ).ctxs = s.ctxs := rfl
@[simp] theorem State.countIntegrity_bundles (s : State)  : (s.countIntegrity ).bundles = s.bundles := rfl
@[simp] theorem State.countIntegrity_teams (s : State)  : (s.countIntegrity ).teams = s.teams := rfl
@[simp] theorem State.countIntegrity_eng (s : State)  : (s.countIntegrity ).eng = s.eng := rfl
@[simp] theorem State.countIntegrity_stamp (s : State)  : (s.countIntegrity ).stamp = s.stamp := rfl
@[simp] theorem State.countIntegrity_freeCtr (s : State)  : (s.countIntegrity ).freeCtr = s.freeCtr := rfl
@[simp] theorem State.countIntegrity_steps (s : State)  : (s.countIntegrity ).steps = s.steps := rfl
@[simp] theorem State.countIntegrity_issue (s : State)  : (s.countIntegrity ).issue = s.issue := rfl
@[simp] theorem State.countIntegrity_input (s : State)  : (s.countIntegrity ).input = s.input := rfl
@[simp] theorem State.countIntegrity_stall (s : State)  : (s.countIntegrity ).stall = s.stall := rfl
@[simp] theorem State.countIntegrity_agenda (s : State)  : (s.countIntegrity ).agenda = s.agenda := rfl

@[simp] theorem State.recordOsf_power (s : State) (c : Nat) (peer : BitVec 12) (target : Bool) (kind : BitVec 2) (a : Nat) : (s.recordOsf c peer target kind a).power = s.power := rfl
@[simp] theorem State.recordOsf_cfg (s : State) (c : Nat) (peer : BitVec 12) (target : Bool) (kind : BitVec 2) (a : Nat) : (s.recordOsf c peer target kind a).cfg = s.cfg := rfl
@[simp] theorem State.recordOsf_fabric (s : State) (c : Nat) (peer : BitVec 12) (target : Bool) (kind : BitVec 2) (a : Nat) : (s.recordOsf c peer target kind a).fabric = s.fabric := rfl
@[simp] theorem State.recordOsf_mem (s : State) (c : Nat) (peer : BitVec 12) (target : Bool) (kind : BitVec 2) (a : Nat) : (s.recordOsf c peer target kind a).mem = s.mem := rfl
@[simp] theorem State.recordOsf_worlds (s : State) (c : Nat) (peer : BitVec 12) (target : Bool) (kind : BitVec 2) (a : Nat) : (s.recordOsf c peer target kind a).worlds = s.worlds := rfl
@[simp] theorem State.recordOsf_queues (s : State) (c : Nat) (peer : BitVec 12) (target : Bool) (kind : BitVec 2) (a : Nat) : (s.recordOsf c peer target kind a).queues = s.queues := rfl
@[simp] theorem State.recordOsf_bundles (s : State) (c : Nat) (peer : BitVec 12) (target : Bool) (kind : BitVec 2) (a : Nat) : (s.recordOsf c peer target kind a).bundles = s.bundles := rfl
@[simp] theorem State.recordOsf_teams (s : State) (c : Nat) (peer : BitVec 12) (target : Bool) (kind : BitVec 2) (a : Nat) : (s.recordOsf c peer target kind a).teams = s.teams := rfl
@[simp] theorem State.recordOsf_eng (s : State) (c : Nat) (peer : BitVec 12) (target : Bool) (kind : BitVec 2) (a : Nat) : (s.recordOsf c peer target kind a).eng = s.eng := rfl
@[simp] theorem State.recordOsf_stamp (s : State) (c : Nat) (peer : BitVec 12) (target : Bool) (kind : BitVec 2) (a : Nat) : (s.recordOsf c peer target kind a).stamp = s.stamp := rfl
@[simp] theorem State.recordOsf_freeCtr (s : State) (c : Nat) (peer : BitVec 12) (target : Bool) (kind : BitVec 2) (a : Nat) : (s.recordOsf c peer target kind a).freeCtr = s.freeCtr := rfl
@[simp] theorem State.recordOsf_steps (s : State) (c : Nat) (peer : BitVec 12) (target : Bool) (kind : BitVec 2) (a : Nat) : (s.recordOsf c peer target kind a).steps = s.steps := rfl
@[simp] theorem State.recordOsf_issue (s : State) (c : Nat) (peer : BitVec 12) (target : Bool) (kind : BitVec 2) (a : Nat) : (s.recordOsf c peer target kind a).issue = s.issue := rfl
@[simp] theorem State.recordOsf_input (s : State) (c : Nat) (peer : BitVec 12) (target : Bool) (kind : BitVec 2) (a : Nat) : (s.recordOsf c peer target kind a).input = s.input := rfl
@[simp] theorem State.recordOsf_stall (s : State) (c : Nat) (peer : BitVec 12) (target : Bool) (kind : BitVec 2) (a : Nat) : (s.recordOsf c peer target kind a).stall = s.stall := rfl
@[simp] theorem State.recordOsf_agenda (s : State) (c : Nat) (peer : BitVec 12) (target : Bool) (kind : BitVec 2) (a : Nat) : (s.recordOsf c peer target kind a).agenda = s.agenda := rfl

@[simp] theorem State.setBounce_power (s : State) (c k : Nat) (b : Bounce) : (s.setBounce c k b).power = s.power := rfl
@[simp] theorem State.setBounce_cfg (s : State) (c k : Nat) (b : Bounce) : (s.setBounce c k b).cfg = s.cfg := rfl
@[simp] theorem State.setBounce_fabric (s : State) (c k : Nat) (b : Bounce) : (s.setBounce c k b).fabric = s.fabric := rfl
@[simp] theorem State.setBounce_mem (s : State) (c k : Nat) (b : Bounce) : (s.setBounce c k b).mem = s.mem := rfl
@[simp] theorem State.setBounce_worlds (s : State) (c k : Nat) (b : Bounce) : (s.setBounce c k b).worlds = s.worlds := rfl
@[simp] theorem State.setBounce_queues (s : State) (c k : Nat) (b : Bounce) : (s.setBounce c k b).queues = s.queues := rfl
@[simp] theorem State.setBounce_bundles (s : State) (c k : Nat) (b : Bounce) : (s.setBounce c k b).bundles = s.bundles := rfl
@[simp] theorem State.setBounce_teams (s : State) (c k : Nat) (b : Bounce) : (s.setBounce c k b).teams = s.teams := rfl
@[simp] theorem State.setBounce_eng (s : State) (c k : Nat) (b : Bounce) : (s.setBounce c k b).eng = s.eng := rfl
@[simp] theorem State.setBounce_stamp (s : State) (c k : Nat) (b : Bounce) : (s.setBounce c k b).stamp = s.stamp := rfl
@[simp] theorem State.setBounce_freeCtr (s : State) (c k : Nat) (b : Bounce) : (s.setBounce c k b).freeCtr = s.freeCtr := rfl
@[simp] theorem State.setBounce_steps (s : State) (c k : Nat) (b : Bounce) : (s.setBounce c k b).steps = s.steps := rfl
@[simp] theorem State.setBounce_issue (s : State) (c k : Nat) (b : Bounce) : (s.setBounce c k b).issue = s.issue := rfl
@[simp] theorem State.setBounce_input (s : State) (c k : Nat) (b : Bounce) : (s.setBounce c k b).input = s.input := rfl
@[simp] theorem State.setBounce_stall (s : State) (c k : Nat) (b : Bounce) : (s.setBounce c k b).stall = s.stall := rfl
@[simp] theorem State.setBounce_agenda (s : State) (c k : Nat) (b : Bounce) : (s.setBounce c k b).agenda = s.agenda := rfl

@[simp] theorem State.writeLocal_power (s : State) (inter a : Nat) (bs : List Byte) : (s.writeLocal inter a bs).power = s.power := rfl
@[simp] theorem State.writeLocal_cfg (s : State) (inter a : Nat) (bs : List Byte) : (s.writeLocal inter a bs).cfg = s.cfg := rfl
@[simp] theorem State.writeLocal_fabric (s : State) (inter a : Nat) (bs : List Byte) : (s.writeLocal inter a bs).fabric = s.fabric := rfl
@[simp] theorem State.writeLocal_worlds (s : State) (inter a : Nat) (bs : List Byte) : (s.writeLocal inter a bs).worlds = s.worlds := rfl
@[simp] theorem State.writeLocal_queues (s : State) (inter a : Nat) (bs : List Byte) : (s.writeLocal inter a bs).queues = s.queues := rfl
@[simp] theorem State.writeLocal_ctxs (s : State) (inter a : Nat) (bs : List Byte) : (s.writeLocal inter a bs).ctxs = s.ctxs := rfl
@[simp] theorem State.writeLocal_bundles (s : State) (inter a : Nat) (bs : List Byte) : (s.writeLocal inter a bs).bundles = s.bundles := rfl
@[simp] theorem State.writeLocal_teams (s : State) (inter a : Nat) (bs : List Byte) : (s.writeLocal inter a bs).teams = s.teams := rfl
@[simp] theorem State.writeLocal_eng (s : State) (inter a : Nat) (bs : List Byte) : (s.writeLocal inter a bs).eng = s.eng := rfl
@[simp] theorem State.writeLocal_stamp (s : State) (inter a : Nat) (bs : List Byte) : (s.writeLocal inter a bs).stamp = s.stamp := rfl
@[simp] theorem State.writeLocal_freeCtr (s : State) (inter a : Nat) (bs : List Byte) : (s.writeLocal inter a bs).freeCtr = s.freeCtr := rfl
@[simp] theorem State.writeLocal_steps (s : State) (inter a : Nat) (bs : List Byte) : (s.writeLocal inter a bs).steps = s.steps := rfl
@[simp] theorem State.writeLocal_issue (s : State) (inter a : Nat) (bs : List Byte) : (s.writeLocal inter a bs).issue = s.issue := rfl
@[simp] theorem State.writeLocal_input (s : State) (inter a : Nat) (bs : List Byte) : (s.writeLocal inter a bs).input = s.input := rfl
@[simp] theorem State.writeLocal_stall (s : State) (inter a : Nat) (bs : List Byte) : (s.writeLocal inter a bs).stall = s.stall := rfl
@[simp] theorem State.writeLocal_agenda (s : State) (inter a : Nat) (bs : List Byte) : (s.writeLocal inter a bs).agenda = s.agenda := rfl

@[simp] theorem State.pushRec_power (s : State) (q : Nat) (r : CRec) : (s.pushRec q r).power = s.power := rfl
@[simp] theorem State.pushRec_cfg (s : State) (q : Nat) (r : CRec) : (s.pushRec q r).cfg = s.cfg := rfl
@[simp] theorem State.pushRec_fabric (s : State) (q : Nat) (r : CRec) : (s.pushRec q r).fabric = s.fabric := rfl
@[simp] theorem State.pushRec_mem (s : State) (q : Nat) (r : CRec) : (s.pushRec q r).mem = s.mem := rfl
@[simp] theorem State.pushRec_worlds (s : State) (q : Nat) (r : CRec) : (s.pushRec q r).worlds = s.worlds := rfl
@[simp] theorem State.pushRec_ctxs (s : State) (q : Nat) (r : CRec) : (s.pushRec q r).ctxs = s.ctxs := rfl
@[simp] theorem State.pushRec_bundles (s : State) (q : Nat) (r : CRec) : (s.pushRec q r).bundles = s.bundles := rfl
@[simp] theorem State.pushRec_teams (s : State) (q : Nat) (r : CRec) : (s.pushRec q r).teams = s.teams := rfl
@[simp] theorem State.pushRec_eng (s : State) (q : Nat) (r : CRec) : (s.pushRec q r).eng = s.eng := rfl
@[simp] theorem State.pushRec_stamp (s : State) (q : Nat) (r : CRec) : (s.pushRec q r).stamp = s.stamp := rfl
@[simp] theorem State.pushRec_freeCtr (s : State) (q : Nat) (r : CRec) : (s.pushRec q r).freeCtr = s.freeCtr := rfl
@[simp] theorem State.pushRec_steps (s : State) (q : Nat) (r : CRec) : (s.pushRec q r).steps = s.steps := rfl
@[simp] theorem State.pushRec_issue (s : State) (q : Nat) (r : CRec) : (s.pushRec q r).issue = s.issue := rfl
@[simp] theorem State.pushRec_input (s : State) (q : Nat) (r : CRec) : (s.pushRec q r).input = s.input := rfl
@[simp] theorem State.pushRec_stall (s : State) (q : Nat) (r : CRec) : (s.pushRec q r).stall = s.stall := rfl
@[simp] theorem State.pushRec_agenda (s : State) (q : Nat) (r : CRec) : (s.pushRec q r).agenda = s.agenda := rfl

@[simp] theorem State.closePacket_power (s : State) (q : Nat) (i : Word) : (s.closePacket q i).power = s.power := rfl
@[simp] theorem State.closePacket_cfg (s : State) (q : Nat) (i : Word) : (s.closePacket q i).cfg = s.cfg := rfl
@[simp] theorem State.closePacket_fabric (s : State) (q : Nat) (i : Word) : (s.closePacket q i).fabric = s.fabric := rfl
@[simp] theorem State.closePacket_mem (s : State) (q : Nat) (i : Word) : (s.closePacket q i).mem = s.mem := rfl
@[simp] theorem State.closePacket_worlds (s : State) (q : Nat) (i : Word) : (s.closePacket q i).worlds = s.worlds := rfl
@[simp] theorem State.closePacket_ctxs (s : State) (q : Nat) (i : Word) : (s.closePacket q i).ctxs = s.ctxs := rfl
@[simp] theorem State.closePacket_bundles (s : State) (q : Nat) (i : Word) : (s.closePacket q i).bundles = s.bundles := rfl
@[simp] theorem State.closePacket_teams (s : State) (q : Nat) (i : Word) : (s.closePacket q i).teams = s.teams := rfl
@[simp] theorem State.closePacket_eng (s : State) (q : Nat) (i : Word) : (s.closePacket q i).eng = s.eng := rfl
@[simp] theorem State.closePacket_stamp (s : State) (q : Nat) (i : Word) : (s.closePacket q i).stamp = s.stamp := rfl
@[simp] theorem State.closePacket_freeCtr (s : State) (q : Nat) (i : Word) : (s.closePacket q i).freeCtr = s.freeCtr := rfl
@[simp] theorem State.closePacket_steps (s : State) (q : Nat) (i : Word) : (s.closePacket q i).steps = s.steps := rfl
@[simp] theorem State.closePacket_issue (s : State) (q : Nat) (i : Word) : (s.closePacket q i).issue = s.issue := rfl
@[simp] theorem State.closePacket_input (s : State) (q : Nat) (i : Word) : (s.closePacket q i).input = s.input := rfl
@[simp] theorem State.closePacket_stall (s : State) (q : Nat) (i : Word) : (s.closePacket q i).stall = s.stall := rfl
@[simp] theorem State.closePacket_agenda (s : State) (q : Nat) (i : Word) : (s.closePacket q i).agenda = s.agenda := rfl

@[simp] theorem State.pushHandler_power (s : State) (c : Nat) (r : HRec) : (s.pushHandler c r).power = s.power := rfl
@[simp] theorem State.pushHandler_cfg (s : State) (c : Nat) (r : HRec) : (s.pushHandler c r).cfg = s.cfg := rfl
@[simp] theorem State.pushHandler_fabric (s : State) (c : Nat) (r : HRec) : (s.pushHandler c r).fabric = s.fabric := rfl
@[simp] theorem State.pushHandler_mem (s : State) (c : Nat) (r : HRec) : (s.pushHandler c r).mem = s.mem := rfl
@[simp] theorem State.pushHandler_worlds (s : State) (c : Nat) (r : HRec) : (s.pushHandler c r).worlds = s.worlds := rfl
@[simp] theorem State.pushHandler_queues (s : State) (c : Nat) (r : HRec) : (s.pushHandler c r).queues = s.queues := rfl
@[simp] theorem State.pushHandler_bundles (s : State) (c : Nat) (r : HRec) : (s.pushHandler c r).bundles = s.bundles := rfl
@[simp] theorem State.pushHandler_teams (s : State) (c : Nat) (r : HRec) : (s.pushHandler c r).teams = s.teams := rfl
@[simp] theorem State.pushHandler_eng (s : State) (c : Nat) (r : HRec) : (s.pushHandler c r).eng = s.eng := rfl
@[simp] theorem State.pushHandler_stamp (s : State) (c : Nat) (r : HRec) : (s.pushHandler c r).stamp = s.stamp := rfl
@[simp] theorem State.pushHandler_freeCtr (s : State) (c : Nat) (r : HRec) : (s.pushHandler c r).freeCtr = s.freeCtr := rfl
@[simp] theorem State.pushHandler_steps (s : State) (c : Nat) (r : HRec) : (s.pushHandler c r).steps = s.steps := rfl
@[simp] theorem State.pushHandler_issue (s : State) (c : Nat) (r : HRec) : (s.pushHandler c r).issue = s.issue := rfl
@[simp] theorem State.pushHandler_input (s : State) (c : Nat) (r : HRec) : (s.pushHandler c r).input = s.input := rfl
@[simp] theorem State.pushHandler_stall (s : State) (c : Nat) (r : HRec) : (s.pushHandler c r).stall = s.stall := rfl
@[simp] theorem State.pushHandler_agenda (s : State) (c : Nat) (r : HRec) : (s.pushHandler c r).agenda = s.agenda := rfl

@[simp] theorem State.addCmd_power (s : State) (k : CmdKind) (c : Nat) (x : Option (Slot × Packet)) : (s.addCmd k c x).power = s.power := rfl
@[simp] theorem State.addCmd_cfg (s : State) (k : CmdKind) (c : Nat) (x : Option (Slot × Packet)) : (s.addCmd k c x).cfg = s.cfg := rfl
@[simp] theorem State.addCmd_fabric (s : State) (k : CmdKind) (c : Nat) (x : Option (Slot × Packet)) : (s.addCmd k c x).fabric = s.fabric := rfl
@[simp] theorem State.addCmd_mem (s : State) (k : CmdKind) (c : Nat) (x : Option (Slot × Packet)) : (s.addCmd k c x).mem = s.mem := rfl
@[simp] theorem State.addCmd_worlds (s : State) (k : CmdKind) (c : Nat) (x : Option (Slot × Packet)) : (s.addCmd k c x).worlds = s.worlds := rfl
@[simp] theorem State.addCmd_queues (s : State) (k : CmdKind) (c : Nat) (x : Option (Slot × Packet)) : (s.addCmd k c x).queues = s.queues := rfl
@[simp] theorem State.addCmd_ctxs (s : State) (k : CmdKind) (c : Nat) (x : Option (Slot × Packet)) : (s.addCmd k c x).ctxs = s.ctxs := rfl
@[simp] theorem State.addCmd_bundles (s : State) (k : CmdKind) (c : Nat) (x : Option (Slot × Packet)) : (s.addCmd k c x).bundles = s.bundles := rfl
@[simp] theorem State.addCmd_teams (s : State) (k : CmdKind) (c : Nat) (x : Option (Slot × Packet)) : (s.addCmd k c x).teams = s.teams := rfl
@[simp] theorem State.addCmd_stamp (s : State) (k : CmdKind) (c : Nat) (x : Option (Slot × Packet)) : (s.addCmd k c x).stamp = s.stamp := rfl
@[simp] theorem State.addCmd_freeCtr (s : State) (k : CmdKind) (c : Nat) (x : Option (Slot × Packet)) : (s.addCmd k c x).freeCtr = s.freeCtr := rfl
@[simp] theorem State.addCmd_steps (s : State) (k : CmdKind) (c : Nat) (x : Option (Slot × Packet)) : (s.addCmd k c x).steps = s.steps := rfl
@[simp] theorem State.addCmd_issue (s : State) (k : CmdKind) (c : Nat) (x : Option (Slot × Packet)) : (s.addCmd k c x).issue = s.issue := rfl
@[simp] theorem State.addCmd_input (s : State) (k : CmdKind) (c : Nat) (x : Option (Slot × Packet)) : (s.addCmd k c x).input = s.input := rfl
@[simp] theorem State.addCmd_stall (s : State) (k : CmdKind) (c : Nat) (x : Option (Slot × Packet)) : (s.addCmd k c x).stall = s.stall := rfl
@[simp] theorem State.addCmd_agenda (s : State) (k : CmdKind) (c : Nat) (x : Option (Slot × Packet)) : (s.addCmd k c x).agenda = s.agenda := rfl

@[simp] theorem State.dropCmd_power (s : State) (id : Nat) : (s.dropCmd id).power = s.power := rfl
@[simp] theorem State.dropCmd_cfg (s : State) (id : Nat) : (s.dropCmd id).cfg = s.cfg := rfl
@[simp] theorem State.dropCmd_fabric (s : State) (id : Nat) : (s.dropCmd id).fabric = s.fabric := rfl
@[simp] theorem State.dropCmd_mem (s : State) (id : Nat) : (s.dropCmd id).mem = s.mem := rfl
@[simp] theorem State.dropCmd_worlds (s : State) (id : Nat) : (s.dropCmd id).worlds = s.worlds := rfl
@[simp] theorem State.dropCmd_queues (s : State) (id : Nat) : (s.dropCmd id).queues = s.queues := rfl
@[simp] theorem State.dropCmd_ctxs (s : State) (id : Nat) : (s.dropCmd id).ctxs = s.ctxs := rfl
@[simp] theorem State.dropCmd_bundles (s : State) (id : Nat) : (s.dropCmd id).bundles = s.bundles := rfl
@[simp] theorem State.dropCmd_teams (s : State) (id : Nat) : (s.dropCmd id).teams = s.teams := rfl
@[simp] theorem State.dropCmd_stamp (s : State) (id : Nat) : (s.dropCmd id).stamp = s.stamp := rfl
@[simp] theorem State.dropCmd_freeCtr (s : State) (id : Nat) : (s.dropCmd id).freeCtr = s.freeCtr := rfl
@[simp] theorem State.dropCmd_steps (s : State) (id : Nat) : (s.dropCmd id).steps = s.steps := rfl
@[simp] theorem State.dropCmd_issue (s : State) (id : Nat) : (s.dropCmd id).issue = s.issue := rfl
@[simp] theorem State.dropCmd_input (s : State) (id : Nat) : (s.dropCmd id).input = s.input := rfl
@[simp] theorem State.dropCmd_stall (s : State) (id : Nat) : (s.dropCmd id).stall = s.stall := rfl
@[simp] theorem State.dropCmd_agenda (s : State) (id : Nat) : (s.dropCmd id).agenda = s.agenda := rfl

@[simp] theorem State.heard_power (s : State) (i : Nat) : (s.heard i).power = s.power := rfl
@[simp] theorem State.heard_cfg (s : State) (i : Nat) : (s.heard i).cfg = s.cfg := rfl
@[simp] theorem State.heard_mem (s : State) (i : Nat) : (s.heard i).mem = s.mem := rfl
@[simp] theorem State.heard_worlds (s : State) (i : Nat) : (s.heard i).worlds = s.worlds := rfl
@[simp] theorem State.heard_queues (s : State) (i : Nat) : (s.heard i).queues = s.queues := rfl
@[simp] theorem State.heard_ctxs (s : State) (i : Nat) : (s.heard i).ctxs = s.ctxs := rfl
@[simp] theorem State.heard_bundles (s : State) (i : Nat) : (s.heard i).bundles = s.bundles := rfl
@[simp] theorem State.heard_teams (s : State) (i : Nat) : (s.heard i).teams = s.teams := rfl
@[simp] theorem State.heard_eng (s : State) (i : Nat) : (s.heard i).eng = s.eng := rfl
@[simp] theorem State.heard_stamp (s : State) (i : Nat) : (s.heard i).stamp = s.stamp := rfl
@[simp] theorem State.heard_freeCtr (s : State) (i : Nat) : (s.heard i).freeCtr = s.freeCtr := rfl
@[simp] theorem State.heard_steps (s : State) (i : Nat) : (s.heard i).steps = s.steps := rfl
@[simp] theorem State.heard_issue (s : State) (i : Nat) : (s.heard i).issue = s.issue := rfl
@[simp] theorem State.heard_input (s : State) (i : Nat) : (s.heard i).input = s.input := rfl
@[simp] theorem State.heard_stall (s : State) (i : Nat) : (s.heard i).stall = s.stall := rfl
@[simp] theorem State.heard_agenda (s : State) (i : Nat) : (s.heard i).agenda = s.agenda := rfl

@[simp] theorem State.takeSeq_power (s : State)  : (s.takeSeq ).power = s.power := rfl
@[simp] theorem State.takeSeq_cfg (s : State)  : (s.takeSeq ).cfg = s.cfg := rfl
@[simp] theorem State.takeSeq_mem (s : State)  : (s.takeSeq ).mem = s.mem := rfl
@[simp] theorem State.takeSeq_worlds (s : State)  : (s.takeSeq ).worlds = s.worlds := rfl
@[simp] theorem State.takeSeq_queues (s : State)  : (s.takeSeq ).queues = s.queues := rfl
@[simp] theorem State.takeSeq_ctxs (s : State)  : (s.takeSeq ).ctxs = s.ctxs := rfl
@[simp] theorem State.takeSeq_bundles (s : State)  : (s.takeSeq ).bundles = s.bundles := rfl
@[simp] theorem State.takeSeq_teams (s : State)  : (s.takeSeq ).teams = s.teams := rfl
@[simp] theorem State.takeSeq_eng (s : State)  : (s.takeSeq ).eng = s.eng := rfl
@[simp] theorem State.takeSeq_stamp (s : State)  : (s.takeSeq ).stamp = s.stamp := rfl
@[simp] theorem State.takeSeq_freeCtr (s : State)  : (s.takeSeq ).freeCtr = s.freeCtr := rfl
@[simp] theorem State.takeSeq_steps (s : State)  : (s.takeSeq ).steps = s.steps := rfl
@[simp] theorem State.takeSeq_issue (s : State)  : (s.takeSeq ).issue = s.issue := rfl
@[simp] theorem State.takeSeq_input (s : State)  : (s.takeSeq ).input = s.input := rfl
@[simp] theorem State.takeSeq_stall (s : State)  : (s.takeSeq ).stall = s.stall := rfl
@[simp] theorem State.takeSeq_agenda (s : State)  : (s.takeSeq ).agenda = s.agenda := rfl

@[simp] theorem State.waitAt_power (s : State) (t : State) (links : List Nat) : (s.waitAt t links).power = s.power := rfl
@[simp] theorem State.waitAt_cfg (s : State) (t : State) (links : List Nat) : (s.waitAt t links).cfg = s.cfg := rfl
@[simp] theorem State.waitAt_fabric (s : State) (t : State) (links : List Nat) : (s.waitAt t links).fabric = s.fabric := rfl
@[simp] theorem State.waitAt_mem (s : State) (t : State) (links : List Nat) : (s.waitAt t links).mem = s.mem := rfl
@[simp] theorem State.waitAt_worlds (s : State) (t : State) (links : List Nat) : (s.waitAt t links).worlds = s.worlds := rfl
@[simp] theorem State.waitAt_queues (s : State) (t : State) (links : List Nat) : (s.waitAt t links).queues = s.queues := rfl
@[simp] theorem State.waitAt_ctxs (s : State) (t : State) (links : List Nat) : (s.waitAt t links).ctxs = s.ctxs := rfl
@[simp] theorem State.waitAt_bundles (s : State) (t : State) (links : List Nat) : (s.waitAt t links).bundles = s.bundles := rfl
@[simp] theorem State.waitAt_teams (s : State) (t : State) (links : List Nat) : (s.waitAt t links).teams = s.teams := rfl
@[simp] theorem State.waitAt_stamp (s : State) (t : State) (links : List Nat) : (s.waitAt t links).stamp = s.stamp := rfl
@[simp] theorem State.waitAt_freeCtr (s : State) (t : State) (links : List Nat) : (s.waitAt t links).freeCtr = s.freeCtr := rfl
@[simp] theorem State.waitAt_steps (s : State) (t : State) (links : List Nat) : (s.waitAt t links).steps = s.steps := rfl
@[simp] theorem State.waitAt_issue (s : State) (t : State) (links : List Nat) : (s.waitAt t links).issue = s.issue := rfl
@[simp] theorem State.waitAt_input (s : State) (t : State) (links : List Nat) : (s.waitAt t links).input = s.input := rfl
@[simp] theorem State.waitAt_stall (s : State) (t : State) (links : List Nat) : (s.waitAt t links).stall = s.stall := rfl
@[simp] theorem State.waitAt_agenda (s : State) (t : State) (links : List Nat) : (s.waitAt t links).agenda = s.agenda := rfl

@[simp] theorem State.sendAnswer_power (s : State) (i c : Nat) (p : FarPacket) : (s.sendAnswer i c p).power = s.power := rfl
@[simp] theorem State.sendAnswer_cfg (s : State) (i c : Nat) (p : FarPacket) : (s.sendAnswer i c p).cfg = s.cfg := rfl
@[simp] theorem State.sendAnswer_mem (s : State) (i c : Nat) (p : FarPacket) : (s.sendAnswer i c p).mem = s.mem := rfl
@[simp] theorem State.sendAnswer_worlds (s : State) (i c : Nat) (p : FarPacket) : (s.sendAnswer i c p).worlds = s.worlds := rfl
@[simp] theorem State.sendAnswer_queues (s : State) (i c : Nat) (p : FarPacket) : (s.sendAnswer i c p).queues = s.queues := rfl
@[simp] theorem State.sendAnswer_ctxs (s : State) (i c : Nat) (p : FarPacket) : (s.sendAnswer i c p).ctxs = s.ctxs := rfl
@[simp] theorem State.sendAnswer_bundles (s : State) (i c : Nat) (p : FarPacket) : (s.sendAnswer i c p).bundles = s.bundles := rfl
@[simp] theorem State.sendAnswer_teams (s : State) (i c : Nat) (p : FarPacket) : (s.sendAnswer i c p).teams = s.teams := rfl
@[simp] theorem State.sendAnswer_stamp (s : State) (i c : Nat) (p : FarPacket) : (s.sendAnswer i c p).stamp = s.stamp := rfl
@[simp] theorem State.sendAnswer_freeCtr (s : State) (i c : Nat) (p : FarPacket) : (s.sendAnswer i c p).freeCtr = s.freeCtr := rfl
@[simp] theorem State.sendAnswer_steps (s : State) (i c : Nat) (p : FarPacket) : (s.sendAnswer i c p).steps = s.steps := rfl
@[simp] theorem State.sendAnswer_issue (s : State) (i c : Nat) (p : FarPacket) : (s.sendAnswer i c p).issue = s.issue := rfl
@[simp] theorem State.sendAnswer_input (s : State) (i c : Nat) (p : FarPacket) : (s.sendAnswer i c p).input = s.input := rfl
@[simp] theorem State.sendAnswer_stall (s : State) (i c : Nat) (p : FarPacket) : (s.sendAnswer i c p).stall = s.stall := rfl
@[simp] theorem State.sendAnswer_agenda (s : State) (i c : Nat) (p : FarPacket) : (s.sendAnswer i c p).agenda = s.agenda := rfl

@[simp] theorem State.waitOver_power (s t : State) : (s.waitOver t).power = t.power := rfl
@[simp] theorem State.waitOver_cfg (s t : State) : (s.waitOver t).cfg = t.cfg := rfl
@[simp] theorem State.waitOver_fabric (s t : State) : (s.waitOver t).fabric = t.fabric := rfl
@[simp] theorem State.waitOver_mem (s t : State) : (s.waitOver t).mem = t.mem := rfl
@[simp] theorem State.waitOver_worlds (s t : State) : (s.waitOver t).worlds = t.worlds := rfl
@[simp] theorem State.waitOver_queues (s t : State) : (s.waitOver t).queues = t.queues := rfl
@[simp] theorem State.waitOver_ctxs (s t : State) : (s.waitOver t).ctxs = t.ctxs := rfl
@[simp] theorem State.waitOver_bundles (s t : State) : (s.waitOver t).bundles = t.bundles := rfl
@[simp] theorem State.waitOver_teams (s t : State) : (s.waitOver t).teams = t.teams := rfl
@[simp] theorem State.waitOver_stamp (s t : State) : (s.waitOver t).stamp = t.stamp := rfl
@[simp] theorem State.waitOver_freeCtr (s t : State) : (s.waitOver t).freeCtr = t.freeCtr := rfl
@[simp] theorem State.waitOver_steps (s t : State) : (s.waitOver t).steps = t.steps := rfl
@[simp] theorem State.waitOver_issue (s t : State) : (s.waitOver t).issue = t.issue := rfl
@[simp] theorem State.waitOver_input (s t : State) : (s.waitOver t).input = t.input := rfl
@[simp] theorem State.waitOver_stall (s t : State) : (s.waitOver t).stall = t.stall := rfl
@[simp] theorem State.waitOver_agenda (s t : State) : (s.waitOver t).agenda = t.agenda := rfl

/-! ## The team changed, if it is there -/

@[simp] theorem State.modTeam_power (s : State) (t : Nat) (f : Team → Team) : (s.modTeam t f).power = s.power := by
  unfold State.modTeam; split <;> rfl
@[simp] theorem State.modWarp_power (s : State) (t w : Nat) (f : Warp → Warp) : (s.modWarp t w f).power = s.power := State.modTeam_power s t _
@[simp] theorem State.modTeam_cfg (s : State) (t : Nat) (f : Team → Team) : (s.modTeam t f).cfg = s.cfg := by
  unfold State.modTeam; split <;> rfl
@[simp] theorem State.modWarp_cfg (s : State) (t w : Nat) (f : Warp → Warp) : (s.modWarp t w f).cfg = s.cfg := State.modTeam_cfg s t _
@[simp] theorem State.modTeam_fabric (s : State) (t : Nat) (f : Team → Team) : (s.modTeam t f).fabric = s.fabric := by
  unfold State.modTeam; split <;> rfl
@[simp] theorem State.modWarp_fabric (s : State) (t w : Nat) (f : Warp → Warp) : (s.modWarp t w f).fabric = s.fabric := State.modTeam_fabric s t _
@[simp] theorem State.modTeam_mem (s : State) (t : Nat) (f : Team → Team) : (s.modTeam t f).mem = s.mem := by
  unfold State.modTeam; split <;> rfl
@[simp] theorem State.modWarp_mem (s : State) (t w : Nat) (f : Warp → Warp) : (s.modWarp t w f).mem = s.mem := State.modTeam_mem s t _
@[simp] theorem State.modTeam_worlds (s : State) (t : Nat) (f : Team → Team) : (s.modTeam t f).worlds = s.worlds := by
  unfold State.modTeam; split <;> rfl
@[simp] theorem State.modWarp_worlds (s : State) (t w : Nat) (f : Warp → Warp) : (s.modWarp t w f).worlds = s.worlds := State.modTeam_worlds s t _
@[simp] theorem State.modTeam_queues (s : State) (t : Nat) (f : Team → Team) : (s.modTeam t f).queues = s.queues := by
  unfold State.modTeam; split <;> rfl
@[simp] theorem State.modWarp_queues (s : State) (t w : Nat) (f : Warp → Warp) : (s.modWarp t w f).queues = s.queues := State.modTeam_queues s t _
@[simp] theorem State.modTeam_ctxs (s : State) (t : Nat) (f : Team → Team) : (s.modTeam t f).ctxs = s.ctxs := by
  unfold State.modTeam; split <;> rfl
@[simp] theorem State.modWarp_ctxs (s : State) (t w : Nat) (f : Warp → Warp) : (s.modWarp t w f).ctxs = s.ctxs := State.modTeam_ctxs s t _
@[simp] theorem State.modTeam_bundles (s : State) (t : Nat) (f : Team → Team) : (s.modTeam t f).bundles = s.bundles := by
  unfold State.modTeam; split <;> rfl
@[simp] theorem State.modWarp_bundles (s : State) (t w : Nat) (f : Warp → Warp) : (s.modWarp t w f).bundles = s.bundles := State.modTeam_bundles s t _
@[simp] theorem State.modTeam_eng (s : State) (t : Nat) (f : Team → Team) : (s.modTeam t f).eng = s.eng := by
  unfold State.modTeam; split <;> rfl
@[simp] theorem State.modWarp_eng (s : State) (t w : Nat) (f : Warp → Warp) : (s.modWarp t w f).eng = s.eng := State.modTeam_eng s t _
@[simp] theorem State.modTeam_stamp (s : State) (t : Nat) (f : Team → Team) : (s.modTeam t f).stamp = s.stamp := by
  unfold State.modTeam; split <;> rfl
@[simp] theorem State.modWarp_stamp (s : State) (t w : Nat) (f : Warp → Warp) : (s.modWarp t w f).stamp = s.stamp := State.modTeam_stamp s t _
@[simp] theorem State.modTeam_freeCtr (s : State) (t : Nat) (f : Team → Team) : (s.modTeam t f).freeCtr = s.freeCtr := by
  unfold State.modTeam; split <;> rfl
@[simp] theorem State.modWarp_freeCtr (s : State) (t w : Nat) (f : Warp → Warp) : (s.modWarp t w f).freeCtr = s.freeCtr := State.modTeam_freeCtr s t _
@[simp] theorem State.modTeam_steps (s : State) (t : Nat) (f : Team → Team) : (s.modTeam t f).steps = s.steps := by
  unfold State.modTeam; split <;> rfl
@[simp] theorem State.modWarp_steps (s : State) (t w : Nat) (f : Warp → Warp) : (s.modWarp t w f).steps = s.steps := State.modTeam_steps s t _
@[simp] theorem State.modTeam_issue (s : State) (t : Nat) (f : Team → Team) : (s.modTeam t f).issue = s.issue := by
  unfold State.modTeam; split <;> rfl
@[simp] theorem State.modWarp_issue (s : State) (t w : Nat) (f : Warp → Warp) : (s.modWarp t w f).issue = s.issue := State.modTeam_issue s t _
@[simp] theorem State.modTeam_input (s : State) (t : Nat) (f : Team → Team) : (s.modTeam t f).input = s.input := by
  unfold State.modTeam; split <;> rfl
@[simp] theorem State.modWarp_input (s : State) (t w : Nat) (f : Warp → Warp) : (s.modWarp t w f).input = s.input := State.modTeam_input s t _
@[simp] theorem State.modTeam_stall (s : State) (t : Nat) (f : Team → Team) : (s.modTeam t f).stall = s.stall := by
  unfold State.modTeam; split <;> rfl
@[simp] theorem State.modWarp_stall (s : State) (t w : Nat) (f : Warp → Warp) : (s.modWarp t w f).stall = s.stall := State.modTeam_stall s t _
@[simp] theorem State.modTeam_agenda (s : State) (t : Nat) (f : Team → Team) : (s.modTeam t f).agenda = s.agenda := by
  unfold State.modTeam; split <;> rfl
@[simp] theorem State.modWarp_agenda (s : State) (t w : Nat) (f : Warp → Warp) : (s.modWarp t w f).agenda = s.agenda := State.modTeam_agenda s t _

/-! ## A packet that completes -/

@[simp] theorem State.complete_power (s : State) (q : Nat) (p : Packet) (st : BitVec 8) (x : BitVec 128) :
    (s.complete q p st x).power = s.power := by
  unfold State.complete; split <;> rfl
@[simp] theorem State.complete_cfg (s : State) (q : Nat) (p : Packet) (st : BitVec 8) (x : BitVec 128) :
    (s.complete q p st x).cfg = s.cfg := by
  unfold State.complete; split <;> rfl
@[simp] theorem State.complete_fabric (s : State) (q : Nat) (p : Packet) (st : BitVec 8) (x : BitVec 128) :
    (s.complete q p st x).fabric = s.fabric := by
  unfold State.complete; split <;> rfl
@[simp] theorem State.complete_mem (s : State) (q : Nat) (p : Packet) (st : BitVec 8) (x : BitVec 128) :
    (s.complete q p st x).mem = s.mem := by
  unfold State.complete; split <;> rfl
@[simp] theorem State.complete_worlds (s : State) (q : Nat) (p : Packet) (st : BitVec 8) (x : BitVec 128) :
    (s.complete q p st x).worlds = s.worlds := by
  unfold State.complete; split <;> rfl
@[simp] theorem State.complete_ctxs (s : State) (q : Nat) (p : Packet) (st : BitVec 8) (x : BitVec 128) :
    (s.complete q p st x).ctxs = s.ctxs := by
  unfold State.complete; split <;> rfl
@[simp] theorem State.complete_bundles (s : State) (q : Nat) (p : Packet) (st : BitVec 8) (x : BitVec 128) :
    (s.complete q p st x).bundles = s.bundles := by
  unfold State.complete; split <;> rfl
@[simp] theorem State.complete_teams (s : State) (q : Nat) (p : Packet) (st : BitVec 8) (x : BitVec 128) :
    (s.complete q p st x).teams = s.teams := by
  unfold State.complete; split <;> rfl
@[simp] theorem State.complete_eng (s : State) (q : Nat) (p : Packet) (st : BitVec 8) (x : BitVec 128) :
    (s.complete q p st x).eng = s.eng := by
  unfold State.complete; split <;> rfl
@[simp] theorem State.complete_stamp (s : State) (q : Nat) (p : Packet) (st : BitVec 8) (x : BitVec 128) :
    (s.complete q p st x).stamp = s.stamp := by
  unfold State.complete; split <;> rfl
@[simp] theorem State.complete_freeCtr (s : State) (q : Nat) (p : Packet) (st : BitVec 8) (x : BitVec 128) :
    (s.complete q p st x).freeCtr = s.freeCtr := by
  unfold State.complete; split <;> rfl
@[simp] theorem State.complete_steps (s : State) (q : Nat) (p : Packet) (st : BitVec 8) (x : BitVec 128) :
    (s.complete q p st x).steps = s.steps := by
  unfold State.complete; split <;> rfl
@[simp] theorem State.complete_issue (s : State) (q : Nat) (p : Packet) (st : BitVec 8) (x : BitVec 128) :
    (s.complete q p st x).issue = s.issue := by
  unfold State.complete; split <;> rfl
@[simp] theorem State.complete_input (s : State) (q : Nat) (p : Packet) (st : BitVec 8) (x : BitVec 128) :
    (s.complete q p st x).input = s.input := by
  unfold State.complete; split <;> rfl
@[simp] theorem State.complete_stall (s : State) (q : Nat) (p : Packet) (st : BitVec 8) (x : BitVec 128) :
    (s.complete q p st x).stall = s.stall := by
  unfold State.complete; split <;> rfl
@[simp] theorem State.complete_agenda (s : State) (q : Nat) (p : Packet) (st : BitVec 8) (x : BitVec 128) :
    (s.complete q p st x).agenda = s.agenda := by
  unfold State.complete; split <;> rfl

/-! ## Reading back -/

/-- The team put is found. -/
@[simp] theorem State.team?_setTeam_same (s : State) (t : Nat) (v : Team) : (s.setTeam t v).team? t = some v := by
  simp [State.team?, State.setTeam]

/-- Putting a team leaves the others alone. -/
theorem State.team?_setTeam_other (s : State) (t u : Nat) (v : Team) (h : u ≠ t) : (s.setTeam t v).team? u = s.team? u := by
  simp [State.team?, State.setTeam, Table.find_put_other _ _ _ _ h]

/-- The context put is read back. -/
@[simp] theorem State.ctx_setCtx_same (s : State) (n : Nat) (c : Ctx) : (s.setCtx n c).ctx n = c := by
  simp [State.ctx, State.setCtx]

/-- Putting a context leaves the others alone. -/
theorem State.ctx_setCtx_other (s : State) (n m : Nat) (c : Ctx) (h : m ≠ n) : (s.setCtx n c).ctx m = s.ctx m := by
  simp [State.ctx, State.setCtx, Table.find_put_other _ _ _ _ h]

/-- A context changed is read back changed. -/
@[simp] theorem State.ctx_modCtx_same (s : State) (n : Nat) (f : Ctx → Ctx) : (s.modCtx n f).ctx n = f (s.ctx n) := by
  simp [State.modCtx]

/-- Changing a context leaves the others alone. -/
theorem State.ctx_modCtx_other (s : State) (n m : Nat) (f : Ctx → Ctx) (h : m ≠ n) : (s.modCtx n f).ctx m = s.ctx m :=
  State.ctx_setCtx_other s n m _ h

/-- The queue put is read back. -/
@[simp] theorem State.queue_setQueue_same (s : State) (q : Nat) (v : Queue) : (s.setQueue q v).queue q = v := by
  simp [State.queue, State.setQueue]

/-- Putting a queue leaves the others alone. -/
theorem State.queue_setQueue_other (s : State) (q r : Nat) (v : Queue) (h : r ≠ q) : (s.setQueue q v).queue r = s.queue r := by
  simp [State.queue, State.setQueue, Table.find_put_other _ _ _ _ h]

/-- A queue changed is read back changed. -/
@[simp] theorem State.queue_modQueue_same (s : State) (q : Nat) (f : Queue → Queue) : (s.modQueue q f).queue q = f (s.queue q) := by
  simp [State.modQueue]

/-- Changing a queue leaves the others alone. -/
theorem State.queue_modQueue_other (s : State) (q r : Nat) (f : Queue → Queue) (h : r ≠ q) : (s.modQueue q f).queue r = s.queue r :=
  State.queue_setQueue_other s q r _ h

/-- The link put is read back. -/
@[simp] theorem State.link_setLink_same (s : State) (i : Nat) (l : Link) : (s.setLink i l).link i = l := by
  simp [State.link, State.setLink]

/-- Putting a link leaves the others alone. -/
theorem State.link_setLink_other (s : State) (i j : Nat) (l : Link) (h : j ≠ i) : (s.setLink i l).link j = s.link j := by
  simp [State.link, State.setLink, Table.find_put_other _ _ _ _ h]

end Sys2Proof.Machine
end

