-- ==== Sys2Proof/Laws/Memory.lean ====
section
/-! SUPPORT. Every operation on memory keeps its canonical form, and a byte written is the byte read. -/

namespace Sys2Proof.Machine

/-! ## Reading after writing -/

@[simp] theorem Mem.get_set_same (m : Mem) (k : Nat) (b : Byte) : (m.set k b).get k = b := by
  simp [Mem.get, Mem.set]

theorem Mem.get_set_other (m : Mem) (k j : Nat) (b : Byte) (h : j ≠ k) : (m.set k b).get j = m.get j := by
  simp [Mem.get, Mem.set, Sparse.get_set_other _ _ _ _ _ h]

/-- Bytes written leave every location outside their span alone. -/
theorem Mem.get_write_other (bs : List Byte) (m : Mem) (k j : Nat) (h : j < k ∨ k + bs.length ≤ j) : (m.write k bs).get j = m.get j := by
  induction bs generalizing m k with
  | nil => rfl
  | cons b rest ih =>
    simp only [List.length_cons] at h
    rw [Mem.write, ih _ _ (by omega), Mem.get_set_other _ _ _ _ (by omega)]

/-- Bytes written under a mask leave every location outside their span alone. -/
theorem Mem.get_writeMasked_other (bs : List Byte) (m : Mem) (k mask j : Nat) (h : j < k ∨ k + bs.length ≤ j) :
    (m.writeMasked k mask bs).get j = m.get j := by
  induction bs generalizing m k mask with
  | nil => rfl
  | cons b rest ih =>
    simp only [List.length_cons] at h
    rw [Mem.writeMasked, ih _ _ _ (by omega)]
    split
    · exact Mem.get_set_other _ _ _ _ (by omega)
    · rfl

/-- Each byte written is the byte read at its location. -/
theorem Mem.get_write (bs : List Byte) (m : Mem) (k i : Nat) (h : i < bs.length) : (m.write k bs).get (k + i) = bs[i] := by
  induction bs generalizing m k i with
  | nil => simp at h
  | cons b rest ih =>
    cases i with
    | zero =>
      rw [Mem.write, Nat.add_zero, Mem.get_write_other _ _ _ _ (by omega)]
      simp
    | succ i =>
      have := ih (m.set k b) (k + 1) i (by simpa using h)
      rw [Mem.write, show k + (i + 1) = k + 1 + i by omega, this]
      simp

/-- Bytes written are read back. -/
theorem Mem.read_write (bs : List Byte) (m : Mem) (k : Nat) : (m.write k bs).read k bs.length = bs := by
  induction bs generalizing m k with
  | nil => rfl
  | cons b rest ih =>
    rw [Mem.write, List.length_cons, Mem.read, ih, Mem.get_write_other _ _ _ _ (by omega)]
    simp

/-! ## The canonical form is kept -/

theorem Mem.wf_set (m : Mem) (k : Nat) (b : Byte) (h : m.wf = true) : (m.set k b).wf = true := by
  simp only [Mem.wf, Bool.and_eq_true] at h ⊢
  exact ⟨Sparse.wf_set _ _ _ _ h.1, h.2⟩

theorem Mem.wf_write (bs : List Byte) (m : Mem) (k : Nat) (h : m.wf = true) : (m.write k bs).wf = true := by
  induction bs generalizing m k with
  | nil => exact h
  | cons b rest ih => exact ih _ _ (Mem.wf_set m k b h)

theorem Mem.wf_writeMasked (bs : List Byte) (m : Mem) (k mask : Nat) (h : m.wf = true) : (m.writeMasked k mask bs).wf = true := by
  induction bs generalizing m k mask with
  | nil => exact h
  | cons b rest ih =>
    refine ih _ _ _ ?_
    split
    · exact Mem.wf_set m k b h
    · exact h

theorem Mem.wf_writeHost (bs : List Byte) (m : Mem) (k : Nat) (h : m.wf = true) : (m.writeHost k bs).wf = true := by
  induction bs generalizing m k with
  | nil => exact h
  | cons b rest ih =>
    refine ih _ _ ?_
    simp only [Mem.wf, Bool.and_eq_true] at h ⊢
    exact ⟨h.1, Sparse.wf_set _ _ _ _ h.2⟩

theorem Mem.wf_flashOnly (m : Mem) (h : m.wf = true) : m.flashOnly.wf = true := by
  simp only [Mem.wf, Bool.and_eq_true] at h ⊢
  exact ⟨Sparse.wf_filter _ _ _ h.1, h.2⟩

theorem Mem.wf_zeroLine (m : Mem) (k a : Nat) (t : Trans) (h : m.wf = true) : (m.zeroLine k a t).wf = true := by
  simp only [Mem.wf, Bool.and_eq_true] at h ⊢
  exact ⟨Sparse.wf_filter _ _ _ h.1, h.2⟩

theorem State.wf_writeLocal (s : State) (inter a : Nat) (bs : List Byte) (h : s.mem.wf = true) : (s.writeLocal inter a bs).mem.wf = true :=
  Mem.wf_write bs s.mem _ h

/-- Storing a block behind an MX window keeps the form. -/
theorem State.wf_aliasStore (s : State) (d : MxAlias) (inter b c : Nat) (codes : List Nat) (h : s.mem.wf = true) :
    (s.aliasStore d inter b c codes).mem.wf = true := by
  have puts : ∀ (l : List Nat) (f : Nat → Nat) (g : Nat → List Byte) (t : State), t.mem.wf = true →
      (l.foldl (fun st i => st.writeLocal inter (f i) (g i)) t).mem.wf = true := by
    intro l f g
    induction l with
    | nil => exact fun t ht => ht
    | cons x rest ih => exact fun t ht => ih _ (State.wf_writeLocal t inter (f x) (g x) ht)
  rw [State.aliasStore]
  split
  · exact puts _ _ _ _ (State.wf_writeLocal _ _ _ _ h)
  · exact puts _ _ _ _ (State.wf_writeLocal _ _ _ _ h)

@[simp] theorem State.homeFail_mem (s : State) (n : Nat) (x : BitVec 8) : (s.homeFail n x).s.mem = s.mem := by
  simp only [State.homeFail, State.countFailure]; split <;> rfl

/-- What a write of an ordinary location stores keeps the form. -/
theorem Mem.wf_of_cells (m n : Mem) (h : m.wf = true) (hc : n.cells = m.cells) (hh : n.host = m.host) : n.wf = true := by
  rw [Mem.wf] at h ⊢
  rw [hc, hh]
  exact h

@[simp] theorem State.overrun_mem (s : State) (a : Nat) : (s.overrun a).mem = s.mem := rfl

/-- A write through an MX window keeps the form. -/
theorem State.wf_mxWrite (s : State) (inter : Nat) (w : BitVec 6) (c : BitVec 2) (a mask : Nat) (data : List Byte)
    (h : s.mem.wf = true) : (s.mxWrite inter w c a mask data).s.mem.wf = true := by
  have h1 : ∀ p : Bool, (if p = true then s else s.overrun a).mem.wf = true := fun p => by cases p <;> exact h
  simp only [State.mxWrite]
  split
  · exact h1 _
  · split
    · rw [State.homeFail_mem]; exact h1 _
    · exact State.wf_aliasStore _ _ _ _ _ _ (h1 _)

/-- A fold that changes neither the cells nor host memory keeps the form. -/
theorem Mem.wf_foldl {α : Type} (f : Mem → α → Mem) (hc : ∀ m x, (f m x).cells = m.cells) (hh : ∀ m x, (f m x).host = m.host)
    (l : List α) (m : Mem) (h : m.wf = true) : (l.foldl f m).wf = true := by
  induction l generalizing m with
  | nil => exact h
  | cons x rest ih => exact ih _ (Mem.wf_of_cells _ _ h (hc m x) (hh m x))

/-- A write of an ordinary location keeps the form. -/
theorem Mem.wf_cellWrite (m : Mem) (k a mask : Nat) (w : BitVec 6) (c : BitVec 2) (data : List Byte) (whole : Bool) (h : m.wf = true) :
    (m.cellWrite k a mask w c data whole).wf = true := by
  simp only [Mem.cellWrite]
  split
  · refine Mem.wf_writeMasked _ _ _ _ (Mem.wf_foldl _ ?_ ?_ _ _ h) <;> intro x p <;> split <;> rfl
  · refine Mem.wf_of_cells _ _ (Mem.wf_writeMasked data (if m.poisoned k then _ else m) k mask ?_) rfl rfl
    split <;> exact h

theorem State.wf_cellWrite (s : State) (inter : Nat) (w : BitVec 6) (c : BitVec 2) (a mask : Nat) (data : List Byte) (sector line : Bool)
    (h : s.mem.wf = true) : (s.cellWrite inter w c a mask data sector line).s.mem.wf = true := by
  have fail : ∀ x, (s.homeFail 0 x).s.mem.wf = true := fun x => by rw [State.homeFail_mem]; exact h
  simp only [State.cellWrite]
  split
  all_goals repeat' split
  all_goals first
    | exact fail _
    | exact Mem.wf_cellWrite _ _ _ _ _ _ _ _ h

/-- A write at a home keeps the form. -/
theorem State.wf_homeWrite (s : State) (inter : Nat) (w : BitVec 6) (c : BitVec 2) (a mask : Nat) (data : List Byte) (sector line : Bool)
    (h : s.mem.wf = true) : (s.homeWrite inter w c a mask data sector line).s.mem.wf = true := by
  rw [State.homeWrite]
  split
  · exact State.wf_mxWrite _ _ _ _ _ _ _ h
  · exact h
  · exact State.wf_cellWrite _ _ _ _ _ _ _ _ _ h

/-- Reset leaves memory in canonical form. -/
theorem State.wf_reset : State.reset.mem.wf = true := rfl

end Sys2Proof.Machine
end

