-- ==== Sys2Proof/Tests/Slice0.lean ====
section
/-! SUPPORT. Tests of single steps and words, and for every statement the states and operands that meet its hypotheses. -/

namespace Sys2Proof.Tests

open Sys2Proof Sys2Proof.Machine Sys2Proof.Claims

/-! ## Words and well-formedness -/

/-- Each word decodes to the instruction beside it. -/
def wordsDecode (l : List (Word × Instr)) : Bool := l.all fun p => decode p.1 == .ok p.2

/-- Words written out from the encoding tables (R246 to R252), each of a constructor of its own, part 1. -/
theorem test_words_a : wordsDecode [
  (0x10000000, .nop ⟨false, 1⟩), (0xA0200000, .exit ⟨true, 2⟩),
  (0x30202B81, .trap ⟨false, 3⟩ 87), (0xC0200002, .brk ⟨true, 4⟩),
  (0x50200003, .rsb ⟨false, 5⟩), (0xE0200004, .rse ⟨true, 6⟩),
  (0x70200005, .gpw ⟨false, 7⟩), (0x90203806, .dfree ⟨true, 1⟩ 112),
  (0x20203A87, .gate ⟨false, 2⟩ 117), (0xB0203D08, .dlrel ⟨true, 3⟩ 122),
  (0x4034FF89, .sysrd ⟨false, 4⟩ 83 127), (0xD036C20A, .syswr ⟨true, 5⟩ 91 4),
  (0x6020048B, .ralloc ⟨false, 6⟩ 9), (0xF020070C, .rfree ⟨true, 7⟩ 14),
  (0x1020098D, .wbase ⟨false, 1⟩ 19), (0xA03EC00E, .cpost ⟨true, 2⟩ 123),
  (0x10400E20, .spt false 20000), (0x8060000A, .wait true 0x0A),
  (0x509FFF12, .br ⟨false, 5⟩ 0x1FFF12), (0xE0BFFF13, .brM ⟨true, 6⟩ 0x1FFF13),
  (0x70DFFF14, .call ⟨false, 7⟩ 0x1FFF14), (0x90E01B00, .brx ⟨true, 1⟩ 54),
  (0x20E01D81, .brxM ⟨false, 2⟩ 59), (0xB1002000, .barJoin ⟨true, 3⟩ 64),
  (0x41002281, .barMark ⟨false, 4⟩ 69), (0xD1002502, .barHold ⟨true, 5⟩ 74),
  (0x61200058, .fence ⟨false, 6⟩ .rel .sys), (0xF1400000, .cstage ⟨true, 7⟩),
  (0x11602C80, .coll ⟨false, 1⟩ 89), (0xA19AEF00, .tld ⟨true, 2⟩ 107 94),
  (0x31BCF180, .tst ⟨false, 3⟩ 115 99), (0xC1DEF407, .mma ⟨true, 4⟩ 123 104 7),
  (0x51E0F68A, .mmz ⟨false, 5⟩ 3 109 10), (0xE202F90D, .cmma ⟨true, 6⟩ 11 114 13),
  (0x7224FB90, .cmmz ⟨false, 7⟩ 19 119 16), (0x9246FE1B, .accSt ⟨true, 1⟩ 27 124 3 .e4m3Rn),
  (0x2268C021, .accLd ⟨false, 2⟩ 35 4 .bf16), (0xB28AC019, .accZero ⟨true, 3⟩ 43 25),
  (0x62ACD25A, .vlil false 51 0x1925A), (0xF2CED25B, .vlih true 59 0x1D25B),
  (0x02F0D25C, .slil false 67 0x125C), (0x9312D25D, .slih true 75 0x525D)] = true := by decide

/-- Words written out from the encoding tables (R246 to R252), each of a constructor of its own, part 2. -/
theorem test_words_b : wordsDecode [
  (0x1334CFCD, .ld ⟨false, 1⟩ 83 31 ⟨.rel, .dev, .w64⟩), (0xA356D26E, .st ⟨true, 2⟩ 91 36 ⟨.sc, .dev, .w128⟩),
  (0x3378D497, .sld ⟨false, 3⟩ 99 41 ⟨.rlx, .fab, .w256⟩), (0xC39AD730, .sst ⟨true, 4⟩ 107 46 ⟨.acq, .fab, .x8⟩),
  (0x53BCD9DC, .atomAdd ⟨false, 5⟩ 115 51 ⟨.rel, .sys, true, false⟩), (0xE3DEDC7E, .atomAnd ⟨true, 6⟩ 123 56 ⟨.sc, .sys, true, true⟩),
  (0x73E0DE80, .atomOr ⟨false, 7⟩ 3 61 ⟨.rlx, .team, false, false⟩), (0x9402E122, .atomXor ⟨true, 1⟩ 11 66 ⟨.acq, .team, false, true⟩),
  (0x2424E3CC, .atomMinI ⟨false, 2⟩ 19 71 ⟨.rel, .dev, true, false⟩), (0xB446E66E, .atomMaxI ⟨true, 3⟩ 27 76 ⟨.sc, .dev, true, true⟩),
  (0x4468E890, .atomMinN ⟨false, 4⟩ 35 81 ⟨.rlx, .fab, false, false⟩), (0xD48AEB32, .atomMaxN ⟨true, 5⟩ 43 86 ⟨.acq, .fab, false, true⟩),
  (0x64ACEDDC, .atomSwap ⟨false, 6⟩ 51 91 ⟨.rel, .sys, true, false⟩), (0xF4CEF07E, .atomCas ⟨true, 7⟩ 59 96 ⟨.sc, .sys, true, true⟩),
  (0x14F0F280, .atomFadd ⟨false, 1⟩ 67 101 ⟨.rlx, .team, false, false⟩), (0xA512F522, .atomFmax ⟨true, 2⟩ 75 106 ⟨.acq, .team, false, true⟩),
  (0x3534F7D8, .sand ⟨false, 3⟩ 83 111 88), (0xC556FA5B, .sor ⟨true, 4⟩ 91 116 91),
  (0x5578FCDE, .sxor ⟨false, 5⟩ 99 121 94), (0xE59AFF61, .sshr ⟨true, 6⟩ 107 126 97),
  (0x75BCC1E4, .ssar ⟨false, 7⟩ 115 3 100), (0x95DEC467, .sminN ⟨true, 1⟩ 123 8 103),
  (0x25E0C6EA, .smaxN ⟨false, 2⟩ 3 13 106), (0xB602C96D, .iadd ⟨true, 3⟩ 11 18 109),
  (0x4624CBF0, .isub ⟨false, 4⟩ 19 23 112), (0xD646CE73, .imul ⟨true, 5⟩ 27 28 115),
  (0x6668D0F6, .imulhI ⟨false, 6⟩ 35 33 118), (0xF68AD379, .imulhN ⟨true, 7⟩ 43 38 121),
  (0x16ACD5FC, .imad ⟨false, 1⟩ 51 43 124), (0xA6CED87F, .iand ⟨true, 2⟩ 59 48 127),
  (0x36F0DA82, .ior ⟨false, 3⟩ 67 53 2), (0xC712DD05, .ixor ⟨true, 4⟩ 75 58 5),
  (0x5734DF88, .iandn ⟨false, 5⟩ 83 63 8), (0xE756E20B, .ishl ⟨true, 6⟩ 91 68 11),
  (0x7778E48E, .ishr ⟨false, 7⟩ 99 73 14), (0x979AE711, .isar ⟨true, 1⟩ 107 78 17),
  (0x27BCE994, .iminI ⟨false, 2⟩ 115 83 20), (0xB7DEEC17, .imaxI ⟨true, 3⟩ 123 88 23),
  (0x47E0EE9A, .iminN ⟨false, 4⟩ 3 93 26), (0xD802F11D, .imaxN ⟨true, 5⟩ 11 98 29),
  (0x6824F3A0, .clmul ⟨false, 6⟩ 19 103 32), (0xF846F623, .clmulh ⟨true, 7⟩ 27 108 35)] = true := by decide

/-- Words written out from the encoding tables (R246 to R252), each of a constructor of its own, part 3. -/
theorem test_words_c : wordsDecode [
  (0x1868F8A6, .iadd64 ⟨false, 1⟩ 35 113 38), (0xA88AFB29, .isub64 ⟨true, 2⟩ 43 118 41),
  (0x38ACFDAC, .imulwN ⟨false, 3⟩ 51 123 44), (0xC8CEC02F, .bfeN ⟨true, 4⟩ 59 0 47),
  (0x58F0C2B2, .bfeI ⟨false, 5⟩ 67 5 50), (0xE912C535, .bfi ⟨true, 6⟩ 75 10 53),
  (0x7934C7B8, .perm ⟨false, 7⟩ 83 15 56), (0x9956CA3B, .sel ⟨true, 1⟩ 91 20 59),
  (0x29650CBE, .icmp ⟨false, 2⟩ .ltI 4 25 62), (0xB99ACF41, .iaddi ⟨true, 3⟩ 107 30 65),
  (0x49BCD184, .ishli ⟨false, 4⟩ 115 35 4), (0xD9DED407, .ishri ⟨true, 5⟩ 123 40 7),
  (0x69E0D68A, .isari ⟨false, 6⟩ 3 45 10), (0xFA02D94D, .iaddVs ⟨true, 7⟩ 11 50 77),
  (0x1A24DBD0, .imulVs ⟨false, 1⟩ 19 55 80), (0xAA46DE53, .imadVs ⟨true, 2⟩ 27 60 83),
  (0x3A68E0D6, .iandVs ⟨false, 3⟩ 35 65 86), (0xCA8AE359, .ishlVs ⟨true, 4⟩ 43 70 89),
  (0x5AACE5DC, .ishrVs ⟨false, 5⟩ 51 75 92), (0xEAC7E85F, .icmpVs ⟨true, 6⟩ .leI 7 80 95),
  (0x7AF0EAE2, .iadd64Vs ⟨false, 7⟩ 67 85 98), (0x9B12ED00, .mov ⟨true, 1⟩ 75 90),
  (0x2B14EF81, .mov64 ⟨false, 2⟩ 83 95), (0xBB16F202, .popc ⟨true, 3⟩ 91 100),
  (0x4B18F483, .clz ⟨false, 4⟩ 99 105), (0xDB1AF704, .brev ⟨true, 5⟩ 107 110),
  (0x6B1CF985, .ineg ⟨false, 6⟩ 115 115), (0xFB1EFC06, .iabs ⟨true, 7⟩ 123 120),
  (0x1B00C007, .laneid ⟨false, 1⟩ 3), (0xAB02C108, .bcast ⟨true, 2⟩ 11 2),
  (0x3B04C389, .rdl ⟨false, 3⟩ 19 7), (0xCB00E310, .pand ⟨true, 4⟩ 3 4 6),
  (0x5B012B91, .por ⟨false, 5⟩ 4 5 7), (0xEB017012, .pxor ⟨true, 6⟩ 5 6 0),
  (0x7B01B893, .pandn ⟨false, 7⟩ 6 7 1), (0x9B01C114, .pnot ⟨true, 1⟩ 7 2),
  (0x2B001295, .pset ⟨false, 2⟩ 0 37), (0xBB12C016, .tidx ⟨true, 3⟩ 75),
  (0x4B14C017, .tidy ⟨false, 4⟩ 83), (0xDB16C018, .tidz ⟨true, 5⟩ 91),
  (0x6B38DC9E, .xlIdx ⟨false, 6⟩ 99 57 30), (0xFB5ADF21, .xlXor ⟨true, 7⟩ 107 62 33)] = true := by decide

/-- Words written out from the encoding tables (R246 to R252), each of a constructor of its own, part 4. -/
theorem test_words_d : wordsDecode [
  (0x1B7CE1A4, .xlBack ⟨false, 1⟩ 115 67 36), (0xAB9EE427, .xlFwd ⟨true, 2⟩ 123 72 39),
  (0x3BA0C180, .pcolMask ⟨false, 3⟩ 3 3), (0xCBA2C201, .pcolAny ⟨true, 4⟩ 11 4),
  (0x5BA4C282, .pcolAll ⟨false, 5⟩ 19 5), (0xEBA6C303, .pcolCnt ⟨true, 6⟩ 27 6),
  (0x7BC8F080, .wredAdd ⟨false, 7⟩ 35 97), (0x9BCAF301, .wredMinI ⟨true, 1⟩ 43 102),
  (0x2BCCF582, .wredMaxI ⟨false, 2⟩ 51 107), (0xBBCEF803, .wredMinN ⟨true, 3⟩ 59 112),
  (0x4BD0FA84, .wredMaxN ⟨false, 4⟩ 67 117), (0xDBD2FD05, .wredAnd ⟨true, 5⟩ 75 122),
  (0x6BD4FF86, .wredOr ⟨false, 6⟩ 83 127), (0xFBD6C207, .wredXor ⟨true, 7⟩ 91 4),
  (0x1BD8C488, .wredFadd ⟨false, 1⟩ 99 9), (0xABFAC700, .pfxAddIn ⟨true, 2⟩ 107 14),
  (0x3BFCC981, .pfxAddEx ⟨false, 3⟩ 115 19), (0xCBFECC02, .pfxXorIn ⟨true, 4⟩ 123 24),
  (0x5BE0CE83, .pfxXorEx ⟨false, 5⟩ 3 29), (0xEBE2D104, .pfxMaxIIn ⟨true, 6⟩ 11 34),
  (0x7C04D3E0, .fadd ⟨false, 7⟩ 19 39 96), (0x9C26D663, .fsub ⟨true, 1⟩ 27 44 99),
  (0x2C48D8E6, .fmul ⟨false, 2⟩ 35 49 102), (0xBC6ADB69, .ffma ⟨true, 3⟩ 43 54 105),
  (0x4C8CDDEC, .fmin ⟨false, 4⟩ 51 59 108), (0xDCAEE06F, .fmax ⟨true, 5⟩ 59 64 111),
  (0x6CD822F2, .fcmp ⟨false, 6⟩ .ugt 0 69 114), (0xFCF2E575, .faddVs ⟨true, 7⟩ 75 74 117),
  (0x1D14E7F8, .fmulVs ⟨false, 1⟩ 83 79 120), (0xAD36EA7B, .ffmaVs ⟨true, 2⟩ 91 84 123),
  (0x3D58ECFE, .badd2 ⟨false, 3⟩ 99 89 126), (0xCD7AEF01, .bmul2 ⟨true, 4⟩ 107 94 1),
  (0x5D9CF184, .bfma2 ⟨false, 5⟩ 115 99 4), (0xEDBEF407, .cmul ⟨true, 6⟩ 123 104 7),
  (0x7DC0F68A, .cfma ⟨false, 7⟩ 3 109 10), (0x9DE2F90D, .twosum ⟨true, 1⟩ 11 114 13),
  (0x2E04FB80, .frcp ⟨false, 2⟩ 19 119), (0xBE06FE01, .frsq ⟨true, 3⟩ 27 124),
  (0x4E08C082, .fsqrt ⟨false, 4⟩ 35 1), (0xDE0AC303, .fexp2 ⟨true, 5⟩ 43 6),
  (0x6E0CC584, .flog2 ⟨false, 6⟩ 51 11), (0xFE0EC805, .fsinp ⟨true, 7⟩ 59 16)] = true := by decide

/-- Words written out from the encoding tables (R246 to R252), each of a constructor of its own, part 5. -/
theorem test_words_e : wordsDecode [
  (0x1E10CA86, .fcosp ⟨false, 1⟩ 67 21), (0xAE12CD07, .fabs ⟨true, 2⟩ 75 26),
  (0x3E14CF88, .fneg ⟨false, 3⟩ 83 31), (0xCE16D209, .ffloor ⟨true, 4⟩ 91 36),
  (0x5E18D48A, .fceil ⟨false, 5⟩ 99 41), (0xEE1AD70B, .ftrunc ⟨true, 6⟩ 107 46),
  (0x7E1CD98C, .frint ⟨false, 7⟩ 115 51), (0x9E1EDC0D, .fclass ⟨true, 1⟩ 123 56),
  (0x2E20DE80, .cvtF32I32 ⟨false, 2⟩ 3 61), (0xBE22E101, .cvtF32N32 ⟨true, 3⟩ 11 66),
  (0x4E24E382, .cvtI32F32 ⟨false, 4⟩ 19 71), (0xDE26E603, .cvtN32F32 ⟨true, 5⟩ 27 76),
  (0x6E28E884, .cvtI32F32Rz ⟨false, 6⟩ 35 81), (0xFE2AEB05, .cvtBf16x2F32 ⟨true, 7⟩ 43 86),
  (0x1E2CED86, .cvtF32Bf16x2 ⟨false, 1⟩ 51 91), (0xAE2EF007, .cvtF16x2F32 ⟨true, 2⟩ 59 96),
  (0x3E30F288, .cvtF32F16x2 ⟨false, 3⟩ 67 101), (0xCE32F509, .cvtE4m3x4F32 ⟨true, 4⟩ 75 106),
  (0x5E34F78A, .cvtE5m2x4F32 ⟨false, 5⟩ 83 111), (0xEE36FA0B, .cvtF32E4m3x4 ⟨true, 6⟩ 91 116),
  (0x7E38FC8C, .cvtF32E5m2x4 ⟨false, 7⟩ 99 121), (0x9E5AFF61, .twoprod ⟨true, 1⟩ 107 126 97),
  (0x2E7181E4, .fcmpVs ⟨false, 2⟩ .ueq 6 3 100), (0xBE9EC467, .hadd2 ⟨true, 3⟩ 123 8 103),
  (0x4EA0C6EA, .hmul2 ⟨false, 4⟩ 3 13 106), (0xDEC2C96D, .hfma2 ⟨true, 5⟩ 11 18 109),
  (0x6EE4CBF0, .sadd ⟨false, 6⟩ 19 23 112), (0xFF06CE73, .ssub ⟨true, 7⟩ 27 28 115),
  (0x1F28D0F6, .smul ⟨false, 1⟩ 35 33 118), (0xAF4AD379, .sshl ⟨true, 2⟩ 43 38 121),
  (0x3F7195FC, .scmp ⟨false, 3⟩ .gtN 6 43 124), (0xCF8ED87F, .sadd64 ⟨true, 4⟩ 59 48 127),
  (0x5FB0DA82, .saddi ⟨false, 5⟩ 67 53 2), (0xEFD2DD00, .smov ⟨true, 6⟩ 75 58),
  (0x7FD4DF81, .smov64 ⟨false, 7⟩ 83 63), (0x9FD6E202, .spopc ⟨true, 1⟩ 91 68),
  (0x2FD8E483, .sclz ⟨false, 2⟩ 99 73), (0xBFDAE704, .sneg ⟨true, 3⟩ 107 78)] = true := by decide
/-- The header of an unguarded instruction without a switch marker. -/
def h0 : Hdr := ⟨false, 0⟩

/-- Checks 2 to 5 of R253 and what they refuse. -/
theorem test_ill_formed : [
    (Instr.accSt h0 1 2 3 .f32, some DecodeCheck.mustBeZero),
    (.ld h0 1 2 ⟨.rel, .team, .w32⟩, some .badOrder), (.st h0 1 2 ⟨.acq, .team, .w32⟩, some .badOrder),
    (.ld h0 1 2 ⟨.rlx, .dev, .w32⟩, some .badOrder), (.atomFadd h0 1 2 ⟨.rlx, .team, true, false⟩, some .badOrder),
    (.atomAdd h0 1 2 ⟨.rlx, .sys, false, false⟩, some .badOrder),
    (.gate h0 16, some .badImmediate), (.barJoin h0 16, some .badImmediate), (.ralloc h0 0, some .badImmediate),
    (.accZero h0 0 0, some .badImmediate), (.accZero h0 0 17, some .badImmediate), (.sysrd h0 1 23, some .badImmediate),
    (.syswr h0 21 1, some .badImmediate),
    (.iadd64 h0 3 2 4, some .misalignedGroup), (.cvtE4m3x4F32 h0 9 6, some .misalignedGroup), (.ld h0 4 2 ⟨.rlx, .team, .w256⟩, some .misalignedGroup),
    (.gate h0 15, none), (.sysrd h0 1 22, none), (.accZero h0 0 16, none), (.ld h0 8 2 ⟨.acq, .dev, .w256⟩, none)].all
    (fun p => p.1.failedCheck == p.2) = true := by decide

/-- The words that the spec's own examples give (R246, R272, R277, R280, R287, R315, R316, R318, R324, R342, R343). -/
theorem test_words_of_the_spec : wordsDecode [
    (0x00000000, .nop h0), (0x0B00D090, .pand h0 3 2 1), (0x72A07FFF, .vlil false 1 0x1FFFF), (0x02A24818, .vlil false 9 0x818),
    (0x02C26468, .vlih false 9 0x2468), (0x0C610082, .ffma h0 4 1 2), (0x0CC48083, .fcmp h0 .olt 2 1 3), (0x0D00C085, .fmulVs h0 3 1 5),
    (0x0DA10308, .cmul h0 4 6 8), (0x0DE08001, .twosum h0 2 0 1), (0x0E224209, .cvtE4m3x4F32 h0 9 4), (0x8B414281, .xlXor ⟨true, 0⟩ 5 5 1),
    (0x01000180, .barJoin h0 3), (0x01000001, .barMark h0 0), (0x01000782, .barHold h0 15), (0x00200108, .dlrel h0 2),
    (0x0060000A, .wait false 0x0A), (0x10400E20, .spt false 20000), (0x00200281, .trap h0 5), (0x00200206, .dfree h0 4),
    (0x00214589, .sysrd h0 5 11), (0x0025830A, .syswr h0 22 6), (0x0020010B, .ralloc h0 2), (0x0020008C, .rfree h0 1), (0x0020010D, .wbase h0 2),
    (0x0022000E, .cpost h0 8)] = true := by decide

/-- Words that checks 1 and 2 of R253 refuse: `xl.xor` with imm7 0x40, `fence` of order rlx and with F[2:0] not zero, an atomic with
B[0] set, `ishli` by 32, an OP and a function code that the map does not give. -/
theorem test_refused_words :
    (decode 0x0B4142C0 = .bad .mustBeZero ∧ decode 0x01200008 = .ok .illegalInstruction ∧ decode 0x0120006C = .bad .mustBeZero) ∧
    (decode 0x03A10103 = .bad .mustBeZero ∧ decode 0x09A041A0 = .bad .mustBeZero ∧ decode 0x0FE00000 = .ok .illegalInstruction) ∧
    decode 0x0020007F = .ok .illegalInstruction := by decide

/-! ## Steps of the core -/

/-- One team of one warp of eight threads, with registers of every thread and of the warp given, that issues at code offset 0. -/
def core (regs uni : List (Nat × Word)) : State :=
  let s := State.reset.withFetchWord 32 0
  { s with issue := some ⟨0, 0, [0, 1, 2, 3, 4, 5, 6, 7], 0⟩
           teams := [(0, { bundle := 0, kernel := 0, index := 0, warps := [{ fetchWarp with
             uni := uni, threads := fetchWarp.threads.map fun t => { t with regs := regs } }] })] }

/-- Warp 0 of team 0 after an outcome. -/
def warpAfter : Host.Outcome State Fault Refusal → Option Warp
  | .next t => (t.team? 0).map fun tm => tm.warp 0
  | _ => none

/-- Vector register r of lane 0 after an instruction. -/
def vec0 (i : Instr) (regs uni : List (Nat × Word)) (r : Nat) : Option Word :=
  (warpAfter (exec i (core regs uni))).bind fun w => (w.thread? 0).map fun t => Sparse.get 0 r t.regs

/-- Uniform register r after an instruction. -/
def uni0 (i : Instr) (regs uni : List (Nat × Word)) (r : Nat) : Option Word := (warpAfter (exec i (core regs uni))).map fun w => w.uRaw r

/-- The words that the results outstanding after an instruction will bring, in their order. -/
def pend0 (i : Instr) (regs uni : List (Nat × Word)) : Option (List (Option Word)) :=
  (warpAfter (exec i (core regs uni))).map fun w => w.pend.flatMap fun p => p.cells.map PendCell.val

/-- The examples of R272. -/
theorem test_integer_examples :
    vec0 (.imulhI h0 1 2 3) [(2, 0xFFFFFFFF), (3, 2)] [] 1 = some 0xFFFFFFFF ∧ vec0 (.imulhN h0 1 2 3) [(2, 0xFFFFFFFF), (3, 2)] [] 1 = some 1 ∧
    vec0 (.clmul h0 1 2 3) [(2, 0x80000001), (3, 3)] [] 1 = some 0x80000003 ∧ vec0 (.clmulh h0 1 2 3) [(2, 0x80000001), (3, 3)] [] 1 = some 1 ∧
    vec0 (.bfeN h0 1 2 3) [(2, 0xF0A5), (3, 0x808)] [] 1 = some 0xF0 ∧ vec0 (.bfeI h0 1 2 3) [(2, 0xF0A5), (3, 0x808)] [] 1 = some 0xFFFFFFF0 ∧
    vec0 (.bfi h0 1 2 3) [(1, 0x12345678), (2, 0xAB), (3, 0x810)] [] 1 = some 0x12AB5678 ∧
    vec0 (.perm h0 1 2 3) [(2, 0x88442211), (3, 0x8730)] [] 1 = some 0x00FF8811 ∧
    vec0 (.ishl h0 1 2 3) [(2, 0x80000000), (3, 40)] [] 1 = some 0 ∧ vec0 (.isar h0 1 2 3) [(2, 0x80000000), (3, 40)] [] 1 = some 0xFFFFFFFF := by
  decide

/-- R265, R272, R274: a wrap, a negative immediate, the low and the high word of a difference of pairs, the least integer. -/
theorem test_integer_wraps :
    vec0 (.iadd h0 2 2 3) [(2, 0xFFFFFFFF), (3, 2)] [] 2 = some 1 ∧ vec0 (.iaddi h0 1 1 0x7F) [(1, 5)] [] 1 = some 4 ∧
    vec0 (.isub64 h0 4 2 6) [(2, 0), (3, 1), (6, 1)] [] 4 = some 0xFFFFFFFF ∧ vec0 (.isub64 h0 4 2 6) [(2, 0), (3, 1), (6, 1)] [] 5 = some 0 ∧
    vec0 (.iabs h0 1 2) [(2, 0x80000000)] [] 1 = some 0x80000000 ∧ vec0 (.clz h0 1 2) [] [] 1 = some 32 := by
  decide

/-- R276, R278, R280: a broadcast, the uniform sum, `slih` over the low bits, `sclz` of one. -/
theorem test_uniform_instructions :
    vec0 (.bcast h0 1 4) [] [(4, 7)] 1 = some 7 ∧ uni0 (.sadd h0 4 4 5) [] [(4, 0xFFFFFFFF), (5, 3)] 4 = some 2 ∧
    uni0 (.slih false 9 0x2468) [] [(9, 0x818)] 9 = some 0x12340818 ∧ uni0 (.sclz h0 1 2) [] [(2, 1)] 1 = some 31 := by
  decide

/-- R277, R279: bit L of the mask, and a compare that writes every thread. -/
theorem test_predicates :
    ((warpAfter (exec (.pset h0 3 4) (core [] [(4, 0x5)]))).map fun w => w.threads.map fun t => t.pred 3) =
      some [true, false, true, false, false, false, false, false] ∧
    ((warpAfter (exec (.scmp h0 .ltI 2 4 5) (core [] [(4, 0xFFFFFFFF), (5, 0)]))).map fun w => w.threads.map fun t => t.pred 2) =
      some [true, true, true, true, true, true, true, true] := by
  decide

/-- The examples of R289, R291 to R294, R296 and R297. -/
theorem test_float_examples :
    vec0 (.ffma h0 4 1 2) [(1, 0x3F800800), (2, 0x3F800800), (4, 0xBF800000)] [] 4 = some 0x3A000400 ∧
    vec0 (.fmin h0 1 2 3) [(2, 0), (3, 0x80000000)] [] 1 = some 0x80000000 ∧ vec0 (.fmax h0 1 2 3) [(2, 0x7FC00000), (3, 0x40400000)] [] 1 = some 0x40400000 ∧
    vec0 (.badd2 h0 1 2 3) [(2, 0x3F803F80), (3, 0x3BC03B80)] [] 1 = some 0x3F813F80 ∧
    vec0 (.hmul2 h0 1 2 3) [(2, 0x5CB03C00), (3, 0x5CB07E00)] [] 1 = some 0x7C007E00 ∧
    vec0 (.bfma2 h0 1 2 3) [(1, 0x3F803F80), (2, 0x40003F80), (3, 0x4040BF80)] [] 1 = some 0x40E00000 ∧
    vec0 (.ffloor h0 1 2) [(2, 0xBF000000)] [] 1 = some 0xBF800000 ∧ vec0 (.frint h0 1 2) [(2, 0x40200000)] [] 1 = some 0x40000000 ∧
    vec0 (.fclass h0 1 2) [(2, 0x00020000)] [] 1 = some 0x20 ∧ vec0 (.fclass h0 1 2) [(2, 0xFFC00001)] [] 1 = some 0x100 := by
  decide

/-- The examples of R293, R294 and R298. -/
theorem test_pairs_and_quads :
    vec0 (.cmul h0 4 6 8) [(6, 0x3F800000), (7, 0x40000000), (8, 0x40400000), (9, 0x40800000)] [] 4 = some 0xC0A00000 ∧
    vec0 (.cmul h0 4 6 8) [(6, 0x3F800000), (7, 0x40000000), (8, 0x40400000), (9, 0x40800000)] [] 5 = some 0x41200000 ∧
    vec0 (.twosum h0 2 0 1) [(0, 0x3F800000), (1, 0x30800000)] [] 3 = some 0x30800000 ∧
    vec0 (.twoprod h0 2 0 1) [(0, 0x3F800001), (1, 0x3F800001)] [] 2 = some 0x3F800002 ∧
    vec0 (.twoprod h0 2 0 1) [(0, 0x3F800001), (1, 0x3F800001)] [] 3 = some 0x28800000 ∧
    vec0 (.cvtE4m3x4F32 h0 9 4) [(4, 0x43FA0000), (5, 0x3E99999A), (6, 0x7FC00000), (7, 0xB727C5AC)] [] 9 = some 0x807F2A7E := by
  decide

/-- R300 to R303, with the examples that follow R303: neighbours, a count, the exact sum, an exclusive prefix. -/
theorem test_cross_lane :
    pend0 (.pcolCnt h0 1 0) [] [] = some [some 8] ∧ pend0 (.wredFadd h0 1 2) [(2, 0x3F800000)] [] = some [some 0x41000000] ∧
    pend0 (.pfxAddEx h0 1 2) [(2, 1)] [] = some [some 0, some 1, some 2, some 3, some 4, some 5, some 6, some 7] ∧
    toF32 (FVal.sum ([0x4B800000, 0x3F800000, 0x3F800000].map f32Of)) = 0x4B800001 := by
  decide

/-- R282, R283, R284: a call leaves the next offset in v127, and `brx` ignores the two low bits. -/
theorem test_branches :
    ((warpAfter (exec (.br h0 0x1FFFFF) (core [] []))).map fun w => w.threads.map Thread.pc) = some (List.replicate 8 0xFFFFFFFC) ∧
    vec0 (.call h0 4) [] [] 127 = some 4 ∧
    ((warpAfter (exec (.brx h0 2) (core [(2, 0x43)] []))).map fun w => w.threads.map Thread.pc) = some (List.replicate 8 0x40) := by
  decide

/-- The cause of the halt of context 0 after an outcome. -/
def causeAfter : Host.Outcome State Fault Refusal → Option (BitVec 8)
  | .next t => (t.ctx 0).halt.map Halt.cause
  | _ => none

/-- R253, R345, R165, R322: `trap 5` is 0x85, a register beyond the limit REG_RANGE, a word that is no instruction ILLEGAL_INSTRUCTION. -/
theorem test_stops :
    causeAfter (exec (.trap h0 5) (core [] [])) = some 0x85 ∧ causeAfter (exec (.brk h0) (core [] [])) = some 15 ∧
    causeAfter (exec (.wbase h0 2) (core [] [])) = none ∧ causeAfter (exec .illegalInstruction (core [] [])) = some 2 ∧
    causeAfter (exec (.iadd64 h0 3 2 4) (core [] [])) = some 2 ∧ causeAfter (exec (.cstage h0) (core [] [])) = some 12 := by
  decide

/-- R281, R346, R351: `nop` counts, `rsb` and `rse` stop at 255 and 0, `wbase` sets the window. -/
theorem test_warp_fields :
    ((warpAfter (exec (.nop h0) (core [] []))).map fun w => (w.issues, w.plyLeft)) = some (1, 99) ∧
    ((warpAfter (exec (.rsb h0) (core [] []))).map Warp.rsec) = some 1 ∧ ((warpAfter (exec (.rse h0) (core [] []))).map Warp.rsec) = some 0 ∧
    ((warpAfter (exec (.wbase h0 127) (core [] []))).map Warp.window) = some 127 := by
  decide

/-- R349: the special registers PLY_LEFT, WARP_WIDTH and ALLOC_PAGES. -/
theorem test_special_registers :
    uni0 (.sysrd h0 1 14) [] [] 1 = some 100 ∧ uni0 (.sysrd h0 1 7) [] [] 1 = some 8 ∧ uni0 (.sysrd h0 1 19) [] [] 1 = some 4 := by
  decide

/-- R316: every thread arrives at once, so that the phase completes and none parks. -/
theorem test_barrier : (match exec (.barJoin h0 3) (core [] []) with
    | .next t => (t.team? 0).map fun tm => (tm.phase, (tm.warp 0).threads.map Thread.park)
    | _ => none) = some (8#16, List.replicate 8 .none) := by
  decide

/-- R344: with nothing outstanding the threads exit at once, and the team of that one warp is gone. -/
theorem test_exit : (match exec (.exit h0) (core [] []) with | .next t => t.teams | _ => (core [] []).teams) = [] := by decide

/-! ## Memory -/

/-- A state after some events with their operands. -/
def play : List (Instr × Input) → Host.Outcome State Fault Refusal → Host.Outcome State Fault Refusal
  | [], o => o
  | (i, x) :: rest, .next s => play rest (exec i { s with input := x })
  | _, o => o

/-- R305, R216: a byte stored by lane 7, which all lanes address, is what memory holds, and a load of its word brings it. -/
theorem test_store_then_load :
    (match play [(.homePerform, { unit := ⟨0, 0, 1, 7⟩ })] (exec (.st h0 4 2 ⟨.rlx, .team, .x8⟩) (core [(2, 0x40000), (4, 0xAB)] [])) with
      | .next t => t.readLocal 1 0x40000 2
      | _ => []) = [0xAB, 0] ∧
    (match play [(.homePerform, { unit := ⟨0, 0, 1, 0⟩ }), (.resultReturn, { num := 0 })]
        (exec (.sld h0 8 2 ⟨.rlx, .team, .w32⟩) (core [] [(2, 0x3000)])) with
      | .next t => (t.team? 0).map fun tm => (tm.warp 0).uRaw 8
      | _ => none) = some 0x49F := by
  decide

/-- R313: eight lanes add one each to one word, and each returns what the lanes before it left. -/
theorem test_atomic_combines :
    atomStep .add false 5 (List.replicate 8 (1, 0)) = ([5, 6, 7, 8, 9, 10, 11, 12], 13) ∧
    atomStep .cas false 5 [(9, 5), (7, 5)] = ([5, 9], 9) := by
  decide

/-- R304, R309, R184: a misaligned address, and one that no stage maps. -/
theorem test_probe :
    causeAfter (exec (.ld h0 4 2 ⟨.rlx, .team, .w32⟩) (core [(2, 0x40001)] [])) = some 4 ∧
    (match exec (.ld h0 4 2 ⟨.rlx, .team, .w32⟩) (core [(3, 0x40)] []) with
      | .next t => (t.team? 0).map fun tm => tm.fault.map HRec.cause
      | _ => none) = some (some 1) := by
  decide

/-! ## Steps of the device -/

/-- R20, R55, R76: memory and a queue right after main power is applied. -/
theorem test_reset : State.reset.mem.wf = true ∧ State.reset.readLocal 0 0x1000 4 = [0, 0, 0, 0] ∧ State.reset.queue 1023 = {} ∧
    State.reset.cfg.hashMask[5]? = some 0x2000 := by
  decide

/-- R248: a step fetches and runs the word. -/
theorem test_step_runs_a_word :
    (match step (State.reset.withFetchWord 32 0x72A07FFF) with
      | .next t => (t.team? 0).map fun tm => (tm.warp 0).threads.map fun x => Sparse.get 0 1 x.regs
      | _ => none) = some (List.replicate 8 0xFFFFFFFF) := by
  decide

/-- The table's words through the decoder: bits above 32 do not exist. -/
theorem test_table_word : decodeTableWord 32 0x01000180 = some (.barJoin h0 3) ∧ decodeTableWord 40 0x01000180 = none := by decide

/-- R17, R26: power goes off, and then nothing but power coming on follows. -/
theorem test_power :
    (match step { State.reset with agenda := [.event .mainPowerOff {}] } with | .next t => t.power.stage == .off | _ => false) = true ∧
    (match step { State.reset with power := { State.reset.power with stage := .off } } with | .fault .mainPowerOff => true | _ => false) = true := by
  decide

/-! ## What meets the hypotheses of the statements -/

/-- The warp at issue of a state that has one. -/
def focus (s : State) : Focus := s.focus?.getD ⟨s, 0, { bundle := 0, kernel := 0, index := 0 }, 0, {}, [], 0, {}, 0⟩

/-- The state after an outcome that goes on. -/
def next : Host.Outcome State Fault Refusal → State
  | .next t => t
  | _ => State.reset

/-- The state `core` with another warp, another team about it, another kernel and another state about them. -/
def coreW (w : Warp → Warp) (tm : Team → Team := id) (k : Kernel → Kernel := id) (b : Bundle → Bundle := id) (s : State → State := id) : State :=
  let x := core [] []
  s { x with teams := x.teams.map fun p => (p.1, tm { p.2 with warps := p.2.warps.map w })
             bundles := x.bundles.map fun p => (p.1, b { p.2 with kernels := p.2.kernels.map k }) }

/-- An instruction without a switch marker is ready in a state. -/
def readyIn (i : Instr) (s : State) : Bool :=
  s.focus?.isSome && i.wellFormed && (focus s).regsOk i.uses && (focus s).wp.plyLeft != 0

theorem ready_of {i : Instr} {s : State} (h : readyIn i s = true) : Ready i false s (focus s) := by
  simp only [readyIn, Bool.and_eq_true, bne_iff_ne] at h
  obtain ⟨⟨⟨h1, h2⟩, h3⟩, h4⟩ := h
  refine ⟨?_, fun h => (Bool.false_ne_true h).elim, h2, h3, h4⟩
  cases hf : s.focus? with
  | none => rw [hf] at h1; cases h1
  | some f => rw [focus, hf]; rfl

/-- An instruction of every family of results is ready in `core`. -/
theorem test_hyps_results :
    (∃ i F s f, arithmetic i = some F ∧ Ready i F.mark s f) ∧ (∃ i F s f, bitwise i = some F ∧ Ready i F.mark s f) ∧
    (∃ i F s f, moves i = some F ∧ Ready i F.mark s f) ∧ (∃ i F s f, uniforms i = some F ∧ Ready i F.mark s f) ∧
    (∃ i F s f, predicates i = some F ∧ Ready i F.mark s f) ∧ (∃ i F s f, floats i = some F ∧ Ready i F.mark s f) ∧
    (∃ i F s f, floatCompares i = some F ∧ Ready i F.mark s f) ∧ (∃ i P s f, producers i = some P ∧ Ready i P.h.s s f) :=
  ⟨⟨.iadd h0 1 2 3, _, core [] [], _, rfl, ready_of (by decide)⟩, ⟨.iand h0 1 2 3, _, core [] [], _, rfl, ready_of (by decide)⟩,
   ⟨.mov h0 1 2, _, core [] [], _, rfl, ready_of (by decide)⟩, ⟨.sadd h0 1 2 3, _, core [] [], _, rfl, ready_of (by decide)⟩,
   ⟨.icmp h0 .eq 1 2 3, _, core [] [], _, rfl, ready_of (by decide)⟩, ⟨.fadd h0 1 2 3, _, core [] [], _, rfl, ready_of (by decide)⟩,
   ⟨.fcmp h0 .olt 1 2 3, _, core [] [], _, rfl, ready_of (by decide)⟩, ⟨.wredFadd h0 1 2, _, core [] [], _, rfl, ready_of (by decide)⟩⟩

/-- The instructions that change a field of the warp's record are ready in `core`. -/
theorem test_hyps_records :
    (∀ i ∈ [Instr.scmp h0 .ltI 1 2 3, .nop h0, .rsb h0, .rse h0, .wbase h0 127, .syswr h0 22 1, .sysrd h0 1 22, .fence h0 .sc .sys], readyIn i (core [] []) = true) ∧
    Ready (.nop h0) false (core [] []) (focus (core [] [])) :=
  ⟨by decide, ready_of (by decide)⟩

/-- NaNs, an order of zeros, finite numbers and whole numbers for the statements on numbers. -/
theorem test_hyps_numbers :
    num 0x7FC00000 = .nan ∧ num 0 ≠ .nan ∧ before 0x80000000 0 ∧ ¬before 0 0 ∧ num 0xC0000000 = .val true 2 ∧ num 0x40400000 = .val false 3 ∧
    num 0x3F000000 = .val false (1 / 2) ∧ num 0x80000000 = .val true 0 ∧ num (part (twosumPair 0x3F800000 0x30800000) 0) = .val false 1 ∧
    num (part (twosumPair 0x7F7FFFFF 0x7F7FFFFF) 0) = .inf false := by
  unfold before
  decide +kernel

/-- Outstanding results: none, and those of a count just issued. -/
theorem test_hyps_pending :
    knownResults (focus (core [] [])).wp false 0 (0 * 8 + 1) = [] ∧
    knownResults (focus (next (exec (.pcolCnt h0 1 0) (core [] [])))).wp true 0 1 = [8] ∧
    ∃ (s : State) (tm : Team) (p : Pend), s.team? s.input.team = some tm ∧ s.input.warp < tm.warps.length ∧ (tm.warp s.input.warp).pend[s.input.num]? = some p ∧
      p.tok = none ∧ ∀ c ∈ p.cells, c.val ≠ none :=
  ⟨by decide, by decide, next (exec (.pcolCnt h0 1 0) (core [] [])), _, _, rfl, by decide, rfl, rfl, by decide⟩

/-- Branches of each form. -/
theorem test_hyps_branches :
    (∀ i ∈ [Instr.br h0 0x1FFFFF, .call h0 0, .brx h0 2], (branches i).isSome = true ∧ readyIn i (core [] []) = true) ∧
    (∀ i ∈ [Instr.brM h0 4, .brxM h0 2], (markedBranches i).isSome = true ∧ readyIn i (core [] []) = true) := by
  decide

/-- A team that stands at one marked branch with nothing outstanding. -/
def met : State := next (exec (.brM h0 4) (core [] []))

/-- R162: a meeting that is not yet resolved. -/
theorem test_hyps_rendezvous : ∃ (s : State) (tm : Team), s.team? s.input.team = some tm ∧ tm.meets.isSome = true ∧ tm.idle = true ∧ ¬StopStands s tm ∧
    (s.ctx (s.ctxOf tm)).halt = none ∧ ∀ w ∈ tm.warps, (w.threads.map Thread.lane).Nodup :=
  ⟨met, _, rfl, by decide, by decide, by unfold StopStands; decide, by decide, by decide⟩

theorem tokens_below (k : Nat) : [0, 0, 0, 0, 0, 0, 0, 0].getD k 0 < 63 := by
  match k with
  | 0 | 1 | 2 | 3 | 4 | 5 | 6 | 7 => decide
  | k + 8 => simp

/-- Nothing hinders a warp just placed, and each check fails somewhere. -/
theorem test_hyps_decode_stops : ∃ (s : State) (f : Focus), s.focus? = some f ∧ Unhindered f ∧ isCore (.iadd64 h0 3 2 4) = true ∧
    (Instr.iadd64 h0 3 2 4).wellFormed = false ∧ (Instr.iadd h0 1 2 3).wellFormed = true ∧
    (focus (coreW fun w => { w with window := 127 })).regsOk (Instr.iadd h0 1 2 3).uses = false ∧
    f.regsOk (Instr.iadd h0 1 2 3).uses = true ∧ (focus (coreW fun w => { w with plyLeft := 0 })).wp.plyLeft = 0 ∧ ∀ s' n, Instr.iadd h0 1 2 3 ≠ .spt s' n :=
  ⟨core [] [], focus (core [] []), rfl, ⟨rfl, rfl, tokens_below, by decide⟩, by decide, by decide, by decide, by decide, by decide, by decide,
    fun _ _ h => nomatch h⟩

/-- The guard p1 of no thread. -/
def h1 : Hdr := ⟨false, 1⟩

/-- `trap`, `brk` and `exit`, with a thread that takes part and with none. -/
theorem test_hyps_traps :
    takes (focus (core [] [])) h0.g ≠ [] ∧ takes (focus (core [] [])) h1.g = [] ∧
    ∀ i ∈ [Instr.trap h0 127, .brk h0, .exit h0, .exit h1], readyIn i (core [] []) = true := by
  decide

/-- R344: a warp that may exit, one that has a token, and one whose access is lost. -/
theorem test_hyps_exits :
    ((∀ p ∈ fetchWarp.pend, p.tok ≠ none) ∧ (∀ k < 8, fetchWarp.tokens.getD k 0 = 0) ∧ fetchWarp.mem = [] ∧ fetchWarp.lost = false) ∧
    ¬(∀ k < 8, ({ fetchWarp with tokens := [0, 0, 0, 0, 0, 0, 0, 1] } : Warp).tokens.getD k 0 = 0) := by
  decide

/-- The three forms of `bar` with the last barrier, a phase that is over, and one that is not. -/
theorem test_hyps_barriers :
    (∀ i ∈ [Instr.barMark h0 15, .barJoin h0 15, .barHold h0 15], readyIn i (core [] []) = true) ∧ (focus (core [] [])).wp.mem = [] ∧
    PhaseOver { bundle := 0, kernel := 0, index := 0, warps := [{ fetchWarp with threads := fetchWarp.threads.map fun t => { t with arrived := 0x8000 } }] } 15 ∧
    ¬PhaseOver { bundle := 0, kernel := 0, index := 0, warps := [fetchWarp] } 15 := by
  unfold PhaseOver Gone Left
  decide

/-- A bundle that nothing runs of yet. -/
def bundle0 (k : Kernel) : Bundle :=
  { ctx := 0, queue := 0, index := 0, tag := 0, cpl := false, ring := 0, priority := 0, gateWait := 0, gateRel := 0, binds := [], kernels := [k] }

/-- Gate 15 open and closed, and the masks with the bit clear. -/
def gated (rel : Bool) : State :=
  coreW id id id (fun b => { b with gateWait := 0x8000, gateRel := if rel then 0x8000 else 0, binds := if rel then [] else [(15, 1)] })
    fun s => { s with bundles := s.bundles ++ [(1, bundle0 {})] }

theorem test_hyps_gates :
    (∃ b : Bundle, (gated true).bundle? (focus (gated true)).tm.bundle = some b ∧ b.gateWait.getLsbD 15 = true ∧ b.gateRel.getLsbD 15 = true) ∧
    GateOpen (gated true) 0 15 ∧ ¬GateOpen (gated false) 0 15 ∧
    (∃ b : Bundle, (gated false).bundle? 0 = some b ∧ b.gateRel.getLsbD 15 = false ∧ b.gateWait.getLsbD 0 = false) ∧
    readyIn (.gate h0 15) (gated true) = true ∧ readyIn (.dlrel h0 15) (gated false) = true ∧ (focus (gated true)).wp.mem = [] :=
  ⟨⟨_, rfl, by decide, by decide⟩, (fun x p y hx hp _ => by cases hx; cases hp), fun h => absurd (h _ 1 _ rfl (by decide) rfl).1 (by decide),
    ⟨_, rfl, by decide, by decide⟩, by decide, by decide, by decide⟩

/-- `wait` on tokens that hold 0, and on one that does not. -/
theorem test_hyps_waits :
    readyIn (.wait false 0xFF) (core [] []) = true ∧ (∀ k < 8, (0xFF#8).getLsbD k = true → (focus (core [] [])).wp.tokens.getD k 0 = 0) ∧
    readyIn (.wait false 0x80) (coreW fun w => { w with tokens := [0, 0, 0, 0, 0, 0, 0, 63] }) = true ∧
    ∃ k < 8, (0x80#8).getLsbD k = true ∧ (focus (coreW fun w => { w with tokens := [0, 0, 0, 0, 0, 0, 0, 63] })).wp.tokens.getD k 0 ≠ 0 := by
  decide

/-- A context with a freeze flag. -/
def frozen : State := coreW id id id id fun s => s.setCtx 0 { s.ctx 0 with freeze := 8 }

/-- `spt` with no stop request and under one. -/
theorem test_hyps_safe_points : (core [] []).focus? = some (focus (core [] [])) ∧ ¬StopStands (core [] []) (focus (core [] [])).tm ∧
    frozen.focus? = some (focus frozen) ∧ StopStands frozen (focus frozen).tm := by
  refine ⟨rfl, ?_, rfl, ?_⟩ <;> unfold StopStands <;> decide

/-- The deferred-free queue with 4,096 entries. -/
def fullQueue : State := coreW id id id id fun s => s.setCtx 0 { s.ctx 0 with tempo := { deferred := List.replicate 4096 (0, 1) } }

/-- `gpw` inside a section and outside one, `dfree` with room and without, and a context with no period in progress. -/
theorem test_hyps_grace_periods :
    takes (focus (core [] [])) h0.g ≠ [] ∧ StoresPerformed (focus (core [] [])).wp ∧ readyIn (.gpw h0) (core [] []) = true ∧
    (focus (core [] [])).wp.rsec = 0 ∧ readyIn (.gpw h0) (coreW fun w => { w with rsec := 255 }) = true ∧
    (focus (coreW fun w => { w with rsec := 255 })).wp.rsec ≠ 0 ∧ readyIn (.dfree h0 126) (core [] []) = true ∧
    ((core [] []).ctx 0).tempo.deferred.length + 8 ≤ 4096 ∧ ((core [] []).ctx 0).tempo.running = false := by
  unfold StoresPerformed
  decide

theorem test_hyps_deferred_full : readyIn (.dfree h0 126) fullQueue = true ∧ 4096 < (fullQueue.ctx 0).tempo.deferred.length + 8 := by
  refine ⟨by decide, ?_⟩
  show 4096 < (List.replicate 4096 ((0 : BitVec 56), 1)).length + 8
  rw [List.length_replicate]; decide

/-- `ralloc` and `rfree` at their limits: 32 pages, all pages. -/
theorem test_hyps_register_pages :
    takes (focus (core [] [])) h0.g ≠ [] ∧ readyIn (.ralloc h0 29) (core [] []) = true ∧ 32 < (focus (core [] [])).wp.pages + 29 ∧
    readyIn (.ralloc h0 28) (core [] []) = true ∧ (focus (core [] [])).wp.pages + 28 ≤ 32 ∧ (focus (core [] [])).wp.freeRalloc = false ∧
    (focus (coreW fun w => { w with freeRalloc := true })).wp.freeRalloc = true ∧ readyIn (.rfree h0 4) (core [] []) = true ∧
    (focus (core [] [])).wp.pages ≤ 4 ∧ readyIn (.rfree h0 3) (core [] []) = true ∧ 3 < (focus (core [] [])).wp.pages := by
  decide

/-- A warp parked at `ralloc` whose lanes have the pages free. -/
def asking : State := coreW fun w => { w with rallocAsk := 28, threads := w.threads.map fun t => { t with park := .ralloc } }

theorem test_hyps_register_service : ∃ (p lanes : Nat) (w : Warp) (tm : Team),
    asking.parkedRallocs 0 0 = [(0, 0, p, lanes, w)] ∧ asking.team? 0 = some tm ∧ tm.warp 0 = w ∧ ¬StopStands asking tm ∧
    ∀ i < lanes / 8, octetUsed (asking.slotWarps 0 0) (w.base + 8 * i) + w.rallocAsk ≤ 32 :=
  ⟨0, 8, _, _, rfl, rfl, rfl, by unfold StopStands; decide, by decide⟩

/-- A completion ring with room, and one without an owner. -/
def ringed : State := coreW id id id id fun s => s.setQueue 0 { owner := some 0, crLog2 := 4, crBase := 0x40000 }

theorem test_hyps_completion_posts :
    readyIn (.cpost h0 124) ringed = true ∧ takes (focus ringed) h0.g ≠ [] ∧ (focus ringed).wp.mem = [] ∧ (ringed.bundle? 0).isSome = true ∧
    ringed.ringTakes 0 (ringed.queue 0).waiting.length = true ∧ (core [] []).ringTakes 0 ((core [] []).queue 0).waiting.length = false := by
  decide

/-- A copy entry of stage 1 that moves one element from address 0x40000 to scratchpad. -/
def entry1 : SchedEntry := ⟨1, 0, 0, 0, 0, 0, 0, 0x40000, 0xFF00000000000000, [1, 1, 1, 1], [0, 0, 0], 0, 0, 0, 0, 0, 0⟩

/-- A schedule with one stage. -/
def staged : State := coreW id id fun k => { k with sched := [entry1] }

theorem test_hyps_copy_stages :
    readyIn (.cstage h0) staged = true ∧ (focus staged).wp.mem = [] ∧ (focus staged).wp.tokens.getD 0 0 < 63 ∧
    (∃ e ∈ (focus staged).k.sched, (focus staged).wp.cstage < e.stage) ∧
    (∀ e ∈ (focus (core [] [])).k.sched, e.stage ≤ (focus (core [] [])).wp.cstage) := by
  decide

/-- Tile registers 0 and 1 with a record of one f32 element, register 2 with one of bf16. -/
def tiled : State := coreW id fun tm => { tm with tiles := [(0, 0x1000000000001010000), (1, 0x1000000000001010000), (2, 0x1000000001001010000)] }

/-- A matrix operation with a bad record (an empty tile register), with formats that do not go together, and with good ones. -/
theorem test_hyps_matrix_issue :
    (∃ M, matrixOps (.mma h0 0 0 15) = some M ∧ readyIn (.mma h0 0 0 15) tiled = true ∧ M.bad (focus tiled)) ∧
    (∃ M, matrixOps (.mma h0 0 0 2) = some M ∧ readyIn (.mma h0 0 0 2) tiled = true ∧ ¬M.bad (focus tiled) ∧ M.mism (focus tiled)) ∧
    (∃ M, matrixOps (.mma h0 0 0 1) = some M ∧ readyIn (.mma h0 0 0 1) tiled = true ∧ ¬M.bad (focus tiled) ∧ ¬M.mism (focus tiled)) ∧
    (focus tiled).wp.tokens.getD 0 0 < 63 ∧ ScratchpadDrained (focus tiled).wp := by
  refine ⟨⟨_, rfl, by decide, ?_⟩, ⟨_, rfl, by decide, ?_, ?_⟩, ⟨_, rfl, by decide, ?_, ?_⟩, by decide, fun r h => nomatch h⟩ <;>
    simp only [multiply, RecordOk, Pairs, Claims.fld] <;> decide

/-- The oldest operation of a warp in the matrix engine, one with its `tld` still queued. -/
def queued : State := next (exec (.tld h0 0 4) (core [] []))

theorem test_hyps_matrix_completes : ∃ (s : State) (o : MxeOp) (tm : Team), s.eng.mxe.find? (fun x => x.id == s.input.num) = some o ∧
    s.team? o.team = some tm ∧ (∀ x, s.eng.mxe.find? (fun x => x.team == o.team && x.warp == o.warp) = some x → x.id = o.id) ∧
    (s.ctx (s.ctxOf tm)).halt = none ∧ (∀ p b r n, tm.place ≠ .saved p b r n) ∧ o.kind = .tld 0 0 :=
  ⟨{ queued with input := { num := 1 } }, _, _, rfl, rfl, (fun x h => by cases h; rfl), rfl, (fun _ _ _ _ h => nomatch h), rfl⟩

/-- R323, R338: a record still queued, none queued, one that a stage rewrote. -/
theorem test_hyps_captured_records :
    ((focus { queued with issue := some ⟨0, 0, [0], 4⟩ }).s.eng.mxe.filter (fun o => o.team == 0 && o.warp == 0)).map MxeOp.kind = [.tld 0 0] ∧
    (focus tiled).s.eng.mxe = [] ∧ (focus tiled).wp.stale = [] ∧ storeFmt .bf16Rn = 1 := by
  decide

/-- The word load that all lanes issue at the address in v2 and v3. -/
def load4 : Instr := .ld h0 4 2 ⟨.rlx, .team, .w32⟩

/-- Its form. -/
def form4 : MemForm := plain h0 .load .load ⟨.rlx, .team, .w32⟩ false (eachLane 2) (vecCells 4 1) fun _ _ => []

/-- Its lanes in a state. -/
def lanes4 (s : State) : List (Nat × DWord) := form4.lanes (focus s) (takes (focus s) h0.g)

/-- A watchpoint on the loads of bytes 0 to 3 of address 0x40000, and a root stage whose first GiB nothing may read. -/
def watched : State := { core [(2, 0x40000)] [] with ctxs := (core [] []).ctxs.map fun p => (p.1, { p.2 with watch := [(0, { addr := 0x40000, mask := 0xF, load := true, en := true })] }) }
def unreadable : State := (core [(2, 0x40000)] []).writeLocal 1 0x3000 [0x81, 0x04]

theorem error_of {α β : Type} (x : Except α β) (h : (match x with | .ok _ => false | .error _ => true) = true) : ∃ m, x = .error m := by
  cases x with
  | error m => exact ⟨m, rfl⟩
  | ok t => cases h

theorem ok_of {α β : Type} (x : Except α β) (P : β → Bool) (h : (match x with | .ok t => P t | .error _ => false) = true) : ∃ t, x = .ok t ∧ P t = true := by
  cases x with
  | error m => cases h
  | ok t => exact ⟨t, rfl, h⟩

/-- All eight lanes at one address. -/
def all8 (a : DWord) : List (Nat × DWord) := (List.range 8).map fun n => (n, a)

/-- Lane 0 is the first of eight lanes with a property that it has. -/
theorem first_of (P : Nat × DWord → Prop) (l : List (Nat × DWord)) (a : DWord) (hl : l = all8 a) (h : P (0, a)) : FirstWith P l (0, a) :=
  ⟨[], _, hl, h, fun _ h => nomatch h⟩

/-- Each check of the probe fails first at lane 0 of some state: alignment, the apertures, the stage, permission, a watchpoint. -/
theorem test_hyps_probe :
    memoryOps load4 = some form4 ∧ readyIn load4 (core [] []) = true ∧ ¬Held (focus (core [] [])).wp ∧
    (core [] []).coreRequests 0 + form4.takes 8 ≤ 4096 ∧
    FirstWith (fun l => l.2.toNat % 4 ≠ 0) (lanes4 (core [(2, 0x40001)] [])) (0, 0x40001) ∧
    FirstWith (fun l => ¬Admitted 4096 4 l.2) (lanes4 (core [(3, 0x01000000)] [])) (0, 0x0100000000000000) ∧
    FirstWith (fun l => ownSpace l.2 ∧ ∃ m, (focus (core [(3, 0x40)] [])).lead l.1 l.2 = .error m) (lanes4 (core [(3, 0x40)] [])) (0, 0x4000000000) ∧
    FirstWith (fun l => ¬(ownSpace l.2 → ∀ t, (focus unreadable).lead l.1 l.2 = .ok t → t.world = 0 ∧ Permitted .load t.world t)) (lanes4 unreadable) (0, 0x40000) ∧
    FirstWith (fun l => ∃ m, Strikes (watched.ctx 0) .load l.2.toNat 4 m) (lanes4 watched) (0, 0x40000) := by
  refine ⟨rfl, by decide, ?_, by decide, first_of _ _ _ (by decide) (by decide), first_of _ _ _ (by decide) ?_, first_of _ _ _ (by decide) ⟨?_, error_of _ (by decide)⟩,
    first_of _ _ _ (by decide) ?_, first_of _ _ _ (by decide) ⟨0xF, _, ⟨[], [], rfl, ?_, fun _ h => nomatch h⟩, ?_⟩⟩
  · unfold Held; decide
  · unfold Admitted ownSpace; decide
  · unfold ownSpace; decide
  · obtain ⟨t, ht, hp⟩ := ok_of ((focus unreadable).lead 0 0x40000) (fun t => !t.read) (by decide)
    intro h
    have := (h (by unfold ownSpace; decide) t ht).2
    rw [Permitted] at this
    rw [this] at hp
    cases hp
  · unfold Hits; decide
  · unfold Hits; decide

/-- Every lane passes the probe; an earlier acquire holds back; no thread takes part. -/
theorem test_hyps_memory_issue :
    (∀ l ∈ lanes4 (core [(2, 0x40000)] []), Passes (focus (core [(2, 0x40000)] [])) form4 l) ∧
    Held { fetchWarp with mem := [⟨1, .load, .acq, .team, 0, []⟩] } ∧ takes (focus (core [] [])) h1.g = [] := by
  refine ⟨fun l hl => ?_, by unfold Held; decide, by decide⟩
  rw [show lanes4 (core [(2, 0x40000)] []) = all8 0x40000 by decide] at hl
  obtain ⟨n, hn, rfl⟩ := List.mem_map.1 hl
  have key : ∀ n < 8, (match (focus (core [(2, 0x40000)] [])).lead n 0x40000 with | .ok t => t.world == 0 && t.read | .error _ => false) = true := by decide
  obtain ⟨t, ht, hp⟩ := ok_of ((focus (core [(2, 0x40000)] [])).lead n 0x40000) (fun t => t.world == 0 && t.read) (key n (List.mem_range.1 hn))
  simp only [Bool.and_eq_true, beq_iff_eq] at hp
  refine ⟨by show (0x40000 : DWord).toNat % 4 = 0; decide, .inl (by show (0x40000 : DWord).toNat < 2 ^ 56; decide), fun _ => ⟨t, ht, hp.1, hp.2⟩, .inr ?_⟩
  rintro m ⟨p, ⟨a, b, hab, -⟩, -⟩
  cases a <;> cases hab

/-- Why a walk misses. -/
def whyOf (x : Except Miss Trans) : Option MissWhy :=
  match x with
  | .ok _ => none
  | .error m => some m.why

/-- The load of `core` in a state whose last table is poisoned, and one of a child whose stage's table lies on device 1, with no fabric. -/
def spoiledStage : State :=
  let s := core [(2, 0x40000)] []
  { s with mem := { s.mem with poison := [(poisonUnit (s.place 1 0x3000), true)] } }
def farStage : State :=
  let s := (core [(2, 0x40000)] []).writeLocal 1 0x3008 (leBytes 8 0x100040000487)
  { s.setCtx 128 { live := true, level := 1, parent := 0, tableVa := 0x40000000 } with
    bundles := s.bundles.map fun p => (p.1, { p.2 with ctx := 128 }) }

/-- Each way in which a walk misses. -/
theorem test_hyps_misses :
    (readyIn load4 spoiledStage = true ∧ readyIn load4 farStage = true) ∧
    whyOf ((focus (core [(3, 0x40)] [])).lead 0 0x4000000000) = some .absent ∧
    (lanes4 spoiledStage = all8 0x40000 ∧ whyOf ((focus spoiledStage).lead 0 0x40000) = some (.spoiled 0x11)) ∧
    (lanes4 farStage = all8 0x40000 ∧ whyOf ((focus farStage).lead 0 0x40000) = some (.far 1 0x40000000 3)) := by
  decide +kernel

/-- A core with 4,096 requests outstanding. -/
def busyCore : State := coreW fun w => { w with
  mem := (List.range 64).map fun n => ⟨n, .load, .rlx, .team, 0, (List.range 64).map fun l => { lane := l, off := 0, va := 0, tgt := .spm 0, len := 4 }⟩ }

theorem test_hyps_no_room : readyIn load4 busyCore = true ∧ 4096 < busyCore.coreRequests (focus busyCore).wp.core + form4.takes (takes (focus busyCore) form4.h.g).length := by
  decide +kernel

/-- The first part of a store of lane 7, of a load and of an atomic that all lanes issue, at hand and in order. -/
def storing : State := { next (exec (.st h0 4 2 ⟨.rlx, .team, .x8⟩) (core [(2, 0x40000), (4, 0xAB)] [])) with input := { unit := ⟨0, 0, 1, 7⟩ } }
def loading : State := { next (exec load4 (core [(2, 0x40000)] [])) with input := { unit := ⟨0, 0, 1, 0⟩ } }
def adding : State := { next (exec (.atomAdd h0 4 2 ⟨.rlx, .team, false, true⟩) (core [(2, 0x40000), (4, 1)] [])) with input := { unit := ⟨0, 0, 1, 0⟩ } }

/-- The team, the request and the part that an event names. -/
def teamOf (s : State) : Team := (s.team? s.input.unit.team).getD { bundle := 0, kernel := 0, index := 0 }
def reqOf (s : State) : MemReq := ((teamOf s).warp 0).mem.headD ⟨0, .load, .rlx, .team, 0, []⟩
def unitOf (s : State) : MemUnit := (reqOf s).units.getD s.input.unit.unit { lane := 0, off := 0, va := 0, tgt := .spm 0, len := 0 }

/-- A store, a load and an atomic whose part may be performed: their team, request and part. -/
theorem test_hyps_home : ∀ s ∈ [storing, loading, adding],
    s.team? s.input.unit.team = some (teamOf s) ∧ s.input.unit.warp < (teamOf s).warps.length ∧ ((teamOf s).warp s.input.unit.warp).mem = [] ++ reqOf s :: [] ∧
    (reqOf s).id = s.input.unit.req ∧ (reqOf s).units[s.input.unit.unit]? = some (unitOf s) ∧ (unitOf s).done = false ∧
    (match (unitOf s).tgt with | .here a i w c => regionOf a == .hbm && !s.mem.poisoned (s.place i.toNat a) && s.mem.tagOk (s.place i.toNat a) a w c | _ => false) = true ∧
    s.input.home = .plain := by
  decide

/-- Nothing lies before the part of the store, so that it is at hand, in order and apart. -/
theorem test_hyps_home_order : AtHand storing (teamOf storing) [] (reqOf storing) [] (unitOf storing) ∧ InOrder [] (reqOf storing) ∧
    Apart storing [] (unitOf storing) ∧ (reqOf storing).kind = .store ∧ (reqOf loading).kind = .load ∧ (reqOf adding).kind = .atom .add false true := by
  have h := test_hyps_home storing (List.mem_cons_self ..)
  refine ⟨⟨h.1, h.2.1, h.2.2.1, h.2.2.2.1, fun _ h => (nomatch h), h.2.2.2.2.1, h.2.2.2.2.2.1, ?_⟩, fun _ h => (nomatch h), fun _ h => (nomatch h), by decide, by decide, by decide⟩
  intro d a w c hu
  rw [hu] at h
  cases h.2.2.2.2.2.2.1

/-- A poisoned sector, and a line that was tampered with. -/
theorem test_hyps_home_failures :
    ({ loading with mem := { loading.mem with poison := [(poisonUnit (loading.place 1 0x40000), true)] } } : State).mem.poisoned (loading.place 1 0x40000) = true ∧
    ({ loading with mem := { loading.mem with lines := [(loading.place 1 0x40000 / 64, { world := 0, comp := 0, gen := 0, broken := true })] } } : State).mem.tagOk
      (loading.place 1 0x40000) 0x40000 0 0 = false := by
  decide

/-- A load of the word that lane 7 of an earlier store, still queued, writes. -/
def forwarding : State :=
  { next (exec load4 (next (exec (.st h0 4 2 ⟨.rlx, .team, .w32⟩) (core [(2, 0x40000), (4, 0xAB)] [])))) with input := { unit := ⟨0, 0, 2, 0⟩ } }

/-- The queue of the warp that an event names, its entry n, and part u of that. -/
def queueOf (s : State) : List MemReq := ((teamOf s).warp s.input.unit.warp).mem
def entryOf (s : State) (n : Nat) : MemReq := (queueOf s).getD n ⟨0, .load, .rlx, .team, 0, []⟩
def partOf (s : State) (n u : Nat) : MemUnit := (entryOf s n).units.getD u { lane := 0, off := 0, va := 0, tgt := .spm 0, len := 0 }

theorem alias_of {t : Target} (h : inWindow t) : t.isAlias = true := by
  obtain ⟨a, i, w, c, rfl, hr⟩ := h
  simp [Target.isAlias, hr]

/-- The event's part is part 0 of entry n of its warp's queue, not performed, on this device. -/
def atHand (s : State) (n : Nat) : Bool :=
  s.team? s.input.unit.team == some (teamOf s) && decide (s.input.unit.warp < (teamOf s).warps.length) && queueOf s == (queueOf s).take n ++ entryOf s n :: [] &&
    (entryOf s n).id == s.input.unit.req && decide (∀ e ∈ (queueOf s).take n, e.id ≠ (entryOf s n).id) &&
    (entryOf s n).units[s.input.unit.unit]? == some (partOf s n s.input.unit.unit) && !(partOf s n s.input.unit.unit).done && !(partOf s n s.input.unit.unit).tgt.isAway

theorem at_hand {s : State} {n : Nat} (h : atHand s n = true) :
    AtHand s (teamOf s) ((queueOf s).take n) (entryOf s n) [] (partOf s n s.input.unit.unit) := by
  simp only [atHand, Bool.and_eq_true, beq_iff_eq, decide_eq_true_eq, Bool.not_eq_true'] at h
  obtain ⟨⟨⟨⟨⟨⟨⟨h1, h2⟩, h3⟩, h4⟩, h5⟩, h6⟩, h7⟩, h8⟩ := h
  exact ⟨h1, h2, h3, h4, h5, h6, h7, fun d a w c h => by rw [h] at h8; cases h8⟩

/-- A part in HBM whose unit and line verify. -/
def soundHbm (s : State) (u : MemUnit) : Bool :=
  match u.tgt with
  | .here a i w c => regionOf a == .hbm && !s.mem.poisoned (s.place i.toNat a) && s.mem.tagOk (s.place i.toNat a) a w c && decide (u.len ≤ 8) &&
      decide (u.data.length ≤ 8) && decide (∀ j < u.len, s.mixed (a + j) = false)
  | _ => false

theorem sound_of {s : State} {u : MemUnit} (h : soundHbm s u = true) : Sound s u := by
  unfold soundHbm at h
  unfold Sound
  cases hu : u.tgt with
  | here a i w c =>
    rw [hu] at h
    simp only [Bool.and_eq_true, beq_iff_eq, decide_eq_true_eq, Bool.not_eq_true'] at h
    exact ⟨.inl h.1.1.1.1.1, h.1.1.1.1.2, h.1.1.1.2, h.1.1.2, h.1.2, h.2⟩
  | _ => rw [hu] at h; cases h

/-- A store's part covers a load's access, and no other part of it overlaps the load. -/
def covering (s : State) (e : MemReq) (u x : MemUnit) : Bool :=
  e.units.contains x && !x.done && e.kind == .store && !u.tgt.isAlias && decide (0 < u.size) &&
    decide (∀ i < u.size, (s.keyOf x.tgt).1 = (s.keyOf u.tgt).1 ∧ i < x.len ∧ wholeAt s u + i = (s.keyOf x.tgt).2 + i ∧ x.mask.testBit i = true) &&
    decide (∀ y ∈ e.units, (y.lane = x.lane ∨ y.mask = 0) ∧ y.tgt.isAlias = false)

theorem covered_by {s : State} {e : MemReq} {u x : MemUnit} (h : covering s e u x = true) :
    Overlaps s e u x ∧ (∀ y, Overlaps s e u y → y.lane = x.lane ∧ ¬inWindow y.tgt) ∧ ∀ i < u.size, ∃ y, Overlaps s e u y ∧ Stores s u y (wholeAt s u + i) := by
  simp only [covering, Bool.and_eq_true, beq_iff_eq, decide_eq_true_eq, Bool.not_eq_true', List.contains_iff_mem] at h
  obtain ⟨⟨⟨⟨⟨⟨h1, h2⟩, h3⟩, h7⟩, h4⟩, h5⟩, h6⟩ := h
  have hx : ∀ i < u.size, Stores s u x (wholeAt s u + i) := fun i hi => ⟨(h5 i hi).1, i, (h5 i hi).2.1, (h5 i hi).2.2.1, (h5 i hi).2.2.2⟩
  have ho : Overlaps s e u x := ⟨(by rw [h3]; exact fun h => nomatch h), h1, h2, .inr ⟨0, h4, hx 0 h4⟩⟩
  have hw : ∀ y ∈ e.units, ¬inWindow y.tgt := fun y hy h => Bool.false_ne_true ((h6 y hy).2.symm.trans (alias_of h))
  refine ⟨ho, ?_, fun i hi => ⟨_, ho, hx i hi⟩⟩
  rintro y ⟨-, hy, -, h⟩
  refine ⟨?_, hw y hy⟩
  rcases (h6 y hy).1 with h' | h'
  · exact h'
  · rcases h with ⟨h2 | h2, -⟩ | ⟨i, -, -, j, -, -, h2⟩
    · exact (hw y hy h2).elim
    · exact absurd (alias_of h2) (by rw [h7]; exact Bool.false_ne_true)
    · rw [h', Nat.zero_testBit] at h2; cases h2

/-- A relaxed entry that comes after others that are not loads, a load itself. -/
theorem in_order {es : List MemReq} {r : MemReq} (h : r.order = .rlx ∧ r.kind = .load ∧ ∀ e ∈ es, e.kind ≠ .load) : InOrder es r := by
  obtain ⟨h1, h2, h3⟩ := h
  refine fun e he u _ => ⟨fun h => ?_, fun h => (h3 e he h).elim, fun _ h => (h h2).elim⟩
  rw [h1] at h
  rcases h with h | h | ⟨h, -⟩
  · cases h
  · cases h
  · rw [h2] at h; cases h

theorem forwards_of {s : State} (h : atHand s 1 = true ∧ soundHbm s (partOf s 1 s.input.unit.unit) = true ∧
    covering s (entryOf s 0) (partOf s 1 s.input.unit.unit) (partOf s 0 7) = true ∧ (queueOf s).take 1 = [entryOf s 0] ∧
    ((entryOf s 1).order = .rlx ∧ (entryOf s 1).kind = .load ∧ ∀ e ∈ (queueOf s).take 1, e.kind ≠ .load)) :
    ∃ tm e r u x, AtHand s tm ([] ++ e :: []) r [] u ∧ InOrder ([] ++ e :: []) r ∧ Sound s u ∧ r.kind = .load ∧ Overlaps s e u x ∧
      (∀ y, Overlaps s e u y → y.lane = x.lane ∧ ¬inWindow y.tgt) ∧ ∀ i < u.size, ∃ y, Overlaps s e u y ∧ Stores s u y (wholeAt s u + i) := by
  obtain ⟨h1, h2, h3, h4, h5⟩ := h
  refine ⟨_, entryOf s 0, _, _, partOf s 0 7, h4 ▸ at_hand h1, h4 ▸ in_order h5, sound_of h2, h5.2.1, covered_by h3⟩

/-- R216: the store's part of lane 7 covers the load, and no other part overlaps it. -/
theorem test_hyps_forwarding : ∃ s tm e r u x, AtHand s tm ([] ++ e :: []) r [] u ∧ InOrder ([] ++ e :: []) r ∧ Sound s u ∧ r.kind = .load ∧ Overlaps s e u x ∧
      (∀ y, Overlaps s e u y → y.lane = x.lane ∧ ¬inWindow y.tgt) ∧ ∀ i < u.size, ∃ y, Overlaps s e u y ∧ Stores s u y (wholeAt s u + i) :=
  ⟨forwarding, forwards_of (by decide +kernel)⟩

/-- `core` with a stage whose address 0x40000000 leads to a leaf. -/
def leading (leaf : Nat) (regs : List (Nat × Word)) : State :=
  ((core ((2, 0x40000000) :: regs) []).writeLocal 1 0x3008 (leBytes 8 0x4001)).writeLocal 1 0x4000 (leBytes 8 leaf)

/-- A state in which lane 0's part alone of an instruction is left, with its unit poisoned. -/
def alonePart (s : State) (i : Instr) : State :=
  let t := next (exec i s)
  { t with
    input := { unit := ⟨0, 0, 1, 0⟩ }
    teams := t.teams.map fun p => (p.1, { p.2 with warps := p.2.warps.map fun w => { w with mem := w.mem.map fun r =>
      { r with units := (r.units.take 1).map fun u => { u with mask := 2 ^ u.len - 1 } } } }) }
def poisonedAt (s : State) : State :=
  match (partOf s 0 0).tgt with
  | .here a i _ _ => { s with mem := { s.mem with poison := [(poisonUnit (s.place i.toNat a), true)] } }
  | _ => s

/-- R69: a poisoned unit under a load, under a part of a sector, under a part of an SBM word, and under a whole SBM word. -/
theorem test_hyps_home_poison :
    (∀ p ∈ [(alonePart (leading 0x407 []) load4, Region.hbm, ReqKind.load), (alonePart (leading 0x407 []) (.st h0 4 2 ⟨.rlx, .team, .w32⟩), .hbm, .store),
        (alonePart (leading 0x80000000407 []) (.st h0 4 2 ⟨.rlx, .team, .w32⟩), .sbm, .store), (alonePart (leading 0x80000000407 []) (.st h0 4 2 ⟨.rlx, .team, .w64⟩), .sbm, .store)],
      let s := poisonedAt p.1
      let u := partOf s 0 0
      atHand s 0 = true ∧ (queueOf s).length = 1 ∧ (entryOf s 0).kind = p.2.2 ∧ (entryOf s 0).units.length = 1 ∧ u.len ≤ 8 ∧ u.data.length ≤ 8 ∧ 0 < u.len ∧
      (p.2.2 = .store → u.data ≠ []) ∧
      (match u.tgt with | .here a i _ _ => regionOf a == p.2.1 && s.mem.poisoned (s.place i.toNat a) && a % 8 == 0 | _ => false) = true) ∧
    (let u := partOf (alonePart (leading 0x80000000407 []) (.st h0 4 2 ⟨.rlx, .team, .w32⟩)) 0 0; u.mask % 256 ≠ 0 ∧ ∃ j < 8, u.mask.testBit j = false) ∧
    (let u := partOf (alonePart (leading 0x80000000407 []) (.st h0 4 2 ⟨.rlx, .team, .w64⟩)) 0 0; u.len = 8 ∧ u.data.length = 8 ∧ u.mask = 0xFF) := by
  decide +kernel

/-- An MX window of two blocks of E4M3 elements, which the stage leads to. -/
def windowed (lo : Word) (i : Instr) : State :=
  let s := leading 0x90000000447 [(4, 0x40400000)]
  let t := { s with cfg := { s.cfg with aliases := [(0, { dataFrame := 0x100, en := true, blocks := 2, scaleAddr := 0x200000 })] } }
  alonePart { t with teams := t.teams.map fun p => (p.1, { p.2 with warps := p.2.warps.map fun w => { w with
    threads := w.threads.map fun x => { x with regs := [(2, lo), (4, 0x40400000)] } } }) } i

/-- The window's claims on numbers and bytes, decidable. -/
def coveredDec (d : MxAlias) (e : Nat) : Decidable (Covered d e) := by unfold Covered MemByte; infer_instance
def cleanDec (s : State) (i : BitVec 3) (w : BitVec 6) (c : BitVec 2) (a : Nat) : Decidable (Clean s i w c a) := by unfold Clean; infer_instance

/-- The part lies in the window, its value and its scale under one entry, its own block's places apart, and the rest of the block clean if `cov`. -/
def windowPart (s : State) (u : MemUnit) (d : MxAlias) (cov : Bool) : Bool :=
  letI := coveredDec d
  letI := fun i w c => cleanDec s i w c
  match u.tgt with
  | .here a i w c =>
    let off := a - 0x90000000000
    let block := Claims.scaleAt d (off / 64 * 32) :: (List.range 32).map fun j => Claims.elemAt d (off / 64 * 32 + j)
    regionOf a == .mxWindow && !s.mixed a && !s.mixed (a + 1) && decide (off % 64 + 2 ≤ 64) && (decide (Covered d (off / 2)) == cov) &&
      (!cov || decide ((∀ x ∈ block, Clean s i w c x) ∧
        (block.eraseDups.map (s.place i.toNat)).Nodup ∧ Claims.scaleAt d (off / 64 * 32) ∉ block.tail))
  | _ => false

/-- R62 to R65: a load and a store of the last element of the array and beyond it. -/
theorem test_hyps_windows :
    ∀ p ∈ [(windowed 0x4000007E (.ld h0 4 2 ⟨.rlx, .team, .x16⟩), ReqKind.load, true), (windowed 0x40000080 (.ld h0 4 2 ⟨.rlx, .team, .x16⟩), .load, false),
        (windowed 0x4000007E (.st h0 4 2 ⟨.rlx, .team, .x16⟩), .store, true), (windowed 0x40000080 (.st h0 4 2 ⟨.rlx, .team, .x16⟩), .store, false)],
      let s := p.1
      let u := partOf s 0 0
      atHand s 0 = true ∧ (queueOf s).length = 1 ∧ (entryOf s 0).kind = p.2.1 ∧ u.len = 2 ∧ (p.2.1 = .store → u.data.length = 2 ∧ u.mask = 3) ∧
      windowPart s u (Sparse.get {} 0 s.cfg.aliases) p.2.2 = true := by
  decide +kernel

/-- The step of an atomic over 64 lanes. -/
theorem test_hyps_atomic_step : (List.replicate 64 ((1, 0) : DWord × DWord)) ≠ [] ∧ (List.replicate 64 ((1, 0) : DWord × DWord)).length ≤ 64 ∧
    (5 : DWord).toNat < 2 ^ 32 := by
  decide

/-- A device at a stage of its start. -/
def at_ (st : BootStage) (p : Power → Power := id) (x : Input := {}) : State := { State.reset with power := p { State.reset.power with stage := st }, input := x }

/-- Starts: memory in form, power off, power on with GO from the physical function and from another, and each finding of steps 1 and 2. -/
theorem test_hyps_starts :
    (at_ .off).mem.wf = true ∧ (at_ .off).power.stage = .off ∧ (at_ .hostLink).power.stage ≠ .off ∧
    ((at_ .full).power.stage ≠ .off ∧ (at_ .full).power.stage ≠ .hostLink ∧ (at_ .full).input.writer = .pf) ∧
    (at_ .full id { writer := .vf 0 }).input.writer ≠ .pf ∧
    (let b : Boot := ⟨true, 0, true⟩; b.sigOk = true ∧ (at_ .off).power.rollback ≤ b.version ∧ b.identityOk = true) ∧
    (let b : Boot := ⟨false, 0, true⟩; b.sigOk = false ∧ (0 : BitVec 2) = 0) ∧
    (let b : Boot := ⟨true, 0, true⟩; b.sigOk = true ∧ b.version < (at_ .off fun p => { p with rollback := 1 }).power.rollback) ∧
    (let b : Boot := ⟨true, 0, false⟩; b.sigOk = true ∧ (at_ .off).power.rollback ≤ b.version ∧ b.identityOk = false) := by
  decide

/-- The steps of a start: the host link, firmware that is signed and not, with and without a failed stack, a part, full service and a clock. -/
theorem test_hyps_start_sequence :
    (at_ .hostLink).power.stage = .hostLink ∧
    ((at_ .firmware).power.stage = .firmware ∧ Trainable (at_ .firmware).power 0 .full ∧ Trainable (at_ .firmware).power 1 .failed) ∧
    Trainable { (at_ .firmware).power with records := 1 } 0 .verified ∧
    (let fw : FwLoad := ⟨true, 0, .full, .full, true⟩; (fw.sigOk = true ∧ (at_ .firmware).power.rollback ≤ fw.version) ∧
      ¬(fw.stack0 = .failed ∨ fw.stack1 = .failed ∨ fw.die0Ok = false)) ∧
    (let fw : FwLoad := ⟨false, 0, .full, .failed, true⟩; ¬(fw.sigOk = true ∧ (at_ .firmware).power.rollback ≤ fw.version) ∧
      (fw.stack0 = .failed ∨ fw.stack1 = .failed ∨ fw.die0Ok = false)) ∧
    (let s := at_ .parts (fun p => { p with settled := 0x3FFFFFF }) { part := .dieBoundary, train := .full };
      s.power.stage = .parts ∧ s.power.settled.getLsbD (recordOf s.input.part) = false ∧ Trainable s.power (recordOf s.input.part) s.input.train) ∧
    (let p := (at_ .parts fun p => { p with settled := 0x7FFFFFF, die1Ok := true, stackOk := 0xFF }).power;
      p.stage = .parts ∧ (∀ n < 27, p.settled.getLsbD n = true) ∧ p.die1Ok = true ∧ p.stackOk = 0xFF) := by
  unfold Trainable
  decide

/-- A clock one step lower, at the greatest frequency. -/
theorem test_hyps_clock :
    let s := at_ .full (fun p => { p with clk0 := 1700 }) { mhz := 1675 };
    (if s.input.die1 then s.power.clk1 else s.power.clk0) ≠ 0 ∧ s.input.mhz.toNat ≤ 1700 ∧ ∃ k : Int, (s.input.mhz.toNat : Int) = s.power.clk0.toNat + 25 * k :=
  ⟨by decide, by decide, -1, by decide⟩

/-- A device in full service with operands. -/
def served (x : Input) (f : State → State := id) : State := f { core [] [] with input := x }

/-- The physical function writes, and another; each state of the configuration interface; the last mask; a link to rekey. -/
theorem test_hyps_configuration :
    Answers (served {}) ∧ (served {}).input.writer = .pf ∧ lowHalf (served {}).input.acc ∧ (served { index := 5 }).input.index.toNat < 6 ∧
    ((served { writer := .vf 0, index := 5 }).power.stage ≠ .off ∧ (served {}).power.stage ≠ .hostLink ∧ (served { writer := .vf 0 }).input.writer ≠ .pf) ∧
    (served {} fun s => { s with cfg := { s.cfg with state := .open_ } }).cfg.state = .open_ ∧ (served {}).cfg.state = .run ∧ (served {}).mem.wf = true ∧
    ((served {}).cfg.hashMask.getD 5 0 = 0x2000 ∧ BitVec.ofNat 26 (dbits 0x2000 25 0) = 0x2000) ∧
    (16#16).getLsbD 4 = true ∧ ((served {}).link 15).next = false := by
  unfold Answers lowHalf
  decide

/-- The move to RUN with a function of slots 1,020 to 1,023, and one that would take one of them again. -/
def moving : State := served {} fun s => { s with cfg := { s.cfg with state := .locked, moving := true, vf := [(0, ⟨1020, 4, true⟩), (127, ⟨1023, 1, true⟩)] } }

theorem test_hyps_move_to_run :
    moving.cfg.moving = true ∧ moving.cfg.state = .locked ∧ ({ moving with cfg := { moving.cfg with zeroing := true } } : State).cfg.zeroing = true ∧
    (enabledVfs moving.cfg.vf 128).map Prod.fst = [0] := by
  decide

/-- REGISTER_WRITE by the physical function at the first and last register of each array, misaligned, and of two bytes. -/
theorem test_hyps_registers :
    Answers (served {}) ∧ (∀ off ∈ [0x20, 0x28, 0x30, 0x58, 0x48, 0x50, 0x100, 0x148, 0x400, 0x7F8, 0x800, 0x808, 0xBF0, 0xBF8, 0x1000, 0x15F8],
      (served { off := off }).input.writer = .pf ∧ (served { off := off }).input.bytes = 8 ∧ off % 8 = 0) ∧
    0x148 = 0x100 + 8 * 9 ∧ 0x7F8 = 0x400 + 8 * 127 ∧ 0xBF8 = 0x808 + 16 * 63 ∧ 0x15F8 = 0x1000 + 8 * 191 ∧
    (served { off := 4 }).input.off % 8 ≠ 0 ∧ (served { bytes := 2 }).input.bytes ≠ 4 := by
  unfold Answers
  decide

/-- The slot 1,023 of context 0 and a register write to it. -/
def slotted (x : Queue → Queue) (inp : Input := {}) : State :=
  served { inp with writer := .vf 0, slot := 1023 } fun s => s.setQueue 1023 (x { owner := some 0, base := 0x40000, cqLog2 := 4, crLog2 := 4 })

/-- Writers that reach a slot and that do not; the states of a queue; indices that are good at the bound and bad beyond it; LOG2 fields. -/
theorem test_hyps_queues :
    Present (slotted id) (.vf 0) ∧ (slotted id).within 0 0 = true ∧ ((slotted id).queue 1023).owner = some 0 ∧ ((slotted id).queue 1023).state = .idle ∧
    (¬∃ c o, actsAs .pf = some c ∧ ((slotted id).queue 1023).owner = some o ∧ (slotted id).within c o.toNat = true) ∧
    IndexOk ((slotted fun q => { q with state := .run, ridx := 0xFFFFFFF8, widx := 0xFFFFFFFF }).queue 1023) 8 ∧
    ¬IndexOk ((slotted fun q => { q with state := .run, ridx := 0xFFFFFFF8, widx := 0xFFFFFFFF }).queue 1023) 9 ∧
    ¬IndexOk ((slotted fun q => { q with state := .error, ridx := 0xFFFFFFF8, widx := 0xFFFFFFFF }).queue 1023) 0xFFFFFFFE ∧
    LogOk 4 ∧ LogOk 16 ∧ ¬LogOk 3 ∧ ¬LogOk 17 ∧
    (slotted id { cqLog2 := 4, crLog2 := 4 }).ringElsewhere 0 0x40000 (2 ^ 4 * 64) = false ∧
    ((slotted fun q => { q with enable := true, state := .blocked, cur := some ⟨0, [], none⟩ }).queue 1023).cur = some ⟨0, [], none⟩ ∧
    ((8#32 - 0xFFFFFFF8).toNat ≤ 2 ^ 4 ∧ ¬(9#32 - 0xFFFFFFF8).toNat ≤ 2 ^ 4) := by
  refine ⟨by unfold Present Answers; decide, by decide, by decide, by decide, ?_, ?_⟩
  · rintro ⟨c, o, h, -⟩
    cases h
  · unfold IndexOk LogOk
    decide

/-- Context 0 as a tenant's root, and an access of its own pages. -/
def tenant (x : Input) (f : Ctx → Ctx := id) : State := served x fun s => s.setCtx 0 (f { s.ctx 0 with world := 63 })

/-- Writers of context pages: a function, a root of a tenant world, a context; a channel of each direction; watchpoints that translate and do not. -/
theorem test_hyps_context_registers :
    Present (tenant {}) (.vf 0) ∧ ((tenant {}).ctx 0).level = 0 ∧ actsAs (.vf 0) = some 0 ∧ ((tenant {}).ctx 0).world ≠ 0 ∧ ((tenant {}).ctx 0).live = true ∧
    (served { acc := ⟨.full, 0⟩ }).input.acc.half = .full ∧ Present (tenant {}) (.ctx 0) ∧
    (((tenant { ch := 3 } fun c => { c with bounce := [(3, { enable := true, comp := 2 })] }).ctx 0).bounceAt 3).comp = 2 ∧
    (((tenant {} fun c => { c with bounce := [(0, { enable := true, comp := 3, state := 1 })] }).ctx 0).bounceAt 0).state ≠ 0 ∧
    (tenant {}).within 0 0 = true ∧ (served { index := 1 }).input.index.toNat ≤ 1 ∧
    (match (served {}).walk 0 0x3FFFFFFF with | .ok t => t.frame == 0x3FFFF000 | .error _ => false) = true ∧
    (match (served {}).walk 0 0x40000000 with | .ok _ => false | .error _ => true) = true := by
  unfold Present Answers
  decide

/-- The 64 bytes of a packet with fields given by offset, size and value. -/
def packetOf (fs : List (Nat × Nat × Nat)) : Packet :=
  { index := 7, bytes := (List.range 64).map fun j => BitVec.ofNat 8 ((fs.map fun f => if f.1 ≤ j ∧ j < f.1 + f.2.1 then f.2.2 / 256 ^ (j - f.1) else 0).sum) }

/-- A packet at the head of slot 9 of context 0, which has a child 128 of level 1. -/
def posted (fs : List (Nat × Nat × Nat)) (f : State → State := id) (x : Input := {}) : State :=
  served { x with slot := 9 } fun s => f ((s.setCtx 128 { live := true, level := 1, parent := 0 }).setQueue 9
    { owner := some 0, state := .run, base := 0x40000, cqLog2 := 4, ridx := 7, widx := 8, cur := some (packetOf fs), enable := true })

/-- The packet of `posted` is at the head and may start. -/
def headOk (s : State) (ty : Nat) (p : Packet) : Bool :=
  s.input.slot == 9 && (s.queue 9).cur == some p && (s.queue 9).owner == some 0 && pnum p 0 1 == ty && p.waits == none && s.mayStart 9 0 p

theorem heads_of {s : State} {ty : Nat} {p : Packet} (h : headOk s ty p = true) : Heads s ty 9 0 p := by
  simp only [headOk, Bool.and_eq_true, beq_iff_eq] at h
  obtain ⟨⟨⟨⟨⟨h1, h2⟩, h3⟩, h4⟩, h5⟩, h6⟩ := h
  exact ⟨by rw [h1]; rfl, h2, h3, h4, h5, h6⟩

/-- The packets of the other tests. -/
def launchP : List (Nat × Nat × Nat) := [(0, 1, 1), (8, 8, 0x40000)]
def childP : List (Nat × Nat × Nat) := [(0, 1, 7), (24, 4, 1023 + 1024), (32, 2, 0x8000), (34, 2, 0), (36, 2, 1)]

/-- A packet of every type that runs at the head of a queue. -/
theorem test_hyps_packet_heads : ∀ f ∈ [launchP, [(0, 1, 2), (8, 8, 0x40000)], [(0, 1, 3), (8, 8, 0x40000)], [(0, 1, 4), (8, 8, 0x40000), (16, 1, 40)],
      [(0, 1, 5), (8, 2, 128)], [(0, 1, 6), (8, 8, 0x40000)], childP, [(0, 1, 8), (8, 2, 128)], [(0, 1, 9), (8, 2, 128)], [(0, 1, 10), (8, 2, 128)],
      [(0, 1, 11), (8, 2, 128)], [(0, 1, 12), (8, 2, 128)], [(0, 1, 13), (8, 2, 128)], [(0, 1, 14), (8, 2, 128)],
      [(0, 1, 15), (32, 1, 1)], [(0, 1, 15), (32, 1, 2)], [(0, 1, 15), (32, 1, 3)], [(0, 1, 16), (16, 4, 1)]],
    headOk (posted f) (pnum (packetOf f) 0 1) (packetOf f) = true := by
  decide

theorem test_hyps_heads : ∃ s p, Heads s 16 9 0 p := ⟨_, _, heads_of (test_hyps_packet_heads [(0, 1, 16), (16, 4, 1)] (by decide))⟩

/-- R77: the head of a ring that reads as a packet that is well formed, one that is not, one at an address that fails, one that must wait. -/
theorem test_hyps_packet_start :
    (∀ f ∈ [[(0, 1, 9), (8, 2, 128)], [(0, 1, 0)]],
      let s := posted [] fun s => (s.modQueue 9 fun q => { q with cur := none }).writeVa 0 (0x40000 + 7 * 64) (packetOf f).bytes
      (s.queue 9).owner = some 0 ∧ (s.queue 9).state = .run ∧ (s.queue 9).ridx ≠ (s.queue 9).widx ∧ (s.ctx 0).freeze = 0 ∧ s.cfg.erased = false ∧
      s.worldReady 0 = true ∧ (s.queue 9).cur = none ∧ (s.readVa 0 (0x40000 + 7 * 64) 64).bytes = some (packetOf f).bytes ∧
      (packetOf f).malformed 0 = decide (f = [(0, 1, 0)])) ∧
    ((posted [] fun s => s.modQueue 9 fun q => { q with cur := none, base := 0x40000000 }).readVa 0 (0x40000000 + 7 * 64) 64).bytes = none ∧
    (posted [(0, 4, 0x201)] fun s => s.modQueue 9 fun q => { q with open_ := [6] }).mayStart 9 0 (packetOf [(0, 4, 0x201)]) = false := by
  decide +kernel

/-- R83: a stage whose address 0x40000000 leads to the start of SBM. -/
def boxed (fs : List (Nat × Nat × Nat)) (f : State → State := id) (x : Input := {}) : State :=
  posted fs (fun s => f ((s.writeLocal 1 0x3008 (leBytes 8 0x4001)).writeLocal 1 0x4000 (leBytes 8 0x80000000407))) x

/-- Packets that lead to a mailbox and to none, a word that is empty and one that is full, and one that waits. -/
theorem test_hyps_mailboxes :
    (∀ p ∈ [[(0, 1, 2), (8, 8, 0x40000000)], [(0, 1, 3), (8, 8, 0x40000000)]], headOk (boxed p) (pnum (packetOf p) 0 1) (packetOf p) = true) ∧
    (boxed []).mem.isFull 0 = false ∧ (boxed [] fun s => { s with mem := { s.mem with full := [(0, true)] } }).mem.isFull 0 = true ∧
    (match (boxed []).lead 0x9100000 0 0x40000000 .store with
      | .ok t => (match (boxed []).targetOf t 0x40000000 with | .here a _ _ _ => (a, regionOf a) == (0x80000000000, .sbm) | _ => false)
      | _ => false) = true ∧
    (match (boxed []).lead 0x9100000 0 0x40000 .store with
      | .ok t => (match (boxed []).targetOf t 0x40000 with | .here a _ _ _ => regionOf a == .hbm | _ => false)
      | _ => false) = true := by
  decide

/-- The same with a flash page in service in the place of SBM. -/
def logged (s : State) : State :=
  { s.writeLocal 1 0x3008 (leBytes 8 0xC0000000427) with power := { s.power with flashOk := 3 } }

/-- R85 to R87: 40 bytes that may be written and that may not, a fault of a child that is open and one that is not, an append. -/
theorem test_hyps_memory_packets :
    (posted []).canWrite 0 0x40000 40 = true ∧ (posted []).canWrite 0 0x3FFFFFF8 40 = false ∧ (packetOf [(16, 1, 40)]).bytes.length = 64 ∧
    (let c : Ctx := (posted [] fun s => s.modCtx 128 fun x => { x with pending := [⟨3, 0⟩] }).ctx 128;
      c.live = true ∧ c.level ≠ 0 ∧ c.parent.toNat = 0 ∧ ∃ f ∈ c.pending, f.seq.toNat = 3 ∧ f.seq.toNat ≠ 4) ∧
    ((posted []).readVa 0 0x40000 8).bytes.isSome = true ∧ ((posted []).readVa 0 0x40000000 8).bytes = none ∧ ((posted []).flashPage 0 0x40000).isNone = true ∧
    ((boxed [] logged).flashPage 0 0x40000000).isSome = true := by
  decide

/-- An append whose one page has reached its commit, with flash at its place and without. -/
def appending (dst : Nat) : State :=
  boxed [] (fun s => { logged s with eng := { s.eng with cmds := [⟨1, .flog dst [List.replicate 16 1], 0, some (9, packetOf [(0, 1, 6)]), none⟩] } }) { num := 1 }

theorem test_hyps_append_commit :
    ((appending 0x40000000).eng.cmds.find? (fun c => c.id == (appending 0x40000000).input.num)).map Cmd.kind = some (.flog 0x40000000 [List.replicate 16 1]) ∧
    (flashPages 0 [0x40000000] (appending 0x40000000)).2 = true ∧ (flashPages 0 [0x40000] (appending 0x40000)).2 = false ∧
    (appending 0x40000).input.flag = false := by
  decide

/-- A bundle whose one team is gone, a record that waits for a ring with room, a handler record that waits for one. -/
def retired (f : State → State := id) : State :=
  served { slot := 9 } fun s => f { (s.setQueue 9 { owner := some 0, crBase := 0x40000, crLog2 := 4, waiting := [⟨2, 0, 9, 0, 0, 0, 0, some (9, 0)⟩] }) with
    teams := [], bundles := [(0, bundle0 { nextTeam := 1 })] }

theorem test_hyps_records_written :
    (∃ b : Bundle, retired.bundle? retired.input.num = some b ∧ b.retiring = false ∧ ∀ k ∈ b.kernels, k.gridX * k.gridY * k.gridZ ≤ k.nextTeam) ∧
    (∀ t ∈ retired.teams, t.2.bundle ≠ 0) ∧ ((retired.queue 9).waiting).length = 1 ∧ retired.ringTakes 9 0 = true ∧
    (retired fun s => s.modQueue 9 fun q => { q with crWrite := 15 }).ringTakes 9 0 = true ∧
    (retired fun s => s.modQueue 9 fun q => { q with crWrite := 16 }).ringTakes 9 0 = false ∧
    (∀ c ∈ [0, 128], (retired fun s => (s.setCtx 128 { live := true, level := 1 }).modCtx c fun x => { x with
        hqLog2 := 4, hqBase := 0x40000, hqWaiting := [⟨2, 6, 0, 0, 0, 0, 0, 0, 0, 0, 0⟩] }).hqTakes c 0 = true) :=
  ⟨⟨_, rfl, rfl, by decide⟩, (fun _ h => nomatch h), by decide, by decide, by decide, by decide, by decide⟩

/-- WORLD_CMD by the physical function: for world 63 and world 0, over addresses of HBM and not, with the world there and not, with each key held. -/
def worldly (w : World) (d : DWord) (cfg : Cfg → Cfg := id) (x : Input := {}) : State :=
  served { x with acc := ⟨.full, d⟩ } fun s => { s with worlds := [(63, w)], cfg := cfg s.cfg }

theorem test_hyps_world_commands :
    Answers (worldly {} 63) ∧ (worldly {} 63).cfg.wStatus ≠ 1 ∧ (worldly {} 63).cfg.state = .run ∧ dbits 63 5 0 = 63 ∧ dbits 64 5 0 = 0 ∧
    (regionOf (0x100 * 4096) = .hbm ∧ regionOf (0x100 * 4096 + 4096) = .hbm) ∧ regionOf (0xC00000 * 4096) ≠ .hbm ∧
    ((worldly { live := true } 63).world 63).live = true ∧ ((worldly {} 63).world 63).live = false ∧
    (let s := worldly {} 63 fun c => { c with wVfs := 1 }; s.cfg.wVfs.getLsbD 0 = true ∧ (s.ctx 0).started = true) ∧
    (dbits 0x13F 9 8 = 1 ∧ dbits 0x23F 9 8 = 2) ∧
    ((worldly { live := true, key1 := true } 0x13F).world 63).key1 = true ∧ ((worldly { live := true, kem := true } 0x23F).world 63).kem = true := by
  unfold Answers
  decide

/-- WORLD_CMD in progress: the last key and the first, a policy page that is good at its greatest count and one beyond it, a world that is quiet. -/
theorem test_hyps_world_done :
    (let s := worldly { live := true, key2 := true, kem := true } 0 (fun c => { c with wWorld := 63, wComp := 1, wStatus := 1, wOp := some .key }) { flag := true };
      s.cfg.wOp = some .key ∧ s.input.flag = true ∧ s.cfg.wComp = 1 ∧ (s.world 63).key2 = true) ∧
    (worldly { live := true, kem := true } 0 (fun c => { c with wWorld := 63, wComp := 2, wStatus := 1, wOp := some .key })).input.flag = false ∧
    (∀ n ∈ [16, 17], let s := (worldly {} 0 fun c => { c with wWorld := 63, wAddr := 0x100, wStatus := 1, wOp := some .create }).writeLocal 1 0x100000 (leBytes 4 n);
      s.mem.leaves < 2 ^ 20 ∧ s.cfg.wOp = some .create ∧ (s.firmwarePage (s.cfg.wAddr.toNat * 4096)).bytes.map (fun p => littleEndian (p.take 4)) = some n) ∧
    (let s := worldly { live := true } 0 fun c => { c with wWorld := 63, wStatus := 1, wOp := some .destroy };
      s.cfg.wOp = some .destroy ∧ ∀ c ∈ s.worldContexts 63, s.subtreeQuiet c = true) := by
  decide +kernel

/-- R127: one granule of a tenant's HBM, with a HIGH below the packet's VERSION, one that is equal to it, one that can rise no further; and no granule. -/
def granular (t : Tensor) (x : Nat := 65536) : State × Packet :=
  let p := [(0, 1, 15), (8, 8, 0x40000000), (16, 8, x), (28, 4, 5), (32, 1, 1)]
  (posted p (fun s => { (({ s with mem := { s.mem with tensor := [(0x40000000 / 65536, t)] } } : State).setCtx 0 { s.ctx 0 with world := 63 }).writeLocal 1 0x3008 (leBytes 8 (0x40000487 + 63 * 2 ^ 56 + 2 ^ 62)) with
    worlds := [(63, { live := true, key1 := true, key2 := true })] }), packetOf p)

theorem test_hyps_tensor :
    ([4, 5, 0xFFFFFFFF].all fun n => (granular { high := BitVec.ofNat 32 n }).1.mayStart 9 0 (granular {}).2) = true ∧
    ((granular {}).1.granules 0 1 0x40000000).map (fun l => l.map fun g => (g.addr, regionOf g.addr)) = some [(0x40000000, .hbm)] ∧
    (granular {}).1.granules 0 1 0x40008000 = none ∧ (granular {}).1.mem.wf = true ∧
    ¬(5#32).toNat ≤ (4#32).toNat ∧ (5#32).toNat ≤ (5#32).toNat := by
  decide +kernel

/-- R132, R133: channel 3 of a tenant's root over a page that it may use or not, outbound and inbound, and in RESYNC. -/
def channelled (b : Bounce) (x : Input := {}) : State :=
  { (granular {}).1.setCtx 0 { (granular {}).1.ctx 0 with bounce := [(3, b)] } with input := { x with ch := 3 } }

theorem test_hyps_bounce :
    (let s := channelled { state := 1, comp := 1, dev := 0x40000000, chunks := 1 }; (s.ctx 0).live = true ∧ (s.ctx 0).level = 0 ∧ (s.ctx 0).world ≠ 0 ∧
      s.cfg.erased = false ∧ ((s.ctx 0).bounceAt 3).state = 1 ∧ ((s.ctx 0).bounceAt 3).dir = false ∧ (s.chunkPage 0 ((s.ctx 0).bounceAt 3)).isSome = true) ∧
    (let s := channelled { state := 1, comp := 1, dir := true, dev := 0x40000000, chunks := 0xFFFFFFFF };
      ((s.ctx 0).bounceAt 3).dir = true ∧ (s.chunkPage 0 ((s.ctx 0).bounceAt 3)).isSome = true) ∧
    (let s := channelled { state := 1, comp := 2, dev := 0x40000000, chunks := 1 }; (s.chunkPage 0 ((s.ctx 0).bounceAt 3)).isNone = true) ∧
    (let s := channelled { state := 2 }; ((s.ctx 0).bounceAt 3).state = 2 ∧ s.mem.leaves < 2 ^ 20) ∧
    (channelled {} { flag := true }).input.flag = true ∧ (channelled {}).input.flag = false ∧
    ((channelled {}).power.stage ≠ .off ∧ (channelled {}).cfg.eraseEn = true) := by
  decide

/-- R134: a scrub whose leaf is the last one, one with none left, a list that reads and one that does not, ranges that may be scrubbed and that may not. -/
theorem test_hyps_scrubs :
    (let s := posted [(0, 1, 16), (8, 8, 0x40000), (16, 4, 1)]; s.mem.leaves < 2 ^ 20 ∧ (s.readVa 0 0x40000 16).bytes.isSome = true ∧ (s.readVa 0 0x40000000 16).bytes = none ∧
      (s.scrubbed 0 0 [(0x40020, 64)]).2 = 0 ∧
      (s.scrubbed 0 0 [(0x40000000, 64)]).2 = 2 ∧ s.canWrite 0 0x40000 64 = true ∧ s.canWrite 0 0x40000000 64 = false) ∧
    2 ^ 20 ≤ ({ (posted []).mem with leaves := 2 ^ 20 } : Mem).leaves := by
  decide

/-- A link of a device. -/
def linked (l : Link) (x : Input := {}) : State := served { x with link := 15 } fun s => s.setLink 15 l

/-- A packet of two flits. -/
def packet2 : FarPacket := { flits := 2, body := .request ⟨0, 0, 0, 0, 0, 0, 3, .store (List.replicate 64 1), .rlx, .team, 0, 0⟩ }

/-- Links: a key installed in UP and in KEY_EXHAUSTED, with a leaf and with none, the seventh and the eighth failure either way, a packet that
just fits, one that does not, and one that finds others held. -/
theorem test_hyps_links :
    (∀ n ∈ [2, 3], let s := linked { state := BitVec.ofNat 3 n, asked := true, held := [packet2] }
      let l := s.link 15; (l.state = 2 ∨ l.state = 3) ∧ l.asked = true ∧ l.next = false ∧ s.mem.leaves < 2 ^ 20) ∧
    2 ^ 20 ≤ ({ (linked {}).mem with leaves := 2 ^ 20 } : Mem).leaves ∧
    ((linked { state := 2, rxFails := 7 }).link 15).rxFails < 8 ∧ 8 ≤ ((linked { state := 2, rxFails := 8 }).link 15).rxFails ∧
    (let l := (linked { state := 2, sent := [packet2], txFails := 6 }).link 15; l.sent[0]? = some packet2 ∧ l.txFails < 7) ∧
    7 ≤ ((linked { state := 2, sent := [packet2], txFails := 7 }).link 15).txFails ∧
    Fits { tx := 0xFFFFFFFFFFFD } 2 ∧ ¬Fits { tx := 0xFFFFFFFFFFFE } 2 ∧ keyed { tx := 0x800000000000, next := true } false ≠ { tx := 0x800000000000, next := true } ∧
    ((linked { state := 2, held := [packet2] }).link 15).held ≠ [] := by
  unfold Fits
  decide

/-- A load of eight lanes whose address leads to device 1. -/
def far (enable : Bool) (x : Input := {}) : State :=
  let s := (core [(2, 0x40000000)] []).writeLocal 1 0x3008 (leBytes 8 (0x100040000487))
  { next (exec load4 (({ s with fabric := { s.fabric with enable := enable } } : State).setLink 0 { state := 2 })) with input := { x with unit := ⟨0, 0, 1, 0⟩ } }

/-- The request of `far`, its first part, and the part sent. -/
def farReq (sent : Bool) (x : Input := {}) : State :=
  let s := far true x
  { s with teams := s.teams.map fun p => (p.1, { p.2 with warps := p.2.warps.map fun w => { w with mem := w.mem.map fun r => { r with
      units := r.units.take 1 |>.map fun u => { u with sent := sent } } } }) }

/-- R30 to R40: a part of another device, to be sent with the fabric on and off, answered, and missed. -/
theorem test_hyps_remote : ∀ s ∈ [far true, far false, farReq false, farReq true, farReq true { kind := 2 }],
    s.team? s.input.unit.team = some (teamOf s) ∧ s.input.unit.warp < (teamOf s).warps.length ∧ ((teamOf s).warp 0).mem = [] ++ reqOf s :: [] ∧
    (reqOf s).id = s.input.unit.req ∧ (reqOf s).units[s.input.unit.unit]? = some (unitOf s) ∧ (unitOf s).done = false ∧
    (match (unitOf s).tgt with | .away d a _ _ => d == 1 && a == 0x40000000 && s.planeOf a == 0 && (s.link 0).state == 2 | _ => false) = true ∧
    (reqOf s).kind = .load ∧ s.input.flag = false ∧ s.input.kind ≠ 3 := by
  decide

theorem test_hyps_remote_parts :
    (far false).fabric.enable = false ∧ (unitOf (far true)).sent = false ∧ (unitOf (farReq true)).sent = true ∧ (reqOf (farReq true)).units.length = 1 ∧
    (reqOf (far true)).units.length = 8 ∧ ((far true).link 0).rxFails < 8 := by
  decide

/-- A request of device 1 for the member context 0, which the root stage of `core` admits, or not: its subtree, world and address. -/
def arriving (q : RemoteReq) (c : Ctx → Ctx := id) (seen : List (Nat × Nat × FarAnswer) := []) : State :=
  served { remote := q, link := 15 } fun s => ({ s with fabric := { s.fabric with enable := true, seen := seen } }.setCtx 0 (c (s.ctx 0))).setLink 15 { state := 2 }

/-- A request of device 1 for address 0x40000 of a member, the first on its plane. -/
def asks (kind : RemoteKind) (member : BitVec 16 := 0) (place : Nat := 0) (bytes : Nat := 0xFF) : RemoteReq :=
  ⟨1, 0, member, 0, 0, 0x40000, bytes, kind, .rlx, .team, place, 0⟩

/-- R36, R38: a load, a store and an atomic that pass, a duplicate, one too early and one in the buffer, no member, and each check that fails. -/
theorem test_hyps_arrivals :
    (∀ k ∈ [.load, .store (List.replicate 64 1), .atom 0 true [1]], let s := arriving (asks k)
      s.fabric.enable = true ∧ s.cfg.erased = false ∧ s.input.remote.src ≠ s.fabric.deviceNum ∧ s.input.remote.dev = s.fabric.deviceNum ∧
      (s.link 15).state = 2 ∧ (s.link 15).rxFails < 8 ∧
      s.fabric.seen = [] ∧ s.fabric.reorder = [] ∧ Sparse.get 0 (1 * 16 + 15) s.fabric.presented = 0 ∧ s.member 0 = some 0 ∧
      s.input.home = .plain ∧ (∀ c ∈ s.ctxs, c.2.watch = []) ∧ regionOf 0x40000 = .hbm) ∧
    atomOfCode 0 = some .add ∧
    ((arriving (asks .load) id [(1, 0, .done [])]).fabric.seen = [(1, 0, .done [])] ∧ (arriving (asks .load 9)).member 9 = none) ∧
    (Sparse.get 0 (1 * 16 + 15) (arriving (asks .load 0 1)).fabric.presented < 1 ∧
      (let s := arriving (asks .load 0 1); ({ s with fabric := { s.fabric with reorder := [(asks .load 0 1, 15, .plain)] } } : State).fabric.reorder ≠ [])) ∧
    (∀ h ∈ [none, some { cause := 2, fatal := false }], let s := arriving (asks .load) fun c => { c with ptb := 0, halt := h }
      (match s.targetCheck 0 (asks .load) with | .ok _ => 3 | .error k => k.toNat) = 0 ∧ (s.ctx 0).halt = h) := by
  decide +kernel

/-- The one entry of context 0 that leads to page 0x40000, for a request of another world and a store without WRITE (R38). -/
def entered (leaf : Nat) (q : RemoteReq) (ok : State → Trans → Bool) : Bool :=
  let s := (arriving q).writeLocal 1 0x3000 (leBytes 8 leaf)
  match s.entriesTo 0 0x40000 with
  | [t] => t.pin && ok s t
  | _ => false

/-- The first such entry, for a load that it admits. -/
theorem test_hyps_admitted : (let s := arriving (asks .load); match s.entriesTo 0 0x40000 with
    | t :: _ => t.pin && t.world == 0 && t.comp == 0 && t.read && (List.range 64).all fun j =>
      !s.mem.poisoned (s.place t.inter.toNat 0x40000 + j) && !s.mixed (0x40000 + j) && s.mem.tagOk (s.place t.inter.toNat 0x40000) 0x40000 t.world t.comp
    | [] => false) = true := by
  decide +kernel

theorem test_hyps_other_tags : entered 0x49F { asks .load with world := 5 } (fun s t => t.world != s.input.remote.world) = true := by
  decide +kernel

theorem test_hyps_not_writable : entered 0x49B (asks (.store [])) (fun s t => t.world == s.input.remote.world && t.comp == 0 && !t.write) = true := by
  decide +kernel

/-- The 256 bytes of a launch record of one team of eight threads that posts to slot 9, with fields changed. -/
def recordBytes (fs : List (Nat × Nat × Nat)) : List Byte :=
  let all := [(0, 8, 0x50000), (0x28, 4, 1), (0x2C, 4, 1), (0x30, 4, 1), (0x34, 2, 8), (0x36, 2, 1), (0x38, 2, 1), (0x3C, 1, 1), (0x44, 2, 1), (0x4E, 2, 9)] ++ fs
  (List.range 256).map fun j => BitVec.ofNat 8 ((all.map fun f => if f.1 ≤ j ∧ j < f.1 + f.2.1 then f.2.2 / 256 ^ (j - f.1) else 0).sum)

/-- What reading a chain from an address gives, once a record is written at 0x40000 with fields changed. -/
def chained (fs : List (Nat × Nat × Nat)) (va : Nat) : Except (BitVec 8) (List Kernel) :=
  (State.readChain 0 (fun _ => true) 4 [] va (posted launchP fun s => s.writeLocal 1 0x40000 (recordBytes fs))).2

/-- LAUNCH of a record that is good and waits for gate 15, of one that is not, of one that fails to be read, and of chains: one that ends
at a record already read, one that fails at its second. -/
theorem test_hyps_launch :
    (match chained [(0x4A, 2, 0x8000)] 0x40000 with | .ok ks => ks.map fun k => (k.gridX, k.teamX, k.regPages) | .error _ => []) = [(1, 8, 1)] ∧
    ∀ p ∈ [([(0x3C, 1, 32)], 0x40000, 1), ([], 0x40000000, 2), ([(0x18, 8, 0x40000000), (0x46, 2, 4)], 0x40000, 2), ([(0x10, 8, 0x40000000), (0x48, 2, 1)], 0x40000, 2),
        ([(0x10, 8, 0x60000), (0x48, 2, 1)], 0x40000, 1), ([(0x20, 8, 0x40000)], 0x40000, 1), ([(0x20, 8, 0x40000000)], 0x40000, 2)],
      (match chained p.1 p.2.1 with | .ok _ => 0 | .error e => e.toNat) = p.2.2 := by
  refine ⟨?_, ?_⟩ <;> decide +kernel

/-- CHILD_CREATE whose slot 1,023 is the context's own and idle, and one whose slot is not; the lowest free context is 129. -/
theorem test_hyps_child :
    (let s := posted childP fun s => s.setQueue 1023 { owner := some 0 };
      (s.queue 1023).owner = some 0 ∧ (s.queue 1023).state = .idle ∧ s.fabric.deviceNum = 0 ∧ (∀ x ∈ s.ctxs, (s.subtreeOf x.1).1.toNat ≠ 0x8000) ∧
      (s.subtreeOf 0).2.1 = 0 ∧ (s.subtreeOf 0).2.2 = 1 ∧ pnum (packetOf childP) 24 4 % 2 ^ 10 = 1023 ∧ pnum (packetOf childP) 24 4 / 2 ^ 10 % 2 ^ 11 = 1 ∧
      (s.ctx 129).live = false ∧ (s.ctx 128).live = true) ∧
    ((posted childP).queue 1023).owner ≠ some 0 := by
  decide

/-- Every number from 128 on taken. -/
theorem test_hyps_no_context_free : ∃ s : State, ∀ n, 128 ≤ n → n < 4096 → (s.ctx n).live = true := by
  refine ⟨{ State.reset with ctxs := (List.range 4096).map fun n => (n, { live := true }) }, fun n _ h => ?_⟩
  have key : ∀ (m k : Nat), k ≤ n → n < k + m → Table.find n ((List.range' k m).map fun n => (n, ({ live := true } : Ctx))) = some { live := true } := by
    intro m
    induction m with
    | zero => intro k h1 h2; omega
    | succ m ih =>
      intro k h1 h2
      rw [List.range'_succ, List.map_cons]
      rcases Nat.lt_or_eq_of_le h1 with h3 | rfl
      · have := ih (k + 1) h3 (by omega)
        simpa [Table.find, Nat.ne_of_gt h3, Nat.ne_of_lt h3] using this
      · simp [Table.find]
  simp only [State.ctx, List.range_eq_range', key 4096 0 (Nat.zero_le _) (by omega), Option.getD_some]

/-- A command in progress on the child 128 of `posted`, or on another context. -/
def commanded (k : CmdKind) (x : Input := {}) (f : State → State := id) (ctx : CtxId := 128) : State :=
  posted [] (fun s => f { s with eng := { s.eng with cmds := [⟨1, k, ctx, some (9, packetOf [(48, 8, 0x40000)]), none⟩] } }) { x with num := 1 }

/-- Commands on a child, on the root itself, and on neither; commands that may end. -/
theorem test_hyps_subtree_commands :
    (let s := posted []; (s.ctx 128).live = true ∧ (s.ctx 128).level ≠ 0 ∧ (s.ctx 128).parent.toNat = 0 ∧ (s.ctx 0).level = 0 ∧ (s.ctx 129).live = false) ∧
    (pnum (packetOf [(10, 1, 1)]) 10 1).testBit 0 = true ∧ (pnum (packetOf []) 10 1).testBit 0 = false ∧
    (let s := commanded .freeze; (s.eng.cmds.find? fun c => c.id == s.input.num).map Cmd.kind = some .freeze ∧ s.subtreeStill 128 = true) ∧
    (commanded (.inval 0 0)).coveredPending 128 0 0 = false ∧ (commanded (.revoke false)).subtreeQuiet 128 = true ∧ 128 ∈ (commanded (.revoke false)).subtree 128 ∧
    (let s := commanded (.checkpoint false true []); s.mem.leaves < 2 ^ 20 ∧ (s.eng.cmds.map Cmd.queue) = [some (9, packetOf [(48, 8, 0x40000)])]) := by
  decide

/-- R114, R103: a resident team of the child on the highest core, and a castling entry that depends on the child's last page. -/
theorem test_hyps_preempt_and_inval :
    (let s := posted [] fun s => { s with
        bundles := s.bundles.map fun p => (p.1, { p.2 with ctx := 128 })
        teams := s.teams.map fun p => (p.1, { p.2 with core := 191, warps := p.2.warps.map fun w => { w with core := 191 } }) };
      (s.team? 0).map (fun tm => (tm.place, tm.ask, s.ctxOf tm)) = some (.resident, .none, 128) ∧ s.within 128 128 = true ∧ s.coresOf 128 = [191] ∧
      (∀ p ∈ s.teams, ∀ w ∈ p.2.warps, w.holdsPages = true)) ∧
    (let d : Nat × Nat := (128, 0xFFFFFFFFFFF); d.1 = 128 ∧ 0xFFFFFFFFFFF000 / 4096 ≤ d.2 ∧ d.2 < 0xFFFFFFFFFFF000 / 4096 + 1) := by
  decide

/-- R115: a forwarded command with a member and with none, and an answer that is awaited. -/
theorem test_hyps_forwarded :
    (let s := posted []; s.member 0 = some 0 ∧ s.member 0xFFFF = none ∧ s.eng.cmds = [] ∧ (s.ctx 0).halt = none) ∧
    (let s := commanded (.forward [5] 1 false) { dev := 5 }; (s.eng.cmds.find? fun c => c.id == s.input.num).map Cmd.kind = some (.forward [5] 1 false) ∧
      s.input.dev.toNat ∈ [5]) := by
  decide

/-- A bundle of one kernel whose next team is new, in place of the team of `core`. -/
def offering (k : Kernel → Kernel := id) : State :=
  { coreW id id (fun x => k { x with nextTeam := 0, gridX := 2, args := [5, 6] }) with teams := [], issue := none }

/-- R140 to R143: the first new team of a kernel without an entry stage, and with one, on the lowest core. -/
theorem test_hyps_placement : ∀ s ∈ [offering id, offering fun k => { k with entryStage := true, sched := [entry1] }],
    s.nextSeat.map (fun x => (x.who, x.core, x.bases)) = some (.new 0 0, 0, [0]) ∧ (s.bundle? 0).isSome = true ∧
    ((s.bundle? 0).map fun b => b.kernels.length) = some 1 := by
  decide +kernel

/-- A record of a page miss of context 0. -/
def miss0 : HRec := ⟨1, 1, 0, 0, 0, 0, 0, 0x40, 0, 0, 0⟩

/-- The team of `core` with its context's save area of 1 MiB, stopping for a fault, or asked to stop and parked, or saved. -/
def leaving (tm : Team → Team) (w : Warp → Warp := id) : State :=
  coreW (fun v => w { v with pages := 1 }) tm (fun k => { k with accs := 0, tiles := 0, regPages := 1 }) id fun s =>
    { s.setCtx 0 { s.ctx 0 with saveBase := 0x80000, saveLog2 := 20 } with issue := none }

def faulting : State := leaving fun tm => { tm with place := .stopping 1, fault := some miss0 }
/-- Parked at a safe point whose entry keeps no register. -/
def leavingParked : State :=
  (coreW (fun w => { w with pages := 1, threads := w.threads.map fun t => { t with park := .spt 0 } }) (fun tm => { tm with ask := .preempt })
    (fun k => { k with accs := 0, tiles := 0, regPages := 1, sptTable := 0x60000, sptCount := 1 }) id fun s =>
      { s.setCtx 0 { s.ctx 0 with saveBase := 0x80000, saveLog2 := 20 } with issue := none }).writeLocal 1 (0x60000 + 33) [1]

/-- The team of a state. -/
def team0 (s : State) : Team := (s.team? 0).getD { bundle := 0, kernel := 0, index := 0 }

/-- R148 to R151, R197: a still team that stops for a fault, and one that is asked to and has every warp parked; its image finds room. -/
theorem test_hyps_saving :
    (∀ s ∈ [faulting, leavingParked], s.team? s.input.team = some (team0 s) ∧ (s.ctx (s.ctxOf (team0 s))).halt = none ∧ s.teamStill 0 (team0 s) = true ∧
      (∃ w ∈ (team0 s).warps, ∃ a ∈ w.threads, a.park ≠ .exited)) ∧
    (team0 faulting).place = .stopping 1 ∧ (team0 leavingParked).place = .resident ∧ (team0 leavingParked).ask = .preempt ∧
    (∀ w ∈ (team0 leavingParked).warps, ∀ a ∈ w.threads, a.park ≠ .none ∧ a.park ≠ .exiting) := by
  decide

theorem test_hyps_image_room : (faulting.saveTeam 0 (team0 faulting) true 1 false 0).toOption.isSome = true ∧
    (leavingParked.saveTeam 0 (team0 leavingParked) false 0 true 0).toOption.isSome = true := by
  decide +kernel

/-- The state once the second team is saved, and the same with nothing of an image at its place. -/
def savedOk : State := ((leavingParked.saveTeam 0 (team0 leavingParked) false 0 true 0).toOption.getD (core [] [], 0)).1
def savedBad : State := leaving fun tm => { tm with place := .saved 0 4096 true 1 }

/-- R140, R203, R205: a saved team that comes next, with an image that restores and one that does not. -/
theorem test_hyps_reentry :
    (∀ s ∈ [savedOk, savedBad], (s.nextSeat.map fun x => x.who) = some (.again s.input.team) ∧
      (match (team0 s).place with | .saved pos _ ready _ => pos == 0 && ready | _ => false) = true) ∧
    (savedOk.restored (team0 savedOk) 0).2.isSome = true ∧ (savedBad.restored (team0 savedBad) 0).2.isSome = false := by
  decide +kernel

/-- A halted context with work of each engine. -/
def halted (x : Input) : State :=
  coreW (fun w => { w with pages := 1 }) id (fun k => { k with sched := [entry1], accs := 0, tiles := 1, regPages := 1 }) id fun s =>
    { s.setCtx 0 { s.ctx 0 with halt := some { cause := 2, fatal := false }, saveBase := 0x80000, saveLog2 := 20 } with
      input := x
      eng := { s.eng with
        cle := [⟨1, 0, 0, 0, 1, 0, 0, [], 0, 0, [], [], none⟩], mxe := [⟨1, 0, 0, 1, 0, .accZero 0 1⟩]
        tce := [⟨1, 0, 0, 1, 0, 0, 0⟩] } }

/-- R191: the three engines hold work of a halted context, whose halt is not saved; entries that are good and that break a rule. -/
theorem test_hyps_engine_stops :
    (∀ s ∈ [halted { engine := .cle 1 }, halted { engine := .mxe 1, flag := true }, halted { engine := .tce 1, num := 8 }],
      s.team? 0 = some (team0 s) ∧ s.ctxOf (team0 s) = 0 ∧ (team0 s).place = .resident ∧
      ((s.ctx 0).halt.map fun h => (h.saved, h.tamper, h.recs)) = some (false, false, []) ∧
      (s.eng.cle.find? fun o => o.id == 1).isSome = true ∧ (s.eng.mxe.find? fun x => x.team == 0 && x.warp == 0).map MxeOp.id = some 1 ∧
      (s.kernelOf (team0 s)).sched[0]? = some entry1 ∧ entry1.bad (s.kernelOf (team0 s)) entry1.src = false ∧
      { entry1 with kind := 255 }.bad (s.kernelOf (team0 s)) entry1.src = true) := by
  decide

/-- R192: a halted context whose teams are gone, with room for its image and its stop record. -/
def haltSaved : State := { halted {} with eng := {}, teams := [] }

theorem test_hyps_halt_save :
    ((haltSaved.ctx 0).halt.map fun h => (h.saved, h.tamper)) = some (false, false) ∧ haltSaved.drainedCtx 0 = true ∧
    haltSaved.enginesStopped 0 { cause := 2, fatal := false } = true := by
  decide

theorem test_hyps_halt_room : (haltSaved.saveHalt 0 { cause := 2, fatal := false, recs := [{ engine := 0, cause := 2 }] } []).toOption.isSome = true := by
  decide +kernel

/-- R327: a released entry whose beats are performed, one whose source no stage maps, one that breaks a rule. -/
def copying (e : SchedEntry) : State :=
  coreW id id (fun k => { k with sched := [e] }) id fun s => { s with input := { num := 1 }, eng := { s.eng with tce := [⟨1, 0, 0, 1, 0, 0, 0⟩] } }

theorem test_hyps_copy_entries :
    (∀ s ∈ [copying entry1, copying { entry1 with src := 0x40000000 }, copying { entry1 with kind := 255 }],
      s.eng.tce.find? (fun o => o.id == s.input.num) = some ⟨1, 0, 0, 1, 0, 0, 0⟩ ∧ s.team? 0 = some (team0 s) ∧ (s.ctx 0).halt = none ∧ (team0 s).place = .resident) ∧
    (let r (e : SchedEntry) : CopyRun := (({ copying e with freeCtr := (copying e).freeCtr + 1 } : State).copyEntry (team0 (copying e)) 0 ⟨1, 0, 0, 1, 0, 0, 0⟩ e none true).1;
      (r entry1).fail.isNone = true ∧ (r entry1).struck.isNone = true ∧ (r { entry1 with src := 0x40000000 }).fail.isSome = true) := by
  decide

/-- A block of an all-reduce of one f32 element over this device alone, at an address of context 0. -/
def collBytes : List Byte := leBytes 8 0 ++ leBytes 4 9 ++ leBytes 2 1 ++ leBytes 2 1 ++ leBytes 8 0 ++ leBytes 8 0x50000 ++ leBytes 8 1 ++ leBytes 24 0
def collState (va : Nat) (bs : List Byte) : State := (core [] [(4, BitVec.ofNat 32 va)]).writeLocal 1 0x40000 bs

/-- R334: `coll` with token 7 of a good block, of one off its boundary and of one with a bad KIND. -/
theorem test_hyps_coll :
    (∀ s ∈ [collState 0x40000 collBytes, collState 0x40004 collBytes, collState 0x40000 (6 :: collBytes.drop 1)],
      readyIn (.coll ⟨false, 7⟩ 4) s = true ∧ (focus s).wp.mem = [] ∧ (focus s).wp.tokens.getD 7 0 < 63) ∧
    sA64 (focus (collState 0x40000 collBytes)) 4 % 64 = 0 ∧ sA64 (focus (collState 0x40004 collBytes)) 4 % 64 ≠ 0 ∧
    (let r := (collState 0x40000 collBytes).engineRead 0 0x40000 64 .load; r.fail.isNone = true ∧ r.bytes.length = 64 ∧
      decide (r.s.eng = (collState 0x40000 collBytes).eng) = true ∧ r.s.collBad 0 (collBlock r.bytes) = false) ∧
    (let r := (collState 0x40000 (6 :: collBytes.drop 1)).engineRead 0 0x40000 64 .load; r.s.collBad 0 (collBlock r.bytes) = true) := by
  decide +kernel

/-- R336: the collective of that block, which may complete. -/
def collecting : State :=
  { core [] [] with input := { num := 1, coll := ⟨true, [], .leaf 0⟩ }, eng := { (core [] []).eng with cle := [⟨1, 0, 0, 0, 7, 0, 0, collBytes, 0, 0, [], [], none⟩] } }

theorem test_hyps_collective_completes :
    (collecting.eng.cle.find? fun o => o.id == collecting.input.num).map CleOp.block = some collBytes ∧ collecting.team? 0 = some (team0 collecting) ∧
    (collecting.ctx 0).halt = none ∧ collecting.rankOf (collBlock collBytes) = some 0 ∧ collBytes ≠ [] ∧ collecting.collBad 0 (collBlock collBytes) = false ∧
    collecting.input.coll.agree = true ∧ (collBlock collBytes).ranks ≤ 1 ∧ treeOf (collBlock collBytes).ranks collecting.input.coll.tree = true ∧
    (let own := ({ collecting with freeCtr := collecting.freeCtr + 1 } : State).engineRead 0 0x50000 4 .load;
      own.fail.isNone = true) := by
  decide +kernel

/-- Every thread of the team parked at barrier 0. -/
def allAtBar : State := coreW fun w => { w with threads := w.threads.map fun a => { a with park := .bar 0 } }

theorem stuck_of {tm : Team} (h : (∃ w ∈ tm.warps, ∃ a ∈ w.threads, a.park = .bar 0) ∧ ∀ w ∈ tm.warps, ∀ a ∈ w.threads, a.park = .bar 0) : Stuck tm := by
  obtain ⟨⟨w, hw, a, ha, hp⟩, h⟩ := h
  have left : Left a := by unfold Left; rw [hp]; decide
  refine ⟨⟨a, w, hw, ha, left⟩, fun b ⟨v, hv, hb, _⟩ => .inl ⟨0, h v hv b hb⟩, fun ⟨pc, hm⟩ => ?_⟩
  obtain ⟨⟨x, hx⟩, -⟩ := hm a ⟨w, hw, ha, left⟩
  rw [hp] at hx; cases hx

/-- R164: a team that is stuck, and one that is not. -/
theorem test_hyps_deadlock :
    allAtBar.team? 0 = some (team0 allAtBar) ∧ Stuck (team0 allAtBar) ∧ ¬StopStands allAtBar (team0 allAtBar) ∧ (allAtBar.ctx (allAtBar.ctxOf (team0 allAtBar))).halt = none ∧
    ¬Stuck (team0 (core [] [])) := by
  refine ⟨by decide, stuck_of (by decide), by unfold StopStands; decide, by decide, fun ⟨_, h, _⟩ => ?_⟩
  have h0 := h (fetchWarp.threads.headD { lane := 0, tx := 0, ty := 0, tz := 0 })
    ⟨_, List.mem_cons_self .., List.mem_cons_self .., by unfold Left; decide⟩
  rcases h0 with ⟨_, h⟩ | ⟨_, h⟩ <;> cases h

/-- A copy of one tile entry of stage 1, alone and beside another copy of that stage. -/
def tiling (n : Nat) : State :=
  let e := { entry1 with flags := 8 }
  { copying e with eng := { (copying e).eng with tce := (List.range n).map fun i => ⟨i + 1, 0, 0, 1, 0, 0, 0⟩ } }

/-- R327, R332: a copy that is the last of its stage, and one that is not. -/
theorem test_hyps_stage_ends :
    (∀ n ∈ [1, 2], (tiling n).team? 0 = some (team0 (tiling n))) ∧ ({ entry1 with flags := 8 } : SchedEntry).stage = 1 ∧ entry1.tileReg.toNat < 16 ∧
    (∀ x ∈ (tiling 1).eng.tce.filter (fun x => x.id != 1), ¬(x.team = 0 ∧ x.stage = 1)) ∧
    (∃ x ∈ (tiling 2).eng.tce.filter (fun x => x.id != 1), x.team = 0 ∧ x.stage = 1) ∧
    tiles { entry1 with flags := 8 } = true ∧ 2 ^ 56 ≤ ({ entry1 with flags := 8 } : SchedEntry).dst.toNat := by
  decide

/-- The block of a collective over two devices; and a collective with no block, one whose members disagree, and that one with the fabric disabled. -/
def twoRanks : List Byte := (collBytes.take 12) ++ leBytes 2 2 ++ collBytes.drop 14
def collectingOn (bs : List Byte) (agree : Bool) : State :=
  let s := core [] []
  { s.setCtx 0 { s.ctx 0 with subtree := some (0, 0, 2) } with
    input := { num := 1, coll := ⟨agree, [], .leaf 0⟩ }, eng := { s.eng with cle := [⟨1, 0, 0, 0, 7, 0, 0, bs, 0, 0, [], [], none⟩] } }

theorem test_hyps_collective_stops :
    (∀ s ∈ [collectingOn [] true, collectingOn collBytes false, collectingOn twoRanks true],
      (s.eng.cle.find? fun o => o.id == s.input.num).isSome = true ∧ s.team? 0 = some (team0 s) ∧ s.ctxOf (team0 s) = 0 ∧ (s.ctx 0).halt = none) ∧
    (let b := collBlock twoRanks;
      (collectingOn twoRanks true).collBad 0 b = false ∧ (collectingOn twoRanks true).fabric.enable = false ∧ 1 < b.ranks ∧
        (collectingOn twoRanks true).fabric.deviceNum.toNat = b.first + 0 * b.stride) := by
  decide +kernel

theorem entries_full {c : Nat} {k : Kernel} (ws : List Warp) (s : State) : EntriesRead c k true ws s s (ws.map fun _ => none) := by
  induction ws with
  | nil => exact ⟨rfl, rfl⟩
  | cons w rest ih => exact ⟨s, none, _, rfl, ⟨fun _ => ⟨rfl, rfl⟩, fun i h => by cases h⟩, ih⟩

theorem restored_of {s : State} {tm : Team} {cause : BitVec 8} (hs : WellShaped (s.kernelOf tm) tm) (h : (s.teamImage tm true cause).bytes.length < 2 ^ 32)
    (hi : (s.teamImage tm true cause).s = s) :
    ∃ (s : State) (tm u : Team) (full : Bool) (cause : BitVec 8) (es : List (Option (Nat × SptEntry))),
      let k := s.kernelOf tm
      let i := s.teamImage tm full cause
      WellShaped k tm ∧ i.bytes.length < 2 ^ 32 ∧ EntriesRead (s.ctxOf tm) k full tm.warps s i.s es ∧
      u = { i.tm with place := u.place, ask := u.ask, warps := u.warps } ∧
      Each (fun v w => w = { v with hold := none, owes := w.owes, clearing := w.clearing }) i.tm.warps u.warps := by
  refine ⟨s, tm, { (s.teamImage tm true cause).tm with warps := (s.teamImage tm true cause).tm.warps.map fun v => { v with hold := none } }, true, cause, tm.warps.map fun _ => none, hs, h,
    by simp only [hi]; exact entries_full _ _, rfl, by simp, fun i x y hx hy => ?_⟩
  simp only [List.getElem?_map, hx, Option.map_some, Option.some.injEq] at hy
  rw [← hy]

theorem shaped_of {k : Kernel} {tm : Team} (h : k.width ≤ 3 ∧ (∀ w ∈ tm.warps, w.tokens.length = 8 ∧ w.window < 128 ∧ w.rsec < 256 ∧ w.plyLeft < 2 ^ 16 ∧ (w.threads.map Thread.lane).Nodup ∧
            ∀ a ∈ w.threads, a.lane < 8 * 2 ^ k.width ∧ a.pc.toNat % 4 = 0) ∧ (tm.dirty.map Prod.fst).Pairwise (· < ·) ∧ ∀ d ∈ tm.dirty, d.1 < 192) : WellShaped k tm :=
  ⟨h.1, h.2.1, h.2.2⟩

/-- R199 to R205: the image of a team that stops for a fault is restored, at another place. -/
theorem test_hyps_image : ∃ (s : State) (tm u : Team) (full : Bool) (cause : BitVec 8) (es : List (Option (Nat × SptEntry))),
      let k := s.kernelOf tm
      let i := s.teamImage tm full cause
      WellShaped k tm ∧ i.bytes.length < 2 ^ 32 ∧ EntriesRead (s.ctxOf tm) k full tm.warps s i.s es ∧
      u = { i.tm with place := u.place, ask := u.ask, warps := u.warps } ∧
      Each (fun v w => w = { v with hold := none, owes := w.owes, clearing := w.clearing }) i.tm.warps u.warps :=
  restored_of (s := faulting) (tm := team0 faulting) (cause := 1) (shaped_of (by decide +kernel)) (by decide +kernel) (by decide +kernel)

/-- A word of a table in SBM that is not poisoned is its eight bytes. -/
theorem table_word {z : State} {here : Miss} {a : Nat} (f : Nat → Byte) (h : ∀ i < 8, z.mem.get (a + i) = f i) (hr : regionOf a = .sbm)
    (hm : a % 0x100000000000 = a) (hp : z.place plainPattern a = a) (hz : z.mem.poison = []) (hi : z.input.hits = []) :
    z.rootTableWord here a = .ok (leNat ((List.range 8).map f), []) := by
  have h1 : z.mem.poisoned a = false := by simp [Mem.poisoned, hz, Sparse.get]
  have h2 : z.mem.tagOk a a 0 0 = true := by simp [Mem.tagOk, hr]
  have h3 : z.mem.read a 8 = (List.range 8).map f := by
    have e0 := h 0 (by omega); have e1 := h 1 (by omega); have e2 := h 2 (by omega); have e3 := h 3 (by omega)
    have e4 := h 4 (by omega); have e5 := h 5 (by omega); have e6 := h 6 (by omega); have e7 := h 7 (by omega)
    simp only [Nat.add_zero] at e0
    simp [Mem.read, List.range_succ, Nat.add_assoc, e0, e1, e2, e3, e4, e5, e6, e7]
  have h4 : z.spoiledRange plainPattern a 8 0 0 = none := by
    show ((List.range 1).findSome? fun i => z.spoiled plainPattern (a + 8 * i) 0 0) = none
    simp only [List.range_succ, List.range_zero, List.nil_append, List.findSome?_cons, List.findSome?_nil, Nat.mul_zero, Nat.add_zero, State.spoiled, hp, h1, h2]
    rfl
  have h5 : z.netFails a 8 = false := by
    simp only [State.netFails, List.any_eq_false]
    intro w _
    simp [State.hitAt, hi, Table.find]
  unfold State.rootTableWord State.tableWord State.homeRead
  rw [hm, hr]
  simp only [h4, h5, State.readLocal, hp, h3]
  rfl

/-- A stage whose table in SBM at 2^43 leads to itself by its first word and to the first gigabyte of HBM by its second. -/
theorem gigabyte_leads {z : State} {here : Miss} {va : Nat}
    (h1 : z.rootTableWord here 0x80000000000 = .ok (0x80000000001, [])) (h2 : z.rootTableWord here 0x80000000008 = .ok (0x407, []))
    (k1 : z.rootEntryOk 0x80000000001 0 = true) (k2 : z.rootEntryOk 0x407 0x40000000 = true) (hv : va / 2 ^ 30 = 1) :
    ∃ ds, walkStage (z.rootTableWord here) z.rootEntryOk here 0 va 5 0x80000000000 = .ok ⟨0x407, va % 0x40000000, 0x40000000, ds⟩ := by
  have i4 : (va >>> 48) % 256 = 0 := by rw [Nat.shiftRight_eq_div_pow]; omega
  have i3 : (va >>> 39) % 512 = 0 := by rw [Nat.shiftRight_eq_div_pow]; omega
  have i2 : (va >>> 30) % 512 = 1 := by rw [Nat.shiftRight_eq_div_pow]; omega
  have v1 : entryValid 0x80000000001 = true ∧ entrySize 0x80000000001 = 0 ∧ entryFrame 0x80000000001 = 0x80000000000 := by decide
  have v2 : entryValid 0x407 = true ∧ entrySize 0x407 = 1 ∧ entryFrame 0x407 = 0 := by decide
  refine ⟨?_, ?_⟩
  rotate_left
  · simp [walkStage, i4, i3, i2, h1, h2, k1, k2, v1, v2]
    rfl

/-- `core` with such a stage. -/
def tabled : State :=
  let s := core [] []
  { ((s.setCtx 0 { s.ctx 0 with ptb := 0x80000000 }).writeLocal 1 0x80000000000 (leBytes 8 0x80000000001)).writeLocal 1 0x80000000008 (leBytes 8 0x407) with issue := none }

theorem compose_root (s : State) (n : Nat) (c : Ctx) (va : Nat) : s.compose [(n, c)] va = s.rootWalk n c va := rfl

theorem same_of {s z : State} (hz : z = { s with mem := { s.mem with cells := z.mem.cells, lines := z.mem.lines } }) :
    z.power = s.power ∧ z.cfg = s.cfg ∧ z.fabric = s.fabric ∧ z.ctxs = s.ctxs ∧ z.eng = s.eng ∧ z.mem.poison = s.mem.poison ∧ z.input = s.input := by
  rw [hz]; exact ⟨rfl, rfl, rfl, rfl, rfl, rfl, rfl⟩

theorem tabled_leads : LeadsTo tabled 0 .store 0x1000001 64 0 0 0 := by
  intro z hz h j hj
  obtain ⟨ep, ec, ef, ex, ee, eo, ei⟩ := same_of hz
  have hi : z.input.hits = [] := by rw [ei]; rfl
  have em : z.mem.poison = [] := eo.trans (by decide)
  have pl : tabled.place (0 : BitVec 3).toNat 64 = 64 := by decide +kernel
  have g : ∀ i < 16, z.mem.get (0x80000000000 + i) = ([1, 0, 0, 0, 0, 8, 0, 0, 7, 4, 0, 0, 0, 0, 0, 0] : List Byte).getD i 0 := fun i hi =>
    (h _ (by rw [pl]; omega)).1.trans (by revert hi; revert i; decide +kernel)
  have p1 : ∀ a ∈ [0x80000000000, 0x80000000008], z.place plainPattern a = a := by
    unfold State.place; rw [ec]; decide
  have t1 : ∀ here, z.rootTableWord here 0x80000000000 = .ok (0x80000000001, []) := fun here =>
    (table_word _ (fun i hi => g i (by omega)) (by decide) (by decide) (p1 _ (by simp)) em hi).trans (by decide)
  have t2 : ∀ here, z.rootTableWord here 0x80000000008 = .ok (0x407, []) := fun here =>
    (table_word (fun i => ([7, 4, 0, 0, 0, 0, 0, 0] : List Byte).getD i 0) (fun i hi => by
      have := g (8 + i) (by omega)
      rw [← Nat.add_assoc] at this
      exact this.trans ((by decide : ∀ i < 8, ([1, 0, 0, 0, 0, 8, 0, 0, 7, 4, 0, 0, 0, 0, 0, 0] : List Byte).getD (8 + i) 0 = ([7, 4, 0, 0, 0, 0, 0, 0] : List Byte).getD i 0) i hi)) (by decide) (by decide) (p1 _ (by simp)) em hi).trans (by decide)
  have k1 : z.rootEntryOk 0x80000000001 0 = true := by
    unfold State.rootEntryOk State.isOwn State.inService; rw [ep, ef]; rfl
  have k2 : z.rootEntryOk 0x407 0x40000000 = true := by
    unfold State.rootEntryOk State.isOwn State.inService; rw [ep, ef]; rfl
  obtain ⟨ds, hw⟩ := gigabyte_leads (here := { ctx := 0, addr := 64 * 0x1000001 + j }) (t1 _) (t2 _) k1 k2 (va := 64 * 0x1000001 + j) (by omega)
  have hx : z.ctx 0 = tabled.ctx 0 := by unfold State.ctx; rw [ex]
  have hpt : (tabled.ctx 0).ptb.toNat * 4096 = 0x80000000000 := by decide
  have hwo : (tabled.ctx 0).world = 0 ∧ (tabled.ctx 0).level = 0 := by decide
  have hch : z.chainOf 0 = [(0, tabled.ctx 0)] := by
    simp [State.chainOf, State.chain, hx, hwo]
  have hca : z.cached 0 (64 * 0x1000001 + j) = [] := by
    unfold State.cached; rw [ee]; rfl
  have own : z.isOwn 0 = true := by
    unfold State.isOwn; rw [ef]; decide
  have mx : z.mixed (64 + j) = false := by
    unfold State.mixed State.newByte; rw [ee]; rfl
  have still : z.walkFor 0 (64 * 0x1000001 + j) = z := by
    unfold State.walkFor
    simp [hi, hx, hwo]
  have hf : (64 * 0x1000001 + j) % 0x40000000 = 64 + j := by omega
  have hr : regionOf 0x80000000000 = .sbm := by decide
  refine ⟨⟨{ dev := 0, frame := 0, size := 0x40000000, read := true, write := true, exec := false, pin := false, flash := false, mx := false, inter := 0, world := 0, comp := 0, deps := ds }, ?_, ?_⟩, still, mx⟩
  · have hl : z.compose [(0, tabled.ctx 0)] (64 * 0x1000001 + j) = .ok { dev := 0, frame := 0, size := 0x40000000, read := true, write := true, exec := false, pin := false, flash := false, mx := false, inter := 0, world := 0, comp := 0, deps := ds } := by
      rw [compose_root, State.rootWalk]
      simp only [hpt, hr, hw, hf]
      have e1 : (64 + j) / 0x100000000000 = 0 := by omega
      have e2 : (64 + j) % 0x100000000000 / 4096 * 4096 = 0 := by
        rw [Nat.mod_eq_of_lt (Nat.lt_trans (by omega : 64 + j < 128) (by decide)), Nat.div_eq_of_lt (by omega)]
      have e3 : (0x407).testBit 1 = true ∧ (0x407).testBit 2 = true ∧ (0x407).testBit 3 = false ∧ (0x407).testBit 4 = false ∧ (0x407).testBit 5 = false ∧ (0x407).testBit 6 = false ∧
        bits 0x407 9 7 = 0 ∧ bits 0x407 61 56 = 0 ∧ bits 0x407 63 62 = 0 := by decide
      simp [e1, e2, e3]
    have hlt : ¬ 64 * 0x1000001 + j ≥ 0x100000000000000 := by omega
    unfold State.engineLead State.lead State.translate State.walk
    simp only [hlt, if_false, hca, hch, hl, hx, hwo]
    rfl
  · unfold State.targetOf
    simp [own]
    omega

theorem tabled_clean : ∀ j < 64, Clean tabled 0 0 0 (64 + j) := by
  unfold Clean
  decide +kernel

/-- R187, R213, R329: a beat of two items, one of which adds to what memory holds. -/
theorem test_hyps_beats : ∃ (s : State) (c b a : Nat) (k : Access) (F : Fmt) (is : List Item) (i : BitVec 3) (w : BitVec 6) (m : BitVec 2),
    (k = .store ∨ k = .gate) ∧ is ≠ [] ∧ (∃ d ∈ is, d.add ≠ none) ∧ (∀ d ∈ is, Inside F b d) ∧ a % 64 = 0 ∧ MemByte a ∧ (∀ j < 64, Clean s i w m (a + j)) ∧
      s.input.hits = [] ∧ LeadsTo s c k b a i w m := by
  refine ⟨tabled, 0, 0x1000001, 64, .store, .f32, [{ addr := 0x40000040, bits := 8, code := 5 }, { addr := 0x4000007C, bits := 32, add := some (.fin false 1 0, none) }], 0, 0, 0,
    .inl rfl, by simp, ?_, ?_, rfl, .inl (by decide), tabled_clean, by decide, tabled_leads⟩
  · exact ⟨_, List.mem_cons_of_mem _ (List.mem_cons_self ..), by simp⟩
  · intro d hd
    simp only [List.mem_cons, List.not_mem_nil, or_false] at hd
    rcases hd with rfl | rfl <;> simp [Inside]
    rfl

/-- R336: the first and the last element of a line that a collective writes. -/
theorem test_hyps_deliveries : ∃ (s : State) (c size base l a : Nat) (rs : List (Nat × Nat)) (i : BitVec 3) (w : BitVec 6) (m : BitVec 2),
    (size = 1 ∨ size = 2 ∨ size = 4) ∧ rs ≠ [] ∧ (rs.map Prod.fst).Nodup ∧ (∀ x ∈ rs, 64 * l ≤ base + x.1 * size ∧ base + x.1 * size + size ≤ 64 * l + 64) ∧
      a % 64 = 0 ∧ MemByte a ∧ (∀ j < 64, Clean s i w m (a + j)) ∧ s.input.hits = [] ∧ LeadsTo s c .store l a i w m :=
  ⟨tabled, 0, 4, 0x40000040, 0x1000001, 64, [(0, 1), (15, 2)], 0, 0, 0, .inr (.inr rfl), by simp, by decide, by decide, rfl, .inl (by decide), tabled_clean, by decide,
    tabled_leads⟩

/-- A warp of one page parked at `ralloc` behind a safe point that keeps no register, in a slot whose pages another warp holds. -/
def stuck (w : Warp → Warp := id) : State :=
  (coreW (fun v => w { v with pages := 32, rallocAsk := 1, lastSpt := some 0, threads := v.threads.map fun t => { t with park := .ralloc } }) id
    (fun k => { k with sptTable := 0x60000, sptCount := 1 }) id fun s =>
      { s.setCtx 0 { s.ctx 0 with saveBase := 0x80000, saveLog2 := 20 } with issue := none }).writeLocal 1 (0x60000 + 33) [1]

/-- Its warp. -/
def stuckWarp (s : State) : Warp := (team0 s).warp 0

/-- R153: no warp of the slot makes progress, the warp is the victim and its image finds room. -/
theorem test_hyps_zugzwang :
    (stuck.slotWarps 0 0).any stuck.progresses = false ∧ (victim (stuck.parkedRallocs 0 0)).map (fun x => (x.1, x.2.1)) = some (0, 0) ∧
    stuck.team? 0 = some (team0 stuck) ∧
    (let img := stuck.zugImage (team0 stuck) 0 (stuckWarp stuck);
      (img.1.ctx 0).areaPos img.2.2.length 0 = some 0 ∧ ((img.1.holdImage 0 0 img.2.2).toOption.map fun t => decide (t.team? 0 = some (team0 stuck))) = some true) := by
  decide +kernel

/-- The state after such a swap of a warp whose request its lanes have room for, and one without its image. -/
def swapped : State := next (execZugzwangSwap (stuck fun w => { w with pages := 1, rallocAsk := 31 }))
def unswapped : State := stuck fun w => { w with pages := 1, zug := some (0, 4096) }

theorem test_hyps_zugzwang_reentry : (∀ s ∈ [swapped, unswapped],
    s.team? s.input.team = some (team0 s) ∧ (stuckWarp s).zug.isSome = true ∧ ¬StopStands s (team0 s) ∧ (s.ctx 0).halt = none ∧ (s.slotWarps 0 0).length < 32 ∧
    rangeFree (s.slotWarps 0 0) (stuckWarp s).base 8 ((stuckWarp s).pages + (stuckWarp s).rallocAsk) = true) ∧
    ((swapped.imageNow 0 0).bytes.bind ((stuckWarp swapped).zugBack (swapped.kernelOf (team0 swapped)) (team0 swapped).stage)).isSome = true ∧
    ((unswapped.imageNow 0 0).bytes.bind ((stuckWarp unswapped).zugBack (unswapped.kernelOf (team0 unswapped)) (team0 unswapped).stage)).isNone = true := by
  unfold StopStands
  decide +kernel

/-- R157: a deferred entry whose period is over and a ripe ring of 16 entries with room. -/
def ripe : State := coreW id id id id fun s =>
  s.setCtx 0 { s.ctx 0 with tempo := { ringBase := 0x70000, ringLog2 := 4, gen := 3, deferred := [(0x1000, 3)], written := 15 } }

theorem test_hyps_ripe :
    (ripe.ctx 0).tempo.deferred = [(0x1000, 3)] ∧ 3 ≤ (ripe.ctx 0).tempo.gen ∧ LogOk (ripe.ctx 0).tempo.ringLog2 ∧ ripe.canWrite 0 (0x70000 + 8 * 15) 8 = true ∧
    ripe.canWrite 0 (0x70000 + 8 * 16) 8 = true ∧ ripe.canWrite 0 (0x70000 + 8 * 16 + 8) 8 = true ∧
    (ripe.ripeHead 0 (0x70000 + 8 * 16 + 8)).2 = some 0 ∧ (15 : DWord) - 0 ≠ BitVec.ofNat 64 16 := by
  unfold LogOk
  decide

/-! ## The dispatcher and the fetch -/

theorem each_range {R : Warp → Warp → Prop} (tm : Team) (f : Nat → Warp) (h : ∀ n v, tm.warps[n]? = some v → R v (f n)) :
    Each R tm.warps ((List.range tm.warps.length).map f) := by
  refine ⟨by simp, fun n v w hv hw => ?_⟩
  have hn := (List.getElem?_eq_some_iff.1 hv).1
  rw [List.getElem?_map, List.getElem?_range hn] at hw
  cases hw
  exact h n v hv

/-- A charged opportunity is as the statements say, in every state: its context's record, its other warps. -/
theorem charged_of (q : State) (core slot : Nat) (o : Offer) (h : o.ctx < 4096) : Charged q (q.charged core slot o) core slot o := by
  refine ⟨rfl, ?_, fun k c hc hne => ?_, fun t ht => by rw [State.charged_team?, ht]; rfl, fun t tm ht => ?_⟩
  · rw [State.charged_disp, recordAt, passOf_chargePass _ _ _ _ _ _ h h, if_pos ⟨rfl, rfl⟩]; rfl
  · rw [State.charged_disp, recordAt, passOf_chargePass _ _ _ _ _ _ h hc, if_neg hne]; rfl
  · refine ⟨_, by rw [State.charged_team?, ht]; rfl, ?_⟩
    by_cases hc : q.ctxOf tm = o.ctx
    · simp only [hc, beq_self_eq_true, if_true]
      have hw : ∀ n v, tm.warps[n]? = some v → tm.warp n = v := fun n v hv => by simp [Team.warp, List.getD, hv]
      refine ⟨trivial, each_range _ _ fun n v hv => ?_, fun n v w hv hx => ?_⟩
      · rw [hw n v hv, State.passOver_eq]
        split <;> rfl
      · have hn := (List.getElem?_eq_some_iff.1 hv).1
        rw [List.getElem?_map, List.getElem?_range hn] at hx
        cases hx
        dsimp only
        rw [hw n v hv, State.passOver_eq]
        refine ⟨fun ha => if_pos (by simpa using ha), fun ha => ?_⟩
        rw [if_neg (by simpa using ha)]
        simp only [State.offersFor, List.any_filter]
        congr 2
        congr 1
        funext a
        simp only [Bool.and_assoc]
    · simp only [beq_iff_eq, hc, if_false]
      refine ⟨trivial, ⟨rfl, fun n v w hv hx => by rw [hv] at hx; cases hx; rfl⟩, fun n v w hv hx => ?_⟩
      rw [hv] at hx; cases hx
      exact ⟨fun _ => rfl, fun ha => (ha (.inl (by simp [hc]))).elim⟩


/-- A step that uses an issue opportunity of slot 0 of core 0, about a state with a word at its program counter. -/
def opening (w : Nat) (f : State → State := id) (x : Input := {}) : State := { f (State.reset.withFetchWord 32 w) with agenda := [.issue 0 0 x] }

/-- The state as the opportunity finds it. -/
def found (s : State) : State :=
  match s.agenda with
  | .issue _ _ x :: rest => ({ s with agenda := rest, input := x, freeCtr := s.freeCtr + 1, steps := s.steps + 1 } : State).upToDate
  | _ => s

/-- The warp it goes to. -/
def offer (s : State) : Offer := ((found s).pickWarp 0 0).getD ⟨0, 0, 0, 0, {}⟩

/-- The state at issue, at a program counter. -/
def atFetch (s : State) (pc : Word := 0) : State :=
  { (({ found s with stall := none } : State).charged 0 0 (offer s)) with
    issue := some { team := (offer s).team, warp := (offer s).wn, active := [0, 1, 2, 3, 4, 5, 6, 7], pc := pc } }

/-- The warp of the opportunity has eight eligible threads at a program counter. -/
def selects (s : State) (pc : Word) : Bool :=
  ((found s).pickWarp 0 0).isSome && decide ((offer s).ctx < 4096) && !(offer s).wp.threads.isEmpty &&
    (offer s).wp.threads.all (fun t => decide (t.park = .none) && decide (t.pc = pc) && decide (t.passed = 0)) &&
    decide ((offer s).wp.threads.map Thread.lane = [0, 1, 2, 3, 4, 5, 6, 7])

theorem at_issue (s : State) (pc : Word) (h : selects s pc = true) :
    (found s).pickWarp 0 0 = some (offer s) ∧ AtIssue (found s) (atFetch s pc) 0 0 (offer s) pc [0, 1, 2, 3, 4, 5, 6, 7] := by
  simp only [selects, Bool.and_eq_true, decide_eq_true_eq, Bool.not_eq_true', List.isEmpty_eq_false_iff, List.all_eq_true] at h
  obtain ⟨⟨⟨⟨h1, h2⟩, h3⟩, h4⟩, h5⟩ := h
  refine ⟨?_, ?_, ?_, _, charged_of _ _ _ _ h2, rfl⟩
  · cases hp : (found s).pickWarp 0 0 with
    | none => rw [hp] at h1; cases h1
    | some o => rw [offer, hp]; rfl
  · obtain ⟨t, ht⟩ := List.exists_mem_of_ne_nil _ h3
    refine ⟨?_, fun _ => ⟨⟨t, ⟨ht, (h4 t ht).1.1⟩, (h4 t ht).1.2⟩, fun x hx => by rw [(h4 x hx.1).1.2]⟩⟩
    rintro ⟨x, hx, hp⟩
    rw [(h4 x hx.1).2] at hp
    exact absurd hp (by decide)
  · refine ⟨by decide, ?_⟩
    rw [List.filter_eq_self.2 fun t ht => by simp [(h4 t ht).1.1, (h4 t ht).1.2], h5]

/-- The first leaf of the stage with other bits, and the kernel's code elsewhere. -/
def leafed (e : Nat) (s : State) : State := s.writeLocal 1 0x3000 (leBytes 8 e)
def coded (a : BitVec 56) (s : State) : State :=
  { s with bundles := s.bundles.map fun p => (p.1, { p.2 with kernels := p.2.kernels.map fun k => { k with codeBase := a } }) }

/-- The threads of the one warp at a program counter. -/
def threaded (pc : Word) (s : State) : State :=
  { s with teams := s.teams.map fun p => (p.1, { p.2 with warps := p.2.warps.map fun w => { w with threads := w.threads.map fun t => { t with pc := pc } } }) }

/-- What the fetch at a state finds: a miss, a word, or a translation that refuses it, in a few letters. -/
def finds (s : State) (pc : Word) : String :=
  let f := focus (atFetch s pc)
  let va := f.k.codeBase.toNat + f.pc.toNat
  let x := (atFetch s pc).walkFor f.ctx va
  if x.stall ≠ none then "waits"
  else if va ≥ 2 ^ 56 then "top"
  else match x.translate 0x7000000 f.ctx va with
    | .error m => if m.why = .absent then "absent" else "?"
    | .ok t =>
      if t.world != (x.ctx f.ctx).world then "world"
      else if !t.exec then "exec" else if t.flash then "flash" else if t.world != 0 && t.comp != 1 then "comp"
      else match x.targetOf t va with
        | .here a i w c =>
          if regionOf a != .hbm || !x.input.hits.isEmpty then "?"
          else if x.mem.poisoned (x.place i.toNat a) || !x.mem.tagOk (x.place i.toNat a) a w c then "fails"
          else if (List.range 4).any fun j => x.mixed (a + j) then "?"
          else match decode (BitVec.ofNat 32 (littleEndian (x.readLocal i.toNat a 4))) with
            | .ok i => if issuesAlone i then "alone" else "word"
            | .bad _ => "bad"
        | _ => "?"

/-- R144 to R147, R248: an opportunity with a warp that can issue and one with none, and every outcome of a fetch. -/
theorem test_hyps_opportunity :
    (∃ o ∈ (found (opening 0)).offers 0, o.wp.slot = 0) ∧ (∀ o ∈ (found (opening 0)).offers 0, o.wp.slot ≠ 1) ∧
    (let s := State.reset.withFetchWord 32 0; s.agenda = [] ∧ s.power.stage ≠ .off ∧ s.stamp % 4 ≠ 0 ∧
      ({ s with agenda := [], input := {}, freeCtr := s.freeCtr + 1, steps := s.steps + 1 } : State).upToDate.readySlot = some (0, 0)) ∧
    (at_ .off).power.stage = .off ∧ (at_ .off).agenda = [] := by
  refine ⟨by decide, by decide, by decide, rfl, rfl⟩

theorem test_hyps_fetch :
    (∀ p ∈ [(opening 0, "word"), (opening 0x00200000, "alone"), (opening 0x0120006C, "bad"), (opening 0 (coded 0x40000000), "absent"), (opening 0 (leafed 0x497), "exec"),
        (opening 0 (leafed (0x49F + 63 * 2 ^ 56)), "world"),
        (opening 0 fun s => { s with mem := { s.mem with poison := [(poisonUnit (s.place 1 0x10000), true)] } }, "fails")],
      selects p.1 0 = true ∧ finds p.1 0 = p.2 ∧ p.1.power.stage ≠ .off ∧ (atFetch p.1 0).focus?.isSome = true) ∧
    (let s := opening 0 fun s => threaded 256 (coded 0xFFFFFFFFFFFF00 s); selects s 256 = true ∧ finds s 256 = "top") := by
  refine ⟨?_, ?_⟩ <;> decide +kernel

/-- A move of the agenda that is an event, and a step of a device without power that is not the return of its power. -/
theorem test_hyps_moves : ∃ s : State, s.agenda = .event .cfgLock {} :: [] ∧ (s.power.stage = .off → Instr.cfgLock = .mainPowerOn) :=
  ⟨{ served {} with agenda := [.event .cfgLock {}] }, rfl, fun h => nomatch h⟩

/-- R146: two warps of one slot that may leave together. -/
def paired : State := opening 0 (fun s =>
  { s with teams := [(0, { bundle := 0, kernel := 0, index := 0, warps := [fetchWarp] }), (1, { bundle := 0, kernel := 0, index := 1, warps := [{ fetchWarp with base := 8, placed := 2 }] })] }) { pack := [(1, 0)] }

theorem test_hyps_packing : selects paired 0 = true ∧ finds paired 0 = "word" ∧ ((found paired).packed 0 (offer paired)).map (fun o => (o.team, o.wn)) = [(1, 0)] ∧
    (match step paired with | .next t => [0, 1].all fun n => ((t.team? n).map fun tm => (tm.warp 0).threads.map Thread.pc) == some (List.replicate 8 4) | _ => false) = true := by
  decide +kernel

theorem next_of (o : Host.Outcome State Fault Refusal) (h : (match o with | .next _ => true | _ => false) = true) : ∃ t, o = .next t := by
  cases o with
  | next t => exact ⟨t, rfl⟩
  | fault f => cases h
  | refused r => cases h

/-- A word of an instruction, and a step from memory in form. -/
theorem test_hyps_words_and_memory : encode (.nop h0) = some 0 ∧ decode 0 = .ok (.nop h0) ∧ (Instr.nop h0 ≠ .illegalInstruction) ∧
    MemoryOk State.reset ∧ ∃ t, step (opening 0) = .next t :=
  ⟨rfl, by decide, (fun h => nomatch h), by unfold MemoryOk; decide, next_of _ (by decide)⟩

/-! ## Packets in their turn, and what befalls walks -/

/-- A walk whose table word is lost on the network, and one whose table on device 1 fails its tag there. -/
def lostStage : State := { core [(2, 0x40000)] [] with input := { hits := [(0x3000, .networkTag)] } }
def farFailing : State :=
  { ({ farStage with fabric := { farStage.fabric with enable := true } } : State).setLink 0 { state := 2 } with
    input := { farHits := [(0x100040000000, .tampered)] } }

/-- R128, R130: the ways in which a walk's data fail on the way. -/
theorem test_hyps_lost_walks : readyIn load4 lostStage = true ∧ readyIn load4 farFailing = true ∧
    whyOf ((focus lostStage).lead 0 0x40000) = some .tampered ∧ whyOf ((focus farFailing).lead 0 0x40000) = some (.farFailed 0x12) := by
  decide +kernel

/-- An answer that the home's data failed for: no byte of the part is sound, and all of it. -/
theorem test_hyps_failing_answers : ∀ p ∈ [(0, false), (2 ^ 64 - 1, true)],
    let s := farReq true { home := .uncorrectable, sound := p.1 };
    ReportedFailure s.input.home 0x11 ∧ s.input.sound.testBit (farAt (unitOf s) % 64) = p.2 ∧ (unitOf s).len = 4 ∧
      s.fabric.enable = true ∧ s.cfg.erased = false ∧ (s.link s.input.link.toNat).state = 2 ∧ (s.link s.input.link.toNat).rxFails < 8 := by
  unfold ReportedFailure
  decide +kernel

/-- R115: a command that device 5 forwards, for each command, and an answer of it, on a link in service. -/
theorem test_hyps_forwarded_links :
    (∀ k ∈ [FwdCmd.freeze, .thaw, .revoke],
      let s := (posted [] (fun s => { s with fabric := { s.fabric with enable := true } }) { dev := 5, link := 15, fwd := ⟨k, 0, 0, true⟩ }).setLink 15 { state := 2 }
      s.fabric.enable = true ∧ s.cfg.erased = false ∧ (s.link s.input.link.toNat).state = 2 ∧ (s.link s.input.link.toNat).rxFails < 8 ∧
        s.input.dev ≠ s.fabric.deviceNum ∧ s.member s.input.fwd.subtree = some 0 ∧ s.eng.cmds = [] ∧ (s.ctx 0).halt = none) ∧
    (let s := (commanded (.forward [5] 1 false) { dev := 5, link := 15 } fun s => { s with fabric := { s.fabric with enable := true } }).setLink 15 { state := 3 };
      s.fabric.enable = true ∧ (s.link s.input.link.toNat).state = 3 ∧ s.input.dev.toNat ∈ [5]) := by
  decide +kernel

/-- R118, R134: the part of a line in HBM that a scrub may zero. -/
theorem test_hyps_scrub_part : (let s := posted [];
    ((s.scrubLead 0 0x40020).map fun t => (match s.targetOf t 0x40020 with | .here a _ _ _ => (a % 64, regionOf a) | _ => (0, .hole))) = some (0x20, .hbm) ∧
      s.input.hits = [] ∧ 0 < 32 ∧ 0x40020 % 64 + 32 ≤ 64) := by
  decide

/-- R192: a save area with no room for the halt's image. -/
theorem test_hyps_no_room_for_halt :
    (let s := haltSaved.setCtx 0 { haltSaved.ctx 0 with saveLog2 := 0 };
      ((s.saveHalt 0 { cause := 2, fatal := false, recs := [{ engine := 0, cause := 2 }] } []).toOption.isNone = true ∧ s.input.hits = [] ∧ s.input.farHits = [] ∧
        s.input.refusing = [])) := by
  decide +kernel

/-- A port of link 0 at which context 5 goes before context 0. -/
def ported : State :=
  { core [] [] with eng := { (core [] []).eng with ports := [(0, { pass := 10, runnable := true }), (5, { pass := 3, runnable := true })] } }

/-- R106: packets for context 0, which has to wait for its turn, and for context 5, whose turn it is. -/
theorem test_hyps_turns :
    (∀ p ∈ [(0, false), (5, true)], let t := ported.chargePort 0 p.1 1
      (Table.find p.1 t.eng.ports).map Disp.pass ≠ some (passOf ported.eng.ports 0 p.1).pass ∧ ported.chargedOn t 0 = [p.1] ∧ ported.turnOn t 0 = p.2) ∧
    (ported.eng.ports.map Prod.fst).Nodup := by
  decide +kernel

/-- R36, R106: answers of two contexts wait on a link, and that of context 5 leaves first. -/
theorem test_hyps_answers :
    (let s := ported.setLink 0 { state := 2, answers := [(0, packet2), (5, packet2)] };
      s.rivalsOn 0 = [0, 5] ∧ pickPass (refreshPasses s.eng.ports 0 (s.rivalsOn 0)) 0 (s.rivalsOn 0) = some 5) := by
  decide +kernel

/-- A warp of a child whose stage's table lies on device 1, behind a link whose key is exhausted. -/
def exhausting : State := opening 0 fun s =>
  (({ (((s.setCtx 5 (s.ctx 0)).setCtx 0 { live := true, started := true, level := 1, parent := 5, tableVa := 0x40000000 }).writeLocal 1 0x3008
    (leBytes 8 0x100040000487)) with fabric := { s.fabric with enable := true } } : State).setLink 0 { state := 2, tx := 0xFFFFFFFFFFFF })

/-- R47, R106: a fetch whose walk has to wait for its plane. -/
theorem test_hyps_fetch_waits : selects exhausting 0 = true ∧ exhausting.power.stage ≠ .off ∧
    (let x := atFetch exhausting;
      let va := (focus x).k.codeBase.toNat + (focus x).pc.toNat;
      x.focus?.isSome = true ∧ (x.walkFor (focus x).ctx va).stall ≠ none) := by
  decide +kernel

/-! ## Single events -/

/-- R17, R18, R26, R72, R74: power comes on; CAP_W is clamped; LOCK and RUN take their turns. -/
theorem test_events_of_the_start :
    (next (exec .mainPowerOn (at_ .off))).power.stage = .hostLink ∧ (next (exec .mainPowerOn (at_ .off id { boot := ⟨true, 0, false⟩ }))).power.phase = 15 ∧
    (next (exec .powerCtlWrite (served { acc := ⟨.full, 599⟩ }))).power.capW = 600 ∧ (next (exec .powerCtlWrite (served { acc := ⟨.full, 2201⟩ }))).power.capW = 2200 ∧
    (next (exec .cfgLock (served {} fun s => { s with cfg := { s.cfg with state := .open_ } }))).cfg.state = .locked ∧
    (next (exec .cfgRun (served {} fun s => { s with cfg := { s.cfg with state := .locked } }))).cfg.moving = true ∧
    (next (exec .cfgRunDone moving)).cfg.state = .run := by
  decide

/-- R76 to R78: a write index one beyond the ring makes the queue ERROR with INDEX_BAD, and one at its end does not. -/
theorem test_queue_index :
    (let q := (next (exec .cqWrite (slotted (fun q => { q with state := .run }) { value := 17 }))).queue 1023; (q.state, q.cause, q.widx)) = (.error, 9, 0) ∧
    (let q := (next (exec .cqWrite (slotted (fun q => { q with state := .run }) { value := 16 }))).queue 1023; (q.state, q.widx)) = (.run, 16) := by
  decide

/-- R83 to R85: PUT fills an empty word and TAKE waits on one; WRITE stores its bytes; SET_SHARE of the context itself. -/
theorem test_packets :
    (let t := next (exec .mboxPut (boxed [(0, 1, 2), (8, 8, 0x40000000), (16, 8, 0xAB)])); (t.mem.isFull 0, t.mem.get 0x80000000000, (t.queue 9).ridx)) =
      (true, 0xAB, 8) ∧
    (let t := next (exec .mboxTake (boxed [(0, 1, 3), (8, 8, 0x40000000)])); ((t.queue 9).state, (t.queue 9).ridx)) = (.blocked, 7) ∧
    ((next (exec .write (posted [(0, 1, 4), (8, 8, 0x40001), (16, 1, 2), (24, 2, 0x1234)]))).readVa 0 0x40000 4).bytes = some [0, 0x34, 0x12, 0] ∧
    (let c := (next (exec .setShare (posted [(0, 1, 8), (8, 2, 0), (10, 1, 3), (11, 1, 4)]))).ctx 0; (c.coreSelf, c.linkSelf)) = (3, 4) := by
  decide

/-- R111, R117: FREEZE by a root sets flag 0 of its child's subtree and leaves the root's own flags. -/
theorem test_freeze : (let t := next (exec .freeze (posted [(0, 1, 9), (8, 2, 128)])); ((t.ctx 128).freeze, (t.ctx 0).freeze, t.eng.cmds.length)) = (1, 0, 1) := by
  decide

/-- R48, R136: a counted tag failure; a tamper alarm with ERASE_EN. -/
theorem test_alarms :
    ((next (exec .linkTagFailure (linked { state := 2, rxFails := 6 }))).link 15).rxFails = 7 ∧ ((next (exec .linkFailed (linked { state := 2, rxFails := 8 }))).link 15).state = 4 ∧
    (let t := next (exec .tamperAlarm (served {})); (t.cfg.erased, t.cfg.sec.tamper, t.cfg.sec.keysErased)) = (true, true, true) := by
  decide

/-- R143: thread 5 of the first team of eight by one by one stands at (5, 0, 0), with the first argument in s0. -/
theorem test_placement :
    (let tm := team0 (next (exec .teamPlace { offering id with eng := { nextId := 0 } })); ((tm.warp 0).threads.map fun t => (t.tx, t.ty, t.tz), (tm.warp 0).uRaw 0, (tm.warp 0).uRaw 1)) =
      ([(0, 0, 0), (1, 0, 0), (2, 0, 0), (3, 0, 0), (4, 0, 0), (5, 0, 0), (6, 0, 0), (7, 0, 0)], 5, 6) := by
  decide +kernel

/-- R327, R336, R157: one f32 element copied to scratchpad, a sum over one rank left as it is with its token lowered, an entry written to the ripe ring. -/
theorem test_engine_events :
    (team0 (next (exec .tceEntryComplete ((copying entry1).writeLocal 1 0x40000 (leBytes 4 0x3F800000))))).spmRead 0 4 = leBytes 4 0x3F800000 ∧
    (next (exec .collComplete collecting)).eng.cle.length = 0 ∧ ((next (exec .ripeEntryWrite ripe)).readVa 0 (0x70000 + 8 * 15) 8).bytes = some (leBytes 8 0x1000) := by
  decide +kernel

end Sys2Proof.Tests
end

section
-- One proof after another: side by side their threads pass the limit of memory that the check sets.
set_option Elab.async false
/-! SUPPORT. Laws of tables, aligned addresses and bit masks that statements about starts and registers rest on. -/

namespace Sys2Proof.Machine

/-! ## Tables and memory with locations left out -/

theorem Sparse.get_eq_default_of_lt {α : Type} [DecidableEq α] (d : α) {k lo : Nat} (hk : k < lo) {l : List (Nat × α)}
    (hw : Sparse.wfFrom d lo l = true) : Sparse.get d k l = d := by
  cases l with
  | nil => rfl
  | cons q rest =>
    simp only [Sparse.wfFrom, Bool.and_eq_true, decide_eq_true_eq] at hw
    obtain ⟨⟨hlo, -⟩, -⟩ := hw
    have h1 : ¬ q.1 = k := by omega
    have h2 : k < q.1 := by omega
    simp [Sparse.get, h1, h2]

/-- Leaving entries out makes their keys read as the default, whatever the form of the list. -/
theorem Sparse.get_filter_dropped {α : Type} (d : α) (p : Nat → Bool) {k : Nat} (hp : p k = false) (l : List (Nat × α)) :
    Sparse.get d k (l.filter fun c => p c.1) = d := by
  induction l with
  | nil => rfl
  | cons q rest ih =>
    by_cases hq : p q.1 = true
    · have hne : ¬ q.1 = k := fun e => by simp [e, hp] at hq
      rw [List.filter_cons_of_pos (by simpa using hq)]
      simp [Sparse.get, hne, ih]
    · rw [List.filter_cons_of_neg (by simpa using hq), ih]

/-- Leaving entries out of a canonical list changes no reading at a key that is kept. -/
theorem Sparse.get_filter_kept {α : Type} [DecidableEq α] (d : α) (p : Nat → Bool) {k : Nat} (hp : p k = true) {l : List (Nat × α)} {lo : Nat}
    (hw : Sparse.wfFrom d lo l = true) : Sparse.get d k (l.filter fun c => p c.1) = Sparse.get d k l := by
  induction l generalizing lo with
  | nil => rfl
  | cons q rest ih =>
    obtain ⟨j, v⟩ := q
    simp only [Sparse.wfFrom, Bool.and_eq_true, decide_eq_true_eq] at hw
    obtain ⟨-, hrest⟩ := hw
    by_cases hq : p j = true
    · rw [List.filter_cons_of_pos (by simpa using hq)]
      simp [Sparse.get, ih hrest]
    · have hne : ¬ j = k := fun e => hq (e ▸ hp)
      rw [List.filter_cons_of_neg (by simpa using hq), ih hrest]
      by_cases hlt : k < j
      · rw [Sparse.get_eq_default_of_lt d (by omega) hrest]
        simp [Sparse.get, hne, hlt]
      · simp [Sparse.get, hne, hlt]

theorem Sparse.get_filter {α : Type} [DecidableEq α] (d : α) (p : Nat → Bool) (k : Nat) {l : List (Nat × α)} (hw : Sparse.wf d l = true) :
    Sparse.get d k (l.filter fun c => p c.1) = if p k then Sparse.get d k l else d := by
  cases hp : p k with
  | true => simpa using Sparse.get_filter_kept d p hp hw
  | false => simpa using Sparse.get_filter_dropped d p hp l

/-- The canonical form of memory is that of its cells and of the host's. -/
theorem Mem.wf_iff (m : Mem) : m.wf = true ↔ Sparse.wf 0 m.cells = true ∧ Sparse.wf 0 m.host = true := by
  simp [Mem.wf, unlistedByte]

/-- Of memory in canonical form of which some locations are given up, the others read as before. -/
theorem Mem.get_of_filtered {m n : Mem} (h : m.wf = true) (p : Nat → Bool) (hn : n.cells = m.cells.filter fun c => p c.1) (k : Nat) :
    n.get k = if p k then m.get k else 0 := by
  rw [Mem.get, hn]
  exact Sparse.get_filter 0 p k (m.wf_iff.1 h).1

/-! ## Aligned addresses -/

/-- Aligning an address down keeps its whole multiples. -/
theorem alignDown_eq (a k : Nat) : k - k % a = a * (k / a) := (Nat.mul_div_self_eq_mod_sub_self).symm

/-- Aligning an address down crosses no boundary that is itself aligned. -/
theorem alignDown_lt_iff {a b : Nat} (h : a ∣ b) (k : Nat) : k - k % a < b ↔ k < b := by
  obtain ⟨c, rfl⟩ := h
  rcases Nat.eq_zero_or_pos a with rfl | ha
  · simp
  · rw [alignDown_eq, Nat.mul_lt_mul_left ha, Nat.div_lt_iff_lt_mul ha, Nat.mul_comm]

/-- Aligning an address down aligns its place within an aligned window. -/
theorem alignDown_mod {a b : Nat} (h : a ∣ b) (k : Nat) : (k - k % a) % b = k % b - k % b % a := by
  obtain ⟨c, rfl⟩ := h
  rw [alignDown_eq, alignDown_eq, Nat.mul_mod_mul_left, Nat.mod_mul_right_div_self]

/-- Aligning an address down leaves the aligned window that it lies in. -/
theorem alignDown_div {a b : Nat} (h : a ∣ b) (k : Nat) : (k - k % a) / b = k / b := by
  obtain ⟨c, rfl⟩ := h
  rcases Nat.eq_zero_or_pos a with rfl | ha
  · simp
  · rw [alignDown_eq, Nat.mul_div_mul_left _ _ ha, Nat.div_div_eq_div_mul]

/-- Aligning an address down aligns its offset from an aligned base. -/
theorem alignDown_sub {a b : Nat} (h : a ∣ b) (k : Nat) : k - k % a - b = (k - b) - (k - b) % a := by
  rcases Nat.lt_or_ge k b with hk | hk
  · simp [Nat.sub_eq_zero_of_le (Nat.le_of_lt hk), Nat.sub_eq_zero_of_le ((Nat.sub_le k (k % a)).trans (Nat.le_of_lt hk))]
  · obtain ⟨j, rfl⟩ := Nat.exists_eq_add_of_le hk
    have : (b + j) % a = j % a := by rw [Nat.add_mod, Nat.mod_eq_zero_of_dvd h, Nat.zero_add, Nat.mod_mod]
    rw [this, Nat.add_sub_cancel_left]
    omega

/-- The boundaries of the address map are multiples of 4 KiB, so that an address aligned down stays in its region. -/
theorem regionOf_alignDown {a : Nat} (h : a ∣ 4096) (k : Nat) : regionOf (k - k % a) = regionOf k := by
  have lt {b : Nat} (hb : 4096 ∣ b) : k - k % a < b ↔ k < b := alignDown_lt_iff (h.trans hb) k
  have window : (k - k % a) % 0x1000000000 < 0xC00000000 ↔ k % 0x1000000000 < 0xC00000000 := by
    rw [alignDown_mod (h.trans (by decide)), alignDown_lt_iff (h.trans (by decide))]
  simp only [regionOf, window, lt (b := 0x8000000000) (by decide), lt (b := 0x80000000000) (by decide), lt (b := 0x8000C000000) (by decide),
    lt (b := 0x90000000000) (by decide), lt (b := 0xA0000000000) (by decide), lt (b := 0xC0000000000) (by decide),
    lt (b := 0x100000000000) (by decide)]

/-- The poison unit of a location lies in its region, aligned there to 8, 32 or 4,096 bytes (R68, R69). -/
theorem poisonUnit_eq (k : Nat) : poisonUnit k = k - k % (if regionOf k = .sbm then 8 else if regionOf k = .flash then 4096 else 32) := by
  unfold poisonUnit
  cases regionOf k <;> rfl

/-! ## Bit masks -/

theorem getLsbD_one_shiftLeft {w i : Nat} (h : i < w) (n : Nat) : (1#w <<< n).getLsbD i = (i == n) := by
  rw [← BitVec.twoPow_eq, BitVec.getLsbD_twoPow]
  by_cases e : i = n
  · subst e; simp [h]
  · simp [e, Ne.symm e]

/-! ## Events -/

/-- An event whose occasion stands takes place. -/
theorem whenever_of {c : Bool} (h : c = true) (t : State) : whenever c t = .next t := if_pos h

end Sys2Proof.Machine
end

section
/-! CLAIM. The state after reset, and the steps of a start (R8, R15 to R27). -/

namespace Sys2Proof.Claims

open Sys2Proof Sys2Proof.Machine

/-! ## The state after reset -/

/-- Of host memory that lists nothing every byte reads zero (log 1). -/
theorem readHost_zero_of_nil {m : Mem} (h : m.host = []) (k n : Nat) : ∀ b ∈ m.readHost k n, b = 0 := by
  induction n generalizing k with
  | zero => simp [Mem.readHost]
  | succ n ih =>
    rintro b (_ | ⟨_, hb⟩)
    · simp [h, Sparse.get, unlistedByte]
    · exact ih (k + 1) b hb

/-- At reset slot i of the plane map leads to link i (R35). -/
theorem reset_planeMap : ∀ i : Nat, i < 16 → State.reset.fabric.planeMap[i]? = some (BitVec.ofNat 4 i) := by
  decide

/-- Settles O59: every register is read off the reset state, whose tables list nothing. -/
theorem resetState : Obligations.ResetState :=
  ⟨⟨rfl, rfl, reset_planeMap, rfl, rfl, rfl, rfl, rfl, rfl, rfl, rfl, rfl, fun _ => ⟨rfl, rfl, rfl, rfl⟩, fun _ => rfl, fun _ => rfl,
    fun _ => rfl, fun _ => rfl, fun _ => rfl, readHost_zero_of_nil rfl, rfl, rfl⟩, State.wf_reset, rfl⟩

/-! ## What a start leaves of memory -/

theorem onUnit_iff (n k : Nat) : onUnit n k = true ↔ OnUnit n k := by
  unfold onUnit OnUnit
  cases regionOf k <;> simp [Nat.shiftRight_eq_div_pow]

theorem onUnit_eq_false_iff (n k : Nat) : onUnit n k = false ↔ ¬OnUnit n k := by
  rw [← onUnit_iff, Bool.not_eq_true]

/-- Stacks and slices are made of whole 64-byte lines. -/
theorem onUnit_alignDown_iff {a : Nat} (h : a ∣ 64) (n k : Nat) : OnUnit n (k - k % a) ↔ OnUnit n k := by
  have stack : (k - k % a) / 2 ^ 36 = k / 2 ^ 36 := alignDown_div (h.trans (by decide)) k
  have slice : (k - k % a - 0x80000000000) / 256 = (k - 0x80000000000) / 256 := by
    rw [alignDown_sub (h.trans (by decide)), alignDown_div (h.trans (by decide))]
  rw [OnUnit, OnUnit, regionOf_alignDown (h.trans (by decide)), stack, slice]

/-- The poison unit of a location lies on the same stack or slice. -/
theorem onUnit_poisonUnit_iff (n k : Nat) : OnUnit n (poisonUnit k) ↔ OnUnit n k := by
  rw [poisonUnit_eq]
  split
  · exact onUnit_alignDown_iff (by decide) n k
  · split
    · next h =>
      simp [OnUnit, regionOf_alignDown, h]
    · exact onUnit_alignDown_iff (by decide) n k

/-- Zeroing a stack and its slice leaves what R18 and R20 say, and all else. -/
theorem unitZeroed_zeroUnit (m : Mem) (n : Nat) : UnitZeroed m (m.zeroUnit n) n := by
  have line (k : Nat) : OnUnit n (64 * (k / 64)) ↔ OnUnit n k := by
    rw [← alignDown_eq]
    exact onUnit_alignDown_iff (by decide) n k
  have gone {k : Nat} (h : OnUnit n k) : (!onUnit n k) = false := by simpa using (onUnit_iff n k).2 h
  have left {k : Nat} (h : ¬OnUnit n k) : (!onUnit n k) = true := by simpa using (onUnit_eq_false_iff n k).2 h
  exact
    { rest := rfl
      zero := fun k h => ⟨Sparse.get_filter_dropped 0 (fun j => !onUnit n j) (gone h) _,
        Sparse.get_filter_dropped false (fun j => !onUnit n j) (gone ((onUnit_poisonUnit_iff n k).2 h)) _,
        Sparse.get_filter_dropped ({} : LineTag) (fun j => !onUnit n (64 * j)) (gone ((line k).2 h)) _⟩
      empty := fun w h => Sparse.get_filter_dropped false (fun j => !onUnit n (0x80000000000 + 8 * j)) (gone h) _
      kept := fun k h => ⟨Sparse.get_filter_kept 0 (fun j => !onUnit n j) (left h),
        Sparse.get_filter_kept false (fun j => !onUnit n j) (left fun x => h ((onUnit_poisonUnit_iff n k).1 x)),
        Sparse.get_filter_kept ({} : LineTag) (fun j => !onUnit n (64 * j)) (left fun x => h ((line k).1 x))⟩
      full := fun w h => Sparse.get_filter_kept false (fun j => !onUnit n (0x80000000000 + 8 * j)) (left h) }

/-- A start keeps flash and the host's memory and nothing else. -/
theorem flashKept_flashOnly {m : Mem} (h : m.wf = true) : FlashKept m m.flashOnly := by
  refine ⟨rfl, fun k => ?_, rfl⟩
  simpa using Mem.get_of_filtered h (fun j => regionOf j == .flash) rfl k

/-- Steps 1 and 2 of a start (R18, R20, R21). -/
theorem started_newStart {s : State} (h : s.mem.wf = true) (cold : Bool) (sec : SecEvent) :
    Started s (s.newStart cold sec s.input.boot) cold sec := by
  refine ⟨?_, fun hsig hver hid => ?_, ?_⟩
  · unfold State.newStart
    cases bootFailure s.power s.input.boot <;> exact flashKept_flashOnly h
  · have : bootFailure s.power s.input.boot = none := by simp [bootFailure, hsig, hid, Nat.not_lt.2 hver]
    rw [State.newStart, this]
    rfl
  · intro c hc
    have : bootFailure s.power s.input.boot = some c := by
      rcases hc with ⟨hsig, rfl⟩ | ⟨hsig, hver, rfl⟩ | ⟨hsig, hver, hid, rfl⟩
      · simp [bootFailure, hsig]
      · simp [bootFailure, hsig, hver]
      · simp [bootFailure, hsig, hid, Nat.not_lt.2 hver]
    rw [State.newStart, this]
    rfl

/-! ## The steps of a start -/

theorem setBit_raised {w : Nat} (x : BitVec w) (n : Nat) (c : Bool) : SetBit x (if c then x ||| 1#w <<< n else x) n c := by
  intro i hi
  cases c <;> simp [getLsbD_one_shiftLeft hi]

/-- A full training stores the record of its part, a failed one discards it, and all others stand (R19). -/
theorem note_records (p : Power) (bit : Nat) (x : Train) {n : Nat} (hn : n < 27) :
    (p.note bit x).records.getLsbD n =
      if n = bit ∧ x = .full then true else if n = bit ∧ x = .failed then false else p.records.getLsbD n := by
  cases x with
  | verified => simp [Power.note]
  | full =>
    show (p.records ||| 1#27 <<< bit).getLsbD n = _
    rw [BitVec.getLsbD_or, getLsbD_one_shiftLeft hn]
    by_cases e : n = bit <;> simp [e]
  | failed =>
    show (p.records &&& ~~~(1#27 <<< bit)).getLsbD n = _
    rw [BitVec.getLsbD_and, BitVec.getLsbD_not, getLsbD_one_shiftLeft hn]
    by_cases e : n = bit <;> simp [e, hn]

theorem note_settled (p : Power) (bit : Nat) (x : Train) {n : Nat} (hn : n < 27) :
    (p.note bit x).settled.getLsbD n = (p.settled.getLsbD n || n == bit) := by
  show (p.settled ||| 1#27 <<< bit).getLsbD n = _
  rw [BitVec.getLsbD_or, getLsbD_one_shiftLeft hn]

/-- A part's training noted by the model, whatever its status bits (R19, R25). -/
theorem noted_of_note {p q : Power} {bit : Nat} {x : Train}
    (h : q = { p.note bit x with stackOk := q.stackOk, stackTrained := q.stackTrained, flashOk := q.flashOk, flashTrained := q.flashTrained
                                 linkUp := q.linkUp, linkTrained := q.linkTrained, die1Ok := q.die1Ok }) : Noted p q bit x := by
  have hr : q.records = (p.note bit x).records := by rw [h]
  have hs : q.settled = (p.note bit x).settled := by rw [h]
  exact ⟨by rw [hr, hs]; exact h, fun n hn => ⟨by rw [hr, note_records p bit x hn], by rw [hs, note_settled p bit x hn]⟩⟩

theorem partBits_stack (p : Power) (n : BitVec 3) (x : Train) : PartBits p (p.stack n.toNat x) (.stack n) x := by
  refine ⟨?_, setBit_raised _ _ _, rfl, rfl, rfl, rfl, rfl⟩
  have := setBit_raised p.stackOk n.toNat (x != .failed)
  cases x <;> exact this

theorem mayTrain_of_trainable {p : Power} {bit : Nat} {x : Train} (h : Trainable p bit x) : p.mayTrain bit x = true := by
  by_cases e : x = .verified
  · simp [Power.mayTrain, h e]
  · simp [Power.mayTrain, e]

theorem partBit_eq_recordOf (x : Part) : partBit x = recordOf x := by cases x <;> rfl

theorem noted_stack (p : Power) (n : BitVec 3) (x : Train) : Noted p (p.stack n.toNat x) n.toNat x := noted_of_note rfl

theorem starts : Starts := by
  intro s h
  refine ⟨fun off => ⟨_, whenever_of (by simpa using off) _, started_newStart h false {}⟩,
    fun on => ⟨_, whenever_of (by simpa using on) _, flashKept_flashOnly h, rfl⟩, fun on up pf => ?_, fun on up other => ?_⟩
  · refine ⟨_, ?_, started_newStart h s.input.cold s.cfg.sec⟩
    simp [exec, execResetGo, on, up, pf, State.resetCtl]
  · simp [exec, execResetGo, on, up, other]

/-- Step 4 of a start passed: stacks 0 and 1 and every link stand as it leaves them (R18, R72). -/
def firmwareDone (s : State) (r : Power) : State :=
  { s with
    power := { r with stage := .parts, phase := 3, clk0 := 850 }
    mem := (s.mem.zeroUnit 0).zeroUnit 1
    cfg := { s.cfg with state := .open_, sec := { s.cfg.sec with keysErased := false } }
    fabric := { s.fabric with links := (List.range 16).map fun i => (i, { state := 1 }) } }

theorem firmwareDone_link (s : State) (r : Power) : ∀ i < 16, (firmwareDone s r).link i = { state := 1 } := by
  have : ∀ i < 16, (Table.find i ((List.range 16).map fun i => (i, ({ state := 1 } : Link)))).getD {} = { state := 1 } := by decide
  exact this

section Firmware

variable {s : State} (hp : s.power.stage = .firmware) (h0 : Trainable s.power 0 s.input.fw.stack0) (h1 : Trainable s.power 1 s.input.fw.stack1)
include hp h0 h1

/-- A firmware chain that does not verify, or is rolled back, leaves the part in PHASE 2 (R21, R28). -/
theorem firmwareLoaded_unsigned (h : ¬(s.input.fw.sigOk = true ∧ s.power.rollback ≤ s.input.fw.version)) :
    exec .firmwareLoaded s = .next { s with
      power := { s.power with stage := .failed }, cfg := { s.cfg with sec := { s.cfg.sec with bootFail := true, bootCause := 3 } } } := by
  have : s.input.fw.sigOk = false ∨ s.input.fw.version < s.power.rollback := by
    rwa [not_and_or, Bool.not_eq_true, Nat.not_le] at h
  simp [exec, execFirmwareLoaded, hp, mayTrain_of_trainable h0, mayTrain_of_trainable h1, this]

variable (hs : s.input.fw.sigOk = true ∧ s.power.rollback ≤ s.input.fw.version)
include hs

/-- A stack or die that fails ends the start in PHASE 15 (R21; log 39). -/
theorem firmwareLoaded_failed (h : s.input.fw.stack0 = .failed ∨ s.input.fw.stack1 = .failed ∨ s.input.fw.die0Ok = false) :
    exec .firmwareLoaded s = .next { s with
      power := { (s.power.stack 0 s.input.fw.stack0).stack 1 s.input.fw.stack1 with stage := .failed, phase := 15 }
      cfg := { s.cfg with sec := { s.cfg.sec with bootFail := true } } } := by
  simp [exec, execFirmwareLoaded, hp, mayTrain_of_trainable h0, mayTrain_of_trainable h1, hs.1, hs.2, or_assoc.2 h]

theorem firmwareLoaded_done (h : ¬(s.input.fw.stack0 = .failed ∨ s.input.fw.stack1 = .failed ∨ s.input.fw.die0Ok = false)) :
    exec .firmwareLoaded s = .next (firmwareDone s ((s.power.stack 0 s.input.fw.stack0).stack 1 s.input.fw.stack1)) := by
  simp only [not_or] at h
  simp [exec, execFirmwareLoaded, hp, mayTrain_of_trainable h0, mayTrain_of_trainable h1, hs.1, hs.2, h, firmwareDone]

end Firmware

/-- Slots of the plane map are all that a remapping changes (R35). -/
theorem remapPlanes_eq (s : State) : s.remapPlanes = { s with fabric := { s.fabric with planeMap := s.remapPlanes.fabric.planeMap } } := by
  unfold State.remapPlanes
  dsimp only
  split <;> rfl

theorem link_eq_ofNat_iff (n : BitVec 4) (i : Nat) : Part.link n = Part.link (BitVec.ofNat 4 i) ∧ i < 16 ↔ i = n.toNat := by
  rw [Part.link.injEq]
  constructor
  · rintro ⟨rfl, hi⟩
    simp [Nat.mod_eq_of_lt hi]
  · rintro rfl
    exact ⟨by simp, n.isLt⟩

/-- Step 5 of a start for one part (R18, R19, R22, R25). -/
theorem unitTrained_spec {s : State} (hp : s.power.stage = .parts) (hs : s.power.settled.getLsbD (recordOf s.input.part) = false)
    (ht : Trainable s.power (recordOf s.input.part) s.input.train) :
    ∃ t, exec .unitTrained s = .next t ∧ Noted s.power t.power (recordOf s.input.part) s.input.train ∧ PartBits s.power t.power s.input.part s.input.train ∧
      t = { s with power := t.power, mem := t.mem, fabric := { s.fabric with links := t.fabric.links, planeMap := t.fabric.planeMap } } ∧
      (∀ n, s.input.part = .stack n → UnitZeroed s.mem t.mem n.toNat) ∧ ((∀ n, s.input.part ≠ .stack n) → t.mem = s.mem) ∧
      (∀ i, t.link i =
        if s.input.part = .link (BitVec.ofNat 4 i) ∧ i < 16 then { s.link i with state := if s.input.train = .failed then 4 else 2 } else s.link i) ∧
      ((∀ n, s.input.part ≠ .link n) → t.fabric.planeMap = s.fabric.planeMap) := by
  have run : exec .unitTrained s = execUnitTrained s := rfl
  rw [execUnitTrained, partBit_eq_recordOf] at run
  simp only [hp, hs, mayTrain_of_trainable ht, bne_self_eq_false, Bool.not_true, Bool.or_self, Bool.false_eq_true, if_false] at run
  rw [run]
  cases part : s.input.part with
  | stack n =>
    refine ⟨_, rfl, noted_stack _ _ _, partBits_stack _ _ _, rfl, ?_, fun h => absurd rfl (h n), fun i => ?_, fun _ => rfl⟩
    · rintro m ⟨rfl⟩
      exact unitZeroed_zeroUnit _ _
    · exact (if_neg (by rintro ⟨⟨⟩, -⟩)).symm
  | flash n =>
    refine ⟨_, rfl, noted_of_note rfl, ⟨setBit_raised _ _ _, setBit_raised _ _ _, rfl, rfl, rfl, rfl, rfl⟩, rfl, ?_, fun _ => rfl, fun i => ?_,
      fun _ => rfl⟩
    · rintro m ⟨⟩
    · exact (if_neg (by rintro ⟨⟨⟩, -⟩)).symm
  | dieBoundary =>
    refine ⟨_, rfl, noted_of_note rfl, ⟨rfl, rfl, rfl, rfl, rfl, rfl, rfl⟩, rfl, ?_, fun _ => rfl, fun i => ?_, fun _ => rfl⟩
    · rintro m ⟨⟩
    · exact (if_neg (by rintro ⟨⟨⟩, -⟩)).symm
  | link n =>
    refine ⟨_, rfl, ?_⟩
    generalize hu : (State.setLink _ n.toNat _ : State) = u
    obtain ⟨m, hm⟩ : ∃ m, (if ((List.range 16).all fun i => u.power.settled.getLsbD (10 + i)) = true then u.remapPlanes else u) =
        { u with fabric := { u.fabric with planeMap := m } } := by
      split
      · exact ⟨_, remapPlanes_eq u⟩
      · exact ⟨_, rfl⟩
    rw [hm, ← hu]
    refine ⟨noted_of_note rfl, ⟨setBit_raised _ _ _, setBit_raised _ _ _, rfl, rfl, rfl, rfl, rfl⟩, rfl, ?_, fun _ => rfl, fun i => ?_,
      fun h => absurd rfl (h n)⟩
    · rintro m ⟨⟩
    show (Table.find i (Table.put _ _ _)).getD ({} : Link) = _
    simp only [link_eq_ofNat_iff, Table.find_put]
    split
    · next h => cases s.input.train <;> simp [h]
    · rfl

theorem clockAdjust_next {s : State} (h0 : (if s.input.die1 then s.power.clk1 else s.power.clk0) ≠ 0)
    (step : ((s.input.mhz.toNat : Int) - (if s.input.die1 then s.power.clk1 else s.power.clk0).toNat) % 25 = 0) (hm : s.input.mhz.toNat ≤ 1700) :
    exec .clockAdjust s =
      .next { s with power := if s.input.die1 then { s.power with clk1 := s.input.mhz } else { s.power with clk0 := s.input.mhz } } := by
  show execClockAdjust s = _
  simp only [execClockAdjust]
  rw [if_neg]
  simp only [Bool.or_eq_true, decide_eq_true_eq, not_or, not_not]
  exact ⟨⟨h0, step⟩, Nat.not_lt.2 hm⟩

theorem startSequence : StartSequence := by
  intro s p fw x signed failed
  refine ⟨fun hp => whenever_of (by simpa using hp) _, fun hp h0 h1 => ⟨firmwareLoaded_unsigned hp h0 h1, fun hs => ?_⟩, unitTrained_spec, ?_, ?_⟩
  · have q0 := noted_stack p 0 fw.stack0
    have b0 := partBits_stack p 0 fw.stack0
    have q1 := noted_stack (p.stack 0 fw.stack0) 1 fw.stack1
    have b1 := partBits_stack (p.stack 0 fw.stack0) 1 fw.stack1
    by_cases hf : failed
    · exact ⟨_, _, _, firmwareLoaded_failed hp h0 h1 hs hf, q0, b0, q1, b1, fun _ => rfl, fun g => absurd hf g⟩
    · exact ⟨_, _, _, firmwareLoaded_done hp h0 h1 hs hf, q0, b0, q1, b1, fun g => absurd g hf, fun _ => ⟨rfl, firmwareDone_link _ _,
        _, unitZeroed_zeroUnit _ 0, unitZeroed_zeroUnit _ 1⟩⟩
  · intro hp hs hd hk
    have all : p.settled = BitVec.allOnes 27 := BitVec.eq_of_getLsbD_eq fun n hn => by
      rw [hs n hn, BitVec.getLsbD_allOnes, decide_eq_true hn]
    exact whenever_of (by simp [show s.power.stage = .parts from hp, show s.power.settled = _ from all, show s.power.die1Ok = true from hd,
      show s.power.stackOk = 0xFF from hk]) _
  · intro old h0 hm hk
    have step : ((s.input.mhz.toNat : Int) - old.toNat) % 25 = 0 := by obtain ⟨k, hk⟩ := hk; omega
    rw [clockAdjust_next h0 step hm]
    cases s.input.die1 <;> rfl

/-- Settles O33: a start is `newStart`, whose memory keeps flash alone, and each later step is the equation of its event, with a part's
training noted and its stack zeroed. -/
theorem deviceStart : Obligations.DeviceStart := ⟨starts, startSequence⟩

end Sys2Proof.Claims
end

section
-- One proof after another: side by side their threads pass the limit of memory that the check sets.
set_option Elab.async false
/-! CLAIM. The registers of the physical function (R7, R16, R26, R30, R35, R49, R55, R56, R62, R70 to R75, R91, R124, R135, R136, R181). -/

namespace Sys2Proof.Claims

open Sys2Proof Sys2Proof.Machine

/-! ## Written data -/

theorem fld_eq_dbits (d : DWord) (h l : Nat) : Machine.fld d h l = dbits d h l := by
  rw [Machine.fld, bits, dbits, Nat.shiftRight_eq_div_pow]

@[simp] theorem merge_full (d old : DWord) : (⟨.full, d⟩ : RegAcc).merge old = d := by
  show (old &&& ~~~BitVec.allOnes 64) ||| (d &&& BitVec.allOnes 64) = d
  rw [BitVec.not_allOnes, BitVec.and_zero, BitVec.zero_or, BitVec.and_allOnes]

@[simp] theorem ones_full (d : DWord) : (⟨.full, d⟩ : RegAcc).ones = d := BitVec.and_allOnes

@[simp] theorem low_full (d : DWord) : (⟨.full, d⟩ : RegAcc).low = true := rfl

theorem low_of_lowHalf {a : RegAcc} (h : lowHalf a) : a.low = true := by
  simp only [lowHalf] at h
  simpa [RegAcc.low] using h

/-- A write of the low half puts its data there. -/
theorem merge_low {a : RegAcc} (h : lowHalf a) (old : DWord) : (a.merge old).setWidth 32 = a.data.setWidth 32 := by
  obtain ⟨half, d⟩ := a
  cases half with
  | full => rw [merge_full]
  | hi => exact absurd rfl h
  | lo =>
    have low : ∀ i < 32, (0x00000000FFFFFFFF#64).getLsbD i = true := by decide
    refine BitVec.eq_of_getLsbD_eq fun i hi => ?_
    show (((old &&& ~~~0x00000000FFFFFFFF#64) ||| (d &&& 0x00000000FFFFFFFF#64)).setWidth 32).getLsbD i = (d.setWidth 32).getLsbD i
    rw [BitVec.getLsbD_setWidth, BitVec.getLsbD_setWidth, BitVec.getLsbD_or, BitVec.getLsbD_and, BitVec.getLsbD_and, BitVec.getLsbD_not, low i hi]
    simp

/-- A field of the low half takes the written bits. -/
theorem fld_merge_low {a : RegAcc} (h : lowHalf a) (old : DWord) {n : Nat} (hn : n < 32) : Machine.fld (a.merge old) n 0 = dbits a.data n 0 := by
  have e : (a.merge old).toNat % 2 ^ 32 = a.data.toNat % 2 ^ 32 := by
    simpa using congrArg BitVec.toNat (merge_low h old)
  have d : 2 ^ (n + 1) ∣ 2 ^ 32 := Nat.pow_dvd_pow 2 hn
  rw [fld_eq_dbits, dbits, dbits, Nat.pow_zero, Nat.div_one, Nat.div_one, Nat.sub_zero, ← Nat.mod_mod_of_dvd _ d, e, Nat.mod_mod_of_dvd _ d]

/-! ## Who may write, and when -/

theorem Answers.pfAnswers {s : State} (h : Answers s) : s.pfAnswers = true := by
  obtain ⟨on, up, ph, er⟩ := h
  rw [State.pfAnswers, bne_iff_ne.2 on, bne_iff_ne.2 up, bne_iff_ne.2 ph, er]
  rfl

/-- The physical function's registers are there. -/
theorem Answers.visible {s : State} (h : Answers s) : (s.power.stage == .off || s.power.stage == .hostLink) = false := by
  obtain ⟨on, up, -, -⟩ := h
  simp [on, up]

/-- A register write of the physical function is performed. -/
theorem Answers.pfOnly {s : State} (h : Answers s) (pf : s.input.writer = .pf) (off : Nat) (a : RegAcc) :
    pfOnly s off a = .next (s.pfWrite off a) := by
  rw [Machine.pfOnly, h.visible, pf]
  rfl

/-- RW-L fields take a write in CONFIG_OPEN, and log it from CONFIG_LOCKED on (R7, R73). -/
theorem lockable_spec (s eff : State) : Lockable s (s.lockable true eff) eff := by
  refine ⟨fun h => ?_, fun h => ?_⟩
  · simp [State.lockable, State.locked, h]
  · rcases h with h | h <;> simp [State.lockable, State.locked, State.logLock, h]

/-- Each write that is the physical function's own has no effect from another writer (R26, R71, R124). -/
theorem pfWrites_other {s : State} (on : s.power.stage ≠ .off) (up : s.power.stage ≠ .hostLink) (hi : s.input.index.toNat < 6)
    (other : s.input.writer ≠ .pf) : ∀ i ∈ pfWrites, exec i s = .next s := by
  have ignored (off : Nat) (a : RegAcc) : pfOnly s off a = .next s := by simp [pfOnly, on, up, other]
  intro i h
  simp only [pfWrites, List.mem_cons, List.not_mem_nil, or_false] at h
  rcases h with rfl | rfl | rfl | rfl | rfl | rfl | rfl | rfl | rfl
  · simp [exec, execResetGo, on, up, other]
  · exact ignored _ _
  · exact ignored _ _
  · exact ignored _ _
  · show execHashMaskWrite s = _
    rw [execHashMaskWrite, if_neg (by omega), ignored]
  · exact ignored _ _
  · exact ignored _ _
  · exact ignored _ _
  · exact ignored _ _

/-! ## The configuration writes -/

/-- Keys asked for on links 0 to n - 1 of those named whose next slot is empty (R49). -/
theorem rekey_below (s : State) (links n : Nat) :
    let t := (List.range n).foldl (fun st i =>
      let l := st.link i
      if links.testBit i && !l.next then st.setLink i { l with asked := true } else st) s
    t = { s with fabric := { s.fabric with links := t.fabric.links } } ∧
    ∀ i, t.link i = if i < n ∧ links.testBit i = true ∧ (s.link i).next = false then { s.link i with asked := true } else s.link i := by
  induction n with
  | zero => simp
  | succ n ih =>
    simp only [List.range_succ, List.foldl_append, List.foldl_cons, List.foldl_nil] at ih ⊢
    generalize (List.range n).foldl _ s = u at ih ⊢
    obtain ⟨rest, link⟩ := ih
    have same : u.link n = s.link n := by simpa using link n
    rw [same]
    split
    · next h =>
      simp only [Bool.and_eq_true, Bool.not_eq_true'] at h
      refine ⟨by rw [rest]; rfl, fun i => ?_⟩
      by_cases e : i = n
      · subst e
        simp [h]
      · rw [State.link_setLink_other _ _ _ _ e, link]
        simp only [Nat.lt_succ_iff_lt_or_eq, e, or_false]
    · next h =>
      simp only [Bool.and_eq_true, Bool.not_eq_true'] at h
      refine ⟨rest, fun i => ?_⟩
      rw [link]
      by_cases e : i = n
      · subst e
        simp [h]
      · simp only [Nat.lt_succ_iff_lt_or_eq, e, or_false]

theorem rekey_spec (s : State) (links : Nat) :
    s.rekey links = { s with fabric := { s.fabric with links := (s.rekey links).fabric.links } } ∧
    ∀ i, (s.rekey links).link i =
      if i < 16 ∧ links.testBit i = true ∧ (s.link i).next = false then { s.link i with asked := true } else s.link i :=
  rekey_below s links 16

theorem testBit_dbits (d : DWord) {n i : Nat} (hi : i ≤ n) : (dbits d n 0).testBit i = d.getLsbD i := by
  rw [dbits, Nat.pow_zero, Nat.div_one, Nat.sub_zero, Nat.testBit_mod_two_pow, BitVec.getLsbD]
  simp [Nat.lt_succ_of_le hi]

section Writes

variable {s : State} (ha : Answers s)
include ha

theorem pfWrite_powerCtl {a : RegAcc} (h : lowHalf a) :
    s.pfWrite 0x10 a = { s with power := { s.power with capW := BitVec.ofNat 12 (max 600 (min 2200 (dbits a.data 11 0))) } } := by
  simp [State.pfWrite, ha.visible, ha.pfAnswers, low_of_lowHalf h, fld_merge_low h, capOf]

theorem pfWrite_cfgCtl (d : DWord) : s.pfWrite 0x18 ⟨.full, d⟩ = s.putCfgCtl (Machine.fld d 1 0) := by
  simp [State.pfWrite, ha.visible, ha.pfAnswers]

theorem pfWrite_rekey {a : RegAcc} (h : lowHalf a) : s.pfWrite 0x38 a = s.rekey (dbits a.data 15 0) := by
  simp [State.pfWrite, ha.visible, ha.pfAnswers, low_of_lowHalf h, fld_eq_dbits]

theorem pfWrite_hashMask {a : RegAcc} (h : lowHalf a) {n : Nat} (hn : n < 6) :
    s.pfWrite (0x80 + 8 * n) a = s.lockable true (s.putHashMask n (BitVec.ofNat 26 (dbits a.data 25 0))) := by
  have e : (0x80 + 8 * n - 0x80) / 8 = n := by omega
  rw [State.pfWrite, ha.visible, ha.pfAnswers]
  simp (disch := omega) only [Bool.false_eq_true, Bool.not_true, if_false, Bool.and_eq_true, Bool.or_eq_true, decide_eq_true_eq, if_neg, if_pos,
    low_of_lowHalf h, e, fld_merge_low h]

end Writes

/-- A byte of memory after the HBM stacks in service are zeroed (R56). -/
theorem zeroHbm_get {s : State} (h : s.mem.wf = true) (k : Nat) :
    s.zeroHbm.mem.get k = if regionOf k = .hbm ∧ s.power.stackOk.getLsbD (k / 2 ^ 36) = true then 0 else s.mem.get k := by
  rw [Mem.get_of_filtered h (fun k => !(regionOf k == .hbm && s.power.stackOk.getLsbD (k / 0x1000000000))) rfl k]
  show _ = if regionOf k = .hbm ∧ s.power.stackOk.getLsbD (k / 0x1000000000) = true then 0 else s.mem.get k
  by_cases r : regionOf k = .hbm <;> cases b : s.power.stackOk.getLsbD (k / 0x1000000000) <;> simp [r]

theorem hashMaskWrite_spec {s : State} (ha : Answers s) (pf : s.input.writer = .pf) {a : RegAcc} (hacc : s.input.acc = a) (h : lowHalf a)
    {n : Nat} (hidx : s.input.index.toNat = n) (hn : n < 6) (hw : s.mem.wf = true) :
    let mask := BitVec.ofNat 26 (dbits a.data 25 0)
    ∃ t, exec .hashMaskWrite s = .next t ∧
      (s.cfg.state = .locked ∨ s.cfg.state = .run → t = { s with cfg := { s.cfg with sec := { s.cfg.sec with lockWrite := true } } }) ∧
      (s.cfg.state = .open_ → s.cfg.hashMask.getD n 0 = mask → t = s) ∧
      (s.cfg.state = .open_ → s.cfg.hashMask.getD n 0 ≠ mask → t = { s with
          mem := { s.mem with cells := t.mem.cells, poison := t.mem.poison, lines := t.mem.lines }
          cfg := { s.cfg with hashMask := s.cfg.hashMask.set n mask, zeroing := true } } ∧
        ∀ k, t.mem.get k = if regionOf k = .hbm ∧ s.power.stackOk.getLsbD (k / 2 ^ 36) = true then 0 else s.mem.get k) := by
  subst hacc hidx
  intro mask
  refine ⟨s.lockable true (s.putHashMask s.input.index.toNat mask), ?_, (lockable_spec s _).2, fun ho he => ?_, fun ho he => ?_⟩
  · show execHashMaskWrite s = _
    rw [execHashMaskWrite, if_neg (by omega), ha.pfOnly pf, pfWrite_hashMask ha h hn]
  · rw [(lockable_spec s _).1 ho, State.putHashMask, if_pos he]
  · rw [(lockable_spec s _).1 ho, State.putHashMask, if_neg he]
    exact ⟨rfl, zeroHbm_get hw⟩

/-! ## The move to RUN -/

/-- The function that VF_CFG_n configures. -/
def vfOf (vf : List (Nat × VfCfg)) (n : Nat) : VfCfg := Sparse.get {} n vf

/-- A queue slot lies in the range of a function (R75). -/
def InSlots (v : VfCfg) (q : Nat) : Prop := v.qbase.toNat ≤ q ∧ q < v.qbase.toNat + v.qcount.toNat

theorem slotsMeet_iff (a b : VfCfg) : slotsMeet a b = true ↔ ∃ q, InSlots a q ∧ InSlots b q := by
  simp only [slotsMeet, InSlots, Bool.and_eq_true, bne_iff_ne, ne_eq, decide_eq_true_eq]
  have ha : a.qcount = 0 ↔ a.qcount.toNat = 0 := BitVec.toNat_inj.symm
  have hb : b.qcount = 0 ↔ b.qcount.toNat = 0 := BitVec.toNat_inj.symm
  rw [ha, hb]
  constructor
  · rintro ⟨⟨⟨h1, h2⟩, h3⟩, h4⟩
    exact ⟨max a.qbase.toNat b.qbase.toNat, by omega, by omega⟩
  · rintro ⟨q, h1, h2⟩
    omega

/-- The move to RUN enables function n: ENABLE is set, its slots exist, and no lower function that is enabled has one of them (R75). -/
def Enabled (vf : List (Nat × VfCfg)) (n : Nat) : Prop :=
  (vfOf vf n).enable = true ∧ (vfOf vf n).qbase.toNat + (vfOf vf n).qcount.toNat ≤ 1024 ∧
    ∀ p ∈ enabledVfs vf n, ¬∃ q, InSlots p.2 q ∧ InSlots (vfOf vf n) q

theorem enabledVfs_succ (vf : List (Nat × VfCfg)) (n : Nat) [Decidable (Enabled vf n)] :
    enabledVfs vf (n + 1) = if Enabled vf n then enabledVfs vf n ++ [(n, vfOf vf n)] else enabledVfs vf n := by
  have : ((vfOf vf n).enable && decide ((vfOf vf n).qbase.toNat + (vfOf vf n).qcount.toNat ≤ 1024) &&
      !((enabledVfs vf n).any fun p => slotsMeet p.2 (vfOf vf n))) = true ↔ Enabled vf n := by
    simp only [Enabled, Bool.and_eq_true, Bool.not_eq_true', decide_eq_true_eq, List.any_eq_false, slotsMeet_iff, and_assoc]
  rw [enabledVfs]
  exact if_congr this rfl rfl

theorem mem_enabledVfs (vf : List (Nat × VfCfg)) (k : Nat) (p : Nat × VfCfg) :
    p ∈ enabledVfs vf k ↔ p.1 < k ∧ Enabled vf p.1 ∧ p.2 = vfOf vf p.1 := by
  classical
  induction k with
  | zero => simp [enabledVfs]
  | succ k ih =>
    rw [enabledVfs_succ]
    by_cases h : Enabled vf k
    · rw [if_pos h, List.mem_append, ih, List.mem_singleton]
      constructor
      · rintro (⟨h1, h2⟩ | rfl)
        · exact ⟨by omega, h2⟩
        · exact ⟨by simp, h, rfl⟩
      · rintro ⟨h1, h2, h3⟩
        rcases Nat.lt_succ_iff_lt_or_eq.1 h1 with h1 | h1
        · exact .inl ⟨h1, h2, h3⟩
        · exact .inr (Prod.ext h1 (h3.trans (by rw [h1])))
    · rw [if_neg h, ih]
      constructor
      · rintro ⟨h1, h2⟩
        exact ⟨by omega, h2⟩
      · rintro ⟨h1, h2, h3⟩
        have : p.1 ≠ k := fun e => h (e ▸ h2)
        exact ⟨by omega, h2, h3⟩

/-- R75 in its own words: a function is enabled against the enabled functions below it. -/
theorem enabled_iff (vf : List (Nat × VfCfg)) (n : Nat) :
    Enabled vf n ↔ (vfOf vf n).enable = true ∧ (vfOf vf n).qbase.toNat + (vfOf vf n).qcount.toNat ≤ 1024 ∧
      ∀ m < n, Enabled vf m → ¬∃ q, InSlots (vfOf vf m) q ∧ InSlots (vfOf vf n) q := by
  rw [Enabled]
  refine and_congr_right fun _ => and_congr_right fun _ => ⟨fun h m hm he => ?_, fun h p hp => ?_⟩
  · exact h (m, vfOf vf m) ((mem_enabledVfs vf n _).2 ⟨hm, he, rfl⟩)
  · obtain ⟨h1, h2, h3⟩ := (mem_enabledVfs vf n p).1 hp
    rw [h3]
    exact h p.1 h1 h2

/-- A function enabled by the move to RUN: a root context with its slots (R74, R91). -/
def enableFunction (s : State) (p : Nat × VfCfg) : State :=
  (List.range p.2.qcount.toNat).foldl (fun u i => u.modQueue (p.2.qbase.toNat + i) fun q => { q with owner := some (BitVec.ofNat 12 p.1) })
    (s.modCtx p.1 fun x => { x with live := true, level := 0 })

/-- Slots given to a context, the first n from a base on. -/
theorem giveSlots (s : State) (base c n : Nat) :
    let t := (List.range n).foldl (fun u i => u.modQueue (base + i) fun q => { q with owner := some (BitVec.ofNat 12 c) }) s
    t = { s with queues := t.queues } ∧
    ∀ q, t.queue q = if base ≤ q ∧ q < base + n then { s.queue q with owner := some (BitVec.ofNat 12 c) } else s.queue q := by
  induction n with
  | zero =>
    refine ⟨rfl, fun q => ?_⟩
    rw [if_neg (by omega)]
    rfl
  | succ n ih =>
    simp only [List.range_succ, List.foldl_append, List.foldl_cons, List.foldl_nil] at ih ⊢
    generalize (List.range n).foldl _ s = u at ih ⊢
    obtain ⟨rest, queue⟩ := ih
    refine ⟨by rw [rest]; rfl, fun q => ?_⟩
    by_cases e : q = base + n
    · subst e
      rw [State.queue_modQueue_same, queue, if_neg (by omega), if_pos (by omega)]
    · rw [State.queue_modQueue_other _ _ _ _ e, queue]
      exact if_congr (by omega) rfl rfl

theorem enableFunction_rest (s : State) (p : Nat × VfCfg) :
    enableFunction s p = { s with ctxs := (enableFunction s p).ctxs, queues := (enableFunction s p).queues } := by
  rw [enableFunction, (giveSlots _ _ _ _).1]
  rfl

theorem enableFunction_queue (s : State) (p : Nat × VfCfg) (q : Nat) [Decidable (InSlots p.2 q)] :
    (enableFunction s p).queue q = if InSlots p.2 q then { s.queue q with owner := some (BitVec.ofNat 12 p.1) } else s.queue q :=
  ((giveSlots _ _ _ _).2 q).trans (if_congr Iff.rfl rfl rfl)

theorem enableFunction_ctx (s : State) (p : Nat × VfCfg) (n : Nat) :
    (enableFunction s p).ctx n = if n = p.1 then { s.ctx n with live := true, level := 0 } else s.ctx n := by
  have : (enableFunction s p).ctx n = (s.modCtx p.1 fun x => { x with live := true, level := 0 }).ctx n := by
    rw [enableFunction, (giveSlots _ _ _ _).1]
    rfl
  rw [this]
  split
  · next e => rw [e, State.ctx_modCtx_same]
  · next e => exact State.ctx_modCtx_other _ _ _ _ e

/-- Functions 0 to k - 1 enabled where they are to be. -/
theorem enableFunctions_below (s : State) (vf : List (Nat × VfCfg)) (k : Nat) :
    let t := (enabledVfs vf k).foldl enableFunction s
    t = { s with ctxs := t.ctxs, queues := t.queues } ∧
    (∀ n, (n < k ∧ Enabled vf n → t.ctx n = { s.ctx n with live := true, level := 0 }) ∧ (¬(n < k ∧ Enabled vf n) → t.ctx n = s.ctx n)) ∧
    ∀ q, (∀ n, n < k ∧ Enabled vf n → InSlots (vfOf vf n) q → t.queue q = { s.queue q with owner := some (BitVec.ofNat 12 n) }) ∧
      ((∀ n, n < k ∧ Enabled vf n → ¬InSlots (vfOf vf n) q) → t.queue q = s.queue q) := by
  classical
  induction k with
  | zero => simp [enabledVfs]
  | succ k ih =>
    rw [enabledVfs_succ]
    by_cases h : Enabled vf k
    · rw [if_pos h]
      simp only [List.foldl_append, List.foldl_cons, List.foldl_nil] at ih ⊢
      generalize (enabledVfs vf k).foldl enableFunction s = u at ih ⊢
      obtain ⟨rest, ctx, queue⟩ := ih
      refine ⟨?_, fun n => ⟨fun hn => ?_, fun hn => ?_⟩, fun q => ⟨fun n hn hq => ?_, fun hn => ?_⟩⟩
      · rw [enableFunction_rest, rest]
      · rw [enableFunction_ctx]
        split
        · next e =>
          subst e
          rw [(ctx n).2 (by simp)]
        · next e => exact (ctx n).1 ⟨by omega, hn.2⟩
      · rw [enableFunction_ctx, if_neg (fun e => hn ⟨by omega, by rw [e]; exact h⟩)]
        exact (ctx n).2 fun x => hn ⟨by omega, x.2⟩
      · rw [enableFunction_queue]
        by_cases e : n = k
        · subst e
          have free : ∀ m, m < n ∧ Enabled vf m → ¬InSlots (vfOf vf m) q := fun m hm hm' =>
            ((enabled_iff vf n).1 h).2.2 m hm.1 hm.2 ⟨q, hm', hq⟩
          rw [if_pos hq, (queue q).2 free]
        · have below : n < k := by omega
          rw [if_neg fun x => ((enabled_iff vf k).1 h).2.2 n below hn.2 ⟨q, hq, x⟩]
          exact (queue q).1 n ⟨below, hn.2⟩ hq
      · rw [enableFunction_queue, if_neg (hn k ⟨by omega, h⟩)]
        exact (queue q).2 fun n x => hn n ⟨by omega, x.2⟩
    · rw [if_neg h]
      have same (n : Nat) : n < k + 1 ∧ Enabled vf n ↔ n < k ∧ Enabled vf n := by
        refine and_congr_left fun he => ⟨fun hn => ?_, fun hn => by omega⟩
        have : n ≠ k := fun e => h (e ▸ he)
        omega
      simpa only [same] using ih

/-- CFG_RUN_DONE enables the functions to be enabled, from a state that is in RUN already (R74, R75). -/
theorem cfgRunDone_eq {s : State} (hm : s.cfg.moving = true) (hl : s.cfg.state = .locked) :
    exec .cfgRunDone s = .next ((enabledVfs s.cfg.vf 128).foldl enableFunction
      { s with cfg := { s.cfg with state := .run, moving := false, cfgDigest := Config.sha256 s.lockedBytes } }) := by
  show execCfgRunDone s = _
  rw [execCfgRunDone, hm, hl]
  rfl

theorem configurationWrites : ConfigurationWrites := by
  intro s
  refine ⟨fun i hi on up hx other => pfWrites_other on up hx other i hi, fun ha pf => ?_, fun hz => whenever_of hz _, fun hm hl => ?_⟩
  · intro a n mask
    refine ⟨fun h => ?_, ?_, ?_, fun h hn hw => hashMaskWrite_spec ha pf rfl h rfl hn hw, fun h => ?_⟩
    · exact (ha.pfOnly pf _ _).trans (by rw [pfWrite_powerCtl ha h])
    · refine (ha.pfOnly pf _ _).trans ?_
      rw [pfWrite_cfgCtl ha]
      by_cases ho : s.cfg.state = .open_ <;> simp [State.putCfgCtl, Machine.fld, bits, ho]
    · refine (ha.pfOnly pf _ _).trans ?_
      rw [pfWrite_cfgCtl ha]
      by_cases ho : s.cfg.state = .locked <;> simp [State.putCfgCtl, Machine.fld, bits, ho]
    · obtain ⟨rest, link⟩ := rekey_spec s (dbits a.data 15 0)
      refine ⟨_, (ha.pfOnly pf _ _).trans (by rw [pfWrite_rekey ha h]), rest, fun i => (link i).trans (if_congr ?_ rfl rfl)⟩
      refine and_congr_right fun hi => ?_
      rw [testBit_dbits _ (by omega)]
  · obtain ⟨rest, ctx, queue⟩ := enableFunctions_below
      { s with cfg := { s.cfg with state := .run, moving := false, cfgDigest := Config.sha256 s.lockedBytes } } s.cfg.vf 128
    refine ⟨_, fun n => n < 128 ∧ Enabled s.cfg.vf n, cfgRunDone_eq hm hl, ?_, fun n => ?_, ctx, fun q => ?_⟩
    · rw [rest]
    · constructor
      · rintro ⟨hn, he⟩
        obtain ⟨h1, h2, h3⟩ := (enabled_iff _ n).1 he
        refine ⟨hn, h1, h2, fun m hmn hm => ?_⟩
        rintro ⟨q, a, b, c, d⟩
        exact h3 m hmn hm.2 ⟨q, ⟨a, b⟩, c, d⟩
      · rintro ⟨hn, h1, h2, h3⟩
        refine ⟨hn, (enabled_iff _ n).2 ⟨h1, h2, fun m hmn hm => ?_⟩⟩
        rintro ⟨q, ⟨a, b⟩, c, d⟩
        exact h3 m hmn ⟨by omega, hm⟩ ⟨q, a, b, c, d⟩
    · exact ⟨fun n hn h1 h2 => (queue q).1 n hn ⟨h1, h2⟩, fun hn => (queue q).2 hn⟩

/-! ## REGISTER_WRITE -/

/-- An access that is not an aligned one of 4 or 8 bytes reaches no register (R71). -/
theorem busAcc_none {off n : Nat} (h : n ≠ 4 ∧ n ≠ 8 ∨ off % n ≠ 0) (d : DWord) : busAcc off n d = none := by
  have h1 : ¬(n = 8 ∧ off % 8 = 0) := by rintro ⟨rfl, e⟩; omega
  have h2 : ¬(n = 4 ∧ off % 8 = 0) := by rintro ⟨rfl, e⟩; omega
  have h3 : ¬(n = 4 ∧ off % 8 = 4) := by rintro ⟨rfl, e⟩; omega
  simp [busAcc, h1, h2, h3]

section Registers

variable {s : State} (ha : Answers s) (pf : s.input.writer = .pf) (hb : s.input.bytes = 8)

include pf hb in
/-- A write of eight aligned bytes by the physical function is one of the whole register (R71). -/
theorem registerWrite_pf {off : Nat} (ho : s.input.off = off) (h8 : off % 8 = 0) :
    exec .registerWrite s = .next (s.pfWrite off ⟨.full, s.input.acc.data⟩) := by
  show execRegisterWrite s = _
  simp [execRegisterWrite, busAcc, hb, pf, ho, h8]

include ha

theorem pfWrite_sec (d : DWord) : s.pfWrite 0x20 ⟨.full, d⟩ = s.putSec ⟨.full, d⟩ := by
  simp [State.pfWrite, ha.visible, ha.pfAnswers]

theorem pfWrite_tamperCtl (d : DWord) : s.pfWrite 0x28 ⟨.full, d⟩ = s.lockable true { s with cfg := { s.cfg with eraseEn := d.getLsbD 0 } } := by
  simp [State.pfWrite, ha.visible, ha.pfAnswers]

theorem pfWrite_osfId (d : DWord) : s.pfWrite 0x30 ⟨.full, d⟩ =
    s.lockable true { s with fabric := { s.fabric with deviceNum := BitVec.ofNat 12 (dbits d 11 0), enable := d.getLsbD 12 } } := by
  simp [State.pfWrite, ha.visible, ha.pfAnswers, fld_eq_dbits]

theorem pfWrite_planeMap (d : DWord) : s.pfWrite 0x58 ⟨.full, d⟩ = s.lockable true { s with fabric := { s.fabric with
    planeMap := (List.range 16).map fun i => BitVec.ofNat 4 (dbits d (4 * i + 3) (4 * i)) } } := by
  simp [State.pfWrite, ha.visible, ha.pfAnswers, fld_eq_dbits]

theorem pfWrite_worldVfs {off : Nat} (h : off = 0x48 ∨ off = 0x50) (d : DWord) : s.pfWrite off ⟨.full, d⟩ =
    if s.cfg.wStatus = 1 then s else { s with cfg := { s.cfg with
      wVfs := if off = 0x48 then s.cfg.wVfs.extractLsb' 64 64 ++ d else d ++ s.cfg.wVfs.extractLsb' 0 64 } } := by
  rcases h with rfl | rfl <;> simp [State.pfWrite, ha.visible, ha.pfAnswers]

theorem pfWrite_memErr {i : Nat} (hi : i < 10) (d : DWord) : s.pfWrite (0x100 + 8 * i) ⟨.full, d⟩ = s.modMemErr i fun e =>
    { e with corrected := BitVec.ofNat 16 (dbits d 15 0), uncorr := e.uncorr && !d.getLsbD 16, overflow := e.overflow && !d.getLsbD 17 } := by
  have e : (0x100 + 8 * i - 0x100) / 8 = i := by omega
  rw [State.pfWrite, ha.visible, ha.pfAnswers]
  simp (disch := omega) only [Bool.false_eq_true, Bool.not_true, if_false, if_true, Bool.and_eq_true, Bool.or_eq_true, decide_eq_true_eq, if_neg, if_pos,
    low_full, merge_full, ones_full, e, fld_eq_dbits]

theorem pfWrite_vfCfg {n : Nat} (hn : n < 128) (d : DWord) : s.pfWrite (0x400 + 8 * n) ⟨.full, d⟩ =
    let v : VfCfg := { qbase := BitVec.ofNat 10 (dbits d 9 0), qcount := BitVec.ofNat 11 (dbits d 20 10), enable := d.getLsbD 21 }
    s.lockable true { s with cfg := { s.cfg with vf := Sparse.set {} n v s.cfg.vf } } := by
  have e : (0x400 + 8 * n - 0x400) / 8 = n := by omega
  rw [State.pfWrite, ha.visible, ha.pfAnswers]
  simp (disch := omega) only [Bool.false_eq_true, Bool.not_true, if_false, Bool.and_eq_true, Bool.or_eq_true, decide_eq_true_eq, if_neg, if_pos,
    low_full, merge_full, e, fld_eq_dbits]

theorem pfWrite_alias {n off : Nat} (hn : n < 64) (ho : off = 0x800 + 16 * n ∨ off = 0x808 + 16 * n) (d : DWord) : s.pfWrite off ⟨.full, d⟩ =
    let m : MxAlias := Sparse.get {} n s.cfg.aliases
    let v : MxAlias :=
      if off % 16 = 0 then { m with
        dataFrame := BitVec.ofNat 32 (dbits d 31 0), fmt := BitVec.ofNat 2 (dbits d 33 32), en := d.getLsbD 34
        overrun := m.overrun && !d.getLsbD 35, blocks := BitVec.ofNat 28 (dbits d 63 36) }
      else { m with scaleAddr := BitVec.ofNat 44 (dbits d 43 0) }
    { s with cfg := { s.cfg with aliases := Sparse.set {} n v s.cfg.aliases } } := by
  have e : (off - 0x800) / 16 = n := by omega
  rw [State.pfWrite, ha.visible, ha.pfAnswers]
  simp (disch := omega) only [Bool.false_eq_true, Bool.not_true, if_false, Bool.and_eq_true, Bool.or_eq_true, decide_eq_true_eq, if_neg, if_pos,
    low_full, merge_full, ones_full, e, fld_eq_dbits]

theorem pfWrite_discard {c : Nat} (hc : c < 192) (d : DWord) : s.pfWrite (0x1000 + 8 * c) ⟨.full, d⟩ =
    { s with cfg := { s.cfg with discard := Sparse.set 0 c (BitVec.ofNat 32 (dbits d 31 0)) s.cfg.discard } } := by
  have e : (0x1000 + 8 * c - 0x1000) / 8 = c := by omega
  rw [State.pfWrite, ha.visible, ha.pfAnswers]
  simp (disch := omega) only [Bool.false_eq_true, Bool.not_true, if_false, if_true, Bool.and_eq_true, Bool.or_eq_true, decide_eq_true_eq, if_neg, if_pos,
    low_full, merge_full, e, fld_eq_dbits]

end Registers

theorem registerWrites : RegisterWrites := by
  intro s d off
  refine ⟨fun h => ?_, fun ha pf hb => ?_⟩
  · show execRegisterWrite s = _
    rw [execRegisterWrite, busAcc_none h]
  have write {o : Nat} (ho : off = o) (h8 : o % 8 = 0) := registerWrite_pf pf hb ho h8
  refine ⟨fun ho => ?_, fun ho => ?_, fun ho => ?_, fun ho => ?_, fun ho => ?_, fun i hi ho => ?_, fun n hn ho => ?_, fun n hn ho => ?_,
    fun c hc ho => ?_⟩
  · rw [write ho rfl, pfWrite_sec ha]
    simp [State.putSec, d]
  · exact ⟨_, by rw [write ho rfl, pfWrite_tamperCtl ha], lockable_spec _ _⟩
  · exact ⟨_, by rw [write ho rfl, pfWrite_osfId ha], lockable_spec _ _⟩
  · exact ⟨_, by rw [write ho rfl, pfWrite_planeMap ha], lockable_spec _ _⟩
  · rw [write rfl (by omega), pfWrite_worldVfs ha ho]
  · refine ⟨_, by rw [write ho (by omega), pfWrite_memErr ha hi], rfl, fun k => (Sparse.get_set _ _ _ _ _).trans ?_⟩
    by_cases e : k = i
    · subst e
      rfl
    · rw [if_neg e]
      exact (if_neg e).symm
  · refine ⟨_, by rw [write ho (by omega), pfWrite_vfCfg ha hn], (lockable_spec _ _).2, fun hopen => ?_⟩
    rw [(lockable_spec _ _).1 hopen]
    exact ⟨rfl, fun k => Sparse.get_set _ _ _ _ _⟩
  · refine ⟨_, by rw [write rfl (by omega), pfWrite_alias ha hn ho], rfl, fun k => (Sparse.get_set _ _ _ _ _).trans ?_⟩
    by_cases e : k = n
    · subst e
      rw [if_pos rfl]
      exact (if_neg (not_not.2 rfl)).symm
    · rw [if_neg e]
      exact (if_pos e).symm
  · exact ⟨_, by rw [write ho (by omega), pfWrite_discard ha hc], rfl, fun k => Sparse.get_set _ _ _ _ _⟩

/-- Settles O34: each register's write is the equation of its offset; the enabled functions are those of the move's own recursion, and the
fold over them gives each its context and its slots, which no other has. -/
theorem physicalFunction : Obligations.PhysicalFunction := ⟨configurationWrites, registerWrites⟩

end Sys2Proof.Claims
end

section
-- One proof after another: side by side their threads pass the limit of memory that the check sets.
set_option Elab.async false
/-! SUPPORT. What an event whose packets may wait comes to, in the words of the claims: `TakesPlace` of whatever its meaning leaves. -/

namespace Sys2Proof.Claims

open Sys2Proof Sys2Proof.Machine

/-- A key is listed where a record is found under it. -/
theorem exists_find_iff_mem {α : Type} (k : Nat) (l : List (Nat × α)) : (∃ d, Table.find k l = some d) ↔ k ∈ l.map Prod.fst := by
  induction l with
  | nil => simp [Table.find]
  | cons p rest ih =>
    by_cases e : p.1 = k
    · simp [Table.find, e]
    · simp [Table.find, e, ih, Ne.symm e]

/-- The contexts that the model takes an attempt to have sent for are those that the claims take it to have sent for. -/
theorem mem_chargedOn_iff (s t : State) (i c : Nat) : c ∈ s.chargedOn t i ↔ SentFor s t i c := by
  have key (p : Nat × Disp) : p.1 / 4096 = i ∧ p.1 % 4096 = c ↔ c < 4096 ∧ p.1 = i * 4096 + c := by omega
  have listed : c ∈ ((t.eng.ports.filter fun p => p.1 / 4096 == i).map fun p => p.1 % 4096) ↔
      c < 4096 ∧ ∃ d, Table.find (i * 4096 + c) t.eng.ports = some d := by
    rw [exists_find_iff_mem]
    simp only [List.mem_map, List.mem_filter, beq_iff_eq]
    constructor
    · rintro ⟨p, ⟨hp, h1⟩, h2⟩
      exact ⟨((key p).1 ⟨h1, h2⟩).1, p, hp, ((key p).1 ⟨h1, h2⟩).2⟩
    · rintro ⟨hc, p, hp, h⟩
      exact ⟨p, ⟨hp, ((key p).2 ⟨hc, h⟩).1⟩, ((key p).2 ⟨hc, h⟩).2⟩
  rw [State.chargedOn, List.mem_filter, listed, SentFor, and_assoc]
  refine and_congr_right fun _ => ⟨?_, ?_⟩
  · rintro ⟨⟨d, hd⟩, h⟩
    refine ⟨d, hd, ?_⟩
    simpa [passOf, hd] using h
  · rintro ⟨d, hd, h⟩
    exact ⟨⟨d, hd⟩, by simpa [passOf, hd] using h⟩

theorem chargedOn_eq_nil {s t : State} {i : Nat} (h : ∀ c, ¬SentFor s t i c) : s.chargedOn t i = [] :=
  List.eq_nil_iff_forall_not_mem.2 fun c hc => h c ((mem_chargedOn_iff s t i c).1 hc)

theorem lateOn_eq_nil_iff (s t : State) : s.lateOn t = [] ↔ EveryTurn s t := by
  simp [State.lateOn, EveryTurn, List.filter_eq_nil_iff]

/-- A port that nothing was sent through gives its turn. -/
theorem everyTurn_of_unsent {s t : State} (h : ∀ k c, ¬SentFor s t k c) : EveryTurn s t := fun k _ => by
  simp [State.turnOn, chargedOn_eq_nil (h k)]

theorem mem_waitOver_iff (s t : State) (w : Nat × Nat × Nat) :
    w ∈ (s.waitOver t).eng.portWait ↔ w ∈ t.eng.portWait ∧ ¬SentFor s t w.1 w.2.1 := by
  show w ∈ t.eng.portWait.filter _ ↔ _
  rw [List.mem_filter, ← mem_chargedOn_iff]
  simp

theorem waitOver_eq_of_unsent {s t : State} (h : ∀ k c, ¬SentFor s t k c) : s.waitOver t = t := by
  have all : (t.eng.portWait.filter fun w => !((s.chargedOn t w.1).contains w.2.1)) = t.eng.portWait :=
    List.filter_eq_self.2 fun w _ => by simp [chargedOn_eq_nil (h w.1)]
  rw [State.waitOver, all]

/-- A context that an attempt sent for waits at each port that does not give it its turn. -/
theorem waitAt_waits {s t : State} {k c : Nat} (hk : k ∈ s.lateOn t) (hc : SentFor s t k c) :
    ∃ n, (k, c, n) ∈ (s.waitAt t (s.lateOn t)).eng.portWait := by
  have sent := (mem_chargedOn_iff s t k c).2 hc
  by_cases h : s.waitsAt k c = true
  · simp only [State.waitsAt, List.any_eq_true, Bool.and_eq_true, beq_iff_eq] at h
    obtain ⟨⟨a, b, n⟩, hw, rfl, rfl⟩ := h
    exact ⟨n, List.mem_append_left _ hw⟩
  · refine ⟨s.steps, List.mem_append_right _ (List.mem_flatMap.2 ⟨k, hk, List.mem_map.2 ⟨c, ?_, rfl⟩⟩)⟩
    simpa [List.mem_filter, sent] using h

/-- Links that enter KEY_EXHAUSTED, and no other. -/
theorem exhaust_link (s : State) (links : List Nat) (k : Nat) :
    (s.exhaust links).link k = if k ∈ links then { s.link k with state := 3 } else s.link k := by
  unfold State.exhaust
  induction links generalizing s with
  | nil => simp
  | cons i rest ih =>
    rw [List.foldl_cons, ih]
    by_cases e : k = i
    · subst e
      simp
    · simp [State.link_setLink_other _ _ _ _ e, e]

theorem mem_exhausted_iff (s t : State) (k : Nat) : k ∈ s.exhausted t ↔ k < 16 ∧ (t.link k).state = 3 ∧ (s.link k).state ≠ 3 := by
  simp [State.exhausted]

theorem exhausted_eq_nil_iff (s t : State) : s.exhausted t = [] ↔ ∀ k < 16, (t.link k).state = 3 → (s.link k).state = 3 := by
  simp only [List.eq_nil_iff_forall_not_mem, mem_exhausted_iff, not_and, not_not]

/-- The links after the attempt of an event that has to wait (R47). -/
theorem exhausted_link {s t : State} {k : Nat} (hk : k < 16) :
    (s.exhaust (s.exhausted t)).link k = if (t.link k).state = 3 then { s.link k with state := 3 } else s.link k := by
  rw [exhaust_link]
  by_cases ht : (t.link k).state = 3
  · by_cases hs : (s.link k).state = 3
    · rw [if_neg fun x => ((mem_exhausted_iff s t k).1 x).2.2 hs, if_pos ht, ← hs]
    · rw [if_pos ((mem_exhausted_iff s t k).2 ⟨hk, ht, hs⟩), if_pos ht]
  · rw [if_neg fun x => ht ((mem_exhausted_iff s t k).1 x).2.1, if_neg ht]

/-- With the fabric disabled nothing is sent from s to t, no access waits, and the fabric stays disabled (R30). -/
def Unsent (s t : State) : Prop :=
  s.fabric.enable = false → t.fabric.enable = false ∧ t.stall = s.stall ∧ t.eng.ports = s.eng.ports

theorem not_sentFor_of_ports {s t : State} (h : t.eng.ports = s.eng.ports) (k c : Nat) : ¬SentFor s t k c := by
  rintro ⟨-, d, hd, hne⟩
  rw [h] at hd
  exact hne (by simp [passOf, hd])

/-- An event that may have to wait takes place with what its meaning leaves, so far as links and ports let it (R30, R47, R106). -/
theorem takesPlace_throughLinks {i : Instr} {eff : State → Host.Outcome State Fault Refusal} {s t : State}
    (run : exec i s = throughLinks eff s) (h : eff (calm s) = .next t) (still : Unsent (calm s) t) : TakesPlace i s t := by
  have go : exec i s = if t.stall.isNone then s.inTurn t else if (s.exhausted t).isEmpty then .refused .noOccasion
      else .next (s.exhaust (s.exhausted t)) := by
    rw [run, throughLinks, show eff { s with stall := none } = .next t from h]
  have takes (h0 : t.stall = none) : exec i s = s.inTurn t := by rw [go, h0]; rfl
  have waits (h0 : t.stall ≠ none) : exec i s = if (s.exhausted t).isEmpty then .refused .noOccasion
      else .next (s.exhaust (s.exhausted t)) := by
    rw [go, if_neg (by simpa using h0)]
  refine ⟨fun h0 hu => ?_, fun h0 he => ?_, fun h0 he => ?_, fun off => ?_, fun h0 hl => ?_, fun h0 hl => ?_⟩
  · rw [takes h0, State.inTurn, (lateOn_eq_nil_iff s t).2 (everyTurn_of_unsent hu), waitOver_eq_of_unsent hu]
    rfl
  · refine ⟨s.waitOver t, ?_, rfl, mem_waitOver_iff s t⟩
    rw [takes h0, State.inTurn, (lateOn_eq_nil_iff s t).2 he]
    rfl
  · have late : (s.lateOn t).isEmpty = false := by
      simpa using fun e => he ((lateOn_eq_nil_iff s t).1 e)
    rw [takes h0, State.inTurn, late]
    have mem {k : Nat} (hk : k < 16) (hf : s.turnOn t k = false) : k ∈ s.lateOn t := by simp [State.lateOn, hk, hf]
    by_cases all : ((s.lateOn t).all fun i => (s.chargedOn t i).all (s.waitsAt i)) = true
    · refine ⟨s, .inr ⟨by rw [if_neg (by simp), if_pos all], rfl⟩, rfl, fun k c hk hf hc => ?_⟩
      have h1 := List.all_eq_true.1 (List.all_eq_true.1 all k (mem hk hf)) c ((mem_chargedOn_iff s t k c).2 hc)
      simp only [State.waitsAt, List.any_eq_true, Bool.and_eq_true, beq_iff_eq] at h1
      obtain ⟨⟨a, b, n⟩, hw, rfl, rfl⟩ := h1
      exact ⟨n, hw⟩
    · exact ⟨s.waitAt t (s.lateOn t), .inl (by rw [if_neg (by simp), if_neg all]), rfl, fun k c hk hf hc => waitAt_waits (mem hk hf) hc⟩
  · obtain ⟨-, hs, hp⟩ := still off
    exact ⟨hs, not_sentFor_of_ports hp⟩
  · rw [waits h0, (exhausted_eq_nil_iff s t).2 hl]
    rfl
  · have some : (s.exhausted t).isEmpty = false := by
      simpa using fun e => hl ((exhausted_eq_nil_iff s t).1 e)
    refine ⟨s.exhaust (s.exhausted t), ?_, State.exhaust_eq s _, fun k hk => exhausted_link hk⟩
    rw [waits h0, some]
    rfl

end Sys2Proof.Claims
end

section
-- One proof after another: side by side their threads pass the limit of memory that the check sets.
set_option Elab.async false
/-! SUPPORT. A state with no access waiting reads, translates and stores as the state itself: `stall` is a mark that no read looks at. -/

namespace Sys2Proof.Claims

open Sys2Proof Sys2Proof.Machine

/-! ## What the mark of a waiting access does not touch -/

/-- The answer of a home, from a state with no access waiting. -/
def calmOut (o : HomeOut) : HomeOut := { o with s := calm o.s }

theorem calm_homeFail (s : State) (n : Nat) (cause : BitVec 8) : (calm s).homeFail n cause = calmOut (s.homeFail n cause) := by
  simp only [State.homeFail, State.countFailure, calmOut]
  split <;> rfl

theorem calm_mxRead (s : State) (inter : Nat) (w : BitVec 6) (c : BitVec 2) (a n : Nat) :
    (calm s).mxRead inter w c a n = calmOut (s.mxRead inter w c a n) := by
  have marked : (if ((List.range n).all fun i => (s.aliasOf a).covers (mxOffset a + i)) = true then calm s else (calm s).overrun a) =
      calm (if ((List.range n).all fun i => (s.aliasOf a).covers (mxOffset a + i)) = true then s else s.overrun a) := by
    split <;> rfl
  unfold State.mxRead
  simp only [show (calm s).aliasOf = s.aliasOf from rfl, show (calm s).spoiled = s.spoiled from rfl,
    show (calm s).aliasImage = s.aliasImage from rfl, marked]
  split
  · exact calm_homeFail _ _ _
  · rfl

theorem calm_flashRead (s : State) (w : BitVec 6) (c : BitVec 2) (a n : Nat) : (calm s).flashRead w c a n = calmOut (s.flashRead w c a n) := by
  unfold State.flashRead
  rw [show (calm s).mem = s.mem from rfl]
  split <;> rfl

theorem calm_homeRead (s : State) (inter : Nat) (w : BitVec 6) (c : BitVec 2) (a n : Nat) :
    (calm s).homeRead inter w c a n = calmOut (s.homeRead inter w c a n) := by
  unfold State.homeRead
  rw [calm_mxRead, calm_flashRead, show (calm s).spoiledRange inter a n w c = s.spoiledRange inter a n w c from rfl]
  split
  · rfl
  · rfl
  · split
    · exact calm_homeFail _ _ _
    · rfl

theorem calm_tableWord (s : State) (here : Miss) (inter : Nat) (w : BitVec 6) (c : BitVec 2) (a : Nat) :
    (calm s).tableWord here inter w c a = s.tableWord here inter w c a := by
  rw [State.tableWord, calm_homeRead]
  rfl

theorem calm_inService (s : State) : (calm s).inService = s.inService := by
  funext inter a size
  unfold State.inService
  rw [show (calm s).aliasRanges = s.aliasRanges from rfl, show (calm s).power = s.power from rfl]

theorem calm_rootEntryOk (s : State) : (calm s).rootEntryOk = s.rootEntryOk := by
  funext e size
  unfold State.rootEntryOk
  rw [calm_inService, show (calm s).isOwn = s.isOwn from rfl]

theorem calm_rootWalk (s : State) (n : Nat) (c : Ctx) (va : Nat) : (calm s).rootWalk n c va = s.rootWalk n c va := by
  have words (here : Miss) : (calm s).rootTableWord here = s.rootTableWord here := funext fun a => by
    rw [State.rootTableWord, calm_tableWord]
    rfl
  simp only [State.rootWalk, words, calm_rootEntryOk]

theorem calm_farBytes (s : State) (a n : Nat) : (calm s).farBytes a n = s.farBytes a n := by
  induction n generalizing a with
  | zero => rfl
  | succ n ih =>
    rw [State.farBytes, ih]
    rfl

theorem calm_childTableWord (s : State) (here : Miss) (r : Except Miss Trans) (a : Nat) :
    (calm s).childTableWord here r a = s.childTableWord here r a := by
  unfold State.childTableWord
  simp only [calm_tableWord, show (calm s).isOwn = s.isOwn from rfl, show (calm s).farMiss = s.farMiss from rfl,
    show (calm s).farFails = s.farFails from rfl, calm_farBytes]

theorem calm_compose (s : State) (l : List (Nat × Ctx)) (va : Nat) : (calm s).compose l va = s.compose l va := by
  induction l generalizing va with
  | nil => rfl
  | cons p rest ih => simp only [State.compose, calm_rootWalk, calm_childTableWord, ih]

theorem calm_chain (s : State) (fuel n : Nat) : (calm s).chain fuel n = s.chain fuel n := by
  induction fuel generalizing n with
  | zero => rfl
  | succ fuel ih =>
    simp only [State.chain, ih]
    rfl

theorem calm_lead (s : State) (salt ctx va : Nat) (k : Access) : (calm s).lead salt ctx va k = s.lead salt ctx va k := by
  have walk : (calm s).walk ctx va = s.walk ctx va := by
    rw [State.walk, State.walk, State.chainOf, calm_compose, calm_chain]
    rfl
  have translate : (calm s).translate salt ctx va = s.translate salt ctx va := by
    unfold State.translate
    rw [walk]
    rfl
  unfold State.lead
  rw [translate]
  rfl

theorem calm_canWrite (s : State) (ctx va n : Nat) : (calm s).canWrite ctx va n = s.canWrite ctx va n := by
  unfold State.canWrite
  simp only [calm_lead]

end Sys2Proof.Claims
end

section
-- One proof after another: side by side their threads pass the limit of memory that the check sets.
set_option Elab.async false
/-! SUPPORT. What sends nothing while the fabric is disabled (R30): every update of the state, and every access of the CPX, the CSE, Tempo and
the engines. -/

namespace Sys2Proof.Claims

open Sys2Proof Sys2Proof.Machine

/-! ## Composition -/

@[refl] theorem Unsent.refl (s : State) : Unsent s s := fun h => ⟨h, rfl, rfl⟩

@[trans] theorem Unsent.trans {s t u : State} (h : Unsent s t) (g : Unsent t u) : Unsent s u := fun off => by
  obtain ⟨e, x, p⟩ := h off
  obtain ⟨e', x', p'⟩ := g e
  exact ⟨e', x'.trans x, p'.trans p⟩

/-- An update of other fields sends nothing. -/
theorem Unsent.of_eq {s t : State} (he : t.fabric = s.fabric) (hs : t.stall = s.stall) (hp : t.eng.ports = s.eng.ports) : Unsent s t :=
  fun off => ⟨by rw [he]; exact off, hs, hp⟩

theorem Unsent.ite {p : Prop} [Decidable p] {s t u : State} (h : Unsent s t) (g : Unsent s u) : Unsent s (if p then t else u) := by
  split
  · exact h
  · exact g

/-- The same for the state that an answer carries. -/
theorem Unsent.ite_of {α : Type} (f : α → State) {p : Prop} [Decidable p] {s : State} {x y : α} (h : Unsent s (f x)) (g : Unsent s (f y)) :
    Unsent s (f (if p then x else y)) := by
  split
  · exact h
  · exact g

theorem Unsent.foldl {α : Type} {f : State → α → State} (h : ∀ s x, Unsent s (f s x)) (l : List α) (s : State) : Unsent s (l.foldl f s) := by
  induction l generalizing s with
  | nil => exact .refl s
  | cons x rest ih => exact (h s x).trans (ih (f s x))

/-! ## Updates of the state -/

section Updates

variable (s : State)

theorem unsent_setTeam (t : Nat) (v : Team) : Unsent s (s.setTeam t v) := .of_eq rfl rfl rfl
theorem unsent_modCtx (n : Nat) (f : Ctx → Ctx) : Unsent s (s.modCtx n f) := .of_eq rfl rfl rfl
theorem unsent_modQueue (n : Nat) (f : Queue → Queue) : Unsent s (s.modQueue n f) := .of_eq rfl rfl rfl
theorem unsent_mapWarps (c : Nat) (f : Team → Warp → Warp) : Unsent s (s.mapWarps c f) := .of_eq rfl rfl rfl
theorem unsent_wakeAll : Unsent s s.wakeAll := .of_eq rfl rfl rfl
theorem unsent_raiseHalt (c : Nat) (r : StopRec) (b : Bool) (t : Option Nat) : Unsent s (s.raiseHalt c r b t) := .of_eq rfl rfl rfl
theorem unsent_recordOsf (c : Nat) (d : BitVec 12) (b : Bool) (k : BitVec 2) (a : Nat) : Unsent s (s.recordOsf c d b k a) := .of_eq rfl rfl rfl
theorem unsent_freeImage (c pos : Nat) : Unsent s (s.freeImage c pos) := .of_eq rfl rfl rfl

theorem unsent_modTeam (t : Nat) (f : Team → Team) : Unsent s (s.modTeam t f) := by
  unfold State.modTeam
  split
  · exact unsent_setTeam s _ _
  · exact .refl s

theorem unsent_modWarp (t n : Nat) (f : Warp → Warp) : Unsent s (s.modWarp t n f) := unsent_modTeam s _ _

theorem unsent_complete (q : Nat) (p : Packet) (x : BitVec 8) (y : BitVec 128) : Unsent s (s.complete q p x y) := by
  unfold State.complete
  split <;> exact unsent_modQueue s _ _

theorem unsent_countFailure (x : BitVec 8) : Unsent s (s.countFailure x) := by
  unfold State.countFailure
  split
  · exact .of_eq rfl rfl rfl
  · exact .refl s

theorem unsent_tamperAlarmed : Unsent s s.tamperAlarmed := by
  unfold State.tamperAlarmed
  dsimp only
  split <;> exact .of_eq rfl rfl rfl

/-! ## What follows a change of a warp -/

theorem unsent_releaseStage (t b n : Nat) : Unsent s (s.releaseStage t b n) := by
  unfold State.releaseStage
  split
  · exact .refl s
  · dsimp only
    split <;> exact .of_eq rfl rfl rfl

theorem unsent_advanceStage (t b : Nat) : Unsent s (s.advanceStage t b) := by
  unfold State.advanceStage
  split
  · exact .refl s
  · exact (unsent_setTeam s _ _).trans (.foldl (fun u _ => unsent_releaseStage u _ _ _) _ _)

theorem unsent_settleWarp (t n : Nat) : Unsent s (State.settleWarp t s n) := by
  unfold State.settleWarp
  split
  · exact .refl s
  · split
    · exact .refl s
    · dsimp only
      split
      · exact (unsent_setTeam s _ _).trans (unsent_advanceStage _ _ _)
      · exact unsent_setTeam s _ _

theorem unsent_settleTeam (t b : Nat) : Unsent s (s.settleTeam t b) := by
  unfold State.settleTeam
  split
  · exact .refl s
  · refine (unsent_advanceStage s t b).trans (Unsent.trans ?_ (unsent_modTeam _ _ _))
    exact .foldl (fun u _ => .foldl (fun v n => unsent_settleWarp v t n) _ u) _ _

theorem unsent_endPeriod (c : Nat) : Unsent s (s.endPeriod c) := by
  unfold State.endPeriod
  dsimp only
  split
  · split <;> exact .of_eq rfl rfl rfl
  · exact .refl s

theorem unsent_settleTempo (c : Nat) : Unsent s (s.settleTempo c) :=
  (unsent_mapWarps s _ _).trans ((unsent_endPeriod _ c).trans (unsent_endPeriod _ c))

theorem unsent_serveList (core slot fresh : Nat) (l : List (Nat × Nat × Nat × Nat × Warp)) (held : List (Nat × Nat)) :
    Unsent s (State.serveList core slot fresh l held s) := by
  induction l generalizing held s with
  | nil => exact .refl s
  | cons x rest ih =>
    exact .ite ((unsent_modWarp s _ _ _).trans (ih _ _)) (ih _ _)

theorem unsent_serveSlot (core slot fresh : Nat) : Unsent s (s.serveSlot core slot fresh) := unsent_serveList s _ _ _ _ _

theorem unsent_serveAll : Unsent s s.serveAll := by
  unfold State.serveAll
  exact .foldl (fun u p => unsent_serveSlot u _ _ _) _ s

theorem unsent_checkDeadlock (t : Nat) : Unsent s (s.checkDeadlock t) := by
  unfold State.checkDeadlock
  split
  · exact .refl s
  · split
    · exact .refl s
    · split
      · exact .refl s
      · exact unsent_raiseHalt s _ _ _ _

theorem unsent_reap (t : Nat) : Unsent s (s.reap t) := by
  unfold State.reap
  split
  · exact .refl s
  · dsimp only
    split
    · split <;> exact .of_eq rfl rfl rfl
    · exact .refl s

theorem unsent_settlePreempts : Unsent s s.settlePreempts := by
  refine Unsent.foldl (fun u c => ?_) _ s
  split
  · split
    · exact .refl u
    · refine Unsent.trans ?_ (unsent_complete _ _ _ _ _)
      exact .of_eq rfl rfl rfl
  · exact .refl u

theorem unsent_after (t b : Nat) : Unsent s (s.after t b) := by
  unfold State.after
  split
  · exact .refl s
  · exact (unsent_settleTeam s t b).trans ((unsent_settleTempo _ _).trans ((unsent_wakeAll _).trans ((unsent_serveAll _).trans
      ((unsent_checkDeadlock _ _).trans ((unsent_reap _ _).trans (unsent_settlePreempts _))))))

/-! ## Homes -/

theorem unsent_befall (inter a : Nat) (e : HomeEvent) : Unsent s (s.befall inter a e) := by
  unfold State.befall
  split
  · exact .refl s
  · cases e with
    | plain => exact .refl s
    | networkTag => exact .refl s
    | corrected => exact .of_eq rfl rfl rfl
    | uncorrectable => exact .of_eq rfl rfl rfl
    | tampered => exact .ite (.of_eq rfl rfl rfl) (.refl s)

theorem unsent_befallRange (inter a n : Nat) : Unsent s (s.befallRange inter a n) := Unsent.foldl (fun u _ => unsent_befall u _ _ _) _ s

theorem unsent_homeFail (n : Nat) (x : BitVec 8) : Unsent s (s.homeFail n x).s := unsent_countFailure s x

theorem unsent_mxRead (inter : Nat) (w : BitVec 6) (c : BitVec 2) (a n : Nat) : Unsent s (s.mxRead inter w c a n).s := by
  have marked : Unsent s (if ((List.range n).all fun i => (s.aliasOf a).covers (mxOffset a + i)) = true then s else s.overrun a) := by
    split
    · exact .refl s
    · exact .of_eq rfl rfl rfl
  unfold State.mxRead
  dsimp only
  split
  · exact marked.trans (unsent_homeFail _ _ _)
  · exact marked

theorem unsent_flashRead (w : BitVec 6) (c : BitVec 2) (a n : Nat) : Unsent s (s.flashRead w c a n).s := by
  unfold State.flashRead
  split
  · exact unsent_homeFail s _ _
  · exact .refl s

theorem unsent_homeRead (inter : Nat) (w : BitVec 6) (c : BitVec 2) (a n : Nat) : Unsent s (s.homeRead inter w c a n).s := by
  unfold State.homeRead
  split
  · exact unsent_mxRead s _ _ _ _ _
  · exact unsent_flashRead s _ _ _ _
  · split
    · exact unsent_homeFail s _ _
    · exact .refl s

theorem unsent_agentRead (inter : Nat) (w : BitVec 6) (c : BitVec 2) (a n : Nat) : Unsent s (s.agentRead inter w c a n).s := by
  unfold State.agentRead
  dsimp only
  split <;> exact unsent_homeRead s _ _ _ _ _

theorem unsent_aliasStore (d : MxAlias) (inter b c : Nat) (codes : List Nat) : Unsent s (s.aliasStore d inter b c codes) := by
  have put (u : State) (inter a : Nat) (bs : List Byte) : Unsent u (u.writeLocal inter a bs) := .of_eq rfl rfl rfl
  unfold State.aliasStore
  dsimp only
  split <;> exact (put s _ _ _).trans (.foldl (fun u i => put u _ _ _) _ _)

theorem unsent_mxWrite (inter : Nat) (w : BitVec 6) (c : BitVec 2) (a mask : Nat) (data : List Byte) :
    Unsent s (s.mxWrite inter w c a mask data).s := by
  have marked (p : Bool) : Unsent s (if p = true then s else s.overrun a) := by
    cases p
    · exact .of_eq rfl rfl rfl
    · exact .refl s
  unfold State.mxWrite
  dsimp only
  split
  · exact marked _
  · split
    · exact (marked _).trans (unsent_homeFail _ _ _)
    · exact (marked _).trans (unsent_aliasStore _ _ _ _ _ _)

theorem unsent_homeWrite (inter : Nat) (w : BitVec 6) (c : BitVec 2) (a mask : Nat) (data : List Byte) (sector line : Bool) :
    Unsent s (s.homeWrite inter w c a mask data sector line).s := by
  unfold State.homeWrite
  split
  · exact unsent_mxWrite s _ _ _ _ _ _
  · exact .refl s
  · exact .ite_of HomeOut.s (unsent_homeFail s _ _) (.ite_of HomeOut.s (unsent_homeFail s _ _) (.of_eq rfl rfl rfl))

/-! ## Walks -/

/-- A request to another device while the fabric is disabled is a miss of KIND 3 that leaves nothing (R30). -/
theorem farGo_disabled {s : State} (off : s.fabric.enable = false) (ctx fa : Nat) (q : RemoteReq) : s.farGo ctx fa q = .missed s 3 := by
  rw [State.farGo, off]
  rfl

theorem unsent_readTable (ctx : Nat) (r : TableRead) : Unsent s (s.readTable ctx r).1 := by
  cases r with
  | home a inter w c => exact unsent_befallRange s _ _ _
  | away dev a w c =>
    intro off
    rw [State.readTable, farGo_disabled off]
    exact Unsent.refl s off

theorem unsent_readTables (ctx : Nat) (l : List TableRead) : Unsent s (State.readTables ctx l s) := by
  induction l generalizing s with
  | nil => exact .refl s
  | cons r rest ih => exact .ite ((unsent_readTable s ctx r).trans (ih _)) (unsent_readTable s ctx r)

theorem unsent_walkFor (ctx va : Nat) : Unsent s (s.walkFor ctx va) := .ite (.refl s) (unsent_readTables s _ _)

theorem unsent_cpxFault (ctx : Nat) (x : BitVec 8) (a : DWord) : Unsent s (s.cpxFault ctx x a) := .ite (.refl s) (unsent_raiseHalt s _ _ _ _)

theorem unsent_cpxMiss (ctx : Nat) (dev : BitVec 12) (a : Nat) (k : BitVec 2) : Unsent s (s.cpxMiss ctx dev a k) :=
  (unsent_recordOsf s _ _ _ _ _).trans (unsent_cpxFault _ _ _ _)

theorem unsent_cpxWalkMiss (ctx va : Nat) (m : Miss) : Unsent s (s.cpxWalkMiss ctx va m) := by
  unfold State.cpxWalkMiss
  split
  · exact .refl s
  · exact (unsent_cpxFault s _ _ _).trans (unsent_countFailure _ _)
  · exact unsent_cpxMiss s _ _ _ _
  · exact unsent_cpxFault s _ _ _
  · exact (unsent_cpxFault s _ _ _).trans (unsent_tamperAlarmed _)

theorem unsent_cpxProbe (salt ctx va : Nat) : Unsent s (s.cpxProbe salt ctx va) := by
  refine (unsent_walkFor s ctx va).trans (.ite (.refl _) ?_)
  split
  · exact unsent_cpxWalkMiss _ _ _ _
  · exact .refl _

theorem unsent_cpxFar (ctx va : Nat) (dev : BitVec 12) (a : Nat) (q : RemoteReq) (got : State → Option (List Byte)) :
    Unsent s (s.cpxFar ctx va dev a q got).s := by
  intro off
  rw [State.cpxFar, farGo_disabled off]
  exact unsent_cpxMiss s _ _ _ _ off

/-! ## Accesses of the CPX, the CSE and Tempo -/

theorem unsent_befallRead (inter a : Nat) (e : HomeEvent) (w : BitVec 6) (c : BitVec 2) (b n : Nat) :
    Unsent s ((s.befall inter a e).agentRead inter w c b n).s :=
  (unsent_befall s _ _ _).trans (unsent_agentRead _ _ _ _ _ _)

theorem unsent_befallWrite (inter n : Nat) (w : BitVec 6) (c : BitVec 2) (a mask : Nat) (data : List Byte) (sector line : Bool) :
    Unsent s ((s.befallRange inter a n).homeWrite inter w c a mask data sector line).s :=
  (unsent_befallRange s _ _ _).trans (unsent_homeWrite _ _ _ _ _ _ _ _ _)

theorem unsent_readPiece (ctx : Nat) (p : Nat × Nat) : Unsent s (s.readPiece ctx p).s := by
  unfold State.readPiece
  refine (unsent_walkFor s ctx p.1).trans ?_
  generalize s.walkFor ctx p.1 = u
  dsimp only
  split
  · exact unsent_cpxWalkMiss u _ _ _
  · exact .refl u
  · split
    · refine .ite_of Got.s ((unsent_cpxFault u _ _ _).trans (unsent_tamperAlarmed _)) ?_
      split
      · exact (unsent_befallRead u _ _ _ _ _ _ _).trans (unsent_cpxFault _ _ _ _)
      · exact unsent_befallRead u _ _ _ _ _ _ _
    · exact unsent_cpxFar u _ _ _ _ _ _
    · exact .refl u

theorem unsent_readPieces (ctx : Nat) (l : List (Nat × Nat)) (g : Got) (h : Unsent s g.s) : Unsent s (readPieces ctx l g).s := by
  induction l generalizing g with
  | nil => exact h
  | cons p rest ih =>
    unfold readPieces
    split
    · exact h
    · exact ih _ (h.trans (unsent_readPiece g.s ctx p))

theorem unsent_readVa (ctx va n : Nat) : Unsent s (s.readVa ctx va n).s := unsent_readPieces s ctx _ _ (.refl s)

theorem unsent_putTarget (ctx va : Nat) (x : Target) (bs : List Byte) (whole : Nat × Nat) : Unsent s (s.putTarget ctx va x bs whole).s := by
  unfold State.putTarget
  split
  · refine .ite_of Put.s ((unsent_cpxFault s _ _ _).trans (unsent_tamperAlarmed _)) ?_
    dsimp only
    split
    · exact (unsent_befallWrite s _ _ _ _ _ _ _ _ _).trans (unsent_cpxFault _ _ _ _)
    · exact unsent_befallWrite s _ _ _ _ _ _ _ _ _
  · exact unsent_cpxFar s _ _ _ _ _ _
  · exact .refl s

theorem unsent_writePiece (ctx : Nat) (p : Nat × Nat) (bs : List Byte) (whole : Nat × Nat) : Unsent s (s.writePiece ctx p bs whole).s := by
  unfold State.writePiece
  refine (unsent_walkFor s ctx p.1).trans ?_
  generalize s.walkFor ctx p.1 = u
  dsimp only
  split
  · exact unsent_cpxWalkMiss u _ _ _
  · exact .refl u
  · exact unsent_putTarget u _ _ _ _ _

theorem unsent_writePieces (ctx : Nat) (whole : Nat × Nat) (l : List (Nat × Nat)) (bs : List Byte) (r : Put) (h : Unsent s r.s) :
    Unsent s (writePieces ctx whole l bs r).s := by
  induction l generalizing bs r with
  | nil => exact h
  | cons p rest ih =>
    unfold writePieces
    exact ih _ _ (h.trans (unsent_writePiece r.s ctx p _ _))

theorem unsent_putVa (ctx va : Nat) (bs : List Byte) : Unsent s (s.putVa ctx va bs).s := unsent_writePieces s ctx _ _ bs _ (.refl s)

theorem unsent_writeVa (ctx va : Nat) (bs : List Byte) : Unsent s (s.writeVa ctx va bs) := unsent_putVa s ctx va bs

theorem unsent_writeFault (ctx : Nat) (l : List (Nat × Nat)) : Unsent s (s.writeFault ctx l) := by
  induction l with
  | nil => exact .refl s
  | cons p rest ih =>
    unfold State.writeFault
    split
    · exact ih
    · exact unsent_cpxProbe s _ _ _
    · exact .refl s

theorem unsent_tryWrite (ctx va : Nat) (bs : List Byte) : Unsent s (s.tryWrite ctx va bs).s :=
  .ite_of Put.s (unsent_putVa s _ _ _) (unsent_writeFault s _ _)

/-! ## Save areas -/

theorem unsent_rootPiece (c : Nat) (p : Nat × Nat) : Unsent s (s.rootPiece c p).s := by
  refine .ite_of Got.s ((unsent_cpxFault s _ _ _).trans (unsent_tamperAlarmed _)) ?_
  have read := (unsent_befallRange s plainPattern p.1 p.2).trans (unsent_homeRead _ plainPattern (s.ctx c).world 0 p.1 p.2)
  dsimp only
  split
  · exact read.trans (unsent_cpxFault _ _ _ _)
  · exact read

theorem unsent_readRoot (c : Nat) (l : List (Nat × Nat)) (g : Got) (h : Unsent s g.s) : Unsent s (readRoot c l g).s := by
  induction l generalizing g with
  | nil => exact h
  | cons p rest ih =>
    unfold readRoot
    split
    · exact h
    · exact ih _ (h.trans (unsent_rootPiece g.s c p))

theorem unsent_putRootPiece (c : Nat) (p : Nat × Nat) (bs : List Byte) (whole : Nat × Nat) : Unsent s (s.putRootPiece c p bs whole).s := by
  refine .ite_of Put.s ((unsent_cpxFault s _ _ _).trans (unsent_tamperAlarmed _)) ?_
  dsimp only
  split
  · exact (unsent_befallWrite s _ _ _ _ _ _ _ _ _).trans (unsent_cpxFault _ _ _ _)
  · exact unsent_befallWrite s _ _ _ _ _ _ _ _ _

theorem unsent_writeRoot (c : Nat) (whole : Nat × Nat) (l : List (Nat × Nat)) (bs : List Byte) (r : Put) (h : Unsent s r.s) :
    Unsent s (writeRoot c whole l bs r).s := by
  induction l generalizing bs r with
  | nil => exact h
  | cons p rest ih =>
    unfold writeRoot
    exact ih _ _ (h.trans (unsent_putRootPiece r.s c p _ _))

theorem unsent_savePut (c pos : Nat) (bs : List Byte) : Unsent s (s.savePut c pos bs).s := by
  unfold State.savePut
  dsimp only
  split
  · exact unsent_tryWrite s _ _ _
  · exact .ite_of Put.s (unsent_writeRoot s c _ _ bs _ (.refl s)) (.refl s)

theorem unsent_saveRead (c pos n : Nat) : Unsent s (s.saveRead c pos n).s := by
  unfold State.saveRead
  dsimp only
  split
  · exact unsent_readVa s _ _ _
  · exact .ite_of Got.s (unsent_readRoot s c _ _ (.refl s)) (.refl s)

/-- An image held, where its bytes were written (R198). -/
theorem unsent_holdImage {s t : State} {c pos : Nat} {bs : List Byte} (h : s.holdImage c pos bs = .ok t) : Unsent s t := by
  unfold State.holdImage State.saveWrite at h
  split at h
  · obtain rfl := Except.ok.inj h
    exact (unsent_savePut s c pos bs).trans (unsent_modCtx _ _ _)
  · cases h

theorem unsent_imageNow (c pos : Nat) : Unsent s (s.imageNow c pos).s := by
  unfold State.imageNow
  dsimp only
  split
  · exact unsent_saveRead s _ _ _
  · exact (unsent_saveRead s _ _ _).trans (unsent_saveRead _ _ _ _)

theorem unsent_sptEntry (ctx : Nat) (k : Kernel) (i window : Nat) : Unsent s (s.sptEntry ctx k i window).1 :=
  .ite_of Prod.fst (.refl s) (unsent_readVa s _ _ _)

theorem unsent_zugEntry (ctx : Nat) (k : Kernel) (w : Warp) : Unsent s (s.zugEntry ctx k w).1 := by
  unfold State.zugEntry
  split
  · exact .refl s
  · exact .ite_of Prod.fst (unsent_sptEntry s _ _ _ _) (.refl s)

theorem unsent_zugImage (tm : Team) (n : Nat) (w : Warp) : Unsent s (s.zugImage tm n w).1 := unsent_zugEntry s _ _ _

/-! ## Accesses of the engines -/

theorem unsent_engineFar (ctx va : Nat) (dev : BitVec 12) (a : Nat) (q : RemoteReq) (got : State → List Byte) :
    Unsent s (s.engineFar ctx va dev a q got).s := by
  intro off
  rw [State.engineFar, farGo_disabled off]
  exact Unsent.refl s off

theorem unsent_enginePiece (ctx : Nat) (k : Access) (p : Nat × Nat) : Unsent s (s.enginePiece ctx k p).s := by
  unfold State.enginePiece
  refine (unsent_walkFor s ctx p.1).trans ?_
  generalize s.walkFor ctx p.1 = u
  dsimp only
  split
  · exact .refl u
  · split
    · exact .ite_of EOut.s (.refl u) ((unsent_befallRange u _ _ _).trans (unsent_agentRead _ _ _ _ _ _))
    · exact unsent_engineFar u _ _ _ _ _ _
    · exact .refl u

theorem unsent_enginePieces (ctx : Nat) (k : Access) (l : List (Nat × Nat)) (o : EOut) (h : Unsent s o.s) :
    Unsent s (State.enginePieces ctx k l o).s := by
  induction l generalizing o with
  | nil => exact h
  | cons p rest ih =>
    unfold State.enginePieces
    split
    · exact h
    · exact ih _ (h.trans (unsent_enginePiece o.s ctx k p))

theorem unsent_engineRead (ctx va n : Nat) (k : Access) : Unsent s (s.engineRead ctx va n k).s := unsent_enginePieces s ctx k _ _ (.refl s)

theorem unsent_faultMarks (x : EFault) : Unsent s (s.faultMarks x) := by
  have counted : Unsent s (if x.counts = true then s.countFailure x.cause else s) := .ite (unsent_countFailure s _) (.refl s)
  exact .ite (counted.trans (unsent_tamperAlarmed _)) counted

theorem unsent_ripeHead (c va : Nat) : Unsent s (s.ripeHead c va).1 := by
  have read := unsent_engineRead s c va 8 .store
  unfold State.ripeHead
  dsimp only
  split
  · exact read
  · refine read.trans (Unsent.trans ?_ (unsent_faultMarks _ _))
    split
    · exact unsent_cpxMiss _ _ _ _ _
    · exact .ite (unsent_cpxFault _ _ _ _) (.refl _)

end Updates

end Sys2Proof.Claims
end

section
-- One proof after another: side by side their threads pass the limit of memory that the check sets.
set_option Elab.async false
/-! CLAIM. ZUGZWANG_SWAP, ZUGZWANG_REENTRY and RIPE_ENTRY_WRITE (R9, R152, R153, R155 to R157, R203, R350). -/

namespace Sys2Proof.Claims

open Sys2Proof Sys2Proof.Machine

/-! ## One warp, one context or one halt changed, in the words of the claims -/

theorem onlyTeam_modWarp {s : State} {t : Nat} {tm : Team} (h : s.team? t = some tm) (n : Nat) (f : Warp → Warp) :
    OnlyTeam s (s.modWarp t n f) t { tm with warps := tm.warps.set n (f (tm.warp n)) } := by
  have put : s.modWarp t n f = s.setTeam t (tm.setWarp n (f (tm.warp n))) := by simp [State.modWarp, State.modTeam, h]
  rw [put]
  exact ⟨rfl, fun k hk => State.team?_setTeam_other s t k _ hk, State.team?_setTeam_same s t _⟩

theorem onlyCtx_modCtx (s : State) (c : Nat) (f : Ctx → Ctx) : OnlyCtx s (s.modCtx c f) c (f (s.ctx c)) :=
  ⟨rfl, State.ctx_modCtx_same s c f, fun k hk => State.ctx_modCtx_other s c k f hk⟩

theorem stopStands_iff (s : State) (tm : Team) : s.stopStands tm = true ↔ StopStands s tm := by
  simp [State.stopStands, State.isFrozen, StopStands, or_assoc]

theorem before_iff_goesFirst (a b : StopRec) : a.before b = true ↔ GoesFirst a b := by
  simp [StopRec.before, GoesFirst, BitVec.ult]

/-- A record of the same clock that goes first gives the halt its cause (R189). -/
theorem haltWith_overtaken {x : State} {o : Halt} {r : StopRec} (live : o.saved = false) (first : Overtakes x o r) (toRoot : Bool)
    (team : Option Nat) : haltWith (some o) r toRoot team x.steps =
      { cause := r.cause, fatal := o.fatal || decide (r.cause = 6), recs := r :: o.recs, toRoot := toRoot, team := team
        pc := r.pcOrOp, addr := r.addr, userTag := r.userTag, clock := x.steps } := by
  obtain ⟨clock, p, head, goes⟩ := first
  obtain ⟨rest, recs⟩ := List.head?_eq_some_iff.1 head
  simp only [haltWith, recs, live, clock, (before_iff_goesFirst r p).2 goes]
  rfl

/-- Any other record joins behind those that a halt has (R189). -/
theorem haltWith_joined {x : State} {o : Halt} {r : StopRec} (live : o.saved = false) (behind : ¬Overtakes x o r) (toRoot : Bool)
    (team : Option Nat) : haltWith (some o) r toRoot team x.steps =
      { o with recs := o.recs ++ [r], fatal := o.fatal || decide (r.cause = 6) } := by
  unfold haltWith
  cases recs : o.recs with
  | nil => simp [recs, live, Cause.remotePinMiss, beq_eq_decide]
  | cons p rest =>
    have not : ¬(o.clock = x.steps ∧ r.before p = true) := fun ⟨clock, goes⟩ =>
      behind ⟨clock, p, by simp [recs], (before_iff_goesFirst r p).1 goes⟩
    simp [recs, live, not, Cause.remotePinMiss, beq_eq_decide]

theorem haltRaised_raiseHalt (x : State) (c : Nat) (r : StopRec) (toRoot : Bool) (team : Option Nat) :
    HaltRaised x (x.raiseHalt c r toRoot team) c { r with ctx := BitVec.ofNat 16 c } toRoot team := by
  refine ⟨rfl, fun k hk => ?_, haltWith (x.ctx c).halt { r with ctx := BitVec.ofNat 16 c } toRoot team x.steps, ?_, ?_, ?_, ?_, ?_⟩
  · simp [State.raiseHalt, State.resyncBounce, State.ctx_modCtx_other _ _ _ _ hk]
  · simp [State.raiseHalt, State.resyncBounce]
  · intro none
    rw [none]
    rfl
  · intro o some live behind
    rw [some, haltWith_joined live behind]
  · intro o some live first
    rw [some, haltWith_overtaken live first]
  · intro o some saved
    simp [some, haltWith, saved]

/-! ## The warp that a slot swaps out -/

/-- A choice made along a list ends with the member that wins against each other one. -/
theorem foldl_choose {α : Type} {f : Option α → α → Option α} {e : α} {good : α → Prop}
    (keep : ∀ x, good x → f (some e) x = some e) (take : ∀ m, (∀ y, m = some y → good y) → f m e = some e)
    (choose : ∀ m x y, f m x = some y → m = some y ∨ y = x) (l : List α) (mem : e ∈ l) (all : ∀ x ∈ l, good x)
    (m : Option α) (hm : ∀ y, m = some y → good y) : l.foldl f m = some e := by
  have stays : ∀ l : List α, (∀ x ∈ l, good x) → l.foldl f (some e) = some e := by
    intro l all
    induction l with
    | nil => rfl
    | cons x rest ih =>
      rw [List.foldl_cons, keep x (all x List.mem_cons_self)]
      exact ih fun y hy => all y (List.mem_cons_of_mem _ hy)
  induction l generalizing m with
  | nil => cases mem
  | cons x rest ih =>
    have later : ∀ y ∈ rest, good y := fun y hy => all y (List.mem_cons_of_mem _ hy)
    rcases List.mem_cons.1 mem with rfl | mem
    · rw [List.foldl_cons, take m hm]
      exact stays rest later
    · refine ih mem later (f m x) fun y hy => ?_
      rcases choose m x y hy with h | rfl
      · exact hm y h
      · exact all y List.mem_cons_self

/-- The first of two parked warps is swapped out rather than the second: a lower PRIORITY, then placed later, then a higher number. -/
def SwappedBefore (e x : Nat × Nat × Nat × Nat × Warp) : Prop :=
  e.2.2.1 < x.2.2.1 ∨ (e.2.2.1 = x.2.2.1 ∧ (x.2.2.2.2.placed < e.2.2.2.2.placed ∨ (x.2.2.2.2.placed = e.2.2.2.2.placed ∧ x.2.1 < e.2.1)))

theorem victim_eq_some {l : List (Nat × Nat × Nat × Nat × Warp)} {e : Nat × Nat × Nat × Nat × Warp} (mem : e ∈ l)
    (lowest : ∀ x ∈ l, x ≠ e → SwappedBefore e x) : victim l = some e := by
  unfold victim
  refine foldl_choose (good := fun x => x = e ∨ SwappedBefore e x) ?_ ?_ ?_ l mem (fun x hx => or_iff_not_imp_left.2 (lowest x hx)) none (by simp)
  · rintro x (rfl | lower | ⟨same, later | ⟨together, higher⟩⟩)
    · simp
    · exact (if_pos (by omega)).trans (if_neg (by omega))
    · exact (if_neg (by omega)).trans ((if_pos (by omega)).trans (if_neg (by omega)))
    · exact (if_neg (by omega)).trans ((if_neg (by omega)).trans (if_neg (by omega)))
  · intro m hm
    cases m with
    | none => rfl
    | some y =>
      rcases hm y rfl with rfl | lower | ⟨same, later | ⟨together, higher⟩⟩
      · simp
      · exact (if_pos (by omega)).trans (if_pos (by omega))
      · exact (if_neg (by omega)).trans ((if_pos (by omega)).trans (if_pos (by omega)))
      · exact (if_neg (by omega)).trans ((if_neg (by omega)).trans (if_pos (by omega)))
  · intro m x y h
    cases m with
    | none => exact .inr (Option.some.inj h).symm
    | some z =>
      dsimp only at h
      split_ifs at h <;> simp_all

/-- Insertion along a list keeps every member. -/
theorem mem_foldl_insert {α : Type} (before : α → α → Bool) (y : α) (l m : List α) :
    y ∈ l.foldl (fun l x => (l.takeWhile fun z => before z x) ++ x :: l.dropWhile fun z => before z x) m ↔ y ∈ m ∨ y ∈ l := by
  induction l generalizing m with
  | nil => simp
  | cons x rest ih =>
    have split : y ∈ m ↔ y ∈ m.takeWhile (before · x) ∨ y ∈ m.dropWhile (before · x) := by
      rw [← List.mem_append, List.takeWhile_append_dropWhile]
    rw [List.foldl_cons, ih, List.mem_append, List.mem_cons, List.mem_cons, split]
    tauto

theorem mem_parkedRallocs_iff (s : State) (core slot : Nat) (x : Nat × Nat × Nat × Nat × Warp) :
    x ∈ s.parkedRallocs core slot ↔ ∃ tm, s.team? x.1 = some tm ∧ (x.1, x.2.1, x.2.2.2.1, x.2.2.2.2) ∈ s.slotWarps core slot ∧
      x.2.2.1 = s.priorityOf tm ∧ ∃ a ∈ x.2.2.2.2.threads, a.park = .ralloc := by
  obtain ⟨t, n, p, lanes, w⟩ := x
  unfold State.parkedRallocs
  rw [mem_foldl_insert, List.mem_filterMap]
  simp only [List.not_mem_nil, false_or]
  constructor
  · rintro ⟨⟨t', n', lanes', w'⟩, mem, h⟩
    dsimp only at h
    split at h
    · next parked =>
      split at h
      · next tm ht =>
        obtain ⟨rfl, rfl, rfl, rfl, rfl⟩ : _ ∧ _ ∧ _ ∧ _ ∧ _ := by simpa using h
        exact ⟨tm, ht, mem, rfl, by simpa [Warp.atRalloc] using parked⟩
      · cases h
    · cases h
  · rintro ⟨tm, ht, mem, rfl, parked⟩
    have at' : w.atRalloc = true := by simpa [Warp.atRalloc] using parked
    exact ⟨_, mem, by simp [at', ht]⟩

/-- A warp swapped out, its image of so many bytes at a position of the save area. -/
def Warp.swappedTo (pos bytes : Nat) (img : WarpImg) (x : Warp) : Warp := { x.swapOut with zug := some (pos, bytes), img := img }

theorem swappedTo_eq (pos bytes : Nat) (img : WarpImg) (x : Warp) :
    let v := Warp.swappedTo pos bytes img x
    v = { x with hold := none, owes := v.owes, clearing := v.clearing, trailing := v.trailing, zug := some (pos, bytes), img := img } ∧
      (x.rsec = 0 → v.owes = false ∧ v.trailing = none) := by
  unfold Warp.swappedTo Warp.swapOut
  by_cases h : x.rsec = 0 <;> simp [h]

/-- The state once a warp is swapped out and its slot served. -/
def afterSwap (s1 : State) (core slot t n pos : Nat) (img : State × WarpImg × List Byte) : State :=
  ((s1.modWarp t n (Warp.swappedTo pos img.2.2.length img.2.1)).serveSlot core slot 0).after t n

theorem swapOne_eq {s s1 : State} {t n a b pos : Nat} {w : Warp} {tm : Team}
    (idle : (s.slotWarps s.input.core.toNat s.input.coreSlot.toNat).any s.progresses = false)
    (chosen : victim (s.parkedRallocs s.input.core.toNat s.input.coreSlot.toNat) = some (t, n, a, b, w)) (ht : s.team? t = some tm)
    (area : ((s.zugImage tm n w).1.ctx (s.ctxOf tm)).areaPos (s.zugImage tm n w).2.2.length s.input.pos = some pos)
    (held : (s.zugImage tm n w).1.holdImage (s.ctxOf tm) pos (s.zugImage tm n w).2.2 = .ok s1) :
    swapOne s = .next (afterSwap s1 s.input.core.toNat s.input.coreSlot.toNat t n pos (s.zugImage tm n w)) := by
  simp only [swapOne, idle, chosen, ht, area, held]
  rfl

theorem swapOne_refused {s : State} (h : (s.slotWarps s.input.core.toNat s.input.coreSlot.toNat).any s.progresses = true ∨
    s.parkedRallocs s.input.core.toNat s.input.coreSlot.toNat = []) : swapOne s = .refused .noOccasion := by
  unfold swapOne
  dsimp only
  split
  · rfl
  · next idle =>
    rw [h.resolve_left idle]
    rfl

theorem unsent_afterSwap {s1 : State} (core slot t n pos : Nat) (img : State × WarpImg × List Byte) :
    Unsent s1 (afterSwap s1 core slot t n pos img) :=
  ((unsent_modWarp s1 t n _).trans (unsent_serveSlot _ core slot 0)).trans (unsent_after _ t n)

/-! ## A swapped warp that comes back -/

theorem pages_restore {w x : Warp} {k : Kernel} {stage : Nat} {bs : List Byte} (h : w.restore k stage bs = some x) :
    x.pages = w.pages ∧ x.rallocAsk = w.rallocAsk := by
  unfold Warp.restore at h
  dsimp only at h
  split at h
  · cases h
  · obtain rfl := Option.some.inj h
    exact ⟨rfl, rfl⟩

theorem park_of_mem_grow {w : Warp} {a : Thread} (h : a ∈ w.grow.threads) : a.park ≠ .ralloc := by
  obtain ⟨b, -, rfl⟩ := List.mem_map.1 h
  split
  · simp [Thread.goOn]
  · next other => simpa using other

theorem zugBack_some {w w1 : Warp} {k : Kernel} {stage : Nat} {img : List Byte} (h : w.zugBack k stage img = some w1) :
    w1.pages = w.pages + w.rallocAsk ∧ w1.rallocAsk = 0 ∧ w1.zug = none ∧ w1.freeRalloc = !w.img.full ∧ ∀ a ∈ w1.threads, a.park ≠ .ralloc := by
  have same : (if w.img.full then w else w.backToSpt w.img.spt).pages = w.pages ∧
      (if w.img.full then w else w.backToSpt w.img.spt).rallocAsk = w.rallocAsk := by
    split <;> exact ⟨rfl, rfl⟩
  unfold Warp.zugBack at h
  dsimp only at h
  split at h
  · cases h
  · split at h
    · cases h
    · obtain ⟨x, restored, rfl⟩ := Option.map_eq_some_iff.1 h
      obtain ⟨pages, ask⟩ := pages_restore restored
      refine ⟨?_, rfl, rfl, rfl, fun a ha => park_of_mem_grow ha⟩
      show x.pages + x.rallocAsk = _
      rw [pages, ask, same.1, same.2]

/-- The state once a swapped warp is back in its lanes, its image freed. -/
def backIn (s u : State) (c pos t n : Nat) (w : Warp) : State :=
  (({ u with stamp := s.stamp + 1 } : State).freeImage c pos).modWarp t n fun _ => { w with placed := s.stamp }

theorem onlyTeam_backIn (s : State) {u : State} {t : Nat} {tm : Team} (there : u.team? t = some tm) (c pos n : Nat) (w : Warp) :
    OnlyTeam (({ u with stamp := s.stamp + 1 } : State).freeImage c pos) (backIn s u c pos t n w) t
      { tm with warps := tm.warps.set n { w with placed := s.stamp } } :=
  onlyTeam_modWarp (s := ({ u with stamp := s.stamp + 1 } : State).freeImage c pos) there n _

/-- What a re-entry leaves, by what the image brings back. -/
def reentered (s u : State) (c pos t n : Nat) (tm : Team) : Option Warp → State
  | none => if u.isHalted c then u else u.raiseHalt c (badImage tm) false (some t)
  | some w => (backIn s u c pos t n w).after t n

theorem reentered_of_halted {s u : State} {c pos t n : Nat} {tm : Team} (h : (u.ctx c).halt ≠ none) : reentered s u c pos t n tm none = u :=
  if_pos (Option.isSome_iff_ne_none.2 h)

theorem reentered_of_running {s u : State} {c pos t n : Nat} {tm : Team} (h : (u.ctx c).halt = none) :
    reentered s u c pos t n tm none = u.raiseHalt c (badImage tm) false (some t) :=
  if_neg (by simp [State.isHalted, h])

theorem reenterWarp_eq {s : State} {tm : Team} {pos bytes : Nat} (ht : s.team? s.input.team = some tm)
    (out : (tm.warp s.input.warp).zug = some (pos, bytes)) (goes : s.stopStands tm = false) (live : s.isHalted (s.ctxOf tm) = false)
    (room : (s.slotWarps (tm.warp s.input.warp).core (tm.warp s.input.warp).slot).length < 32)
    (free : rangeFree (s.slotWarps (tm.warp s.input.warp).core (tm.warp s.input.warp).slot) (tm.warp s.input.warp).base (s.kernelOf tm).lanes
      ((tm.warp s.input.warp).pages + (tm.warp s.input.warp).rallocAsk) = true) :
    reenterWarp s = .next (reentered s (s.imageNow (s.ctxOf tm) pos).s (s.ctxOf tm) pos s.input.team s.input.warp tm
      ((s.imageNow (s.ctxOf tm) pos).bytes.bind ((tm.warp s.input.warp).zugBack (s.kernelOf tm) tm.stage))) := by
  have enough : ¬(s.slotWarps (tm.warp s.input.warp).core (tm.warp s.input.warp).slot).length ≥ 32 := by omega
  simp only [reenterWarp, ht, out, goes, live, free, enough]
  cases (s.imageNow (s.ctxOf tm) pos).bytes.bind ((tm.warp s.input.warp).zugBack (s.kernelOf tm) tm.stage) <;> rfl

theorem unsent_reentered (s : State) {u v : State} (h : Unsent u v) (c pos t n : Nat) (tm : Team) (back : Option Warp) :
    Unsent u (reentered s v c pos t n tm back) := by
  refine h.trans ?_
  cases back with
  | none => exact .ite (.refl v) (unsent_raiseHalt v c _ _ _)
  | some w =>
    have stamped : Unsent v { v with stamp := s.stamp + 1 } := .of_eq rfl rfl rfl
    exact ((stamped.trans (unsent_freeImage _ c pos)).trans (unsent_modWarp _ t n _)).trans (unsent_after _ t n)

/-! ## The ripe ring -/

theorem leBytes_eq_map (n v : Nat) : leBytes n v = (List.range n).map fun j => BitVec.ofNat 8 (v / 256 ^ j) := by
  induction n generalizing v with
  | zero => rfl
  | succ n ih =>
    rw [leBytes, ih, List.range_succ_eq_map, List.map_cons, List.map_map]
    refine congrArg₂ _ (by simp) (List.map_congr_left fun j _ => ?_)
    simp [Nat.shiftRight_eq_div_pow, Nat.div_div_eq_div_mul, pow_succ, mul_comm]

theorem ringAddr_eq (base : BitVec 56) : ringAddr base = base.toNat / 4096 * 4096 := by
  unfold ringAddr
  omega

theorem logOk_iff (x : BitVec 5) : logOk x = true ↔ LogOk x := by simp [logOk, LogOk]

/-- The ripe ring of a context with one entry more, its count of entries written behind it. -/
def ripeWritten (s : State) (c place count : Nat) (entry written : Nat) : State :=
  (s.writeVa c place (leBytes 8 entry)).writeVa c count (leBytes 8 written)

theorem ripeWritten_eq (s : State) (c place count entry written : Nat) :
    let le (v : Nat) : List Byte := (List.range 8).map fun j => BitVec.ofNat 8 (v / 256 ^ j)
    ripeWritten s c place count entry written = (s.writeVa c place (le entry)).writeVa c count (le written) := by
  simp only [ripeWritten, leBytes_eq_map]

theorem unsent_ripeWritten (s : State) (c place count entry written : Nat) : Unsent s (ripeWritten s c place count entry written) :=
  (unsent_writeVa s c place _).trans (unsent_writeVa _ c count _)

/-- Tempo of a context once its oldest deferred entry has moved. -/
def entryMoved (s : State) (c : Nat) (rest : List (BitVec 56 × Nat)) (written : DWord) : State :=
  s.modCtx c fun y => { y with tempo := { y.tempo with deferred := rest, written := written } }

theorem unsent_entryMoved (s : State) (c : Nat) (rest : List (BitVec 56 × Nat)) (written : DWord) :
    Unsent s (entryMoved s c rest written).wakeAll :=
  (unsent_modCtx s c _).trans (unsent_wakeAll _)

theorem writeRipe_eq {s s1 : State} {a : BitVec 56} {tag : Nat} {i : DWord} {rest : List (BitVec 56 × Nat)} :
    let c := s.input.ctx.toNat
    let x := (s.ctx c).tempo
    let n := 2 ^ x.ringLog2.toNat
    let base := x.ringBase.toNat / 4096 * 4096
    let place := base + 8 * (x.written.toNat % n)
    x.deferred = (a, tag) :: rest → tag ≤ x.gen → logOk x.ringLog2 = true →
    s.canWrite c place 8 = true → s.canWrite c (base + 8 * n) 8 = true → s.canWrite c (base + 8 * n + 8) 8 = true →
    s.ripeHead c (base + 8 * n + 8) = (s1, some i) → (s1.stall = none → x.written - i ≠ BitVec.ofNat 64 n) →
    writeRipe s = .next (if s1.stall.isSome then s1
      else (entryMoved (ripeWritten s1 c place (base + 8 * n) a.toNat (x.written + 1).toNat) c rest (x.written + 1)).wakeAll) := by
  intro c x n base place oldest ripe size entry count next head room
  have due : ¬tag > x.gen := by omega
  simp only [writeRipe, c, x, n, base, place] at *
  simp only [ringAddr_eq, oldest, due, size, entry, count, next, head]
  cases e : s1.stall with
  | some _ => simp
  | none =>
    simp only [beq_false_of_ne (room e)]
    rfl

/-! ## The claim -/

theorem zugzwangSwap (s s1 : State) (t n a b pos : Nat) (w : Warp) (tm : Team)
    (idle : (s.slotWarps s.input.core.toNat s.input.coreSlot.toNat).any s.progresses = false)
    (mem : (t, n, a, b, w) ∈ s.parkedRallocs s.input.core.toNat s.input.coreSlot.toNat)
    (lowest : ∀ x ∈ s.parkedRallocs s.input.core.toNat s.input.coreSlot.toNat, x ≠ (t, n, a, b, w) → SwappedBefore (t, n, a, b, w) x)
    (ht : s.team? t = some tm)
    (area : (((calm s).zugImage tm n w).1.ctx (s.ctxOf tm)).areaPos ((calm s).zugImage tm n w).2.2.length s.input.pos = some pos)
    (held : ((calm s).zugImage tm n w).1.holdImage (s.ctxOf tm) pos ((calm s).zugImage tm n w).2.2 = .ok s1) :
    TakesPlace .zugzwangSwap s (afterSwap s1 s.input.core.toNat s.input.coreSlot.toNat t n pos ((calm s).zugImage tm n w)) := by
  have chosen : victim ((calm s).parkedRallocs s.input.core.toNat s.input.coreSlot.toNat) = some (t, n, a, b, w) := victim_eq_some mem lowest
  exact takesPlace_throughLinks rfl (swapOne_eq (s := calm s) idle chosen ht area held)
    (((unsent_zugImage (calm s) tm n w).trans (unsent_holdImage held)).trans (unsent_afterSwap _ _ t n pos _))

theorem zugzwangReentry (s : State) (tm : Team) (pos bytes : Nat) (ht : s.team? s.input.team = some tm)
    (out : (tm.warp s.input.warp).zug = some (pos, bytes)) (goes : ¬StopStands s tm) (live : (s.ctx (s.ctxOf tm)).halt = none)
    (room : (s.slotWarps (tm.warp s.input.warp).core (tm.warp s.input.warp).slot).length < 32)
    (free : rangeFree (s.slotWarps (tm.warp s.input.warp).core (tm.warp s.input.warp).slot) (tm.warp s.input.warp).base
      (8 * 2 ^ (s.kernelOf tm).width) ((tm.warp s.input.warp).pages + (tm.warp s.input.warp).rallocAsk) = true)
    {back : Option Warp}
    (hb : ((calm s).imageNow (s.ctxOf tm) pos).bytes.bind ((tm.warp s.input.warp).zugBack (s.kernelOf tm) tm.stage) = back) :
    TakesPlace .zugzwangReentry s (reentered s ((calm s).imageNow (s.ctxOf tm) pos).s (s.ctxOf tm) pos s.input.team s.input.warp tm
      back) := by
  subst hb
  have stands : s.stopStands tm = false := by simpa using fun e => goes ((stopStands_iff s tm).1 e)
  have notHalted : s.isHalted (s.ctxOf tm) = false := by simp [State.isHalted, live]
  exact takesPlace_throughLinks rfl (reenterWarp_eq (s := calm s) ht out stands notHalted room free)
    (unsent_reentered s (unsent_imageNow (calm s) _ pos) _ pos _ _ tm _)

/-- Settles O54: each event is its meaning on a state with no access waiting, and none of what it does sends with the fabric disabled. -/
theorem zugzwangAndRipe : Obligations.ZugzwangAndRipe := by
  unfold Obligations.ZugzwangAndRipe
  refine ⟨?_, ?_, mem_parkedRallocs_iff, ?_, ?_⟩
  · intro s s1 t n a b pos w tm core slot c img idle mem lowest ht area held back
    obtain ⟨swapped, freed⟩ := swappedTo_eq pos img.2.2.length img.2.1 (tm.warp n)
    exact ⟨_, _, zugzwangSwap s s1 t n a b pos w tm idle mem lowest ht area held, onlyTeam_modWarp back n _, swapped, freed⟩
  · intro s h
    show throughLinks swapOne s = _
    rw [throughLinks, swapOne_refused (s := { s with stall := none }) h]
  · intro s tm pos bytes t n w c g back ht out goes live room free
    have takes {back : Option Warp} := zugzwangReentry s tm pos bytes ht out goes live room free (back := back)
    refine ⟨fun w1 hw there => ?_, fun hb halted => ?_, fun hb running => ?_⟩
    · obtain ⟨img, -, hz⟩ := Option.bind_eq_some_iff.1 hw
      obtain ⟨pages, ask, zug, freeRalloc, awake⟩ := zugBack_some hz
      exact ⟨pages, ask, zug, freeRalloc, awake, _, takes hw, onlyTeam_backIn s there c pos n w1⟩
    · have left := takes hb
      rwa [reentered_of_halted halted] at left
    · have left := takes hb
      rw [reentered_of_running running] at left
      exact ⟨_, left, haltRaised_raiseHalt g.s c (badImage tm) false (some t)⟩
  · intro s s1 a tag i rest c x n base place oldest ripe size entry count next head room le y
    have able (va : Nat) (h : s.canWrite c va 8 = true) : (calm s).canWrite c va 8 = true := (calm_canWrite s c va 8).trans h
    have runs := writeRipe_eq (s := calm s) oldest ripe ((logOk_iff _).2 size) (able _ entry) (able _ count) (able _ next) head room
    have read : Unsent (calm s) s1 := by
      have h := unsent_ripeHead (calm s) c (base + 8 * n + 8)
      rwa [head] at h
    have takes := takesPlace_throughLinks (i := .ripeEntryWrite) rfl runs 
      (read.trans (.ite (.refl s1) ((unsent_ripeWritten s1 c _ _ _ _).trans (unsent_entryMoved _ c rest _))))
    refine ⟨fun waits => ?_, fun done => ⟨entryMoved y c rest (x.written + 1), ?_, onlyCtx_modCtx y c _⟩⟩
    · rwa [if_pos (Option.isSome_iff_ne_none.2 waits)] at takes
    · rwa [if_neg (by simp [done]), ripeWritten_eq] at takes

end Sys2Proof.Claims
end

section
-- One proof after another: side by side their threads pass the limit of memory that the check sets.
set_option Elab.async false
/-! SUPPORT. Packets in the words of the claims: their fields, when one may start, the start, the completion, and a queue that enters ERROR. -/

namespace Sys2Proof.Claims

open Sys2Proof Sys2Proof.Machine

/-! ## Fields -/

theorem littleEndian_eq_leNat (bs : List Byte) : littleEndian bs = leNat bs := by
  induction bs with
  | nil => rfl
  | cons b rest ih => rw [littleEndian, leNat, ih]

theorem pnum_eq_field (p : Packet) (off n : Nat) : pnum p off n = p.field off n := littleEndian_eq_leNat _

theorem pnum_head (p : Packet) : pnum p 0 4 = p.head := littleEndian_eq_leNat _

/-- TYPE is the first byte of the header. -/
theorem pnum_type (p : Packet) : pnum p 0 1 = p.type := by
  rw [pnum_eq_field, Packet.field, Packet.type, Packet.head, List.drop_zero]
  cases p.bytes with
  | nil => rfl
  | cons b rest =>
    show b.toNat + 256 * leNat [] = (b.toNat + 256 * leNat (rest.take 3)) % 256
    rw [leNat]
    have := b.isLt
    omega

/-! ## When a packet may start -/

/-- A packet of a subtree command starts beside a command in progress that is no subtree command, and a REVOKE beside a CHECKPOINT (R116). -/
def GoesBeside (k : CmdKind) (ty : Nat) : Prop :=
  match k with
  | .inval _ _ => True
  | .flog _ _ => True
  | .scrub => True
  | .checkpoint _ _ _ => ty = 12
  | _ => False

theorem holdsBack_eq_false_iff (k : Cmd) (ty : Nat) : k.holdsBack (ty == 0x0C) = false ↔ GoesBeside k.kind ty := by
  unfold Cmd.holdsBack Cmd.onSubtree Cmd.isCheckpoint GoesBeside
  cases k.kind <;> simp

theorem subtreeBusy_eq_false_iff (s : State) (p : Packet) : s.subtreeBusy p = false ↔
    (9 ≤ pnum p 0 1 ∧ pnum p 0 1 ≤ 13 → ∀ k ∈ s.eng.cmds,
      (s.within k.ctx.toNat (pnum p 8 2) = true ∨ s.within (pnum p 8 2) k.ctx.toNat = true) → GoesBeside k.kind (pnum p 0 1)) := by
  have types : ([0x09, 0x0A, 0x0B, 0x0C, 0x0D].contains p.type) = true ↔ 9 ≤ p.type ∧ p.type ≤ 13 := by
    simp only [List.contains_iff_mem, List.mem_cons, List.not_mem_nil, or_false]
    omega
  rw [pnum_type, pnum_eq_field, State.subtreeBusy, ← Bool.not_eq_true, Bool.and_eq_true, types, not_and]
  refine imp_congr_right fun _ => ?_
  rw [Bool.not_eq_true, List.any_eq_false]
  refine forall₂_congr fun k _ => ?_
  rw [Bool.and_eq_true, not_and, Bool.not_eq_true, holdsBack_eq_false_iff, State.overlap, Bool.or_eq_true]
  rfl

theorem thawWaits_eq_false_iff (s : State) (p : Packet) : s.thawWaits p = false ↔
    (pnum p 0 1 = 10 → ∀ h, (s.ctx (pnum p 8 2)).halt = some h → h.reported = true ∨ h.tamper = true) := by
  rw [pnum_type, pnum_eq_field, State.thawWaits, ← Bool.not_eq_true, Bool.and_eq_true, not_and, beq_iff_eq]
  refine imp_congr_right fun _ => ?_
  show ¬(match (s.ctx (p.field 8 2)).halt with | some h => !h.reported && !h.tamper | none => false) = true ↔ _
  cases (s.ctx (p.field 8 2)).halt with
  | none => simp
  | some h => simp [or_iff_not_imp_left]

theorem worldReady_iff (s : State) (c : Nat) : s.worldReady c = true ↔ (s.ctx c).world = 0 ∨
    ((s.world (s.ctx c).world.toNat).live = true ∧ (s.world (s.ctx c).world.toNat).key1 = true ∧ (s.world (s.ctx c).world.toNat).key2 = true) := by
  simp [State.worldReady, and_assoc]

/-- The conditions of starting (R23, R80, R111, R112, R116, R117, R125). -/
theorem mayStart_iff (s : State) (q c : Nat) (p : Packet) : s.mayStart q c p = true ↔ MayBegin s q c p := by
  have halted : (!s.isHalted c || haltedStarts p.type) = true ↔ (s.ctx c).halt = none ∨ p.type = 5 ∨ (8 ≤ p.type ∧ p.type ≤ 14) := by
    simp [State.isHalted, haltedStarts]
  have fenced : (!p.fence || (s.queue q).open_.isEmpty) = true ↔ (p.head.testBit 9 = true → (s.queue q).open_ = []) := by
    rw [Packet.fence, Bool.or_eq_true, List.isEmpty_iff, Bool.not_eq_true', ← Bool.not_eq_true, ← imp_iff_not_or]
  have wide : (!((p.type == 1 || p.type == 7) && s.power.phase != 4 && decide ((s.subtreeOf c).2.2.toNat > 1))) = true ↔
      (p.type = 1 ∨ p.type = 7 → s.power.phase = 4 ∨ (s.subtreeOf c).2.2.toNat ≤ 1) := by
    simp [or_iff_not_imp_left]
  simp only [State.mayStart, MayBegin, Bool.and_eq_true, halted, fenced, wide, worldReady_iff, Bool.not_eq_true', subtreeBusy_eq_false_iff,
    thawWaits_eq_false_iff, pnum_head, pnum_type, State.isFrozen, and_assoc, bne_eq_false_iff_eq, Bool.or_eq_true, beq_iff_eq]
  exact and_congr_right fun _ => and_congr_right fun _ => and_left_comm

theorem mayStart_calm (s : State) (q c : Nat) (p : Packet) : (calm s).mayStart q c p = s.mayStart q c p := by
  simp only [State.mayStart, State.subtreeBusy, State.overlap, State.within, State.chainOf, calm_chain]
  rfl

/-! ## Queues -/

theorem onlyQueue_modQueue (s : State) (q : Nat) (f : Queue → Queue) : OnlyQueue s (s.modQueue q f) q (f (s.queue q)) :=
  ⟨rfl, State.queue_modQueue_same s q f, fun k hk => State.queue_modQueue_other s q k f hk⟩

/-- A queue whose packet at RIDX has started (R78, R80). -/
def Queue.begun (x : Queue) (p : Packet) : Queue :=
  { x with ridx := x.ridx + 1, state := .run, cur := none, open_ := x.open_ ++ [p.index] }

theorem begun_beginPacket (s : State) (q c : Nat) (p : Packet) : Begun s ((calm s).beginPacket q c p) q c p := by
  obtain ⟨-, same, other⟩ := onlyQueue_modQueue (calm s) q fun x => Queue.begun x p
  exact ⟨rfl, same, other, State.ctx_modCtx_same _ c _, fun k hk => State.ctx_modCtx_other _ c k _ hk⟩

theorem completed_complete (s : State) (q : Nat) (p : Packet) (status : BitVec 8) (payload : BitVec 128) :
    Completed s (s.complete q p status payload) q p status payload := by
  have asks : (p.cpl || status != Status.ok) = true ↔ (pnum p 0 4).testBit 8 = true ∨ status ≠ 0 := by
    simp [Packet.cpl, pnum_head, Status.ok]
  have tag : p.tag = BitVec.ofNat 32 (pnum p 4 4) := congrArg _ (pnum_eq_field p 4 4).symm
  rw [Completed, State.complete]
  by_cases h : (pnum p 0 4).testBit 8 = true ∨ status ≠ 0
  · rw [if_pos h, if_pos (asks.2 h), ← tag]
    exact onlyQueue_modQueue s q _
  · rw [if_neg h, if_neg (mt asks.1 h)]
    exact onlyQueue_modQueue s q _

/-- A queue in ERROR with its KIND 4 record (R78, R79, R88). -/
def Queue.inError (x : Queue) (q : Nat) (status : BitVec 8) (tag : Word) : Queue :=
  { x with state := .error, cause := status, waiting := x.waiting ++
    [{ kind := 4, status := status, queue := BitVec.ofNat 10 q, tag := tag, userTag := 0, index := x.ridx, payload := 0, pkt := none }] }

/-- A queue enters ERROR with its record, and its context of level 1 to 3 has a handler record besides. -/
theorem queueError_cases (s : State) (q : Nat) (status : BitVec 8) (tag : Word) :
    ∃ u, OnlyQueue s u q (Queue.inError (s.queue q) q status tag) ∧
      ((s.queueError q status tag (s.queue q).ridx = u ∧ ∀ c : CtxId, (s.queue q).owner = some c → (s.ctx c.toNat).level = 0) ∨
       ∃ c : CtxId, (s.queue q).owner = some c ∧ (s.ctx c.toNat).level ≠ 0 ∧
        s.queueError q status tag (s.queue q).ridx = u.pushHandler c.toNat (queueRecord c.toNat q status)) := by
  refine ⟨(s.modQueue q fun x => { x with state := .error, cause := status }).pushRec q
    { kind := 4, status := status, queue := BitVec.ofNat 10 q, tag := tag, userTag := 0, index := (s.queue q).ridx, payload := 0, pkt := none },
    ⟨rfl, ?_, fun k hk => ?_⟩, ?_⟩
  · rw [State.pushRec, State.queue_modQueue_same, State.queue_modQueue_same]
    rfl
  · rw [State.pushRec, State.queue_modQueue_other _ _ _ _ hk, State.queue_modQueue_other _ _ _ _ hk]
  · unfold State.queueError
    cases (s.queue q).owner with
    | none => exact .inl ⟨rfl, fun c h => nomatch h⟩
    | some o =>
      by_cases level : (s.ctx o.toNat).level = 0
      · refine .inl ⟨if_neg (by simp [level]), fun c h => ?_⟩
        rwa [← Option.some.inj h]
      · exact .inr ⟨o, rfl, level, if_pos (bne_iff_ne.2 level)⟩

/-- A queue that enters ERROR at its present packet (R78, R79). -/
theorem erroredWith_queueError (s : State) (q : Nat) (status : BitVec 8) (tag : Word) :
    ErroredWith tag s (s.queueError q status tag (s.queue q).ridx) q (s.queue q) status := by
  obtain ⟨u, ⟨rest, same, other⟩, ⟨eq, root⟩ | ⟨o, owner, level, eq⟩⟩ := queueError_cases s q status tag
  · rw [eq]
    refine ⟨by rw [rest], other, same, fun c => ?_⟩
    rw [rest, if_neg]
    · rfl
    · rintro ⟨own, hc, level⟩
      exact level (by simpa [Nat.mod_eq_of_lt hc] using root _ own)
  · rw [eq]
    refine ⟨by rw [rest]; rfl, other, same, fun c => ?_⟩
    have ctxs : ∀ k, u.ctx k = s.ctx k := fun k => by rw [rest]; rfl
    by_cases hc : c = o.toNat
    · subst hc
      rw [if_pos ⟨by simp [owner], o.isLt, level⟩, State.pushHandler, State.ctx_modCtx_same, ctxs]
      rfl
    · rw [State.pushHandler, State.ctx_modCtx_other _ _ _ _ hc, ctxs, if_neg]
      rintro ⟨own, lt, -⟩
      rw [owner, Option.some.injEq] at own
      exact hc (by rw [own, BitVec.toNat_ofNat, Nat.mod_eq_of_lt lt])

/-! ## Events of packets -/

/-- A packet at the head of its queue runs as its event says, on a state with no access waiting. -/
theorem packetEvent_heads {i : Instr} {ty : Nat} {eff : State → Nat → Packet → Nat → State} {s : State} {q : Nat} {c : CtxId} {p : Packet}
    (run : exec i s = packetEvent (ofType ty) eff s) (still : ∀ y, Unsent y (eff y q p c.toNat)) (h : Heads s ty q c p) :
    TakesPlace i s (eff ((calm s).beginPacket q c.toNat p) q p c.toNat) := by
  obtain ⟨rfl, cur, owner, type, fresh, may⟩ := h
  have type : ofType ty p = true := by rw [ofType, ← pnum_type, type, beq_self_eq_true]
  refine takesPlace_throughLinks run ?_ (((unsent_modQueue (calm s) _ _).trans (unsent_modCtx _ _ _)).trans (still _))
  show (match (s.queue s.input.slot.toNat).cur, (s.queue s.input.slot.toNat).owner with
    | some p, some c => if ofType ty p && p.waits.isNone && (calm s).mayStart s.input.slot.toNat c.toNat p then _ else _
    | _, _ => _) = _
  rw [cur, owner]
  simp only [type, fresh, mayStart_calm, may]
  rfl

theorem packetReaches_of_event {i : Instr} {ty : Nat} {eff : State → Nat → Packet → Nat → State} {claim : State → Nat → Nat → Packet → State → Prop}
    (run : ∀ s, exec i s = packetEvent (ofType ty) eff s) (still : ∀ y q p c, Unsent y (eff y q p c))
    (does : ∀ y q p c, claim y q c p (eff y q p c)) : PacketReaches i ty claim :=
  fun s q c p h => ⟨_, _, begun_beginPacket s q c.toNat p, packetEvent_heads (run s) (fun y => still y q p c.toNat) h, does _ q p c.toNat⟩

/-- The same where the effect makes no access: the event takes place. -/
theorem packetRuns_of_event {i : Instr} {ty : Nat} {eff : State → Nat → Packet → Nat → State} {claim : State → Nat → Nat → Packet → State → Prop}
    (run : ∀ s, exec i s = packetEvent (ofType ty) eff s)
    (still : ∀ y q p c, (eff y q p c).fabric = y.fabric ∧ (eff y q p c).stall = y.stall ∧ (eff y q p c).eng = y.eng)
    (does : ∀ y q p c, claim y q c p (eff y q p c)) : PacketRuns i ty claim := by
  intro s q c p h
  obtain ⟨-, stall, eng⟩ := still ((calm s).beginPacket q c.toNat p) q p c.toNat
  have takes := packetEvent_heads (run s) (fun y => Unsent.of_eq (still y q p c.toNat).1 (still y q p c.toNat).2.1 (by rw [(still y q p c.toNat).2.2])) h
  exact ⟨_, _, begun_beginPacket s q c.toNat p, takes.quiet stall (not_sentFor_of_ports (by rw [eng]; rfl)), does _ q p c.toNat⟩

end Sys2Proof.Claims
end

section
-- One proof after another: side by side their threads pass the limit of memory that the check sets.
set_option Elab.async false
/-! SUPPORT. What walks leave, and that an access of the CPX, the CSE or Tempo that reads, or comes to nothing, changes no memory and no queue. -/

namespace Sys2Proof.Claims

open Sys2Proof Sys2Proof.Machine

/-! ## Walks -/

/-- What the reads of a walk leave: errors noted at their homes, and packets to the devices of tables (R30, R45 to R47, R68, R128). -/
structure WalkLeaves (s w : State) : Prop where
  only : w = { s with
    mem := { s.mem with poison := w.mem.poison, lines := w.mem.lines }
    cfg := { s.cfg with memErr := w.cfg.memErr }
    fabric := { s.fabric with links := w.fabric.links, nextSeq := w.fabric.nextSeq }
    eng := { s.eng with ports := w.eng.ports }
    stall := w.stall }
  homes : s.input.hits = [] → w.mem = s.mem ∧ w.cfg = s.cfg
  offline : s.fabric.enable = false → w.fabric = s.fabric ∧ w.eng = s.eng ∧ w.stall = s.stall

@[refl] theorem WalkLeaves.refl (s : State) : WalkLeaves s s := ⟨rfl, fun _ => ⟨rfl, rfl⟩, fun _ => ⟨rfl, rfl, rfl⟩⟩

@[trans] theorem WalkLeaves.trans {s t u : State} (h : WalkLeaves s t) (g : WalkLeaves t u) : WalkLeaves s u where
  only := by rw [g.only, h.only]
  homes := fun noHits => by
    obtain ⟨mem, cfg⟩ := h.homes noHits
    obtain ⟨mem', cfg'⟩ := g.homes (by rw [h.only]; exact noHits)
    exact ⟨mem'.trans mem, cfg'.trans cfg⟩
  offline := fun off => by
    obtain ⟨fabric, eng, stall⟩ := h.offline off
    obtain ⟨fabric', eng', stall'⟩ := g.offline (by rw [fabric]; exact off)
    exact ⟨fabric'.trans fabric, eng'.trans eng, stall'.trans stall⟩

theorem WalkLeaves.ite {p : Prop} [Decidable p] {s t u : State} (h : WalkLeaves s t) (g : WalkLeaves s u) : WalkLeaves s (if p then t else u) := by
  split
  · exact h
  · exact g

/-- Without an event at hand nothing befalls a range. -/
theorem befallRange_of_noHits {s : State} (h : s.input.hits = []) (inter a n : Nat) : s.befallRange inter a n = s := by
  have one (w : Nat) : s.befall inter w (s.hitAt w) = s := by
    have plain : s.hitAt w = .plain := by rw [State.hitAt, h]; rfl
    rw [plain, State.befall]
    cases s.reached w <;> rfl
  unfold State.befallRange
  induction wordsOf a n with
  | nil => rfl
  | cons w rest ih => rw [List.foldl_cons, one, ih]

/-- What befalls a unit is noted in its poison mark or its line's tag, and in MEM_ERR. -/
theorem befall_only (s : State) (inter a : Nat) (e : HomeEvent) : s.befall inter a e =
    { s with
      mem := { s.mem with poison := (s.befall inter a e).mem.poison, lines := (s.befall inter a e).mem.lines }
      cfg := { s.cfg with memErr := (s.befall inter a e).cfg.memErr } } := by
  unfold State.befall
  split
  · rfl
  · cases e with
    | plain => rfl
    | networkTag => rfl
    | corrected => rfl
    | uncorrectable => rfl
    | tampered =>
      dsimp only
      split <;> rfl

theorem befallRange_only (s : State) (inter a n : Nat) : s.befallRange inter a n =
    { s with
      mem := { s.mem with poison := (s.befallRange inter a n).mem.poison, lines := (s.befallRange inter a n).mem.lines }
      cfg := { s.cfg with memErr := (s.befallRange inter a n).cfg.memErr } } := by
  have words (e : Nat → HomeEvent) (l : List Nat) (s : State) : (l.foldl (fun st w => st.befall inter w (e w)) s) =
      { s with
        mem := { s.mem with
          poison := (l.foldl (fun st w => st.befall inter w (e w)) s).mem.poison, lines := (l.foldl (fun st w => st.befall inter w (e w)) s).mem.lines }
        cfg := { s.cfg with memErr := (l.foldl (fun st w => st.befall inter w (e w)) s).cfg.memErr } } := by
    induction l generalizing s with
    | nil => rfl
    | cons w rest ih => rw [List.foldl_cons, ih, befall_only s inter w (e w)]
  exact words s.hitAt (wordsOf a n) s

theorem walkLeaves_befallRange (s : State) (inter a n : Nat) : WalkLeaves s (s.befallRange inter a n) where
  only := by
    have only := befallRange_only s inter a n
    generalize s.befallRange inter a n = w at only ⊢
    rw [only]
  homes := fun h => by rw [befallRange_of_noHits h]; exact ⟨rfl, rfl⟩
  offline := fun _ => by rw [befallRange_only]; exact ⟨rfl, rfl, rfl⟩

/-- Packets sent while the fabric is enabled leave what a walk may leave. -/
theorem WalkLeaves.of_sent {s t : State} (on : s.fabric.enable = true)
    (h : t = { s with
      fabric := { s.fabric with links := t.fabric.links, nextSeq := t.fabric.nextSeq }
      eng := { s.eng with ports := t.eng.ports }
      stall := t.stall }) : WalkLeaves s t where
  only := by rw [h]
  homes := fun _ => by rw [h]; exact ⟨rfl, rfl⟩
  offline := fun off => nomatch off.symm.trans on

theorem walkLeaves_sendPacket {s s1 : State} (on : s.fabric.enable = true) {i ctx flits : Nat} {body : PacketBody} {gone : Bool}
    (h : s.sendPacket i ctx flits body = (s1, gone)) : WalkLeaves s s1 := by
  unfold State.sendPacket State.give at h
  split at h
  · obtain ⟨rfl, -⟩ := Prod.mk.inj h
    exact .of_sent on rfl
  · generalize ((s.link i).dueSwitch false).send { flits := flits, body := body } = r at h
    obtain ⟨l, _ | _⟩ := r
    all_goals
      obtain ⟨rfl, -⟩ := Prod.mk.inj h
      exact .of_sent on rfl

theorem walkLeaves_heard {s : State} (on : s.fabric.enable = true) (i : Nat) : WalkLeaves s (s.takeSeq.heard i) := .of_sent on rfl

/-- What a request to another device leaves, whatever becomes of it. -/
theorem farGo_cases (s : State) (ctx fa : Nat) (q : RemoteReq) : ∃ t, WalkLeaves s t ∧
    (s.farGo ctx fa q = .gone t ∨ s.farGo ctx fa q = .waits t ∨ (∃ k, s.farGo ctx fa q = .missed t k) ∨ ∃ x, s.farGo ctx fa q = .failed t x) := by
  cases on : s.fabric.enable with
  | false => exact ⟨s, .refl s, .inr (.inr (.inl ⟨3, farGo_disabled on ctx fa q⟩))⟩
  | true =>
    unfold State.farGo
    rw [on]
    dsimp only
    generalize ({ q with src := s.fabric.deviceNum, seq := s.fabric.nextSeq, dev := _ } : RemoteReq) = q1
    rcases sent : s.sendPacket (s.planeOf fa) ctx (requestFlits q1) (.request q1) with ⟨s1, gone⟩
    have left := walkLeaves_sendPacket on sent
    cases gone with
    | false => exact ⟨s1, left, .inr (.inl rfl)⟩
    | true =>
      have on1 : s1.fabric.enable = true := by rw [left.only]; exact on
      refine ⟨s1.takeSeq.heard (s.planeOf fa), left.trans (walkLeaves_heard on1 _), ?_⟩
      dsimp only
      generalize s1.takeSeq.heard (s.planeOf fa) = s2
      cases s2.farMiss fa with
      | some k => exact .inr (.inr (.inl ⟨k, rfl⟩))
      | none =>
        cases s2.farFails fa (requestSpan q - fa % 64) with
        | some x => exact .inr (.inr (.inr ⟨x, rfl⟩))
        | none => exact .inl rfl

theorem walkLeaves_readTable (s : State) (ctx : Nat) (r : TableRead) : WalkLeaves s (s.readTable ctx r).1 := by
  cases r with
  | home a inter w c => exact walkLeaves_befallRange s inter a 8
  | away dev a w c =>
    obtain ⟨t, left, h | h | ⟨_, h⟩ | ⟨_, h⟩⟩ := farGo_cases s ctx (fabricAddr dev a).toNat (blockRequest (s.subtreeOf ctx).1 w c a 8 none)
    all_goals
      rw [State.readTable, h]
      exact left

theorem walkLeaves_readTables (ctx : Nat) (l : List TableRead) (s : State) : WalkLeaves s (State.readTables ctx l s) := by
  induction l generalizing s with
  | nil => exact .refl s
  | cons r rest ih => exact .ite ((walkLeaves_readTable s ctx r).trans (ih _)) (walkLeaves_readTable s ctx r)

theorem walkLeaves_walkFor (s : State) (ctx va : Nat) : WalkLeaves s (s.walkFor ctx va) := .ite (.refl s) (walkLeaves_readTables ctx _ s)

/-! ## Composition -/

@[refl] theorem NoAccess.refl (s : State) : NoAccess s s := ⟨rfl, rfl, rfl, rfl, rfl⟩

@[trans] theorem NoAccess.trans {s t u : State} (h : NoAccess s t) (g : NoAccess t u) : NoAccess s u := by
  obtain ⟨cells, full, queues, teams, bundles⟩ := h
  obtain ⟨cells', full', queues', teams', bundles'⟩ := g
  exact ⟨cells'.trans cells, full'.trans full, queues'.trans queues, teams'.trans teams, bundles'.trans bundles⟩

theorem NoAccess.ite {p : Prop} [Decidable p] {s t u : State} (h : NoAccess s t) (g : NoAccess s u) : NoAccess s (if p then t else u) := by
  split
  · exact h
  · exact g

/-- The same for the state that an answer carries. -/
theorem NoAccess.ite_of {α : Type} (f : α → State) {p : Prop} [Decidable p] {s : State} {x y : α} (h : NoAccess s (f x)) (g : NoAccess s (f y)) :
    NoAccess s (f (if p then x else y)) := by
  split
  · exact h
  · exact g

theorem WalkLeaves.noAccess {s w : State} (h : WalkLeaves s w) : NoAccess s w := by
  rw [h.only]
  exact ⟨rfl, rfl, rfl, rfl, rfl⟩

theorem NoAccess.queue {s t : State} (h : NoAccess s t) (q : Nat) : t.queue q = s.queue q := by
  obtain ⟨-, -, queues, -, -⟩ := h
  rw [State.queue, queues]
  rfl

/-! ## Failures -/

section Failures

variable (s : State)

theorem noAccess_raiseHalt (c : Nat) (r : StopRec) (b : Bool) (t : Option Nat) : NoAccess s (s.raiseHalt c r b t) := ⟨rfl, rfl, rfl, rfl, rfl⟩

theorem noAccess_countFailure (x : BitVec 8) : NoAccess s (s.countFailure x) := by
  unfold State.countFailure
  split
  · exact ⟨rfl, rfl, rfl, rfl, rfl⟩
  · exact .refl s

theorem noAccess_tamperAlarmed : NoAccess s s.tamperAlarmed := by
  unfold State.tamperAlarmed
  dsimp only
  split <;> exact ⟨rfl, rfl, rfl, rfl, rfl⟩

theorem noAccess_cpxFault (ctx : Nat) (x : BitVec 8) (a : DWord) : NoAccess s (s.cpxFault ctx x a) :=
  .ite (.refl s) (noAccess_raiseHalt s _ _ _ _)

theorem noAccess_cpxMiss (ctx : Nat) (dev : BitVec 12) (a : Nat) (k : BitVec 2) : NoAccess s (s.cpxMiss ctx dev a k) :=
  (show NoAccess s (s.recordOsf ctx dev false k a) from ⟨rfl, rfl, rfl, rfl, rfl⟩).trans (noAccess_cpxFault _ _ _ _)

theorem noAccess_cpxWalkMiss (ctx va : Nat) (m : Miss) : NoAccess s (s.cpxWalkMiss ctx va m) := by
  unfold State.cpxWalkMiss
  cases m.why with
  | absent => exact .refl s
  | spoiled cause => exact (noAccess_cpxFault s _ _ _).trans (noAccess_countFailure _ _)
  | far dev a kind => exact noAccess_cpxMiss s _ _ _ _
  | farFailed cause => exact noAccess_cpxFault s _ _ _
  | tampered => exact (noAccess_cpxFault s _ _ _).trans (noAccess_tamperAlarmed _)

theorem noAccess_cpxMissed (salt ctx va : Nat) : NoAccess s (s.cpxMissed salt ctx va) := by
  refine .ite (.refl s) ?_
  cases s.translate salt ctx va with
  | error m => exact noAccess_cpxWalkMiss s ctx va m
  | ok t => exact .refl s

theorem noAccess_walkFor (ctx va : Nat) : NoAccess s (s.walkFor ctx va) := (walkLeaves_walkFor s ctx va).noAccess

theorem noAccess_cpxProbe (salt ctx va : Nat) : NoAccess s (s.cpxProbe salt ctx va) :=
  (noAccess_walkFor s ctx va).trans (noAccess_cpxMissed _ salt ctx va)

theorem noAccess_writeFault (ctx : Nat) (l : List (Nat × Nat)) : NoAccess s (s.writeFault ctx l) := by
  induction l with
  | nil => exact .refl s
  | cons p rest ih =>
    unfold State.writeFault
    split
    · exact ih
    · exact noAccess_cpxProbe s _ _ _
    · exact .refl s

/-! ## Reads -/

theorem noAccess_befall (inter a : Nat) (e : HomeEvent) : NoAccess s (s.befall inter a e) := by
  rw [befall_only]
  exact ⟨rfl, rfl, rfl, rfl, rfl⟩

theorem noAccess_homeFail (n : Nat) (x : BitVec 8) : NoAccess s (s.homeFail n x).s := noAccess_countFailure s x

theorem noAccess_mxRead (inter : Nat) (w : BitVec 6) (c : BitVec 2) (a n : Nat) : NoAccess s (s.mxRead inter w c a n).s := by
  have marked (p : Bool) : NoAccess s (if p = true then s else s.overrun a) := .ite (.refl s) ⟨rfl, rfl, rfl, rfl, rfl⟩
  unfold State.mxRead
  dsimp only
  split
  · exact (marked _).trans (noAccess_homeFail _ _ _)
  · exact marked _

theorem noAccess_homeRead (inter : Nat) (w : BitVec 6) (c : BitVec 2) (a n : Nat) : NoAccess s (s.homeRead inter w c a n).s := by
  unfold State.homeRead
  cases regionOf a with
  | mxWindow => exact noAccess_mxRead s _ _ _ _ _
  | flash => exact .ite_of HomeOut.s (noAccess_homeFail s _ _) (.refl s)
  | hbm | sbm | hole =>
    show NoAccess s (match s.spoiledRange inter a n w c with
      | some cause => s.homeFail n cause
      | none => _).s
    cases s.spoiledRange inter a n w c with
    | none => exact .refl s
    | some cause => exact noAccess_homeFail s _ _

theorem noAccess_agentRead (inter : Nat) (w : BitVec 6) (c : BitVec 2) (a n : Nat) : NoAccess s (s.agentRead inter w c a n).s :=
  .ite_of HomeOut.s (noAccess_homeRead s _ _ _ _ _) (noAccess_homeRead s _ _ _ _ _)

theorem noAccess_cpxFar (ctx va : Nat) (dev : BitVec 12) (a : Nat) (q : RemoteReq) (got : State → Option (List Byte)) :
    NoAccess s (s.cpxFar ctx va dev a q got).s := by
  obtain ⟨t, left, h | h | ⟨_, h⟩ | ⟨_, h⟩⟩ := farGo_cases s ctx (fabricAddr dev a).toNat q
  all_goals rw [State.cpxFar, h]
  · exact left.noAccess
  · exact left.noAccess
  · exact left.noAccess.trans (noAccess_cpxMiss t _ _ _ _)
  · exact left.noAccess.trans (noAccess_cpxFault t _ _ _)

theorem noAccess_readPiece (ctx : Nat) (p : Nat × Nat) : NoAccess s (s.readPiece ctx p).s := by
  unfold State.readPiece
  refine (noAccess_walkFor s ctx p.1).trans ?_
  generalize s.walkFor ctx p.1 = u
  dsimp only
  cases u.lead (cpxSalt p.1) ctx p.1 .load with
  | miss m => exact noAccess_cpxWalkMiss u _ _ _
  | refused r => exact .refl u
  | ok t =>
    dsimp only
    cases u.targetOf t p.1 with
    | here a inter w c =>
      have read := (noAccess_befall u inter.toNat a (u.hitAt a)).trans (noAccess_agentRead _ inter.toNat w c a p.2)
      refine .ite_of Got.s ((noAccess_cpxFault u _ _ _).trans (noAccess_tamperAlarmed _)) ?_
      split
      · exact read.trans (noAccess_cpxFault _ _ _ _)
      · exact read
    | away dev a w c => exact noAccess_cpxFar u _ _ _ _ _ _
    | spm o => exact .refl u
    | door o => exact .refl u

theorem noAccess_readPieces (ctx : Nat) (l : List (Nat × Nat)) (g : Got) (h : NoAccess s g.s) : NoAccess s (readPieces ctx l g).s := by
  induction l generalizing g with
  | nil => exact h
  | cons p rest ih =>
    unfold readPieces
    split
    · exact h
    · exact ih _ (h.trans (noAccess_readPiece g.s ctx p))

theorem noAccess_readVa (ctx va n : Nat) : NoAccess s (s.readVa ctx va n).s := noAccess_readPieces s ctx _ _ (.refl s)

end Failures

end Sys2Proof.Claims
end

section
-- One proof after another: side by side their threads pass the limit of memory that the check sets.
set_option Elab.async false
/-! CLAIM. PACKET_START (R23, R47, R77 to R80, R111, R112, R116, R117, R125). -/

namespace Sys2Proof.Claims

open Sys2Proof Sys2Proof.Machine

/-! ## The packet at RIDX -/

theorem unsent_queueError (s : State) (q : Nat) (status : BitVec 8) (tag index : Word) : Unsent s (s.queueError q status tag index) := by
  have record (f g : Queue → Queue) : Unsent s ((s.modQueue q f).modQueue q g) := (unsent_modQueue s q f).trans (unsent_modQueue _ q g)
  unfold State.queueError
  dsimp only
  split
  · exact .ite ((record _ _).trans (unsent_modCtx _ _ _)) (record _ _)
  · exact record _ _

/-- Where the packet at RIDX stands: the low 12 bits of CQ_BASE do not count (R77; log 24). -/
def packetAt (x : Queue) : Nat := x.base.toNat / 4096 * 4096 + x.ridx.toNat % 2 ^ x.cqLog2.toNat * 64

/-- A queue's packet read and well formed: it is the packet at RIDX, and shows BLOCKED unless it may start. -/
def packetRead (z : State) (q c : Nat) (p : Packet) : State :=
  let y := z.modQueue q fun x => { x with cur := some p }
  if y.mayStart q c p then y else y.showBlocked q

section Reads

variable (s : State) (q c : Nat)

theorem readPacket_failed (h : (s.readVa c (packetAt (s.queue q)) 64).bytes = none) : s.readPacket q c =
    (s.readVa c (packetAt (s.queue q)) 64).s.queueError q 2 0 ((s.readVa c (packetAt (s.queue q)) 64).s.queue q).ridx := by
  rw [(noAccess_readVa s c _ 64).queue q]
  simp only [packetAt] at h ⊢
  simp only [State.readPacket, ringAddr_eq, Queue.size, h]
  rfl

variable {bs : List Byte} (h : (s.readVa c (packetAt (s.queue q)) 64).bytes = some bs)
include h

theorem readPacket_malformed (bad : ({ index := (s.queue q).ridx, bytes := bs } : Packet).malformed (s.ctx c).level.toNat = true) :
    s.readPacket q c = (s.readVa c (packetAt (s.queue q)) 64).s.queueError q 8 ({ index := (s.queue q).ridx, bytes := bs } : Packet).tag
      ((s.readVa c (packetAt (s.queue q)) 64).s.queue q).ridx := by
  rw [(noAccess_readVa s c _ 64).queue q]
  simp only [packetAt] at h ⊢
  simp only [State.readPacket, ringAddr_eq, Queue.size, h, bad]
  rfl

theorem readPacket_wellFormed (good : ({ index := (s.queue q).ridx, bytes := bs } : Packet).malformed (s.ctx c).level.toNat = false) :
    s.readPacket q c = packetRead (s.readVa c (packetAt (s.queue q)) 64).s q c { index := (s.queue q).ridx, bytes := bs } := by
  simp only [packetAt] at h ⊢
  simp only [State.readPacket, ringAddr_eq, Queue.size, h, good]
  rfl

end Reads

theorem unsent_packetRead (z : State) (q c : Nat) (p : Packet) : Unsent z (packetRead z q c p) :=
  .ite (unsent_modQueue z q _) ((unsent_modQueue z q _).trans (unsent_modQueue _ q _))

theorem unsent_readPacket (s : State) (q c : Nat) : Unsent s (s.readPacket q c) := by
  have read := unsent_readVa s c (packetAt (s.queue q)) 64
  cases h : (s.readVa c (packetAt (s.queue q)) 64).bytes with
  | none =>
    rw [readPacket_failed s q c h]
    exact read.trans (unsent_queueError _ _ _ _ _)
  | some bs =>
    cases form : ({ index := (s.queue q).ridx, bytes := bs } : Packet).malformed (s.ctx c).level.toNat with
    | true =>
      rw [readPacket_malformed s q c h form]
      exact read.trans (unsent_queueError _ _ _ _ _)
    | false =>
      rw [readPacket_wellFormed s q c h form]
      exact read.trans (unsent_packetRead _ _ _ _)

/-- A packet read and well formed is the packet at RIDX, and shows BLOCKED unless it may start. -/
theorem packetRead_spec (z : State) (q c : Nat) (p : Packet) : ∃ y, OnlyQueue z y q { z.queue q with cur := some p } ∧
    (MayBegin y q c p → packetRead z q c p = y) ∧
    (¬MayBegin y q c p → OnlyQueue y (packetRead z q c p) q { z.queue q with cur := some p, state := .blocked }) := by
  have only := onlyQueue_modQueue z q fun x => { x with cur := some p }
  refine ⟨_, only, fun may => if_pos ((mayStart_iff _ q c p).2 may), fun waits => ?_⟩
  rw [packetRead, if_neg (mt (mayStart_iff _ q c p).1 waits)]
  obtain ⟨-, same, -⟩ := only
  have blocked := onlyQueue_modQueue (z.modQueue q fun x => { x with cur := some p }) q fun x => { x with state := .blocked }
  rwa [same] at blocked

/-! ## PACKET_START -/

/-- The queue of the event has a packet to look at (R77, R78, R111, R136). -/
structure LooksAt (s : State) (c : CtxId) : Prop where
  owner : (s.queue s.input.slot.toNat).owner = some c
  runs : (s.queue s.input.slot.toNat).state = .run ∨ (s.queue s.input.slot.toNat).state = .blocked
  more : (s.queue s.input.slot.toNat).ridx ≠ (s.queue s.input.slot.toNat).widx
  thawed : (s.ctx c.toNat).freeze = 0
  keys : s.cfg.erased = false

theorem LooksAt.occasion {s : State} {c : CtxId} (h : LooksAt s c) :
    (!((s.queue s.input.slot.toNat).state == .run || (s.queue s.input.slot.toNat).state == .blocked) ||
      (s.queue s.input.slot.toNat).ridx == (s.queue s.input.slot.toNat).widx || s.isFrozen c.toNat || s.cfg.erased) = false := by
  rcases h.runs with runs | runs <;> simp [State.isFrozen, runs, h.more, h.thawed, h.keys]

theorem lookAtPacket_read {s : State} {c : CtxId} (h : LooksAt s c) (cur : (s.queue s.input.slot.toNat).cur = none) :
    lookAtPacket s = .next (s.readPacket s.input.slot.toNat c.toNat) := by
  simp only [lookAtPacket, h.owner, h.occasion, cur]
  rfl

theorem lookAtPacket_blocked {s : State} {c : CtxId} (h : LooksAt s c) {p : Packet} (cur : (s.queue s.input.slot.toNat).cur = some p)
    (running : (s.queue s.input.slot.toNat).state = .run) (waits : s.mayStart s.input.slot.toNat c.toNat p = false) :
    lookAtPacket s = .next (s.showBlocked s.input.slot.toNat) := by
  simp only [lookAtPacket, h.owner, h.occasion, cur]
  have blocks : ((s.queue s.input.slot.toNat).state == .run && !s.mayStart s.input.slot.toNat c.toNat p) = true := by rw [running, waits]; rfl
  exact if_pos blocks

/-- Settles O37: PACKET_START is the reading of the packet on a state with no access waiting, and what follows from its bytes. -/
theorem packetStarts : Obligations.PacketStarts := by
  unfold Obligations.PacketStarts
  refine ⟨mayStart_iff, ?_⟩
  intro s c q x a owner runs more thawed keys
  have looks : LooksAt (calm s) c := ⟨owner, runs, more, thawed, keys⟩
  refine ⟨fun p cur running waits => ?_, fun cur => ?_⟩
  · have held : (calm s).mayStart q c.toNat p = false := by rwa [mayStart_calm, ← Bool.not_eq_true, mayStart_iff]
    have takes := takesPlace_throughLinks (i := .packetStart) rfl (lookAtPacket_blocked looks cur running held) (unsent_modQueue _ _ _)
    exact ⟨_, takes.quiet rfl (not_sentFor_of_ports rfl), onlyQueue_modQueue (calm s) q _⟩
  · have takes : TakesPlace .packetStart s ((calm s).readPacket q c.toNat) :=
      takesPlace_throughLinks rfl (lookAtPacket_read looks cur) (unsent_readPacket _ _ _)
    have same : ((calm s).readVa c.toNat a 64).s.queue q = x := (noAccess_readVa (calm s) c.toNat a 64).queue q
    refine ⟨_, _, rfl, takes, fun failed => ?_, ?_⟩
    · rw [readPacket_failed (calm s) q c.toNat failed]
      exact erroredWith_queueError _ q 2 0
    intro bs read p
    refine ⟨fun good => ?_, fun bad => ?_⟩
    · rw [readPacket_wellFormed (calm s) q c.toNat read good, ← same]
      exact packetRead_spec _ q c.toNat p
    · rw [readPacket_malformed (calm s) q c.toNat read bad, pnum_eq_field]
      exact erroredWith_queueError _ q 8 p.tag

end Sys2Proof.Claims
end

section
-- One proof after another: side by side their threads pass the limit of memory that the check sets.
set_option Elab.async false
/-! SUPPORT. Accesses by the command processor, word by word: their pieces, what the read and the write of a word do, and which ranges may be written. -/

namespace Sys2Proof.Claims

open Sys2Proof Sys2Proof.Machine

/-! ## Pieces -/

/-- A range within an aligned word is one piece. -/
theorem pieces_word {va n : Nat} (pos : 0 < n) (within : va % 8 + n ≤ 8) (fuel : Nat) : pieces (fuel + 2) va n = [(va, n)] := by
  have len : min n (8 - va % 8) = n := by omega
  simp [pieces, len, Nat.ne_of_gt pos]

theorem piecesOf_word {va n : Nat} (pos : 0 < n) (within : va % 8 + n ≤ 8) : piecesOf va n = [(va, n)] := pieces_word pos within _

/-- Fuel for each aligned word that a range reaches. -/
def Fuels (f va n : Nat) : Prop := n = 0 ∨ va % 8 + n ≤ 8 * f

theorem fuels_piecesOf (va n : Nat) : Fuels (n / 8 + 2) va n := .inr (by omega)

/-- Fuel for a range is enough, less one, for what follows its first piece. -/
theorem Fuels.rest {f va n : Nat} (h : Fuels (f + 1) va n) : Fuels f (va + min n (8 - va % 8)) (n - min n (8 - va % 8)) := by
  unfold Fuels at h ⊢
  by_cases short : n ≤ 8 - va % 8
  · left
    omega
  · right
    rw [Nat.min_eq_right (by omega)]
    omega

theorem Fuels.eq_zero {va n : Nat} (h : Fuels 0 va n) : n = 0 := by
  unfold Fuels at h
  omega

theorem pieces_fuel {f g va n : Nat} (hf : Fuels f va n) (hg : Fuels g va n) : pieces f va n = pieces g va n := by
  induction f generalizing g va n with
  | zero =>
    rw [hf.eq_zero]
    cases g <;> rfl
  | succ f ih =>
    cases g with
    | zero =>
      rw [hg.eq_zero]
      rfl
    | succ g =>
      rw [pieces, pieces, ih hf.rest hg.rest]

/-- The first piece of a range beyond an aligned word ends at the word's end. -/
theorem piecesOf_cons {va n : Nat} (h : 8 < va % 8 + n) :
    piecesOf va n = (va, 8 - va % 8) :: piecesOf (va + (8 - va % 8)) (n - (8 - va % 8)) := by
  have len : min n (8 - va % 8) = 8 - va % 8 := by omega
  have rest := (fuels_piecesOf va n).rest
  rw [len] at rest
  rw [piecesOf, pieces, if_neg (by omega), len]
  exact congrArg _ (pieces_fuel rest (fuels_piecesOf _ _))

/-- The pieces of a range start at its first byte and at each aligned word within it. -/
theorem pieces_all (P : Nat → Bool) {f va n : Nat} (hf : Fuels f va n) :
    ((pieces f va n).all fun p => P p.1) = true ↔ ∀ j < n, j = 0 ∨ (va + j) % 8 = 0 → P (va + j) = true := by
  induction f generalizing va n with
  | zero => simp [hf.eq_zero, pieces]
  | succ f ih =>
    by_cases h : n = 0
    · simp [pieces, h]
    · rw [pieces, if_neg h, List.all_cons, Bool.and_eq_true, ih hf.rest]
      generalize hk : min n (8 - va % 8) = k
      constructor
      · rintro ⟨first, rest⟩ j hj start
        by_cases hjk : j < k
        · obtain rfl : j = 0 := by omega
          exact first
        · have := rest (j - k) (by omega) (by omega)
          rwa [show va + k + (j - k) = va + j by omega] at this
      · intro all
        refine ⟨all 0 (by omega) (.inl rfl), fun j hj start => ?_⟩
        have := all (k + j) (by omega) (by omega)
        rwa [← Nat.add_assoc] at this

theorem linePartsOf_word {va n : Nat} (pos : 0 < n) (within : va % 8 + n ≤ 8) : linePartsOf va n = [(va, n)] := by
  have len : min n (64 - va % 64) = n := by omega
  simp [linePartsOf, lineParts, len, Nat.ne_of_gt pos]

/-! ## Reads, word by word -/

theorem readVa_word (s : State) (c : Nat) {va n : Nat} (pos : 0 < n) (within : va % 8 + n ≤ 8) : s.readVa c va n = s.readPiece c (va, n) := by
  rw [State.readVa, piecesOf_word pos within]
  simp [readPieces]

theorem readPieces_failed (c : Nat) (l : List (Nat × Nat)) {g : Got} (h : g.bytes = none) : readPieces c l g = g := by
  cases l with
  | nil => rfl
  | cons p rest => simp [readPieces, h]

/-- Bytes read already stand before those that follow. -/
theorem readPieces_after (c : Nat) (l : List (Nat × Nat)) (s : State) (bs cs : List Byte) :
    readPieces c l { s := s, bytes := some (bs ++ cs) } =
      { s := (readPieces c l { s := s, bytes := some cs }).s, bytes := (readPieces c l { s := s, bytes := some cs }).bytes.map fun r => bs ++ r } := by
  induction l generalizing s cs with
  | nil => rfl
  | cons p rest ih =>
    simp only [readPieces]
    cases (s.readPiece c p).bytes with
    | none => simp [readPieces_failed]
    | some x =>
      simp only [Option.map_some, List.append_assoc]
      exact ih _ _

theorem readVa_beyond (s : State) (c : Nat) {va n : Nat} (h : 8 < va % 8 + n) :
    ((s.readVa c va (8 - va % 8)).bytes = none → s.readVa c va n = s.readVa c va (8 - va % 8)) ∧
    ∀ bs, (s.readVa c va (8 - va % 8)).bytes = some bs → s.readVa c va n =
      { s := ((s.readVa c va (8 - va % 8)).s.readVa c (va + (8 - va % 8)) (n - (8 - va % 8))).s
        bytes := ((s.readVa c va (8 - va % 8)).s.readVa c (va + (8 - va % 8)) (n - (8 - va % 8))).bytes.map fun r => bs ++ r } := by
  have first : s.readVa c va (8 - va % 8) = s.readPiece c (va, 8 - va % 8) := readVa_word s c (by omega) (by omega)
  have all : s.readVa c va n = readPieces c (piecesOf (va + (8 - va % 8)) (n - (8 - va % 8)))
      { s.readPiece c (va, 8 - va % 8) with bytes := (s.readPiece c (va, 8 - va % 8)).bytes.map fun y => [] ++ y } := by
    rw [State.readVa, piecesOf_cons h]
    rfl
  rw [first, all]
  refine ⟨fun lost => ?_, fun bs got => ?_⟩
  · rw [readPieces_failed _ _ (by simp [lost]), lost]
    simp [← lost]
  · have after := readPieces_after c (piecesOf (va + (8 - va % 8)) (n - (8 - va % 8))) (s.readPiece c (va, 8 - va % 8)).s bs []
    rw [List.append_nil] at after
    rw [got]
    exact after

/-! ## At home -/

theorem hitAt_of_noHits {s : State} (h : s.input.hits = []) (a : Nat) : s.hitAt a = .plain := by
  rw [State.hitAt, h]
  rfl

theorem netFails_of_noHits {s : State} (h : s.input.hits = []) (a n : Nat) : s.netFails a n = false := by
  simp [State.netFails, hitAt_of_noHits h]

theorem befall_of_noHits {s : State} (h : s.input.hits = []) (inter a b : Nat) : s.befall inter a (s.hitAt b) = s := by
  rw [hitAt_of_noHits h, State.befall]
  cases s.reached a <;> rfl

theorem read_eq_map (m : Mem) (k n : Nat) : m.read k n = (List.range n).map fun j => m.get (k + j) := by
  induction n generalizing k with
  | zero => rfl
  | succ n ih =>
    rw [Mem.read, ih, List.range_succ_eq_map, List.map_cons, List.map_map]
    refine congrArg _ (List.map_congr_left fun j _ => ?_)
    show m.get (k + 1 + j) = m.get (k + (j + 1))
    rw [Nat.add_assoc, Nat.add_comm 1]

theorem spoiled_eq_none_iff (s : State) (i : BitVec 3) (a : Nat) (w : BitVec 6) (c : BitVec 2) : s.spoiled i.toNat a w c = none ↔ Clean s i w c a := by
  unfold State.spoiled Clean
  dsimp only
  cases s.mem.poisoned (s.place i.toNat a) <;> cases s.mem.tagOk (s.place i.toNat a) a w c <;> simp

theorem spoiledRange_word (s : State) (inter a : Nat) {n : Nat} (pos : 0 < n) (le : n ≤ 8) (w : BitVec 6) (c : BitVec 2) :
    s.spoiledRange inter a n w c = s.spoiled inter a w c := by
  have one : (n + 7) / 8 = 1 := by omega
  rw [State.spoiledRange, one]
  cases h : s.spoiled inter a w c <;> simp [h]

theorem homeRead_memory (s : State) (inter : Nat) (w : BitVec 6) (c : BitVec 2) {a : Nat} (n : Nat) (mem : MemByte a) :
    (s.spoiledRange inter a n w c = none → s.homeRead inter w c a n = { s := s, bytes := s.readLocal inter a n, fail := none }) ∧
    ∀ cause, s.spoiledRange inter a n w c = some cause → s.homeRead inter w c a n = s.homeFail n cause := by
  rcases mem with h | h <;> exact ⟨fun clean => by simp [State.homeRead, h, clean], fun cause bad => by simp [State.homeRead, h, bad]⟩

/-- A clean word of HBM or SBM is read at its home (R57). -/
theorem homeRead_clean {s : State} {i : BitVec 3} {w : BitVec 6} {c : BitVec 2} {a n : Nat} (mem : MemByte a) (pos : 0 < n) (le : n ≤ 8)
    (clean : Clean s i w c a) : s.homeRead i.toNat w c a n =
      { s := s, bytes := (List.range n).map fun j => s.mem.get (s.place i.toNat a + j), fail := none } := by
  rw [(homeRead_memory s i.toNat w c n mem).1 (by rw [spoiledRange_word s _ _ pos le, (spoiled_eq_none_iff s i a w c).2 clean]), State.readLocal, read_eq_map]

/-- A word that is poisoned or fails its tag fails (R69, R128). -/
theorem homeRead_unclean {s : State} {i : BitVec 3} {w : BitVec 6} {c : BitVec 2} {a n : Nat} (mem : MemByte a) (pos : 0 < n) (le : n ≤ 8)
    (bad : ¬Clean s i w c a) : ∃ cause, s.homeRead i.toNat w c a n = s.homeFail n cause := by
  obtain ⟨cause, h⟩ := Option.ne_none_iff_exists'.1 (mt (spoiled_eq_none_iff s i a w c).1 bad)
  exact ⟨cause, (homeRead_memory s i.toNat w c n mem).2 cause (by rw [spoiledRange_word s _ _ pos le, h])⟩

theorem map_range_eq {bs : List Byte} {g : Nat → Byte} (h : ∀ i < bs.length, g i = bs.getD i 0) : (List.range bs.length).map g = bs :=
  List.ext_getElem (by simp) fun i hi hi' => by simp [h i hi', hi']

/-- Bytes that no collective under way will replace are read as they stand (R44). -/
theorem agentRead_unmixed (s : State) (inter : Nat) (w : BitVec 6) (c : BitVec 2) (a n : Nat)
    (h : ∀ j < (s.homeRead inter w c a n).bytes.length, s.mixed (a + j) = false) : s.agentRead inter w c a n = s.homeRead inter w c a n := by
  unfold State.agentRead
  split
  · rfl
  · refine congrArg (fun b => ({ s.homeRead inter w c a n with bytes := b } : HomeOut)) (map_range_eq fun i hi => ?_)
    have kept : s.newByte (a + i) = none := by simpa [State.mixed] using h i hi
    rw [kept]

theorem agentRead_fail (s : State) (inter : Nat) (w : BitVec 6) (c : BitVec 2) (a n : Nat) :
    (s.agentRead inter w c a n).fail = (s.homeRead inter w c a n).fail := by
  unfold State.agentRead
  dsimp only
  split <;> rfl

/-! ## One word by the command processor -/

theorem readPiece_refused {s : State} {c va n : Nat} {r : Bool} (h : (s.walkFor c va).lead (cpxSalt va) c va .load = .refused r) :
    s.readPiece c (va, n) = { s := s.walkFor c va } := by
  simp only [State.readPiece, h]

theorem readPiece_missed {s : State} {c va n : Nat} {m : Miss} (h : (s.walkFor c va).lead (cpxSalt va) c va .load = .miss m) :
    s.readPiece c (va, n) = { s := (s.walkFor c va).cpxWalkMiss c va m } := by
  simp only [State.readPiece, h]

section Home

variable {s0 s : State} {c va n : Nat} (walked : s0.walkFor c va = s) {t : Trans} {a : Nat} {i : BitVec 3} {w : BitVec 6} {m : BitVec 2}
  (here : s.targetOf t va = .here a i w m) (mem : MemByte a) (noHits : s.input.hits = []) (pos : 0 < n) (le : n ≤ 8)
include walked here mem noHits pos le

theorem readPiece_clean (led : s.lead (cpxSalt va) c va .load = .ok t) (clean : Clean s i w m a) (unmixed : ∀ j < n, s.mixed (a + j) = false) :
    s0.readPiece c (va, n) = { s := s, bytes := some ((List.range n).map fun j => s.mem.get (s.place i.toNat a + j)) } := by
  have home := homeRead_clean mem pos le clean
  have read := agentRead_unmixed s i.toNat w m a n (by rw [home]; simpa using unmixed)
  simp only [State.readPiece, walked, led, here, befall_of_noHits noHits, read, home]
  rw [hitAt_of_noHits noHits]
  rfl

theorem readPiece_unclean (led : s.lead (cpxSalt va) c va .load = .ok t) (bad : ¬Clean s i w m a) :
    (s0.readPiece c (va, n)).bytes = none ∧ NoAccess s (s0.readPiece c (va, n)).s := by
  obtain ⟨cause, home⟩ := homeRead_unclean mem pos le bad
  have fail : (s.agentRead i.toNat w m a n).fail = some cause := by rw [agentRead_fail, home]; rfl
  have eq : s0.readPiece c (va, n) = { s := (s.agentRead i.toNat w m a n).s.cpxFault c cause (BitVec.ofNat 64 va) } := by
    simp only [State.readPiece, walked, led, here, befall_of_noHits noHits, fail]
    rw [hitAt_of_noHits noHits]
    rfl
  rw [eq]
  exact ⟨rfl, (noAccess_agentRead s _ _ _ _ _).trans (noAccess_cpxFault _ _ _ _)⟩

end Home

/-! ## Writes -/

theorem writeMasked_only (bs : List Byte) (m : Mem) (k mask : Nat) : m.writeMasked k mask bs = { m with cells := (m.writeMasked k mask bs).cells } := by
  induction bs generalizing m k mask with
  | nil => rfl
  | cons b rest ih =>
    rw [Mem.writeMasked, ih]
    split <;> rfl

theorem write_only (bs : List Byte) (m : Mem) (k : Nat) : m.write k bs = { m with cells := (m.write k bs).cells } := by
  induction bs generalizing m k with
  | nil => rfl
  | cons b rest ih =>
    rw [Mem.write, ih]
    rfl

/-- Bytes written under a mask: those that the mask admits, and no others. -/
theorem get_writeMasked (bs : List Byte) (m : Mem) (k mask j : Nat) : (m.writeMasked k mask bs).get j =
    if k ≤ j ∧ j < k + bs.length ∧ mask.testBit (j - k) = true then bs.getD (j - k) 0 else m.get j := by
  induction bs generalizing m k mask with
  | nil => rw [Mem.writeMasked, if_neg (by simp; omega)]
  | cons b rest ih =>
    have other (h : j ≠ k) : (if mask.testBit 0 = true then m.set k b else m).get j = m.get j := by
      split
      · exact Mem.get_set_other _ _ _ _ h
      · rfl
    rw [Mem.writeMasked, ih]
    rcases Nat.lt_trichotomy j k with lt | rfl | gt
    · have before : ¬(k ≤ j ∧ j < k + (b :: rest).length ∧ mask.testBit (j - k) = true) := fun h => by omega
      have before' : ¬(k + 1 ≤ j ∧ j < k + 1 + rest.length ∧ (mask >>> 1).testBit (j - (k + 1)) = true) := fun h => by omega
      rw [if_neg before', if_neg before, other (by omega)]
    · have first : ¬(j + 1 ≤ j ∧ j < j + 1 + rest.length ∧ (mask >>> 1).testBit (j - (j + 1)) = true) := fun h => by omega
      rw [if_neg first, Nat.sub_self]
      split <;> simp [*]
    · obtain ⟨d, rfl⟩ := Nat.exists_eq_add_of_lt gt
      have bit : (mask >>> 1).testBit (k + d + 1 - (k + 1)) = mask.testBit (k + d + 1 - k) := by
        rw [Nat.testBit_shiftRight]
        congr 1
        omega
      have value : rest.getD (k + d + 1 - (k + 1)) 0 = (b :: rest).getD (k + d + 1 - k) 0 := by
        rw [show k + d + 1 - (k + 1) = d by omega, show k + d + 1 - k = d + 1 by omega, List.getD_cons_succ]
      rw [bit, value, List.length_cons, other (by omega)]
      exact if_congr (and_congr (by omega) (and_congr (by omega) Iff.rfl)) rfl rfl

theorem get_write (bs : List Byte) (m : Mem) (k j : Nat) : (m.write k bs).get j = if k ≤ j ∧ j < k + bs.length then bs.getD (j - k) 0 else m.get j := by
  by_cases h : k ≤ j ∧ j < k + bs.length
  · obtain ⟨d, rfl⟩ := Nat.exists_eq_add_of_le h.1
    have hd : d < bs.length := by omega
    rw [if_pos h, Mem.get_write bs m k d hd]
    simp [hd]
  · rw [if_neg h, Mem.get_write_other bs m k j (by omega)]

theorem fst_of_mem_sbmWords {len mask : Nat} (le : len ≤ 8) {p : Nat × Bool} (h : p ∈ sbmWords len mask) : p.1 = 0 := by
  obtain ⟨i, hi, rfl⟩ := List.mem_map.1 h
  have := List.mem_range.1 (List.mem_filter.1 hi).1
  show 8 * i = 0
  omega

/-- A word written at a place of HBM or SBM that is not poisoned: its bytes, and the tag of a line of HBM (R127). -/
theorem mem_cellWrite_clean {m : Mem} {k : Nat} (clean : m.poisoned k = false) (a mask : Nat) (w : BitVec 6) (c : BitVec 2) {bs : List Byte}
    (le : bs.length ≤ 8) (whole : Bool) : ∃ lines, m.cellWrite k a mask w c bs whole = { m.writeMasked k mask bs with lines := lines } := by
  have fixed (l : List (Nat × Bool)) (h : ∀ p ∈ l, p.1 = 0) : (l.foldl (fun x p => if x.poisoned (k + p.1) = true then
      { x with poison := Sparse.set false (poisonUnit (k + p.1)) false x.poison } else x) m) = m := by
    induction l with
    | nil => rfl
    | cons p rest ih =>
      rw [List.foldl_cons, h p List.mem_cons_self, Nat.add_zero, if_neg (by simp [clean]), ih fun x hx => h x (List.mem_cons_of_mem _ hx)]
  unfold Mem.cellWrite
  split
  · refine ⟨(m.writeMasked k mask bs).lines, ?_⟩
    dsimp only
    rw [fixed _ fun p hp => fst_of_mem_sbmWords le (List.mem_of_mem_filter hp)]
  · simp only [clean]
    exact ⟨_, rfl⟩

theorem cellWrite_clean {s : State} {i : BitVec 3} {w : BitVec 6} {c : BitVec 2} {a mask : Nat} {bs : List Byte} (le : bs.length ≤ 8)
    (clean : Clean s i w c a) (sector line : Bool) : s.cellWrite i.toNat w c a mask bs sector line =
      { s := { s with mem := s.mem.cellWrite (s.place i.toNat a) a mask w c bs sector }, bytes := [], fail := none } := by
  obtain ⟨unpoisoned, tag⟩ := clean
  have sbm : ((sbmWords bs.length mask).any fun p => s.mem.poisoned (s.place i.toNat a + p.1) && !p.2 && !sector) = false := by
    refine List.any_eq_false.2 fun p hp => ?_
    simp [fst_of_mem_sbmWords le hp, unpoisoned]
  simp [State.cellWrite, sbm, unpoisoned, tag]

theorem homeWrite_memory (s : State) (inter : Nat) (w : BitVec 6) (c : BitVec 2) {a : Nat} (mask : Nat) (bs : List Byte) (sector line : Bool)
    (mem : MemByte a) : s.homeWrite inter w c a mask bs sector line = s.cellWrite inter w c a mask bs sector line := by
  rcases mem with h | h <;> simp [State.homeWrite, h]

/-- A word written by the command processor at a clean place of HBM or SBM (R57, R85, R127). -/
theorem putTarget_clean {s : State} {a : Nat} {i : BitVec 3} {w : BitVec 6} {m : BitVec 2} (mem : MemByte a) (noHits : s.input.hits = [])
    (clean : Clean s i w m a) (c va : Nat) {bs : List Byte} (le : bs.length ≤ 8) (whole : Nat × Nat) :
    ∃ z, s.putTarget c va (.here a i w m) bs whole = { s := z, ok := true } ∧ z = { s with mem := { s.mem with cells := z.mem.cells, lines := z.mem.lines } } ∧
      ∀ k, z.mem.get k = if s.place i.toNat a ≤ k ∧ k < s.place i.toNat a + bs.length then bs.getD (k - s.place i.toNat a) 0 else s.mem.get k := by
  obtain ⟨lines, stored⟩ := mem_cellWrite_clean clean.1 a (2 ^ 64 - 1) w m le (unitIn (regionOf a) whole.1 whole.2 va)
  refine ⟨{ s with mem := s.mem.cellWrite (s.place i.toNat a) a (2 ^ 64 - 1) w m bs (unitIn (regionOf a) whole.1 whole.2 va) }, ?_, ?_, fun k => ?_⟩
  · rw [State.putTarget, netFails_of_noHits noHits, befallRange_of_noHits noHits, homeWrite_memory s _ _ _ _ _ _ _ mem, cellWrite_clean le clean]
    rfl
  · rw [stored, writeMasked_only]
  · have all : k < s.place i.toNat a + bs.length → (2 ^ 64 - 1).testBit (k - s.place i.toNat a) = true := fun h => by
      rw [Nat.testBit_two_pow_sub_one]
      simp
      omega
    show (s.mem.cellWrite (s.place i.toNat a) a (2 ^ 64 - 1) w m bs (unitIn (regionOf a) whole.1 whole.2 va)).get k = _
    rw [stored]
    refine (get_writeMasked bs s.mem _ _ k).trans (if_congr ⟨?_, ?_⟩ rfl rfl)
    · rintro ⟨lo, hi, -⟩
      exact ⟨lo, hi⟩
    · rintro ⟨lo, hi⟩
      exact ⟨lo, hi, all hi⟩

/-- A range within an aligned word is written in one part. -/
theorem partsAt_word (s : State) (c : Nat) {va n : Nat} (pos : 0 < n) (within : va % 8 + n ≤ 8) : s.partsAt c va n = [(va, n)] := by
  simp [State.partsAt, linePartsOf_word pos within, piecesOf_word pos within]

theorem tryWrite_word (s : State) (c : Nat) {va : Nat} {bs : List Byte} (pos : 0 < bs.length) (within : va % 8 + bs.length ≤ 8)
    (may : s.canWrite c va bs.length = true) : s.tryWrite c va bs = s.writePiece c (va, bs.length) bs (va, bs.length) := by
  rw [State.tryWrite, if_pos may, State.putVa, partsAt_word s c pos within]
  simp [writePieces]

theorem writePiece_led {s0 s : State} {c va : Nat} (walked : s0.walkFor c va = s) {t : Trans} (led : s.lead (cpxSalt va) c va .store = .ok t) (n : Nat)
    (bs : List Byte) (whole : Nat × Nat) : s0.writePiece c (va, n) bs whole = s.putTarget c va (s.targetOf t va) bs whole := by
  simp only [State.writePiece, walked, led]

/-! ## Which ranges may be written -/

/-- The byte k of a range lies in the word that starts at its byte j (R85). -/
def WordOf (va k j : Nat) : Prop := k - 7 ≤ j ∧ j ≤ k ∧ (j = 0 ∨ (va + j) % 8 = 0) ∧ ∀ m, j < m → m ≤ k → (va + m) % 8 ≠ 0

theorem exists_wordOf (va k : Nat) : ∃ j, WordOf va k j := by
  by_cases h : k ≤ (va + k) % 8
  · exact ⟨0, by omega, by omega, .inl rfl, fun m _ _ => by omega⟩
  · exact ⟨k - (va + k) % 8, by omega, by omega, .inr (by omega), fun m _ _ => by omega⟩

theorem canWrite_iff (s : State) (c va n : Nat) : s.canWrite c va n = true ↔
    ∀ k < n, ∃ j, WordOf va k j ∧ ∃ t, s.lead (cpxSalt (va + j)) c (va + j) .store = .ok t := by
  have led (x : Nat) : (match s.lead (cpxSalt x) c x .store with | .ok _ => true | _ => false) = true ↔
      ∃ t, s.lead (cpxSalt x) c x .store = .ok t := by
    cases s.lead (cpxSalt x) c x .store <;> simp
  have words := pieces_all (fun x => match s.lead (cpxSalt x) c x .store with | .ok _ => true | _ => false) (fuels_piecesOf va n)
  simp only [led] at words
  refine Iff.trans words ⟨fun all k hk => ?_, fun all j hj start => ?_⟩
  · obtain ⟨j, word⟩ := exists_wordOf va k
    obtain ⟨-, le, start, -⟩ := id word
    exact ⟨j, word, all j (by omega) start⟩
  · obtain ⟨i, ⟨-, le, -, last⟩, t⟩ := all j hj
    obtain rfl : i = j := by
      by_contra ne
      rcases start with rfl | start
      · omega
      · exact last j (by omega) (Nat.le_refl j) start
    exact t

theorem tryWrite_refused {s : State} {c va : Nat} {bs : List Byte} (h : s.canWrite c va bs.length = false) :
    (s.tryWrite c va bs).ok = false ∧ NoAccess s (s.tryWrite c va bs).s := by
  rw [State.tryWrite, h]
  exact ⟨rfl, noAccess_writeFault s c _⟩

end Sys2Proof.Claims
end

section
-- One proof after another: side by side their threads pass the limit of memory that the check sets.
set_option Elab.async false
/-! CLAIM. WRITE, FAULT_DONE and FLOG_APPEND (R22, R39, R47, R67, R69, R77, R85 to R87, R99, R127, R128). -/

namespace Sys2Proof.Claims

open Sys2Proof Sys2Proof.Machine

theorem commandAccesses : CommandAccesses := by
  refine ⟨fun s0 c va n pos within => ?_, fun s c va n => readVa_beyond s c, fun s c va bs => ⟨?_, tryWrite_refused⟩⟩
  case refine_2 => simpa only [WordOf, and_assoc] using canWrite_iff s c va bs.length
  have le : n ≤ 8 := by omega
  rw [readVa_word s0 c pos within]
  refine ⟨?_, ?_, fun r led => readPiece_refused led, fun m led => ?_, ?_⟩
  · intro t a i w m led here mem noHits clean unmixed
    exact readPiece_clean rfl here mem noHits pos le led clean unmixed
  · intro t a i w m led here mem noHits bad
    exact readPiece_unclean rfl here mem noHits pos le led bad
  · rw [readPiece_missed led]
    exact ⟨rfl, noAccess_cpxWalkMiss _ c va m⟩
  · rintro t a i w m bs rfl may led here mem noHits clean
    rw [tryWrite_word s0 c pos within may, writePiece_led rfl led, here]
    exact putTarget_clean mem noHits clean c va le (va, bs.length)

/-! ## WRITE -/

/-- What WRITE does once it has started (R85). -/
def written (s : State) (q : Nat) (p : Packet) (c : Nat) : State :=
  let r := s.tryWrite c (p.field 8 8) ((p.bytes.drop 24).take (p.field 16 1))
  r.s.complete q p (if r.ok then Status.ok else Status.addrBad) 0

theorem writes : PacketReaches .write 4 (fun y q c p t =>
    let r := y.tryWrite c (pnum p 8 8) ((p.bytes.drop 24).take (pnum p 16 1))
    Completed r.s t q p (if r.ok = true then 0 else 2) 0) := by
  refine packetReaches_of_event (eff := written) (fun s => rfl) (fun y q p c => ?_) fun y q p c => ?_
  · exact (unsent_tryWrite y _ _ _).trans (unsent_complete _ _ _ _ _)
  · simp only [pnum_eq_field]
    exact completed_complete _ q p _ 0

/-! ## FAULT_DONE -/

/-- The first member of a list with a property is the one found. -/
theorem find?_of_firstWith {α : Type} {P : α → Prop} {f : α → Bool} (hf : ∀ x, f x = true ↔ P x) {l : List α} {x : α} (h : FirstWith P l x) :
    l.find? f = some x := by
  obtain ⟨before, after, rfl, hx, others⟩ := h
  exact List.find?_eq_some_iff_append.2 ⟨(hf x).2 hx, before, after, rfl, fun y hy => by simpa using mt (hf y).1 (others y hy)⟩

theorem childOrRoot_iff (s : State) (c d : Nat) : s.childOrRoot c d = true ↔ ChildOf s c d ∨ (c = d ∧ (s.ctx c).level = 0) := by
  simp [State.childOrRoot, State.isChild, ChildOf, and_assoc]

/-- What FAULT_DONE does once it has started (R86, R99). -/
def faultDone (s : State) (q : Nat) (p : Packet) (c : Nat) : State :=
  let d := p.context
  if !s.childOrRoot c d then s.complete q p Status.denied 0
  else match (s.ctx d).pending.find? fun f => f.seq.toNat == p.field 12 4 with
    | none => s.complete q p Status.stale 0
    | some f => ((s.modCtx d fun x => { x with pending := x.pending.filter fun g => g.seq != f.seq }).returnTeam f.team).complete q p Status.ok 0

theorem returnTeam_keeps (s : State) (t : Nat) : (s.returnTeam t).fabric = s.fabric ∧ (s.returnTeam t).stall = s.stall ∧ (s.returnTeam t).eng = s.eng := by
  simp [State.returnTeam]

theorem faultDone_keeps (s : State) (q : Nat) (p : Packet) (c : Nat) :
    (faultDone s q p c).fabric = s.fabric ∧ (faultDone s q p c).stall = s.stall ∧ (faultDone s q p c).eng = s.eng := by
  unfold faultDone
  dsimp only
  split
  · simp
  · split
    · simp
    · simp [returnTeam_keeps]

theorem faultDone_stale {s : State} {q : Nat} {p : Packet} {c : Nat} (mine : s.childOrRoot c p.context = true)
    (stale : ((s.ctx p.context).pending.find? fun f => f.seq.toNat == p.field 12 4) = none) : faultDone s q p c = s.complete q p Status.stale 0 := by
  simp [faultDone, mine, stale]

theorem faultDone_found {s : State} {q : Nat} {p : Packet} {c : Nat} (mine : s.childOrRoot c p.context = true) {f : Pending}
    (found : ((s.ctx p.context).pending.find? fun f => f.seq.toNat == p.field 12 4) = some f) : faultDone s q p c =
      ((s.modCtx p.context fun x => { x with pending := x.pending.filter fun g => g.seq != f.seq }).returnTeam f.team).complete q p Status.ok 0 := by
  simp [faultDone, mine, found]

theorem faultsDone : PacketRuns .faultDone 5 (fun y q c p t =>
    let d := pnum p 8 2
    let mine := ChildOf y c d ∨ (c = d ∧ (y.ctx c).level = 0)
    (¬mine → Completed y t q p 6 0) ∧
    (mine → (∀ f ∈ (y.ctx d).pending, f.seq.toNat ≠ pnum p 12 4) → Completed y t q p 7 0) ∧
    (mine → ∀ f, FirstWith (fun g => g.seq.toNat = pnum p 12 4) (y.ctx d).pending f → ∃ z,
      OnlyCtx y z d { y.ctx d with pending := (y.ctx d).pending.filter fun g => g.seq != f.seq } ∧ Completed (z.returnTeam f.team) t q p 0 0)) := by
  refine packetRuns_of_event (eff := faultDone) (fun s => rfl) faultDone_keeps fun y q p c => ?_
  have context : pnum p 8 2 = p.context := pnum_eq_field p 8 2
  simp only [context, ← childOrRoot_iff]
  refine ⟨fun other => ?_, fun mine stale => ?_, fun mine f first => ?_⟩
  · rw [show faultDone y q p c = y.complete q p Status.denied 0 from if_pos (by simpa using other)]
    exact completed_complete y q p _ 0
  · have unknown : ((y.ctx p.context).pending.find? fun f => f.seq.toNat == p.field 12 4) = none :=
      List.find?_eq_none.2 fun f hf => by simpa [pnum_eq_field] using stale f hf
    rw [faultDone_stale mine unknown]
    exact completed_complete y q p _ 0
  · have found := find?_of_firstWith (f := fun g => g.seq.toNat == p.field 12 4) (fun g => by simp [pnum_eq_field]) first
    rw [faultDone_found mine found]
    exact ⟨_, onlyCtx_modCtx y p.context _, completed_complete _ q p _ 0⟩

/-! ## Pages of flash -/

theorem flashPage_eq_some_iff (s : State) (c va : Nat) (x : Nat × Trans) : s.flashPage c va = some x ↔ x.1 = x.2.frame ∧ FlashPage s c va x.2 := by
  have far : (va ≥ 0x100000000000000) = ¬va < 2 ^ 56 := by simp
  have own (t : Trans) : s.isOwn t.dev.toNat = true ↔ t.dev = s.fabric.deviceNum := by simp [State.isOwn, BitVec.toNat_inj]
  have stack (t : Trans) : bits t.frame 41 41 = t.frame / 2 ^ 41 % 2 := by simp [bits, Nat.shiftRight_eq_div_pow]
  obtain ⟨f, t⟩ := x
  simp only [State.flashPage, FlashPage, far, ite_not]
  by_cases near : va < 2 ^ 56
  · simp only [near, if_true, true_and]
    cases s.translate 0x9200000 c va with
    | error m => simp
    | ok u =>
      simp only [Bool.and_eq_true, own, stack, beq_iff_eq, and_assoc, Except.ok.injEq]
      split
      · next h =>
        simp only [Option.some.injEq, Prod.mk.injEq]
        constructor
        · rintro ⟨rfl, rfl⟩
          exact ⟨rfl, rfl, h⟩
        · rintro ⟨rfl, rfl, -⟩
          exact ⟨rfl, rfl⟩
      · next h =>
        simp only [reduceCtorEq, false_iff]
        rintro ⟨rfl, rfl, rest⟩
        exact h rest
  · simp only [near, if_false, reduceCtorEq, false_and, and_false]

theorem flashPage_of {s : State} {c va : Nat} {t : Trans} (h : FlashPage s c va t) : s.flashPage c va = some (t.frame, t) :=
  (flashPage_eq_some_iff s c va (t.frame, t)).2 ⟨rfl, h⟩

theorem flashPage_none {s : State} {c va : Nat} (h : ∀ t, ¬FlashPage s c va t) : s.flashPage c va = none :=
  Option.eq_none_iff_forall_ne_some.2 fun x hx => h x.2 ((flashPage_eq_some_iff s c va x).1 hx).2

/-- The addresses of consecutive pages. -/
def pagesFrom (dst n : Nat) : List Nat := (List.range n).map fun i => dst + 4096 * i

theorem pagesFrom_succ (dst n : Nat) : pagesFrom dst (n + 1) = dst :: pagesFrom (dst + 4096) n := by
  rw [pagesFrom, List.range_succ_eq_map, List.map_cons, List.map_map]
  refine congrArg _ (List.map_congr_left fun i _ => ?_)
  show dst + 4096 * (i + 1) = dst + 4096 + 4096 * i
  omega

theorem Walks.next {s : State} {c va : Nat} {w : Nat → State} (h : Walks s c va w) : Walks (w 1) c (va + 4096) fun j => w (j + 1) := by
  refine ⟨rfl, fun j => (h.2 (j + 1)).trans ?_⟩
  rw [show va + 4096 * (j + 1) = va + 4096 + 4096 * j by omega]

/-- Each page from an address on, after the walks up to it, is a flash page. -/
def AllFlash (w : Nat → State) (c dst n : Nat) : Prop := ∀ j < n, ∃ t, FlashPage (w (j + 1)) c (dst + 4096 * j) t

theorem allFlash_succ (w : Nat → State) (c dst n : Nat) : AllFlash w c dst (n + 1) ↔
    (∃ t, FlashPage (w 1) c dst t) ∧ AllFlash (fun j => w (j + 1)) c (dst + 4096) n := by
  have next (j : Nat) : dst + 4096 * (j + 1) = dst + 4096 + 4096 * j := by omega
  constructor
  · intro h
    refine ⟨h 0 (by omega), fun j hj => ?_⟩
    have := h (j + 1) (by omega)
    rwa [next] at this
  · rintro ⟨first, rest⟩ j hj
    cases j with
    | zero => exact first
    | succ j => rw [next]; exact rest j (by omega)

/-- The pages of an append walked for: all are flash pages, or the walks end at one that is none and leave nothing in memory. -/
theorem flashPages_walks {c n : Nat} {s : State} {dst : Nat} {w : Nat → State} (walks : Walks s c dst w) :
    (AllFlash w c dst n → flashPages c (pagesFrom dst n) s = (w n, true)) ∧
    (¬AllFlash w c dst n → ∃ z, NoAccess s z ∧ flashPages c (pagesFrom dst n) s = (z, false)) := by
  induction n generalizing s dst w with
  | zero => exact ⟨fun _ => by rw [walks.1]; rfl, fun h => absurd (fun j hj => absurd hj (Nat.not_lt_zero j)) h⟩
  | succ n ih =>
    have first : s.walkFor c dst = w 1 := by rw [walks.2 0, walks.1]; rfl
    have left : NoAccess s (w 1) := first ▸ noAccess_walkFor s c dst
    obtain ⟨all, notAll⟩ := ih walks.next
    rw [allFlash_succ, pagesFrom_succ, flashPages, first]
    by_cases h : ∃ t, FlashPage (w 1) c dst t
    · obtain ⟨t, ht⟩ := h
      simp only [flashPage_of ht, Option.isSome_some, if_true]
      refine ⟨fun a => all a.2, fun a => ?_⟩
      obtain ⟨z, lost, eq⟩ := notAll fun b => a ⟨⟨t, ht⟩, b⟩
      exact ⟨z, left.trans lost, eq⟩
    · simp only [flashPage_none (not_exists.1 h), Option.isSome_none, Bool.false_eq_true, if_false]
      exact ⟨fun a => absurd a.1 h, fun _ => ⟨_, left.trans (noAccess_cpxMissed _ _ c dst), rfl⟩⟩

/-! ## The source of an append -/

/-- The states of reads of consecutive pages of a context, one after another. -/
def Reads (c src : Nat) (st : Nat → State) : Prop := ∀ j, st (j + 1) = ((st j).readVa c (src + 4096 * j) 4096).s

/-- Page j of the source. -/
def sourcePage (c src : Nat) (st : Nat → State) (j : Nat) : Option (List Byte) := ((st j).readVa c (src + 4096 * j) 4096).bytes

theorem Reads.next {c src : Nat} {st : Nat → State} (h : Reads c src st) : Reads c (src + 4096) fun j => st (j + 1) := fun j =>
  (h (j + 1)).trans (by rw [show src + 4096 * (j + 1) = src + 4096 + 4096 * j by omega])

theorem sourcePage_succ (c src : Nat) (st : Nat → State) (j : Nat) :
    sourcePage c src st (j + 1) = sourcePage c (src + 4096) (fun j => st (j + 1)) j := by
  rw [sourcePage, sourcePage, show src + 4096 * (j + 1) = src + 4096 + 4096 * j by omega]

theorem readPages_lost (c n src : Nat) (s : State) : readPages c n src { s := s, pages := none } = { s := s, pages := none } := by
  cases n <;> rfl

theorem readPages_succ {c src : Nat} {st : Nat → State} (reads : Reads c src st) (n : Nat) (ps : List (List Byte)) :
    readPages c (n + 1) src { s := st 0, pages := some ps } =
      readPages c n (src + 4096) { s := st 1, pages := (sourcePage c src st 0).map fun b => ps ++ [b] } := by
  rw [reads 0]
  rfl

/-- The source is read up to the first page that fails. -/
theorem readPages_fails {c n m src : Nat} {st : Nat → State} (reads : Reads c src st) (lt : m < n) (before : ∀ j < m, sourcePage c src st j ≠ none)
    (fails : sourcePage c src st m = none) (ps : List (List Byte)) :
    readPages c n src { s := st 0, pages := some ps } = { s := st (m + 1), pages := none } := by
  induction m generalizing n src st ps with
  | zero =>
    obtain ⟨n, rfl⟩ := Nat.exists_eq_succ_of_ne_zero (Nat.ne_of_gt lt)
    rw [Nat.succ_eq_add_one, readPages_succ reads, fails, Option.map_none, readPages_lost]
  | succ m ih =>
    obtain ⟨n, rfl⟩ := Nat.exists_eq_succ_of_ne_zero (Nat.ne_of_gt (Nat.lt_of_le_of_lt (Nat.zero_le _) lt))
    obtain ⟨b, hb⟩ := Option.ne_none_iff_exists'.1 (before 0 (by omega))
    rw [Nat.succ_eq_add_one, readPages_succ reads, hb, Option.map_some]
    refine ih reads.next (by omega) (fun j hj => ?_) ?_ _
    · rw [← sourcePage_succ]
      exact before (j + 1) (by omega)
    · rw [← sourcePage_succ]
      exact fails

theorem readPages_all {c n src : Nat} {st : Nat → State} (reads : Reads c src st) (all : ∀ j < n, sourcePage c src st j ≠ none)
    (ps : List (List Byte)) : ∃ pages : List (List Byte), pages.length = n ∧ (∀ j < n, pages[j]? = sourcePage c src st j) ∧
      readPages c n src { s := st 0, pages := some ps } = { s := st n, pages := some (ps ++ pages) } := by
  induction n generalizing src st ps with
  | zero => exact ⟨[], rfl, fun j hj => absurd hj (Nat.not_lt_zero j), by simp [readPages]⟩
  | succ n ih =>
    obtain ⟨b, hb⟩ := Option.ne_none_iff_exists'.1 (all 0 (by omega))
    obtain ⟨pages, len, each, eq⟩ := ih reads.next (fun j hj => by rw [← sourcePage_succ]; exact all (j + 1) (by omega)) (ps ++ [b])
    refine ⟨b :: pages, by rw [List.length_cons, len], fun j hj => ?_, ?_⟩
    · cases j with
      | zero => exact hb.symm
      | succ j => rw [List.getElem?_cons_succ, each j (by omega), sourcePage_succ]
    · rw [readPages_succ reads, hb, Option.map_some, eq, List.append_assoc]
      rfl

/-! ## FLOG_APPEND -/

theorem unsent_cpxMissed (s : State) (salt c va : Nat) : Unsent s (s.cpxMissed salt c va) := by
  refine .ite (.refl s) ?_
  split
  · exact unsent_cpxWalkMiss s _ _ _
  · exact .refl s

theorem unsent_flashPages (c : Nat) (l : List Nat) (s : State) : Unsent s (flashPages c l s).1 := by
  induction l generalizing s with
  | nil => exact .refl s
  | cons va rest ih =>
    exact .ite_of Prod.fst ((unsent_walkFor s c va).trans (ih _)) ((unsent_walkFor s c va).trans (unsent_cpxMissed _ _ _ _))

theorem unsent_readPages (c n src : Nat) (g : GotPages) : Unsent g.s (readPages c n src g).s := by
  induction n generalizing src g with
  | zero => exact .refl _
  | succ n ih =>
    obtain ⟨s, _ | ps⟩ := g
    · exact .refl s
    · exact (unsent_readVa s c src 4096).trans (ih (src + 4096) { s := (s.readVa c src 4096).s, pages := _ })

/-- What FLOG_APPEND does once it has started (R87). -/
def flogAppended (s : State) (q : Nat) (p : Packet) (c : Nat) : State :=
  let dst := p.field 8 8
  match flashPages c (pagesFrom dst (p.field 24 4)) s with
  | (s1, false) => s1.complete q p Status.addrBad 0
  | (s1, true) =>
    let r := readPages c (p.field 24 4) (p.field 16 8) { s := s1, pages := some [] }
    match r.pages with
    | none => r.s.complete q p Status.addrBad 0
    | some pages => r.s.addCmd (.flog dst pages) c (some (BitVec.ofNat 10 q, p))

section Appends

variable {s u : State} {q : Nat} {p : Packet} {c : Nat}

theorem flogAppended_noFlash (walked : flashPages c (pagesFrom (p.field 8 8) (p.field 24 4)) s = (u, false)) :
    flogAppended s q p c = u.complete q p Status.addrBad 0 := by
  simp only [flogAppended, walked]

variable (walked : flashPages c (pagesFrom (p.field 8 8) (p.field 24 4)) s = (u, true)) {z : State}
include walked

theorem flogAppended_lost (read : readPages c (p.field 24 4) (p.field 16 8) { s := u, pages := some [] } = { s := z, pages := none }) :
    flogAppended s q p c = z.complete q p Status.addrBad 0 := by
  simp only [flogAppended, walked, read]

theorem flogAppended_waits {pages : List (List Byte)}
    (read : readPages c (p.field 24 4) (p.field 16 8) { s := u, pages := some [] } = { s := z, pages := some pages }) :
    flogAppended s q p c = z.addCmd (.flog (p.field 8 8) pages) c (some (BitVec.ofNat 10 q, p)) := by
  simp only [flogAppended, walked, read]

end Appends

theorem unsent_flogAppended (s : State) (q : Nat) (p : Packet) (c : Nat) : Unsent s (flogAppended s q p c) := by
  have sent := unsent_flashPages c (pagesFrom (p.field 8 8) (p.field 24 4)) s
  cases walked : flashPages c (pagesFrom (p.field 8 8) (p.field 24 4)) s with
  | mk u flash =>
    rw [walked] at sent
    cases flash with
    | false =>
      rw [flogAppended_noFlash walked]
      exact sent.trans (unsent_complete u _ _ _ _)
    | true =>
      have got := unsent_readPages c (p.field 24 4) (p.field 16 8) { s := u, pages := some [] }
      cases read : readPages c (p.field 24 4) (p.field 16 8) { s := u, pages := some [] } with
      | mk z pages =>
        rw [read] at got
        cases pages with
        | none =>
          rw [flogAppended_lost walked read]
          exact (sent.trans got).trans (unsent_complete z _ _ _ _)
        | some pages =>
          rw [flogAppended_waits walked read]
          exact (sent.trans got).trans (.of_eq rfl rfl rfl)

theorem appends : PacketReaches .flogAppend 6 (fun y q c p t =>
    let n := pnum p 24 4
    ∀ w : Nat → State, Walks y c (pnum p 8 8) w →
    let flash := ∀ j < n, ∃ tr, FlashPage (w (j + 1)) c (pnum p 8 8 + 4096 * j) tr
    (¬flash → ∃ z, NoAccess y z ∧ Completed z t q p 2 0) ∧
    ∀ st : Nat → State, st 0 = w n → (∀ j, st (j + 1) = ((st j).readVa c (pnum p 16 8 + 4096 * j) 4096).s) →
      let page (j : Nat) := ((st j).readVa c (pnum p 16 8 + 4096 * j) 4096).bytes
      (∀ m < n, flash → (∀ j < m, page j ≠ none) → page m = none → Completed (st (m + 1)) t q p 2 0) ∧
      (flash → (∀ j < n, page j ≠ none) → ∃ pages : List (List Byte), pages.length = n ∧ (∀ j < n, pages[j]? = page j) ∧
        t = { st n with eng := { (st n).eng with
          nextId := (st n).eng.nextId + 1
          cmds := (st n).eng.cmds ++
            [{ id := (st n).eng.nextId, kind := .flog (pnum p 8 8) pages, ctx := BitVec.ofNat 12 c, queue := some (BitVec.ofNat 10 q, p) }] } })) := by
  refine packetReaches_of_event (eff := flogAppended) (fun s => rfl) unsent_flogAppended fun y q p c => ?_
  simp only [pnum_eq_field]
  intro w walks
  obtain ⟨all, notAll⟩ := flashPages_walks (n := p.field 24 4) walks
  refine ⟨fun lacks => ?_, fun st start reads => ⟨fun m lt flash before fails => ?_, fun flash every => ?_⟩⟩
  · obtain ⟨z, left, walked⟩ := notAll lacks
    rw [flogAppended_noFlash walked]
    exact ⟨z, left, completed_complete z q p _ 0⟩
  · rw [flogAppended_lost (all flash) (start ▸ readPages_fails reads lt before fails [])]
    exact completed_complete _ q p _ 0
  · obtain ⟨pages, len, each, read⟩ := readPages_all reads every []
    rw [flogAppended_waits (all flash) (start ▸ read)]
    exact ⟨pages, len, each, rfl⟩

/-! ## The commit of an append -/

theorem unsent_commitPages (c dst : Nat) (pages : List (List Byte)) (s : State) : Unsent s (State.commitPages c dst pages s) := by
  induction pages generalizing dst s with
  | nil => exact .refl s
  | cons page rest ih =>
    refine Unsent.trans ?_ (ih (dst + 4096) _)
    split
    · exact .refl s
    · exact .of_eq rfl rfl rfl

/-- A command of a packet completes: the command is gone and the packet completes. -/
theorem completeCmd_packet {k : Cmd} {q : Slot} {p : Packet} (h : k.queue = some (q, p)) (s : State) (status : BitVec 8) (payload : BitVec 128) :
    s.completeCmd k status payload = (s.dropCmd k.id).complete q.toNat p status payload := by
  rw [State.completeCmd, h]

theorem completed_completeCmd {k : Cmd} {q : Slot} {p : Packet} (h : k.queue = some (q, p)) (s : State) (status : BitVec 8) (payload : BitVec 128) :
    Completed (s.dropCmd k.id) (s.completeCmd k status payload) q.toNat p status payload :=
  completeCmd_packet h s status payload ▸ completed_complete _ _ p status payload

theorem unsent_dropCmd (s : State) (id : Nat) : Unsent s (s.dropCmd id) := .of_eq rfl rfl rfl

theorem unsent_completeCmd (s : State) (k : Cmd) (status : BitVec 8) (payload : BitVec 128) : Unsent s (s.completeCmd k status payload) := by
  cases h : k.queue with
  | none =>
    rw [State.completeCmd, h]
    exact unsent_dropCmd s k.id
  | some x =>
    rw [completeCmd_packet h]
    exact (unsent_dropCmd s k.id).trans (unsent_complete _ _ _ _ _)

/-- The state with one more append counted. -/
def appendCounted (s : State) : State := { s with mem := { s.mem with appends := s.mem.appends + 1 } }

section Commits

variable {s u : State} {k : Cmd} {dst : Nat} {pages : List (List Byte)}

theorem commitFlog_noFlash (walked : flashPages k.ctx.toNat (pagesFrom dst pages.length) s = (u, false)) :
    s.commitFlog k dst pages = u.completeCmd k Status.addrBad 0 := by
  unfold pagesFrom at walked
  simp only [State.commitFlog, walked]

theorem commitFlog_flash (walked : flashPages k.ctx.toNat (pagesFrom dst pages.length) s = (u, true)) :
    s.commitFlog k dst pages = (appendCounted (State.commitPages k.ctx.toNat dst pages u)).completeCmd k Status.ok (BitVec.ofNat 128 pages.length) := by
  unfold pagesFrom at walked
  simp only [State.commitFlog, walked]
  rfl

theorem unsent_commitFlog (s : State) (k : Cmd) (dst : Nat) (pages : List (List Byte)) : Unsent s (s.commitFlog k dst pages) := by
  have sent := unsent_flashPages k.ctx.toNat (pagesFrom dst pages.length) s
  cases walked : flashPages k.ctx.toNat (pagesFrom dst pages.length) s with
  | mk u flash =>
    rw [walked] at sent
    refine sent.trans ?_
    cases flash with
    | false =>
      rw [commitFlog_noFlash walked]
      exact unsent_completeCmd u _ _ _
    | true =>
      rw [commitFlog_flash walked]
      have counted (v : State) : Unsent v (appendCounted v) := .of_eq rfl rfl rfl
      exact ((unsent_commitPages _ dst pages u).trans (counted _)).trans (unsent_completeCmd _ _ _ _)

end Commits

theorem commits (s : State) (k : Cmd) (dst : Nat) (pages : List (List Byte)) (q : Slot) (p : Packet)
    (named : s.eng.cmds.find? (fun c => c.id == s.input.num) = some k) (flog : k.kind = .flog dst pages) (queue : k.queue = some (q, p))
    (w : Nat → State) (walks : Walks (calm s) k.ctx.toNat dst w) :
    ∃ t, TakesPlace .flogAppendCommit s t ∧
      (s.input.flag = true → Completed ((calm s).dropCmd k.id) t q.toNat p 3 0) ∧
      (s.input.flag = false → ¬AllFlash w k.ctx.toNat dst pages.length →
        ∃ z, NoAccess (calm s) z ∧ Completed (z.dropCmd k.id) t q.toNat p 2 0) ∧
      (s.input.flag = false → AllFlash w k.ctx.toNat dst pages.length →
        Completed ((appendCounted (State.commitPages k.ctx.toNat dst pages (w pages.length))).dropCmd k.id) t q.toNat p 0
          (BitVec.ofNat 128 pages.length)) := by
  have found : (calm s).cmd? (calm s).input.num = some k := named
  have does : commitAppend (calm s) =
      .next (if s.input.flag then (calm s).completeCmd k Status.noSpace 0 else (calm s).commitFlog k dst pages) := by
    simp only [commitAppend, found, flog]
    rfl
  obtain ⟨all, notAll⟩ := flashPages_walks (n := pages.length) walks
  refine ⟨_, takesPlace_throughLinks rfl does (.ite (unsent_completeCmd _ k _ _) (unsent_commitFlog _ k dst pages)), fun full => ?_,
    fun room lacks => ?_, fun room flash => ?_⟩
  · rw [full, if_pos rfl]
    exact completed_completeCmd queue _ _ 0
  · obtain ⟨z, left, walked⟩ := notAll lacks
    rw [room, if_neg Bool.false_ne_true, commitFlog_noFlash walked]
    exact ⟨z, left, completed_completeCmd queue z _ 0⟩
  · rw [room, if_neg Bool.false_ne_true, commitFlog_flash (all flash)]
    exact completed_completeCmd queue _ _ _

/-! ## One page committed -/

theorem poisonUnit_flash_eq_iff {f : Nat} (page : f % 4096 = 0) (flash : regionOf f = .flash) (k : Nat) :
    poisonUnit k = f ↔ f ≤ k ∧ k < f + 4096 := by
  constructor
  · rw [poisonUnit_eq]
    split
    · omega
    · split <;> omega
  · rintro ⟨lo, hi⟩
    have start : k - k % 4096 = f := by omega
    have same : regionOf k = .flash := by rw [← regionOf_alignDown (dvd_refl 4096) k, start, flash]
    rw [poisonUnit_eq, same]
    exact start

/-- A page put in flash holds its bytes and none of them is poisoned; all else in memory is as before (R67). -/
theorem putFlashPage_eq (s : State) (t : Trans) {page : List Byte} (len : page.length = 4096) {f : Nat} (aligned : f % 4096 = 0)
    (flash : regionOf f = .flash) : ∃ z, s.putFlashPage f t page = z ∧
      z = { s with mem := { s.mem with cells := z.mem.cells, flashKey := z.mem.flashKey, poison := z.mem.poison } } ∧
      (∀ k, z.mem.get k = if f ≤ k ∧ k < f + 4096 then page.getD (k - f) 0 else s.mem.get k) ∧
      (∀ k, z.mem.poisoned k = if f ≤ k ∧ k < f + 4096 then false else s.mem.poisoned k) := by
  have only := write_only page s.mem f
  refine ⟨_, rfl, ?_, fun k => ?_, fun k => ?_⟩
  · rw [State.putFlashPage, only]
  · rw [← len]
    exact get_write page s.mem f k
  · have unit : poisonUnit f = f := (poisonUnit_flash_eq_iff aligned flash f).2 ⟨le_refl f, by omega⟩
    have before : (s.mem.write f page).poison = s.mem.poison := by rw [only]
    show Sparse.get false (poisonUnit k) (Sparse.set false (poisonUnit f) false (s.mem.write f page).poison) = _
    simp only [Sparse.get_set, unit, before, poisonUnit_flash_eq_iff aligned flash, Mem.poisoned]

theorem commitPages_skip {s : State} {c dst : Nat} (page : List Byte) (rest : List (List Byte)) (h : ∀ t, ¬FlashPage s c dst t) :
    State.commitPages c dst (page :: rest) s = State.commitPages c (dst + 4096) rest s := by
  rw [State.commitPages, flashPage_none h]

theorem commitPages_put {s : State} {c dst : Nat} (page : List Byte) (rest : List (List Byte)) {t : Trans} (h : FlashPage s c dst t) :
    State.commitPages c dst (page :: rest) s = State.commitPages c (dst + 4096) rest (s.putFlashPage t.frame t page) := by
  rw [State.commitPages, flashPage_of h]

theorem writesAndAppends : WritesAndAppends := by
  refine ⟨writes, faultsDone, appends, commits, fun s c dst page rest len => ⟨commitPages_skip page rest, fun t ht aligned flash => ?_⟩⟩
  obtain ⟨z, put, only, holds, clean⟩ := putFlashPage_eq s t len aligned flash
  exact ⟨z, put ▸ commitPages_put page rest ht, only, holds, clean⟩

/-- Settles O39: an access of the command processor is led where its walk says, and each packet is its meaning on a state with no access waiting. -/
theorem memoryPackets : Obligations.MemoryPackets := ⟨commandAccesses, writesAndAppends⟩

end Sys2Proof.Claims
end

section
-- One proof after another: side by side their threads pass the limit of memory that the check sets.
set_option Elab.async false
/-! SUPPORT. The walk of one stage, table words and root entries (R22, R52, R57, R69, R95 to R99, R121). -/

namespace Sys2Proof.Claims

open Sys2Proof Sys2Proof.Machine

/-! ## Entries -/

theorem entrySize_eq (e : Nat) : entrySize e = sizeIn e := by simp [entrySize, sizeIn, bits, Nat.shiftRight_eq_div_pow]

theorem entryFrame_eq (e : Nat) : entryFrame e = frameIn e := by simp [entryFrame, frameIn, bits, Nat.shiftRight_eq_div_pow]

theorem sub_mod_eq_div_mul (a n : Nat) : a - a % n = a / n * n := by
  have := Nat.div_add_mod' a n
  omega

theorem sameGroup_iff (rd : Nat → Except Miss (Nat × List Dep)) (base e n : Nat) :
    sameGroup rd base e n = true ↔ ∀ j < n, ∃ es, rd (base + 8 * j) = .ok (e, es) := by
  induction n with
  | zero => simp [sameGroup]
  | succ n ih =>
    rw [Nat.forall_lt_succ_right, ← ih, sameGroup]
    cases rd (base + 8 * n) with
    | error m => simp
    | ok x => simp [Prod.ext_iff, and_comm]

/-! ## The walk of one stage -/

/-- What the claim speaks of in a leaf: its entry, the address it maps to and its page size. -/
def leafOf (l : Leaf) : Nat × Nat × Nat := (l.entry, l.addr, l.size)

/-- The walk of a stage reads the entry of its address, and a pointer leads it to the next table (R96, R97). -/
theorem stageWalk_walkStage (rd : Nat → Except Miss (Nat × List Dep)) (ok : Nat → Nat → Bool) (here : Miss) (ctx va n table : Nat) :
    StageWalk rd ok here va n table ((walkStage rd ok here ctx va n table).map leafOf) := by
  induction n generalizing table with
  | zero => rfl
  | succ n ih =>
    rw [walkStage]
    simp only [Nat.shiftRight_eq_div_pow, entrySize_eq, entryFrame_eq, sub_mod_eq_div_mul]
    refine ⟨fun m read => by rw [read]; rfl, fun e ds read => ?_⟩
    rw [read]
    refine ⟨?_, fun valid pointer => ?_, fun valid page => ?_, fun valid group => ?_⟩
    · rintro (invalid | three)
      · simp [show entryValid e = false from invalid, Except.map]
      · simp [three, Except.map]
    · simp only [show entryValid e = true from valid, pointer]
      refine ⟨fun ends => ?_, fun more goes => ?_⟩
      · simp [ends, Except.map]
      · simp only [more, goes]
        have next := ih (frameIn e)
        cases walk : walkStage rd ok here ctx va n (frameIn e) with
        | error m => simpa [walk, Except.map] using next
        | ok l => simpa [walk, Except.map, leafOf] using next
    · simp only [show entryValid e = true from valid, page]
      split
      · next h => simp [h, show ¬n ≥ 3 by omega, Except.map, leafOf]
      · next h =>
        by_cases big : n ≥ 3
        · simp [big, Except.map]
        · have refused : ok e (2 ^ (12 + 9 * n)) = false := by simpa using fun le => h ⟨by omega, le⟩
          simp [big, refused, Except.map]
    · simp only [show entryValid e = true from valid, group]
      have group16 (i : Nat) : (∀ j < 16, ∃ es, rd (table + 8 * (i / 16 * 16 + j)) = .ok (e, es)) ↔ sameGroup rd (table + 8 * (i / 16 * 16)) e 16 = true := by
        simp only [sameGroup_iff, Nat.mul_add, Nat.add_assoc]
      simp only [group16]
      generalize sameGroup _ _ _ 16 = same
      refine ⟨fun last alike may => ?_, fun h => ?_⟩
      · simp [last, alike, may, Except.map, leafOf]
      · by_cases last : n = 0
        · cases same <;> simp_all [Except.map]
        · simp [last, Except.map]

/-! ## Table words -/

section Words

variable (s : State) (here : Miss) {a : Nat}

theorem netFails_word (aligned : a % 8 = 0) : s.netFails a 8 = true ↔ Table.find a s.input.hits = some .networkTag := by
  have one : wordsOf a 8 = [a] := by simp [wordsOf, aligned]
  have start : a / 8 * 8 = a := by omega
  rw [State.netFails, one, List.any_cons, State.hitAt, start]
  cases Table.find a s.input.hits <;> simp

/-- A read of a table word, with what its stage depends on, is the word, or what spoils it (R57, R69, R128, R130). -/
theorem tableWord_read (i : BitVec 3) (w : BitVec 6) (c : BitVec 2) (ds : List Dep) :
    TableWord s here i w c a ((s.tableWord here i.toNat w c a).map fun x => (x, ds)) := by
  intro mem aligned
  have fails (cause : BitVec 8) (h : s.spoiled i.toNat a w c = some cause) : (s.homeRead i.toNat w c a 8).fail = some cause := by
    rw [(homeRead_memory s i.toNat w c 8 mem).2 cause (by rw [spoiledRange_word s _ _ (by decide) (le_refl 8), h])]
    rfl
  simp only [← netFails_word s aligned, State.tableWord]
  refine ⟨fun lost => by simp [lost, Except.map], fun kept poisoned => ?_, fun kept sound bad => ?_, fun kept clean => ?_⟩
  · rw [if_neg kept, fails 0x11 (by simp [State.spoiled, poisoned, Cause.eccUncorrectable])]
    rfl
  · rw [if_neg kept, fails 0x12 (by simp [State.spoiled, sound, bad, Cause.cipherIntegrity])]
    rfl
  · rw [if_neg kept, homeRead_clean mem (by decide) (le_refl 8) clean]
    exact ⟨ds, by rw [littleEndian_eq_leNat]; rfl⟩

theorem tableWord_root (a : Nat) : TableWord s here 1 0 0 (a % 2 ^ 44) (s.rootTableWord here a) := tableWord_read s here 1 0 0 []

end Words

theorem isOwn_iff (s : State) (d : BitVec 12) : s.isOwn d.toNat = true ↔ d = s.fabric.deviceNum := by
  simp [State.isOwn, BitVec.toNat_inj]

theorem childTableWord_unread {s : State} {here : Miss} {a : Nat} {t : Trans} (h : t.read = false) : s.childTableWord here (.ok t) a = .error here := by
  simp [State.childTableWord, h]

theorem childTableWord_own {s : State} {here : Miss} {t : Trans} (read : t.read = true) (own : t.dev = s.fabric.deviceNum) (a : Nat) :
    TableWord s here t.inter t.world t.comp (t.frame + a % 4096) (s.childTableWord here (.ok t) a) := by
  have led : s.childTableWord here (.ok t) a = (s.tableWord here t.inter.toNat t.world t.comp (t.frame + a % 4096)).map fun x => (x, t.deps) := by
    simp only [State.childTableWord, read, (isOwn_iff s t.dev).2 own]
    rfl
  rw [led]
  exact tableWord_read s here t.inter t.world t.comp t.deps

/-! ## Root entries -/

theorem memByte_iff (a : Nat) : (regionOf a == .hbm || regionOf a == .sbm) = true ↔ MemByte a := by simp [MemByte]

theorem inService_full {s : State} (full : s.power.phase = 4) (inter a size : Nat) :
    s.inService inter a size = true ↔ (regionOf a = .flash → s.power.flashOk.getLsbD (a / 2 ^ 41 % 2) = true) := by
  have stack : bits a 41 41 = a / 2 ^ 41 % 2 := by simp [bits, Nat.shiftRight_eq_div_pow]
  rw [State.inService, full, stack]
  by_cases h : regionOf a = .flash <;> simp [h]

/-- The tags that an entry may have (R121). -/
def tagsIn (e : Nat) : Bool := if e / 2 ^ 56 % 64 = 0 then e / 2 ^ 62 % 4 == 0 else e / 2 ^ 62 % 4 != 3

theorem tagsIn_iff (e : Nat) : tagsIn e = true ↔ if e / 2 ^ 56 % 64 = 0 then e / 2 ^ 62 % 4 = 0 else e / 2 ^ 62 % 4 ≠ 3 := by
  unfold tagsIn
  split <;> simp

section Root

variable (s : State) (e : Nat)

theorem tags_eq : (if bits e 61 56 = 0 then bits e 63 62 == 0 else bits e 63 62 != 3) = tagsIn e := by
  simp [tagsIn, bits, Nat.shiftRight_eq_div_pow]

theorem rootEntryOk_zero : s.rootEntryOk e 0 = (s.isOwn (frameIn e / 2 ^ 44) && (regionOf (frameIn e % 2 ^ 44) == .hbm || regionOf (frameIn e % 2 ^ 44) == .sbm) &&
    !e.testBit 5 && !e.testBit 6 && tagsIn e && s.inService plainPattern (frameIn e % 2 ^ 44) 1) := by
  rw [← tags_eq, ← entryFrame_eq]
  rfl

theorem rootEntryOk_size {size : Nat} (page : size ≠ 0) : s.rootEntryOk e size =
    let a0 := frameIn e % 2 ^ 44 / size * size
    (regionOf a0 != .hole && regionOf (a0 + size - 1) == regionOf a0 && (e.testBit 5 == (regionOf a0 == .flash)) && (e.testBit 6 == (regionOf a0 == .mxWindow)) &&
      !(regionOf a0 == .sbm && decide (size > 2 ^ 21)) && !(regionOf a0 == .hbm && decide (a0 / 2 ^ 36 ≠ (a0 + size - 1) / 2 ^ 36)) && tagsIn e &&
      (!s.isOwn (frameIn e / 2 ^ 44) || s.inService (bits e 9 7) a0 size)) := by
  rw [← tags_eq, ← entryFrame_eq, ← sub_mod_eq_div_mul]
  exact if_neg page

variable {s} (full : s.power.phase = 4)
include full

theorem rootEntryOk_pointer : s.rootEntryOk e 0 = true ↔ RootEntryOk s e 0 := by
  have own : s.isOwn (frameIn e / 2 ^ 44) = true ↔ frameIn e / 2 ^ 44 = s.fabric.deviceNum.toNat := beq_iff_eq
  have serves (mem : MemByte (frameIn e % 2 ^ 44)) : s.inService plainPattern (frameIn e % 2 ^ 44) 1 = true := by
    refine (inService_full full _ _ _).2 fun flash => ?_
    rcases mem with h | h <;> rw [flash] at h <;> exact absurd h (by decide)
  rw [rootEntryOk_zero]
  simp only [RootEntryOk, Bool.and_eq_true, own, memByte_iff, tagsIn_iff, Bool.not_eq_true']
  constructor
  · rintro ⟨⟨⟨⟨⟨dev, mem⟩, plain⟩, noWindow⟩, tags⟩, -⟩
    exact ⟨tags, fun _ => ⟨dev, mem, plain, noWindow⟩, fun h => absurd rfl h⟩
  · rintro ⟨tags, pointer, -⟩
    obtain ⟨dev, mem, plain, noWindow⟩ := pointer trivial
    exact ⟨⟨⟨⟨⟨dev, mem⟩, plain⟩, noWindow⟩, tags⟩, serves mem⟩

theorem rootEntryOk_page {size : Nat} (page : size ≠ 0) : s.rootEntryOk e size = true ↔ RootEntryOk s e size := by
  have own : s.isOwn (frameIn e / 2 ^ 44) = true ↔ frameIn e / 2 ^ 44 = s.fabric.deviceNum.toNat := beq_iff_eq
  have imp (p q : Bool) : (!(p && q)) = true ↔ (p = true → q = false) := by cases p <;> cases q <;> simp
  have same (p q : Bool) : (p == q) = true ↔ (p = true ↔ q = true) := by cases p <;> cases q <;> simp
  have serves (p q : Bool) : (!p || q) = true ↔ (p = true → q = true) := by cases p <;> simp
  rw [rootEntryOk_size s e page]
  simp only [RootEntryOk, Bool.and_eq_true, own, tagsIn_iff, imp, same, serves, inService_full full, bne_iff_ne, beq_iff_eq,
    decide_eq_false_iff_not, not_lt, gt_iff_lt, ne_eq, not_not, page, not_false_eq_true, true_implies, false_implies, true_and]
  constructor
  · rintro ⟨⟨⟨⟨⟨⟨⟨hole, across⟩, flash⟩, window⟩, sbm⟩, hbm⟩, tags⟩, stack⟩
    exact ⟨tags, hole, across, flash, window, sbm, hbm, stack⟩
  · rintro ⟨tags, hole, across, flash, window, sbm, hbm, stack⟩
    exact ⟨⟨⟨⟨⟨⟨⟨hole, across⟩, flash⟩, window⟩, sbm⟩, hbm⟩, tags⟩, stack⟩

end Root

theorem rootEntryOk_iff {s : State} (full : s.power.phase = 4) (e size : Nat) : s.rootEntryOk e size = true ↔ RootEntryOk s e size := by
  by_cases page : size = 0
  · rw [page]
    exact rootEntryOk_pointer e full
  · exact rootEntryOk_page e full page

/-! ## The composed translation -/

theorem walkStage_found {rd : Nat → Except Miss (Nat × List Dep)} {ok : Nat → Nat → Bool} {here : Miss} {ctx va n table e a size : Nat}
    (h : (walkStage rd ok here ctx va n table).map leafOf = .ok (e, a, size)) :
    ∃ ds, walkStage rd ok here ctx va n table = .ok { entry := e, addr := a, size := size, deps := ds } := by
  cases walk : walkStage rd ok here ctx va n table with
  | error m => simp [walk, Except.map] at h
  | ok l =>
    obtain ⟨_, _, _, ds⟩ := l
    simp only [walk, Except.map, leafOf, Except.ok.injEq, Prod.mk.injEq] at h
    obtain ⟨rfl, rfl, rfl⟩ := h
    exact ⟨ds, rfl⟩

theorem walkStage_missed {rd : Nat → Except Miss (Nat × List Dep)} {ok : Nat → Nat → Bool} {here m : Miss} {ctx va n table : Nat}
    (h : (walkStage rd ok here ctx va n table).map leafOf = .error m) : walkStage rd ok here ctx va n table = .error m := by
  cases walk : walkStage rd ok here ctx va n table with
  | error m' => simpa [walk, Except.map] using h
  | ok l => simp [walk, Except.map] at h

theorem compose_root (s : State) (n : Nat) (c : Ctx) (va : Nat) : s.compose [(n, c)] va = s.rootWalk n c va := rfl

theorem rootWalk_nowhere {s : State} {c : Ctx} (h : ¬MemByte (c.ptb.toNat * 4096)) (n va : Nat) : s.rootWalk n c va = .error { ctx := n, addr := va } := by
  obtain ⟨hbm, sbm⟩ := not_or.1 h
  simp [State.rootWalk, hbm, sbm]

/-- The translation that a root leaf gives (R95, R97, R121). -/
def rootTrans (e a size : Nat) (ds : List Dep) : Trans :=
  { dev := BitVec.ofNat 12 (a / 2 ^ 44), frame := a % 2 ^ 44 / 4096 * 4096, size := size, read := e.testBit 1, write := e.testBit 2
    exec := e.testBit 3, pin := e.testBit 4, flash := e.testBit 5, mx := e.testBit 6, inter := BitVec.ofNat 3 (e / 2 ^ 7)
    world := BitVec.ofNat 6 (e / 2 ^ 56), comp := BitVec.ofNat 2 (e / 2 ^ 62), deps := ds }

/-- The translation of a child's page: its parent's, no wider and with no right more (R95, R98). -/
def childTrans (e size : Nat) (ds : List Dep) (t : Trans) : Trans :=
  { t with size := min size t.size, read := t.read && e.testBit 1, write := t.write && e.testBit 2, exec := t.exec && e.testBit 3
           pin := t.pin && e.testBit 4, deps := ds ++ t.deps }

section Compose

variable {s : State} {n : Nat} {c : Ctx} {va : Nat}

/-- The walk of a root stage. -/
def rootStage (s : State) (n : Nat) (c : Ctx) (va : Nat) : Except Miss Leaf :=
  walkStage (s.rootTableWord { ctx := n, addr := va }) s.rootEntryOk { ctx := n, addr := va } n va 5 (c.ptb.toNat * 4096)

/-- The walk of a child's stage, over tables that its parent's chain leads to. -/
def childStage (s : State) (n : Nat) (c : Ctx) (parents : List (Nat × Ctx)) (va : Nat) : Except Miss Leaf :=
  walkStage (fun a => s.childTableWord { ctx := n, addr := va } (s.compose parents a) a) (fun _ _ => true) { ctx := n, addr := va } n va 5 c.tableVa.toNat

theorem rootWalk_missed (mem : MemByte (c.ptb.toNat * 4096)) {m : Miss} (h : rootStage s n c va = .error m) : s.rootWalk n c va = .error m := by
  unfold rootStage at h
  rcases mem with r | r <;> simp [State.rootWalk, r, h]

theorem rootWalk_found (mem : MemByte (c.ptb.toNat * 4096)) {e a size : Nat} {ds : List Dep}
    (h : rootStage s n c va = .ok { entry := e, addr := a, size := size, deps := ds }) : s.rootWalk n c va = .ok (rootTrans e a size ds) := by
  have field {w lo hi : Nat} (width : hi + 1 - lo = w) : BitVec.ofNat w (bits e hi lo) = BitVec.ofNat w (e / 2 ^ lo) := by
    rw [bits, width, Nat.shiftRight_eq_div_pow]
    exact BitVec.eq_of_toNat_eq (by simp)
  unfold rootStage at h
  have here : (regionOf (c.ptb.toNat * 4096) != .hbm && regionOf (c.ptb.toNat * 4096) != .sbm) = false := by rcases mem with r | r <;> rw [r] <;> rfl
  simp only [State.rootWalk, here, h, Bool.false_eq_true, if_false, rootTrans]
  rw [field (w := 3) rfl, field (w := 6) rfl, field (w := 2) rfl]
  rfl

variable {x : Nat × Ctx} {rest : List (Nat × Ctx)}

theorem compose_child_missed {m : Miss} (h : childStage s n c (x :: rest) va = .error m) : s.compose ((n, c) :: x :: rest) va = .error m := by
  unfold childStage at h
  rw [State.compose]
  simp only [h]
  rfl

section Found

variable {e a size : Nat} {ds : List Dep} (h : childStage s n c (x :: rest) va = .ok { entry := e, addr := a, size := size, deps := ds })
include h

theorem compose_child_parentMissed {m : Miss} (parent : s.compose (x :: rest) (a % 2 ^ 56) = .error m) :
    s.compose ((n, c) :: x :: rest) va = .error m := by
  unfold childStage at h
  rw [State.compose]
  simp only [h, show s.compose (x :: rest) (a % 0x100000000000000) = .error m from parent]
  rfl

theorem compose_child_found {t : Trans} (parent : s.compose (x :: rest) (a % 2 ^ 56) = .ok t) :
    s.compose ((n, c) :: x :: rest) va = .ok (childTrans e size ds t) := by
  unfold childStage at h
  rw [State.compose]
  simp only [h, show s.compose (x :: rest) (a % 0x100000000000000) = .ok t from parent]
  rfl

end Found

end Compose

theorem translationWalk : TranslationWalk := by
  refine ⟨fun s n c va => ⟨fun h => rootWalk_nowhere h n va, fun mem => ?_⟩, fun s n c x rest va => ?_, tableWord_root, fun s here a => ⟨fun m => rfl, fun t =>
    ⟨childTableWord_unread, fun read own => childTableWord_own read own a⟩⟩, fun s e size full _ => rootEntryOk_iff full e size, fun s c va => ?_⟩
  · refine ⟨(rootStage s n c va).map leafOf, stageWalk_walkStage _ _ _ n va 5 _, fun m missed => rootWalk_missed mem (walkStage_missed missed),
      fun e a size found => ?_⟩
    obtain ⟨ds, found⟩ := walkStage_found found
    exact ⟨ds, rootWalk_found mem found⟩
  · refine ⟨(childStage s n c (x :: rest) va).map leafOf, stageWalk_walkStage _ _ _ n va 5 _, fun m missed => compose_child_missed (walkStage_missed missed),
      fun e a size found => ?_⟩
    obtain ⟨ds, found⟩ := walkStage_found found
    exact ⟨fun m => compose_child_parentMissed found, fun t parent => ⟨ds, compose_child_found found parent⟩⟩
  · obtain ⟨only, homes, offline⟩ := walkLeaves_walkFor s c va
    exact ⟨s.walkFor_still c va, only, homes, offline⟩

end Sys2Proof.Claims
end

section
-- One proof after another: side by side their threads pass the limit of memory that the check sets.
set_option Elab.async false
/-! SUPPORT. The issue of a memory instruction: the lanes that take part, the waits, the probe that every lane passes, and what an issue leaves
(R165, R170, R173, R184, R206, R207, R217, R246, R264, R304, R308 to R310). -/

namespace Sys2Proof.Claims

open Sys2Proof Sys2Proof.Machine

/-! ## Lanes and addresses -/

theorem takers_eq (f : Focus) (g : PReg) : f.takers g = takes f g := by
  refine List.filter_congr fun l _ => ?_
  cases f.wp.thread? l <;> rfl

theorem pairOf_eq (lo hi : Word) : pairOf lo hi = BitVec.ofNat 64 (lo.toNat + 2 ^ 32 * hi.toNat) := by
  refine BitVec.eq_of_toNat_eq ?_
  have hlo := lo.isLt
  have hhi := hi.isLt
  rw [pairOf, BitVec.toNat_append, Nat.shiftLeft_eq, Nat.mul_comm, ← Nat.two_pow_add_eq_or_of_lt hlo, BitVec.toNat_ofNat]
  omega

theorem vecLanes_eq (a : Reg) : vecLanes a = eachLane a := by
  funext f part
  exact List.map_congr_left fun l _ => Prod.ext rfl (pairOf_eq _ _)

theorem uniLane_eq (a : Reg) : uniLane a = oneLane a := by
  funext f part
  cases part with
  | nil => rfl
  | cons l rest => exact congrArg (fun x => [(l, x)]) (pairOf_eq _ _)

/-! ## The waits -/

theorem waitsPerf_iff (w : Warp) (upto : Nat) : w.waitsPerf upto = true ↔ ∃ r ∈ w.mem, r.id < upto := by simp [Warp.waitsPerf]

theorem waitsRet_iff (w : Warp) (upto : Nat) : w.waitsRet upto = true ↔
    (∃ r ∈ w.mem, r.id < upto ∧ r.kind ≠ .store) ∨ ∃ p ∈ w.pend, ∃ n, p.req = some n ∧ n < upto := by
  simp only [Warp.waitsRet, Bool.or_eq_true, List.any_eq_true, Bool.and_eq_true, decide_eq_true_eq, bne_iff_ne]
  refine or_congr Iff.rfl (exists_congr fun p => and_congr_right fun _ => ?_)
  cases p.req <;> simp

theorem waitsAcquire_iff (w : Warp) : w.waitsAcquire = true ↔
    (∃ r ∈ w.mem, r.order = .sc ∨ (r.order = .acq ∧ r.kind ≠ .store)) ∨ ∃ p ∈ w.pend, p.acq = true := by
  simp [Warp.waitsAcquire]

theorem memHeld_iff (w : Warp) : w.memHeld = true ↔ Held w := by
  simp only [Warp.memHeld, Held, Bool.or_eq_true, Bool.and_eq_true, waitsAcquire_iff, waitsPerf_iff, waitsRet_iff, or_assoc]

section Waits

variable {u : Nat → Nat} {f : Focus} {part : List Nat}

theorem memHold_idle (h : part = []) : memHold u f part = none := by simp [memHold, h]

variable (taking : part ≠ [])
include taking

theorem memHold_held (held : Held f.wp) : memHold u f part = some .order := by
  simp [memHold, taking, (memHeld_iff _).2 held]

theorem memHold_full (free : ¬Held f.wp) (full : ¬f.s.coreRequests f.wp.core + u part.length ≤ 4096) :
    memHold u f part = some (.room (u part.length)) := by
  simp [memHold, taking, mt (memHeld_iff _).1 free, not_le.1 full]

theorem memHold_none (free : ¬Held f.wp) (room : f.s.coreRequests f.wp.core + u part.length ≤ 4096) : memHold u f part = none := by
  simp [memHold, taking, mt (memHeld_iff _).1 free, not_lt.2 room]

end Waits

/-! ## Watchpoints -/

theorem byteSpan_bit (off n : Nat) {j : Nat} (hj : j < 16) : (byteSpan off n).getLsbD j = true ↔ off ≤ j ∧ j < off + n := by
  simp only [byteSpan, BitVec.getLsbD_ofNat, hj, decide_true, Bool.true_and, Nat.testBit_mul_two_pow, Nat.testBit_two_pow_sub_one, Bool.and_eq_true,
    decide_eq_true_eq]
  omega

theorem watchHit_bit (base : Nat) (mask : BitVec 16) (a n : Nat) {j : Nat} (hj : j < 16) : (watchHit base mask a n).getLsbD j = true ↔
    mask.getLsbD j = true ∧ a ≤ base / 16 * 16 + j ∧ base / 16 * 16 + j < a + n := by
  simp only [watchHit, sub_mod_eq_div_mul]
  split
  · next apart =>
    have apart : a + n ≤ base / 16 * 16 ∨ base / 16 * 16 + 16 ≤ a := by simpa using apart
    simp only [BitVec.ofNat_eq_ofNat, BitVec.getLsbD_zero, Bool.false_eq_true, false_iff]
    omega
  · simp only [BitVec.getLsbD_and, Bool.and_eq_true, byteSpan_bit _ _ hj]
    refine and_congr_right fun _ => ?_
    omega

theorem hits_iff (w : Watch) (k : AccKind) (va n j : Nat) : Hits w k va n j ↔ (w.en && w.watches k) = true ∧ w.mask.getLsbD j = true ∧
    va ≤ w.addr.toNat / 16 * 16 + j ∧ w.addr.toNat / 16 * 16 + j < va + n := by
  cases k <;> simp [Hits, Watch.watches, and_assoc]

/-- The bytes of a watchpoint that an access strikes are those it hits (R206, R207). -/
theorem struck_bit (w : Watch) (k : AccKind) (va n : Nat) {j : Nat} (hj : j < 16) : (w.struck k va n).getLsbD j = true ↔ Hits w k va n j := by
  rw [hits_iff, Watch.struck]
  cases w.en && w.watches k with
  | false => simp
  | true => simp [watchHit_bit _ _ _ _ hj]

theorem struck_eq_zero_iff (w : Watch) (k : AccKind) (va n : Nat) : w.struck k va n = 0 ↔ ∀ j < 16, ¬Hits w k va n j := by
  constructor
  · intro h j hj hit
    rw [← struck_bit w k va n hj, h] at hit
    simp at hit
  · intro h
    refine BitVec.eq_of_getLsbD_eq fun j hj => ?_
    rw [Bool.eq_false_iff.2 (mt (struck_bit w k va n hj).1 (h j hj))]
    simp

theorem exists_firstWith {α : Type} {P : α → Prop} {xs : List α} (h : ∃ x ∈ xs, P x) : ∃ x, FirstWith P xs x := by
  induction xs with
  | nil => simp at h
  | cons y rest ih =>
    by_cases hy : P y
    · exact ⟨y, [], rest, rfl, hy, by simp⟩
    · obtain ⟨x, l, r, rfl, hx, before⟩ := ih (by simpa [hy] using h)
      exact ⟨x, y :: l, r, rfl, hx, List.forall_mem_cons.2 ⟨hy, before⟩⟩

/-- An access that strikes no watchpoint of a context strikes no byte of one. -/
theorem ctxStruck_eq_zero {c : Ctx} {k : AccKind} {va n : Nat} (h : ∀ m, ¬Strikes c k va n m) : c.struck k va n = 0 := by
  have unhit : ∀ p ∈ c.watch, p.2.struck k va n = 0 := by
    by_contra struck
    simp only [struck_eq_zero_iff] at struck
    push Not at struck
    obtain ⟨p, first⟩ := exists_firstWith struck
    exact h _ ⟨p, first, fun j hj => struck_bit p.2 k va n hj⟩
  have all (l : List (Nat × Watch)) (hl : ∀ p ∈ l, p.2.struck k va n = 0) :
      l.foldl (fun m p => if m != 0 then m else [(va, n)].foldl (fun x a => x ||| p.2.struck k a.1 a.2) 0) (0 : BitVec 16) = 0 := by
    induction l with
    | nil => rfl
    | cons p rest ih =>
      obtain ⟨hp, hrest⟩ := List.forall_mem_cons.1 hl
      simpa [hp] using ih hrest
  exact all c.watch unhit

/-! ## The probe -/

/-- The translation of a lane's address, where it has one. -/
def transOf (f : Focus) (l : Nat × DWord) : Option Trans :=
  if l.2.toNat / 2 ^ 56 = 0xFE ∨ l.2.toNat / 2 ^ 56 = 0xFF then none else (f.lead l.1 l.2).toOption

/-- A lane's access as it is performed. -/
def probedOf (f : Focus) (l : Nat × DWord) : Probed := ⟨l.1, l.2, (leads f l).1, transOf f l⟩

section Targets

variable {f : Focus} {l : Nat × DWord}

theorem leads_door (h : l.2.toNat / 2 ^ 56 = 0xFE) : leads f l = (.door (l.2.toNat % 2 ^ 56), []) := if_pos h

theorem leads_spm (h : l.2.toNat / 2 ^ 56 = 0xFF) : leads f l = (.spm (l.2.toNat % 2 ^ 56), []) := by
  rw [leads, if_neg (by omega), if_pos h]

theorem leads_led (own : l.2.toNat / 2 ^ 56 ≠ 0xFE ∧ l.2.toNat / 2 ^ 56 ≠ 0xFF) {t : Trans} (led : f.lead l.1 l.2 = .ok t) :
    leads f l = (f.s.targetOf t l.2.toNat, t.deps) := by
  rw [leads, if_neg own.1, if_neg own.2, led]

theorem transOf_outside (h : l.2.toNat / 2 ^ 56 = 0xFE ∨ l.2.toNat / 2 ^ 56 = 0xFF) : transOf f l = none := if_pos h

theorem transOf_own (own : l.2.toNat / 2 ^ 56 ≠ 0xFE ∧ l.2.toNat / 2 ^ 56 ≠ 0xFF) : transOf f l = (f.lead l.1 l.2).toOption :=
  if_neg (not_or.2 own)

theorem probedOf_deps (f : Focus) (l : Nat × DWord) : ((probedOf f l).tr.map Trans.deps).getD [] = (leads f l).2 := by
  show ((transOf f l).map Trans.deps).getD [] = _
  by_cases door : l.2.toNat / 2 ^ 56 = 0xFE
  · rw [transOf_outside (.inl door), leads_door door]
    rfl
  · by_cases spm : l.2.toNat / 2 ^ 56 = 0xFF
    · rw [transOf_outside (.inr spm), leads_spm spm]
      rfl
    · rw [transOf_own ⟨door, spm⟩, leads, if_neg door, if_neg spm]
      cases f.lead l.1 l.2 <;> rfl

end Targets

section Apertures

variable (spm n : Nat) {va : DWord}

theorem apertureOf_ctx (h : ownSpace va) : apertureOf spm va n = some .ctx := by
  have top : va.toNat / 0x100000000000000 = 0 := Nat.div_eq_of_lt h
  rw [apertureOf, top]
  rfl

theorem apertureOf_door (h : va.toNat / 2 ^ 56 = 0xFE) : apertureOf spm va n = some (.door (va.toNat % 2 ^ 56)) := by
  rw [apertureOf, show va.toNat / 0x100000000000000 = 0xFE from h]
  rfl

variable {spm n} in
theorem apertureOf_spm (h : va.toNat / 2 ^ 56 = 0xFF) (lo : va.toNat % 2 ^ 56 < 2 ^ 20) (hi : va.toNat % 2 ^ 56 + n ≤ spm) :
    apertureOf spm va n = some (.spm (va.toNat % 2 ^ 56)) := by
  have within : (decide (va.toNat % 0x100000000000000 < 0x100000) && decide (va.toNat % 0x100000000000000 + n ≤ spm)) = true := by
    simpa using ⟨lo, hi⟩
  rw [apertureOf, show va.toNat / 0x100000000000000 = 0xFF from h]
  simp [within]

end Apertures

theorem allows_iff {t : Trans} (k : AccKind) {w : BitVec 6} (same : t.world = w) :
    (t.allows k && worldAdmits w t k.world) = true ↔ Permitted k t.world t := by
  subst same
  cases k <;> simp [Trans.allows, worldAdmits, AccKind.world, Permitted, and_assoc, imp_iff_or_not, or_comm]

section Probe

variable {f : Focus} {M : MemForm} {l : Nat × DWord}

theorem refusal_none {t : Trans} (k : AccKind) (same : t.world = (f.s.ctx f.ctx).world) (may : Permitted k t.world t) : f.refusal k t = none := by
  simp [Focus.refusal, same, (allows_iff k same).2 may]

/-- Where a passing lane's access leads: the context's own space, the doorbells or scratchpad. -/
theorem Passes.led (h : Passes f M l) :
    (∃ t, f.aperture l.2 M.n = some .ctx ∧ f.lead l.1 l.2 = .ok t ∧ f.refusal M.acc t = none ∧
      probedOf f l = ⟨l.1, l.2, f.s.targetOf t l.2.toNat, some t⟩) ∨
    (∃ o, f.aperture l.2 M.n = some (.door o) ∧ probedOf f l = ⟨l.1, l.2, .door o, none⟩) ∨
    ∃ o, f.aperture l.2 M.n = some (.spm o) ∧ probedOf f l = ⟨l.1, l.2, .spm o, none⟩ := by
  obtain ⟨-, admitted, translated, -⟩ := h
  rcases admitted with own | door | ⟨spm, lo, hi⟩
  · obtain ⟨t, led, same, may⟩ := translated own
    have outside : l.2.toNat / 2 ^ 56 ≠ 0xFE ∧ l.2.toNat / 2 ^ 56 ≠ 0xFF := by
      rw [Nat.div_eq_of_lt own]
      decide
    refine .inl ⟨t, apertureOf_ctx _ _ own, led, refusal_none M.acc same may, ?_⟩
    rw [probedOf, leads_led outside led, transOf_own outside, led]
    rfl
  · exact .inr (.inl ⟨_, apertureOf_door _ _ door, by rw [probedOf, leads_door door, transOf_outside (.inl door)]⟩)
  · exact .inr (.inr ⟨_, apertureOf_spm spm lo hi, by rw [probedOf, leads_spm spm, transOf_outside (.inr spm)]⟩)

theorem Passes.probed (h : Passes f M l) : f.probeLane M.n l = some (probedOf f l) := by
  unfold Focus.probeLane
  rcases h.led with ⟨t, ap, led, -, eq⟩ | ⟨o, ap, eq⟩ | ⟨o, ap, eq⟩
  · simp only [ap, led, eq]
  · simp only [ap, eq]
  · simp only [ap, eq]

/-- The probe of lanes that all pass is good (R184). -/
theorem probe_good {ls : List (Nat × DWord)} (h : ∀ l ∈ ls, Passes f M l) : f.probe M.acc M.n ls = .good (ls.map (probedOf f)) := by
  have aligned : (ls.find? fun l => l.2.toNat % M.n != 0) = none := List.find?_eq_none.2 fun l hl => by
    obtain ⟨zero, -⟩ := h l hl
    simp [zero]
  have admitted : (ls.find? fun l => (f.aperture l.2 M.n).isNone) = none := List.find?_eq_none.2 fun l hl => by
    rcases (h l hl).led with ⟨t, ap, -⟩ | ⟨o, ap, -⟩ | ⟨o, ap, -⟩ <;> simp [ap]
  have unstruck : (if f.wp.skipWatch then none else ls.findSome? fun l =>
      let m := (f.s.ctx f.ctx).struck M.acc l.2.toNat M.n
      if m = 0 then none else some (l.2, m)) = none := by
    cases skips : f.wp.skipWatch with
    | true => rfl
    | false =>
      refine List.findSome?_eq_none_iff.2 fun l hl => ?_
      obtain ⟨-, -, -, skip | clear⟩ := h l hl
      · rw [skips] at skip
        cases skip
      · simp [ctxStruck_eq_zero clear]
  have each : ls.filterMap (f.probeLane M.n) = ls.map (probedOf f) := by
    rw [← List.filterMap_eq_map]
    exact List.filterMap_congr fun l hl => (h l hl).probed
  have quiet {β : Type} (g : Nat × DWord → Option β) (hg : ∀ l ∈ ls, g l = none) : ls.findSome? g = none := List.findSome?_eq_none_iff.2 hg
  unfold Focus.probe
  rw [aligned, admitted, quiet _ ?_, quiet _ ?_, unstruck, each]
  · intro l hl
    rcases (h l hl).led with ⟨t, ap, led, fine, -⟩ | ⟨o, ap, -⟩ | ⟨o, ap, -⟩
    · simp only [ap, led, fine, Option.map_none]
    all_goals simp only [ap]
  · intro l hl
    rcases (h l hl).led with ⟨t, ap, led, -, -⟩ | ⟨o, ap, -⟩ | ⟨o, ap, -⟩
    · simp only [ap, led]
    all_goals simp only [ap]

end Probe

/-! ## What an issue leaves -/

theorem each_map {α : Type} {R : α → α → Prop} {g : α → α} (h : ∀ a, R a (g a)) (xs : List α) : Each R xs (xs.map g) := by
  refine ⟨(List.length_map g).symm, fun i x y hx hy => ?_⟩
  rw [List.getElem?_map, hx, Option.map_some, Option.some.injEq] at hy
  exact hy ▸ h x

theorem onlyWarp_close (f : Focus) (w : Warp) : OnlyWarp f (f.commit.withWarp w).close w where
  rest := rfl
  others := fun k hk => State.team?_setTeam_other f.commit.s f.tid k _ hk
  team := State.team?_setTeam_same f.commit.s f.tid _
  memory := fun _ => rfl

theorem afterIssue_eq_wentOn (f : Focus) (a : Thread) : Thread.afterIssue f.active f.pc a = wentOn f a := by
  simp only [Thread.afterIssue, wentOn, Thread.eligible, List.contains_eq_mem, decide_eq_true_eq, beq_iff_eq]
  split
  · rfl
  · split <;> rfl

theorem issuedAs_commit (f : Focus) (next : Nat) (mem : List MemReq) (pend : List Pend) :
    IssuedAs f { f.wp with nextReq := next, mem := mem, pend := pend } { f.commit.wp with nextReq := next, mem := mem, pend := pend } id where
  left := ⟨rfl, laneMask_bit f.active⟩
  right := ⟨rfl, rfl, List.map_congr_left fun a _ => afterIssue_eq_wentOn f a⟩

theorem stepped_wentOn (f : Focus) (a : Thread) : Stepped f (f.pc + 4) a (wentOn f a) := ⟨rfl, rfl, rfl⟩

/-- An issue with no effect of its own (R147, R246). -/
theorem warpEffect_idle (f : Focus) : WarpEffect f f.commit.close f.wp := by
  obtain ⟨counted, uni, pend, threads⟩ := issuedAs_commit f f.wp.nextReq f.wp.mem f.wp.pend
  refine ⟨f.commit.wp, onlyWarp_close f f.commit.wp, counted, fun _ => rfl, rfl, ?_⟩
  rw [show f.commit.wp.threads = _ from threads]
  exact each_map (fun a => ⟨stepped_wentOn f a, rfl, fun _ => rfl⟩) f.wp.threads

theorem onlyTeam_park (f : Focus) (h : Hold) :
    OnlyTeam f.s (f.park h) f.tid { f.tm with warps := f.tm.warps.set f.wn { f.wp with hold := some h } } where
  rest := rfl
  others := fun k hk => State.team?_setTeam_other f.s f.tid k _ hk
  team := State.team?_setTeam_same f.s f.tid _

/-! ## The castling cache -/

/-- A state with another castling cache. -/
def withCastle (s : State) (m : List CastEntry) : State := { s with eng := { s.eng with castle := m } }

theorem remember_only (s : State) (c va : Nat) (t : Trans) : ∃ m, s.remember c va t = withCastle s m := by
  unfold State.remember
  dsimp only
  split
  · exact ⟨_, rfl⟩
  · exact ⟨_, rfl⟩

theorem mem_remember {s : State} {c va : Nat} {t : Trans} {e : CastEntry} (h : e ∈ (s.remember c va t).eng.castle) :
    e ∈ s.eng.castle ∨ (e.tr = t ∧ e.ctx = c ∧ e.page = va / 4096) := by
  unfold State.remember at h
  dsimp only at h
  split at h
  · exact .inl h
  · rcases List.mem_cons.1 h with rfl | h
    · exact .inr ⟨rfl, rfl, rfl⟩
    · exact .inl h

theorem rememberAll_cons (s : State) (c : Nat) (l : Probed) (ls : List Probed) : s.rememberAll c (l :: ls) =
    State.rememberAll ((l.tr.map (s.remember c l.va.toNat)).getD s) c ls := by
  rw [State.rememberAll, List.foldl_cons]
  cases l.tr <;> rfl

theorem rememberAll_only (s : State) (c : Nat) (ls : List Probed) : ∃ m, s.rememberAll c ls = withCastle s m := by
  induction ls generalizing s with
  | nil => exact ⟨_, rfl⟩
  | cons l rest ih =>
    rw [rememberAll_cons]
    cases l.tr with
    | none => exact ih s
    | some t =>
      obtain ⟨m, eq⟩ := ih (s.remember c l.va.toNat t)
      obtain ⟨m', first⟩ := remember_only s c l.va.toNat t
      exact ⟨m, eq.trans (by rw [first]; rfl)⟩

theorem mem_rememberAll {s : State} {c : Nat} {ls : List Probed} {e : CastEntry} (h : e ∈ (s.rememberAll c ls).eng.castle) :
    e ∈ s.eng.castle ∨ ∃ l ∈ ls, l.tr = some e.tr ∧ e.ctx = c ∧ e.page = l.va.toNat / 4096 := by
  induction ls generalizing s with
  | nil => exact .inl h
  | cons l rest ih =>
    rw [rememberAll_cons] at h
    rcases ih h with held | ⟨x, hx, tr⟩
    · cases ht : l.tr with
      | none => exact .inl (by simpa [ht] using held)
      | some t =>
        rw [ht] at held
        rcases mem_remember held with old | ⟨rfl, ctx, page⟩
        · exact .inl old
        · exact .inr ⟨l, List.mem_cons_self, ht, ctx, page⟩
    · exact .inr ⟨x, List.mem_cons_of_mem l hx, tr⟩

end Sys2Proof.Claims
end

section
-- One proof after another: side by side their threads pass the limit of memory that the check sets.
set_option Elab.async false
/-! SUPPORT. The parts of a memory instruction: of a load or store lane by lane, of an atomic word by word (R66, R213, R215, R313). -/

namespace Sys2Proof.Claims

open Sys2Proof Sys2Proof.Machine

/-! ## Bytes that no later lane writes -/

/-- The sum of the powers of two that a test leaves in. -/
theorem foldl_bits (out : Nat → Bool) (len : Nat) : let m := (List.range len).foldl (fun m i => if out i then m else m + 2 ^ i) 0
    m < 2 ^ len ∧ ∀ j < len, m.testBit j = true ↔ out j = false := by
  induction len with
  | zero => simp
  | succ n ih =>
    rw [List.range_succ, List.foldl_append]
    simp only [List.foldl_cons, List.foldl_nil]
    generalize (List.range n).foldl _ 0 = m at ih ⊢
    obtain ⟨lt, bits⟩ := ih
    have last : m.testBit n = false := Nat.testBit_lt_two_pow lt
    cases left : out n with
    | true =>
      refine ⟨by simpa using lt.trans (Nat.pow_lt_pow_right (by decide) (Nat.lt_succ_self n)), fun j hj => ?_⟩
      rcases Nat.lt_succ_iff_lt_or_eq.1 hj with h | rfl
      · exact bits j h
      · simp [last, left]
    | false =>
      refine ⟨by simp only [Bool.false_eq_true, if_false, Nat.pow_succ]; omega, fun j hj => ?_⟩
      simp only [Bool.false_eq_true, if_false, Nat.add_comm m]
      rcases Nat.lt_succ_iff_lt_or_eq.1 hj with h | rfl
      · rw [Nat.testBit_two_pow_add_gt h]
        exact bits j h
      · simp [Nat.testBit_two_pow_add_eq, last, left]

/-- An access of n bytes at a target reaches byte j of another. -/
def AccessReaches (s : State) (n : Nat) (t u : Target) (j : Nat) : Prop :=
  (s.keyOf t).1 = (s.keyOf u).1 ∧ (s.keyOf t).2 ≤ (s.keyOf u).2 + j ∧ (s.keyOf u).2 + j < (s.keyOf t).2 + n

/-- A store keeps the bytes of a part that no later lane writes (R215). -/
theorem tieMask_bits (s : State) (n : Nat) (later : List Probed) (t : Target) (len : Nat) : s.tieMask n later t len < 2 ^ len ∧
    ∀ j < len, (s.tieMask n later t len).testBit j = true ↔ ∀ h ∈ later, ¬AccessReaches s n h.tgt t j := by
  obtain ⟨lt, bits⟩ := foldl_bits (fun i => later.any fun h =>
    (s.keyOf h.tgt).1 == (s.keyOf t).1 && decide ((s.keyOf h.tgt).2 ≤ (s.keyOf t).2 + i) && decide ((s.keyOf t).2 + i < (s.keyOf h.tgt).2 + n)) len
  refine ⟨lt, fun j hj => (bits j hj).trans ?_⟩
  simp only [Bool.eq_false_iff, ne_eq, List.any_eq_true, Bool.and_eq_true, beq_iff_eq, decide_eq_true_eq, not_exists, not_and, AccessReaches, and_imp]

/-! ## The parts of a lane -/

theorem isAlias_iff (t : Target) : t.isAlias = true ↔ inWindow t := by
  cases t <;> simp [Target.isAlias, inWindow]

theorem isFlash_iff (t : Target) : t.isFlash = true ↔ inFlash t := by
  cases t <;> simp [Target.isFlash, inFlash]

/-- The length of the parts of a lane's access of n bytes (R66, R213). -/
def partLen (t : Target) (n : Nat) : Nat := if n ≤ 8 || t.isAlias || t.isFlash then n else 8

theorem partLen_whole {t : Target} {n : Nat} (h : n ≤ 8 ∨ inWindow t ∨ inFlash t) : partLen t n = n :=
  if_pos (by simpa [isAlias_iff, isFlash_iff, or_assoc] using h)

theorem partLen_split {t : Target} {n : Nat} (big : 8 < n) (window : ¬inWindow t) (flash : ¬inFlash t) : partLen t n = 8 :=
  if_neg (by simp [Bool.eq_false_iff.2 (mt (isAlias_iff t).1 window), Bool.eq_false_iff.2 (mt (isFlash_iff t).1 flash), big])

/-- The sizes of an access: they divide into whole parts (R305). -/
def PartSize (n : Nat) : Prop := 0 < n ∧ (8 < n → n % 8 = 0)

theorem partsOf_eq (t : Target) {n : Nat} (size : PartSize n) :
    partsOf t n = (List.range (n / partLen t n)).map fun k => (partLen t n * k, partLen t n) := by
  unfold partsOf partLen
  split
  · rw [Nat.div_self size.1]
    rfl
  · rfl

theorem partLen_dvd (t : Target) {n : Nat} (size : PartSize n) : n / partLen t n * partLen t n = n := by
  refine Nat.div_mul_cancel ?_
  unfold partLen
  split
  · exact dvd_refl n
  · next h => exact Nat.dvd_of_mod_eq_zero (size.2 (by simp at h; omega))

/-- The parts of one lane's load or store, before those of the later lanes. -/
def laneUnits (s : State) (n : Nat) (store : Bool) (data : Nat → List Byte) (l : Probed) (later : List Probed) : List MemUnit :=
  (partsOf l.tgt n).map fun p =>
    { lane := l.lane, off := p.1, va := l.va + BitVec.ofNat 64 p.1, tgt := l.tgt.plus p.1, len := p.2
      mask := if store then s.tieMask n later (l.tgt.plus p.1) p.2 else 0
      size := n, data := ((data l.lane).drop p.1).take p.2, deps := (l.tr.map Trans.deps).getD [] }

/-- The parts of a load or store, lane by lane. -/
def laneLists (s : State) (n : Nat) (store : Bool) (data : Nat → List Byte) : List Probed → List (List MemUnit)
  | [] => []
  | l :: rest => laneUnits s n store data l rest :: laneLists s n store data rest

section Lanes

variable (s : State) (n : Nat) (store : Bool) (data : Nat → List Byte)

theorem unitsOf_eq_flatten (ls : List Probed) : s.unitsOf n store data ls = (laneLists s n store data ls).flatten := by
  induction ls with
  | nil => rfl
  | cons l rest ih =>
    rw [State.unitsOf, ih]
    rfl

theorem length_laneLists (ls : List Probed) : (laneLists s n store data ls).length = ls.length := by
  induction ls with
  | nil => rfl
  | cons l rest ih => exact congrArg (· + 1) ih

theorem getElem?_laneLists (ls : List Probed) (i : Nat) :
    (laneLists s n store data ls)[i]? = ls[i]?.map fun l => laneUnits s n store data l (ls.drop (i + 1)) := by
  induction ls generalizing i with
  | nil => rfl
  | cons l rest ih =>
    cases i with
    | zero => rfl
    | succ i => exact ih i

end Lanes

/-- A load or store of a memory form. -/
structure MovesBytes (M : MemForm) (store : Bool) : Prop where
  size : PartSize M.n
  kind : M.acc = if store then .store else .load

theorem laneParts_laneUnits {f : Focus} {M : MemForm} {store : Bool} (moves : MovesBytes M store) (l : Nat × DWord) (later : List (Nat × DWord)) :
    LaneParts f M l later (laneUnits f.s M.n store (M.data f) (probedOf f l) (later.map (probedOf f))) := by
  obtain ⟨size, kind⟩ := moves
  refine ⟨partLen (leads f l).1 M.n, partLen_whole, partLen_split, ?_, fun k u hu => ?_⟩
  · rw [laneUnits, List.length_map, partsOf_eq _ size, List.length_map, List.length_range]
    exact partLen_dvd _ size
  · rw [laneUnits, partsOf_eq _ size, List.map_map, List.getElem?_map] at hu
    obtain ⟨k', hk, rfl⟩ := Option.map_eq_some_iff.1 hu
    obtain ⟨-, rfl⟩ := List.getElem?_eq_some_iff.1 hk
    simp only [List.getElem_range, Function.comp_apply, probedOf_deps]
    refine ⟨rfl, fun load => ?_, fun stores => ?_⟩
    · have : store = false := by
        cases store with
        | false => rfl
        | true => exact absurd (kind.symm.trans load) (by decide)
      rw [this]
      rfl
    · have : store = true := by
        cases store with
        | true => rfl
        | false => exact absurd (kind.symm.trans stores) (by decide)
      obtain ⟨lt, bits⟩ := tieMask_bits f.s M.n (later.map (probedOf f)) ((leads f l).1.plus (partLen (leads f l).1 M.n * k)) (partLen (leads f l).1 M.n)
      rw [this]
      exact ⟨lt, fun j hj => (bits j hj).trans List.forall_mem_map⟩

theorem parts_unitsOf {f : Focus} {M : MemForm} {store : Bool} (moves : MovesBytes M store) (ls : List (Nat × DWord)) :
    Parts f M ls (f.s.unitsOf M.n store (M.data f) (ls.map (probedOf f))) := by
  refine ⟨fun _ => ⟨laneLists f.s M.n store (M.data f) (ls.map (probedOf f)), unitsOf_eq_flatten _ _ _ _ _, ?_, fun i l v hl hv => ?_⟩, fun atom => ?_⟩
  · rw [length_laneLists, List.length_map]
  · rw [getElem?_laneLists, List.getElem?_map, hl, ← List.map_drop] at hv
    obtain rfl := Option.some.inj hv
    exact laneParts_laneUnits moves l (ls.drop (i + 1))
  · have kind := moves.kind
    cases store <;> exact absurd (kind.symm.trans atom) (by decide)

/-! ## The parts of an atomic -/

/-- The lanes of an atomic that name a word. -/
def naming (f : Focus) (ls : List (Nat × DWord)) (w : Nat × Nat) : List (Nat × DWord) := ls.filter fun l => f.s.keyOf (leads f l).1 == w

/-- A lane with its operands. -/
def operandsOf (vals : Nat → DWord × DWord) (l : Nat × DWord) : Nat × DWord × DWord := (l.1, (vals l.1).1, (vals l.1).2)

/-- The part of an atomic of n bytes that the lanes x to y name, x the first and y the last. -/
def atomUnit (f : Focus) (n : Nat) (vals : Nat → DWord × DWord) (x : Nat × DWord) (rest : List (Nat × DWord)) (y : Nat × DWord) : MemUnit :=
  { lane := x.1, off := 0, va := x.2, tgt := (leads f y).1, len := n, size := n, deps := (leads f y).2
    ops := (x :: rest).map (operandsOf vals) }

/-- The parts that the lanes of an atomic make: one for each word named, with the lanes that name it in their order (R213, R313). -/
structure AtomParts (f : Focus) (n : Nat) (vals : Nat → DWord × DWord) (ls : List (Nat × DWord)) (us : List MemUnit) : Prop where
  apart : (us.map fun u => f.s.keyOf u.tgt).Nodup
  named : ∀ l ∈ ls, ∃ u ∈ us, f.s.keyOf u.tgt = f.s.keyOf (leads f l).1
  each  : ∀ u ∈ us, ∃ x rest y, naming f ls (f.s.keyOf u.tgt) = x :: rest ∧ (x :: rest).getLast? = some y ∧ u = atomUnit f n vals x rest y

section Atoms

variable {f : Focus} {n : Nat} {vals : Nat → DWord × DWord} {ls : List (Nat × DWord)} {us : List MemUnit} {l : Nat × DWord}

theorem naming_cons_same {w : Nat × Nat} (h : f.s.keyOf (leads f l).1 = w) : naming f (l :: ls) w = l :: naming f ls w :=
  List.filter_cons_of_pos (by simpa using h)

theorem naming_cons_other {w : Nat × Nat} (h : f.s.keyOf (leads f l).1 ≠ w) : naming f (l :: ls) w = naming f ls w :=
  List.filter_cons_of_neg (by simpa using h)

/-- A part with a lower lane that names its word as well. -/
def joinedBy (f : Focus) (vals : Nat → DWord × DWord) (l : Nat × DWord) (u : MemUnit) : MemUnit :=
  if f.s.keyOf u.tgt == f.s.keyOf (leads f l).1 then { u with lane := l.1, va := l.2, ops := operandsOf vals l :: u.ops } else u

theorem joinedBy_tgt (u : MemUnit) : (joinedBy f vals l u).tgt = u.tgt := by
  unfold joinedBy
  split <;> rfl

/-- A lane that names a word named already joins its part. -/
theorem AtomParts.join (h : AtomParts f n vals ls us) (known : ∃ u ∈ us, f.s.keyOf u.tgt = f.s.keyOf (leads f l).1) :
    AtomParts f n vals (l :: ls) (us.map (joinedBy f vals l)) where
  apart := by
    rw [List.map_map]
    exact (List.map_congr_left fun u _ => congrArg f.s.keyOf (joinedBy_tgt u)) ▸ h.apart
  named := by
    have stays {w : Nat × Nat} (hw : ∃ u ∈ us, f.s.keyOf u.tgt = w) : ∃ u ∈ us.map (joinedBy f vals l), f.s.keyOf u.tgt = w := by
      obtain ⟨u, hu, rfl⟩ := hw
      exact ⟨_, List.mem_map_of_mem hu, congrArg f.s.keyOf (joinedBy_tgt u)⟩
    exact List.forall_mem_cons.2 ⟨stays known, fun x hx => stays (h.named x hx)⟩
  each := by
    refine List.forall_mem_map.2 fun u hu => ?_
    obtain ⟨x, rest, y, lanes, last, eq⟩ := h.each u hu
    rw [joinedBy_tgt]
    by_cases same : f.s.keyOf (leads f l).1 = f.s.keyOf u.tgt
    · refine ⟨l, x :: rest, y, by rw [naming_cons_same same, lanes], by rw [List.getLast?_cons_cons, last], ?_⟩
      rw [joinedBy, if_pos (by simpa using same.symm), eq]
      rfl
    · refine ⟨x, rest, y, by rw [naming_cons_other same, lanes], last, ?_⟩
      rw [joinedBy, if_neg (by simpa using Ne.symm same), eq]

/-- A lane that names a new word makes a part of its own. -/
theorem AtomParts.new (h : AtomParts f n vals ls us) (fresh : ∀ u ∈ us, f.s.keyOf u.tgt ≠ f.s.keyOf (leads f l).1) :
    AtomParts f n vals (l :: ls) (atomUnit f n vals l [] l :: us) where
  apart := List.nodup_cons.2 ⟨fun mem => by
    obtain ⟨u, hu, key⟩ := List.mem_map.1 mem
    exact fresh u hu key, h.apart⟩
  named := List.forall_mem_cons.2 ⟨⟨_, List.mem_cons_self, rfl⟩, fun x hx => by
    obtain ⟨u, hu, key⟩ := h.named x hx
    exact ⟨u, List.mem_cons_of_mem _ hu, key⟩⟩
  each := by
    refine List.forall_mem_cons.2 ⟨⟨l, [], l, ?_, rfl, rfl⟩, fun u hu => ?_⟩
    · have alone : naming f ls (f.s.keyOf (leads f l).1) = [] := List.filter_eq_nil_iff.2 fun x hx same => by
        obtain ⟨u, hu, key⟩ := h.named x hx
        exact fresh u hu (key.trans (beq_iff_eq.1 same))
      exact (naming_cons_same rfl).trans (congrArg (l :: ·) alone)
    · obtain ⟨x, rest, y, lanes, last, eq⟩ := h.each u hu
      exact ⟨x, rest, y, by rw [naming_cons_other (fresh u hu).symm, lanes], last, eq⟩

end Atoms

theorem atomParts_atomUnits (f : Focus) (n : Nat) (vals : Nat → DWord × DWord) (ls : List (Nat × DWord)) :
    AtomParts f n vals ls (f.s.atomUnits n vals (ls.map (probedOf f))) := by
  induction ls with
  | nil => exact ⟨List.nodup_nil, by simp, by simp [State.atomUnits]⟩
  | cons l rest ih =>
    rw [List.map_cons, State.atomUnits]
    split
    · next known =>
      exact ih.join (by simpa [probedOf] using known)
    · next fresh =>
      rw [probedOf_deps]
      exact ih.new (by simpa [probedOf] using fresh)

theorem parts_atomUnits {f : Focus} {M : MemForm} (atom : M.acc = .atomic) (ls : List (Nat × DWord)) :
    Parts f M ls (f.s.atomUnits M.n (M.vals f) (ls.map (probedOf f))) := by
  obtain ⟨apart, named, each⟩ := atomParts_atomUnits f M.n (M.vals f) ls
  exact ⟨fun h => absurd atom h, fun _ => ⟨apart, named, each⟩⟩

end Sys2Proof.Claims
end

section
-- One proof after another: side by side their threads pass the limit of memory that the check sets.
set_option Elab.async false
/-! CLAIM. Memory instructions that pass the probe, and the walk that composes a translation (R22, R52, R91, R95 to R99, R121, R170, R213, R215 to
R217, R304 to R308, R310 to R314). -/

namespace Sys2Proof.Claims

open Sys2Proof Sys2Proof.Machine

/-! ## The entry into the queue -/

/-- The results that a memory instruction brings. -/
def pendOf (id : Nat) (M : MemForm) (cells : List PendCell) : List Pend :=
  if cells = [] then [] else [{ req := some id, size := M.size, acq := M.order == .acq || M.order == .sc, cells := cells }]

/-- The warp with a request more in its queue, and the results it brings outstanding. -/
def queuedOn (f : Focus) (M : MemForm) (us : List MemUnit) (cells : List PendCell) (w : Warp) : Warp :=
  { w with
    nextReq := f.wp.nextReq + 1
    mem := f.wp.mem ++ [{ id := f.wp.nextReq, kind := M.kind, order := M.order, scope := M.scope, pc := f.pc, units := us }]
    pend := f.wp.pend ++ pendOf f.wp.nextReq M cells }

/-- The state with the request entered. -/
def entered (f : Focus) (M : MemForm) (us : List MemUnit) (cells : List PendCell) : State :=
  (f.commit.withWarp (queuedOn f M us cells f.commit.wp)).close

theorem enqueue_eq (f : Focus) (M : MemForm) (ls : List Probed) (us : List MemUnit) (cells : List PendCell) :
    f.commit.enqueue ls M.kind M.order M.scope us M.size cells = (entered f M us cells).rememberAll f.ctx ls := by
  cases cells with
  | nil =>
    rw [entered, queuedOn, pendOf, if_pos rfl, List.append_nil]
    rfl
  | cons c rest => rfl

theorem issuedAs_queuedOn (f : Focus) (M : MemForm) (us : List MemUnit) (cells : List PendCell) :
    IssuedAs f (queuedOn f M us cells f.wp) (queuedOn f M us cells f.commit.wp) id := issuedAs_commit f _ _ _

/-! ## The issue -/

/-- An instruction issues as its memory form says: `units` and `cells` are the parts and results it enters for the lanes probed. -/
structure IssuesAs (i : Instr) (M : MemForm) (units : Focus → List Probed → List MemUnit) (cells : Focus → List Probed → List PendCell) : Prop where
  run    : ∀ s, exec i s = memIssue i M.h M.acc M.n M.takes M.lanes
             (fun f c ls => c.enqueue ls M.kind M.order M.scope (units f ls) M.size (cells f ls)) s
  parts  : ∀ f ls, Parts f M ls (units f (ls.map (probedOf f)))
  brings : ∀ f ls, cells f (ls.map (probedOf f)) = M.cells f ls

section Issue

variable {i : Instr} {M : MemForm} {s : State} {f : Focus} {lanes : Focus → List Nat → List (Nat × DWord)}
  {enter : Focus → Focus → List Probed → State} (ready : Ready i M.h.s s f)
include ready

theorem memIssue_waits {h : Hold} (wait : memHold M.takes f (takes f M.h.g) = some h) :
    memIssue i M.h M.acc M.n M.takes lanes enter s = .next (f.park h) := by
  obtain ⟨focus, mark, -, -, -⟩ := ready
  have clear : (M.h.s && f.wp.outstanding) = false := by
    cases hs : M.h.s with
    | false => rfl
    | true => rw [mark hs]; rfl
  rw [memIssue, coreIssue_some _ _ _ _ _ _ _ _ focus, takers_eq, wait, clear]
  rfl

theorem memIssue_idle (idle : takes f M.h.g = []) : memIssue i M.h M.acc M.n M.takes lanes enter s = .next f.commit.close := by
  obtain ⟨focus, mark, well, regs, ply⟩ := ready
  rw [memIssue, coreIssue_eff _ _ _ _ _ _ _ _ focus mark (by rw [takers_eq, memHold_idle idle]) well regs (.inl ply) (by rw [takers_eq, idle]; rfl), takers_eq,
    idle]
  rfl

theorem memIssue_enters (taking : takes f M.h.g ≠ []) (free : memHold M.takes f (takes f M.h.g) = none) {ls : List Probed}
    (good : f.probe M.acc M.n (lanes f (takes f M.h.g)) = .good ls) :
    memIssue i M.h M.acc M.n M.takes lanes enter s = .next (enter f f.commit ls) := by
  obtain ⟨focus, mark, well, regs, ply⟩ := ready
  have part : (takes f M.h.g).isEmpty = false := by simpa using taking
  rw [memIssue, coreIssue_eff _ _ _ _ _ _ _ _ focus mark (by rw [takers_eq, free]) well regs (.inl ply) (by simp only [takers_eq, part, good]; rfl)]
  simp only [takers_eq, part, good]
  rfl

end Issue

/-! ## The memory forms -/

theorem bytes_eq (m : MSize) : m.bytes = sizeBytes m := by cases m <;> rfl

theorem regs_eq (m : MSize) : m.regs = sizeRegs m := by cases m <;> rfl

theorem partSize_sizeBytes (m : MSize) : PartSize (sizeBytes m) := by cases m <;> exact ⟨by decide, by decide⟩

theorem flatMap_range_words {α : Type} (g : Nat → Nat → α) (r : Nat) :
    ((List.range r).flatMap fun i => (List.range 4).map (g i)) = (List.range (4 * r)).map fun j => g (j / 4) (j % 4) := by
  induction r with
  | zero => rfl
  | succ r ih =>
    rw [List.range_succ (n := r), List.flatMap_append, ih, Nat.mul_succ, List.range_add, List.map_append, List.map_map, List.flatMap_singleton]
    refine congrArg _ (List.map_congr_left fun j hj => ?_)
    have lt : j < 4 := List.mem_range.1 hj
    rw [Function.comp_apply, show (4 * r + j) / 4 = r by omega, show (4 * r + j) % 4 = j by omega]

/-- The bytes that a store takes from its registers (R305). -/
theorem storeBytes_eq (m : MSize) (reg : Nat → Word) : storeBytes m reg = regBytes (sizeBytes m) reg := by
  have whole : min (sizeBytes m) (4 * sizeRegs m) = sizeBytes m := by cases m <;> rfl
  simp only [storeBytes, leBytes_eq_map, bytes_eq, regs_eq]
  rw [flatMap_range_words fun i j => BitVec.ofNat 8 ((reg i).toNat / 256 ^ j), ← List.map_take, List.take_range, whole]
  rfl

theorem loadCells_eq (f : Focus) (m : MSize) (d : Reg) (ls : List (Nat × DWord)) :
    (ls.map (probedOf f)).flatMap (fun l => f.loadCells m d l.lane) = vecCells d (sizeRegs m) f ls := by
  rw [List.flatMap_map, vecCells, ← regs_eq]
  rfl

theorem atomCells_eq (f : Focus) (m : AtomMode) (d : Reg) (ls : List (Nat × DWord)) :
    (ls.map (probedOf f)).flatMap (fun l => f.atomCells m d l.lane) = if m.ret then vecCells d (if m.w64 then 2 else 1) f ls else [] := by
  rw [List.flatMap_map]
  cases ret : m.ret with
  | true =>
    simp only [Focus.atomCells, ret]
    rfl
  | false => simp [Focus.atomCells, ret]

theorem issuesAs_moves {i : Instr} {M : MemForm} {store : Bool} {cells : Focus → List Probed → List PendCell} (moves : MovesBytes M store)
    (run : ∀ s, exec i s = memIssue i M.h M.acc M.n M.takes M.lanes
      (fun f c ls => c.enqueue ls M.kind M.order M.scope (f.s.unitsOf M.n store (M.data f) ls) M.size (cells f ls)) s)
    (brings : ∀ f ls, cells f (ls.map (probedOf f)) = M.cells f ls) :
    IssuesAs i M (fun f ls => f.s.unitsOf M.n store (M.data f) ls) cells := ⟨run, fun _ ls => parts_unitsOf moves ls, brings⟩

section Forms

variable (h : Hdr) (d a : Reg) (m : MemMode)

theorem issuesAs_ld : ∃ units cells, IssuesAs (.ld h d a m) (plain h .load .load m false (eachLane a) (vecCells d (sizeRegs m.size)) fun _ _ => [])
    units cells := by
  refine ⟨_, fun f ls => ls.flatMap fun l => f.loadCells m.size d l.lane, issuesAs_moves (store := false) ⟨partSize_sizeBytes m.size, rfl⟩ (fun s => ?_)
    fun f ls => loadCells_eq f m.size d ls⟩
  show execLd h d a m s = _
  rw [execLd, bytes_eq, vecLanes_eq]
  rfl

theorem issuesAs_sld : ∃ units cells, IssuesAs (.sld h d a m) (plain h .load .load m true (oneLane a)
    (fun _ _ => (List.range (sizeRegs m.size)).map fun i => { lane := 0, uni := true, reg := d.toNat + i, off := 4 * i }) fun _ _ => []) units cells := by
  refine ⟨_, fun _ _ => (List.range (sizeRegs m.size)).map fun i => { lane := 0, uni := true, reg := d.toNat + i, off := 4 * i },
    issuesAs_moves (store := false) ⟨partSize_sizeBytes m.size, rfl⟩ (fun s => ?_) fun f ls => rfl⟩
  show execSld h d a m s = _
  rw [execSld, bytes_eq, regs_eq, uniLane_eq]
  rfl

theorem issuesAs_st : ∃ units cells, IssuesAs (.st h d a m) (plain h .store .store m false (eachLane a) (fun _ _ => [])
    fun f l => regBytes (sizeBytes m.size) fun i => f.v 0 l (d.toNat + i)) units cells := by
  refine ⟨_, fun _ _ => [], issuesAs_moves (store := true) ⟨partSize_sizeBytes m.size, rfl⟩ (fun s => ?_) fun f ls => rfl⟩
  show execSt h d a m s = _
  simp only [execSt, bytes_eq, storeBytes_eq, vecLanes_eq]
  rfl

theorem issuesAs_sst : ∃ units cells, IssuesAs (.sst h d a m) (plain h .store .store m true (oneLane a) (fun _ _ => [])
    fun f _ => regBytes (sizeBytes m.size) fun i => f.u 0 (d.toNat + i)) units cells := by
  refine ⟨_, fun _ _ => [], issuesAs_moves (store := true) ⟨partSize_sizeBytes m.size, rfl⟩ (fun s => ?_) fun f ls => rfl⟩
  show execSst h d a m s = _
  simp only [execSst, bytes_eq, storeBytes_eq, uniLane_eq]
  rfl

end Forms

/-- The atomics issue alike (R311 to R314). -/
theorem issuesAs_atomic {i : Instr} {op : AtomOp} {h : Hdr} {d a : Reg} {m : AtomMode} (run : ∀ s, exec i s = atomIssue i op h d a m s) :
    ∃ units cells, IssuesAs i (atomic op h d a m) units cells := by
  refine ⟨fun f ls => f.s.atomUnits (atomic op h d a m).n ((atomic op h d a m).vals f) ls, fun f ls => ls.flatMap fun l => f.atomCells m d l.lane,
    fun s => (run s).trans ?_, fun f ls => parts_atomUnits rfl ls, fun f ls => (atomCells_eq f m d ls).trans ?_⟩
  · have size : atomBytes m = (atomic op h d a m).n := by
      cases w : m.w64 <;> simp [atomBytes, atomic, w]
    have vals (f : Focus) : f.atomData op m d = (atomic op h d a m).vals f := by
      funext l
      cases w : m.w64 <;> simp [Focus.atomData, atomic, w, Focus.v2, pairOf]
    simp only [atomIssue, size, vals, vecLanes_eq]
    rfl
  · cases ret : m.ret <;> simp [atomic, ret]

/-- Every memory instruction issues as its form says. -/
theorem issuesAs_of_memoryOps {i : Instr} {M : MemForm} (hM : memoryOps i = some M) : ∃ units cells, IssuesAs i M units cells := by
  unfold memoryOps at hM
  split at hM
  case h_1 h d a m => exact Option.some.inj hM ▸ issuesAs_ld h d a m
  case h_2 h d a m => exact Option.some.inj hM ▸ issuesAs_sld h d a m
  case h_3 h d a m => exact Option.some.inj hM ▸ issuesAs_st h d a m
  case h_4 h d a m => exact Option.some.inj hM ▸ issuesAs_sst h d a m
  case h_17 => cases hM
  all_goals
    obtain rfl := Option.some.inj hM
    exact issuesAs_atomic fun s => rfl

/-- What a passing lane's access is remembered with. -/
theorem Passes.remembered {f : Focus} {M : MemForm} {l : Nat × DWord} (h : Passes f M l) {t : Trans} (ht : transOf f l = some t) :
    ownSpace l.2 ∧ f.lead l.1 l.2 = .ok t := by
  obtain ⟨-, own | door | ⟨spm, -⟩, translated, -⟩ := h
  · obtain ⟨t', led, -⟩ := translated own
    have outside : l.2.toNat / 2 ^ 56 ≠ 0xFE ∧ l.2.toNat / 2 ^ 56 ≠ 0xFF := by
      rw [Nat.div_eq_of_lt own]
      decide
    rw [transOf_own outside, led] at ht
    exact ⟨own, led.trans (congrArg Except.ok (Option.some.inj ht))⟩
  · rw [transOf_outside (.inl door)] at ht
    cases ht
  · rw [transOf_outside (.inr spm)] at ht
    cases ht

theorem requestsEnter : RequestsEnter := by
  intro i M hM s f ready
  obtain ⟨units, cells, run, parts, brings⟩ := issuesAs_of_memoryOps hM
  obtain rfl := State.focus_state s f ready.1
  dsimp only
  generalize lanes : M.lanes f (takes f M.h.g) = ls
  refine ⟨fun idle => ?_, fun taking held => ?_, fun taking free full => ?_, fun taking free room pass => ?_⟩
  · exact ⟨_, (run _).trans (memIssue_idle ready idle), warpEffect_idle f⟩
  · exact ⟨_, (run _).trans (memIssue_waits ready (memHold_held taking held)), onlyTeam_park f _⟩
  · exact ⟨_, (run _).trans (memIssue_waits ready (memHold_full taking free full)), onlyTeam_park f _⟩
  · have goes := (run f.s).trans (memIssue_enters ready taking (memHold_none taking free room) (lanes ▸ probe_good pass))
    rw [enqueue_eq, brings, lanes] at goes
    obtain ⟨castle, eq⟩ := rememberAll_only (entered f M (units f (ls.map (probedOf f))) (M.cells f ls)) f.ctx (ls.map (probedOf f))
    refine ⟨_, _, _, _, goes, parts f ls, onlyWarp_close f _, issuedAs_queuedOn f M _ _, by rw [eq]; rfl, fun e he => ?_⟩
    rcases mem_rememberAll he with old | ⟨p, hp, tr, ctx, page⟩
    · exact .inl old
    · obtain ⟨l, hl, rfl⟩ := List.mem_map.1 hp
      obtain ⟨own, led⟩ := (pass l hl).remembered tr
      exact .inr ⟨l, hl, own, led, ctx, page⟩

/-- Settles O30: a memory instruction enters the queue as its form says, and a translation is composed of one walk for each level. -/
theorem memoryIssue : Obligations.MemoryIssue := ⟨requestsEnter, translationWalk⟩

end Sys2Proof.Claims
end

section
-- One proof after another: side by side their threads pass the limit of memory that the check sets.
set_option Elab.async false
/-! CLAIM. MBOX_PUT and MBOX_TAKE (R39, R47, R61, R69, R83, R84, R191). -/

namespace Sys2Proof.Claims

open Sys2Proof Sys2Proof.Machine

/-- Of a page whose walk misses, an access takes the one translation that the castling cache holds, where it holds it so often that the free
choice falls on it (R100, R101). -/
theorem translate_of_cached {s : State} {salt ctx va : Nat} {t : Trans} {m : Miss}
    (held : s.cached ctx va = List.replicate (Config.pickNat s.freeCtr salt + 1) t) (absent : s.walk ctx va = .error m) :
    s.translate salt ctx va = .ok t := by
  have chosen : Config.pickNat s.freeCtr salt % (Config.pickNat s.freeCtr salt + 1 + 1) = Config.pickNat s.freeCtr salt := Nat.mod_eq_of_lt (by omega)
  rw [State.translate, held, absent, List.replicate_succ]
  simp [chosen, ← List.replicate_succ]

/-- A translation whose frame is not at the start of a page: it leads four bytes into an SBM word. -/
def unalignedPage : Trans :=
  { dev := 0, frame := 0x80000000004, size := 4096, read := true, write := true, exec := false, pin := false, flash := false, mx := false
    inter := 0, world := 0, comp := 0, deps := [] }

/-- MBOX_PUT of the value 0 at address 0. -/
def putPacket : Packet := { index := 0, bytes := [2] }

/-- A root context whose ROOT_PTB names no HBM or SBM, so that every walk misses. -/
def tableless : Ctx := { live := true, ptb := 0xC0000000 }

/-- A queue of context 0 with that packet at its head, where no table leads on, and the castling cache leads address 0 into a poisoned SBM word, four
bytes from its start. -/
def unalignedPut : State :=
  { mem := { poison := [(0x80000000000, true)] }
    queues := [(0, { state := .run, owner := some 0, cur := some putPacket })]
    ctxs := [(0, tableless)]
    eng := { castle := List.replicate (Config.pickNat 0 0x9100000 + 1) ⟨0, 0, unalignedPage⟩ } }

theorem unalignedPut_walk : unalignedPut.walk 0 0 = .error { ctx := 0, addr := 0 } := by
  have nowhere : ¬MemByte (tableless.ptb.toNat * 4096) := by
    show ¬MemByte 0xC0000000000
    simp [MemByte, regionOf]
  rw [State.walk, show unalignedPut.chainOf 0 = [(0, tableless)] from rfl, compose_root, rootWalk_nowhere nowhere]

theorem unalignedPut_translate : unalignedPut.translate 0x9100000 0 0 = .ok unalignedPage := by
  refine translate_of_cached ?_ unalignedPut_walk
  show ((List.replicate _ _).filter _).map _ = _
  rw [List.filter_eq_self.2 (by simp), List.map_replicate]
  rfl

theorem unalignedPut_lead : unalignedPut.lead 0x9100000 0 0 .store = .ok unalignedPage := by
  rw [State.lead, unalignedPut_translate]
  rfl

theorem unalignedPut_heads : Heads unalignedPut 2 0 0 putPacket := by
  refine ⟨rfl, rfl, rfl, rfl, rfl, rfl⟩

/-- The packet leads to the mailbox at offset 4. -/
theorem unalignedPut_mailbox : MailboxAt unalignedPut 0 putPacket .store 4 unalignedPage :=
  ⟨rfl, unalignedPut_lead, _, _, _, _, rfl, rfl, rfl⟩

/-- The state once the PUT has taken effect. -/
def unalignedServed : State := unalignedPut.serveMailbox 0 0 putPacket 4 unalignedPage

theorem unalignedPut_runs : exec .mboxPut unalignedPut = .next unalignedServed := by
  have box : unalignedPut.mailbox 0 (putPacket.field 8 8) .store = some (4, unalignedPage) := by
    show (match unalignedPut.lead 0x9100000 0 0 .store with | .ok t => _ | _ => none) = _
    rw [unalignedPut_lead]
    rfl
  have once : mailboxOnce .store (fun _ _ _ => true) 2 (calm unalignedPut) = .next unalignedServed := by
    show Host.Outcome.next (unalignedPut.tryMailbox .store (fun _ _ _ => true) 0 0 putPacket) = _
    rw [State.tryMailbox, box]
    rfl
  exact (takesPlace_throughLinks (i := .mboxPut) rfl once fun _ => ⟨rfl, rfl, rfl⟩).quiet rfl (not_sentFor_of_ports rfl)

/-- Refutes O38: the castling cache of an arbitrary state may lead a packet to a word that is not aligned in its frame; the PUT then heals a
SBM word whose poison, read at its own address outside the eight bytes, the statement keeps. -/
theorem not_mailboxes : ¬ Obligations.Mailboxes := by
  intro h
  obtain ⟨at_, -⟩ := h .mboxPut 2 .store (.inl ⟨rfl, rfl, rfl⟩) unalignedPut 0 0 putPacket
  obtain ⟨t, takes, -, -, serves, -⟩ := at_ unalignedPut_heads
  obtain ⟨still, unsent⟩ := takes.never rfl
  obtain rfl := Host.Outcome.next.inj ((takes.quiet still unsent).symm.trans unalignedPut_runs)
  have none : ¬WaitsBefore unalignedPut 2 4 1 := by
    rintro ⟨x, hx, k, n, hk, -, waits, -⟩
    obtain rfl := List.mem_singleton.1 hx
    obtain rfl := Option.some.inj hk
    cases waits
  obtain ⟨y, begun, put, -⟩ := serves 4 unalignedPage rfl unalignedPut_mailbox (.inl rfl) rfl none rfl
  obtain ⟨z, -, -, -, poisoned, -, done⟩ := put rfl
  obtain ⟨rest, -⟩ := begun
  have zt : unalignedServed.mem = z.mem := by
    unfold Completed at done
    split at done
    · rw [done.1]
    · rw [done.1]
  have : false = true := calc
      false = unalignedServed.mem.poisoned 0x80000000000 := rfl
      _ = y.mem.poisoned 0x80000000000 := by rw [zt, poisoned]; rfl
      _ = true := by rw [rest]; rfl
  cases this

end Sys2Proof.Claims
end

section
-- One proof after another: side by side their threads pass the limit of memory that the check sets.
set_option Elab.async false
/-! CLAIM. A world that DESTROY or a SCRUB ends (R64, R69, R117, R124 to R129, R132 to R136). -/

namespace Sys2Proof.Claims

open Sys2Proof Sys2Proof.Machine

/-- A tenant world 1 whose only live root context stands in the table of contexts under 4101 = 4096 + 5, where queue 0 belongs to the context that
twelve bits name, 5. Both a DESTROY of the world and a SCRUB that ends it are under way. -/
def wideRoot : State :=
  { cfg := { wWorld := 1, wOp := some .destroy }
    ctxs := [(0, { world := 1 }), (4101, { live := true, world := 1 })]
    queues := [(0, { state := .run, owner := some 5 })]
    eng := { cmds := [{ id := 0, kind := .scrub, ctx := 0, queue := none }] } }

/-- Queue 0 runs on: it does not belong to a context of the world destroyed. -/
theorem wideRoot_left {t : State} (run : (t.queue 0).state = .run) (owner : (t.queue 0).owner = some 5) : ¬BackInWorldZero t 4101 := by
  rintro ⟨-, -, -, -, -, queues⟩
  obtain ⟨idle, -⟩ := queues 0 owner
  cases run.symm.trans idle

theorem wideRoot_quiet : ∀ c ∈ wideRoot.worldContexts 1, wideRoot.subtreeQuiet c = true := by decide

theorem wideRoot_inWorld : InWorld wideRoot 1 4101 := ⟨rfl, rfl⟩

/-- The state that a DESTROY leaves. -/
def wideDestroyed : State := (wideRoot.destroyWorld 1).worldStatus 0 none

/-- The state that the SCRUB leaves. -/
def wideScrubbed : State := (wideRoot.completeCmd { id := 0, kind := .scrub, ctx := 0, queue := none } Status.ok 0).destroyWorld 1

theorem wideDestroyed_queue : (wideDestroyed.queue 0).state = .run ∧ (wideDestroyed.queue 0).owner = some 5 := by
  decide

theorem wideScrubbed_queue : (wideScrubbed.queue 0).state = .run ∧ (wideScrubbed.queue 0).owner = some 5 := by
  decide

theorem wideRoot_destroys : exec .worldCmdDone wideRoot = .next wideDestroyed := by
  have once : finishWorldCmd (calm wideRoot) = .next wideDestroyed := rfl
  exact (takesPlace_throughLinks (i := .worldCmdDone) rfl once fun _ => ⟨rfl, rfl, rfl⟩).quiet rfl (not_sentFor_of_ports rfl)

theorem wideRoot_scrubs : exec .revokeComplete wideRoot = .next wideScrubbed := by
  have once : completeRevoke (calm wideRoot) = .next wideScrubbed := rfl
  exact (takesPlace_throughLinks (i := .revokeComplete) rfl once fun _ => ⟨rfl, rfl, rfl⟩).quiet rfl (not_sentFor_of_ports rfl)

/-- Refutes O41: a DESTROY empties the queues of the contexts that twelve bits can number; the statement also asks it of a context that an arbitrary
state holds under a number past 4095, whose twelve low bits name the owner of a queue that runs on. -/
theorem not_worldCommands : ¬ Obligations.WorldCommands := by
  rintro ⟨-, ends⟩
  obtain ⟨-, -, -, -, destroy⟩ := ends wideRoot
  obtain ⟨t, takes, -, -, -, -, -, back⟩ := destroy rfl rfl wideRoot_quiet
  obtain ⟨still, unsent⟩ := takes.never rfl
  obtain rfl := Host.Outcome.next.inj ((takes.quiet still unsent).symm.trans wideRoot_destroys)
  exact wideRoot_left wideDestroyed_queue.1 wideDestroyed_queue.2 (back 4101 wideRoot_inWorld rfl)

/-- Refutes O43: a SCRUB that ends a tenant world destroys it as DESTROY does, and leaves the same queue running. -/
theorem not_secureTransfers : ¬ Obligations.SecureTransfers := by
  rintro ⟨-, -, -, -, -, -, destroy⟩
  obtain ⟨t, takes, -, -, back⟩ := destroy wideRoot _ rfl rfl rfl wideRoot_quiet
  obtain ⟨still, unsent⟩ := takes.never rfl
  obtain rfl := Host.Outcome.next.inj ((takes.quiet still unsent).symm.trans wideRoot_scrubs)
  exact wideRoot_left wideScrubbed_queue.1 wideScrubbed_queue.2 (back 4101 wideRoot_inWorld rfl)

end Sys2Proof.Claims
end

section
-- One proof after another: side by side their threads pass the limit of memory that the check sets.
set_option Elab.async false
/-! CLAIM. A root that a REVOKE leaves (R113, R117). -/

namespace Sys2Proof.Claims

open Sys2Proof Sys2Proof.Machine

theorem completeCmd_ctxs (s : State) (k : Cmd) (status : BitVec 8) (payload : BitVec 128) : (s.completeCmd k status payload).ctxs = s.ctxs := by
  unfold State.completeCmd
  split
  · unfold State.complete
    split <;> rfl
  · rfl

theorem settleForwards_ctxs (s : State) : s.settleForwards.ctxs = s.ctxs := by
  unfold State.settleForwards
  refine List.foldlRecOn (motive := fun t : State => t.ctxs = s.ctxs) s.eng.cmds _ rfl fun t ht k _ => ?_
  split
  · split
    · exact ht
    · rw [completeCmd_ctxs, ht]
  · exact ht

theorem Completed.ctxs {s t : State} {q : Nat} {p : Packet} {status : BitVec 8} {payload : BitVec 128} (h : Completed s t q p status payload) :
    t.ctxs = s.ctxs := by
  unfold Completed at h
  split at h
  · rw [h.1]
  · rw [h.1]

/-- The packet of a REVOKE. -/
def revokePacket : Packet := { index := 0, bytes := [] }

/-- A REVOKE in progress of context 0 by itself. -/
def revokeOfRoot : Cmd := { id := 0, kind := .revoke true, ctx := 0, queue := some (0, revokePacket) }

/-- A state whose table of contexts holds context 0 twice, first not live and then live, and a REVOKE of it in progress. -/
def doubleRoot : State := { ctxs := [(0, {}), (0, { live := true })], eng := { cmds := [revokeOfRoot] } }

/-- The state that the REVOKE leaves. -/
def doubleRevoked : State := (doubleRoot.destroySubtree 0 true (some 0) (some (0, revokePacket))).endCmd revokeOfRoot Status.ok 0

theorem doubleRoot_revokes : exec .revokeComplete doubleRoot = .next doubleRevoked := by
  have once : completeRevoke (calm doubleRoot) = .next doubleRevoked := rfl
  exact (takesPlace_throughLinks (i := .revokeComplete) rfl once fun _ => ⟨rfl, rfl, rfl⟩).quiet rfl (not_sentFor_of_ports rfl)

/-- Refutes O47: a table of contexts may hold a number twice. The live second record puts context 0 in its own subtree, and the first, which is not
live, is the one that a read finds before the REVOKE and after it. -/
theorem not_subtreeCommands : ¬ Obligations.SubtreeCommands := by
  rintro ⟨-, -, ends, -⟩
  obtain ⟨-, -, revoke, -⟩ := ends doubleRoot revokeOfRoot rfl
  obtain ⟨y, t, takes, ⟨u, -, completed, unanswered, -⟩, destroyed⟩ := revoke true rfl rfl
  obtain ⟨still, unsent⟩ := takes.never rfl
  have left : t.settleForwards = doubleRevoked := Host.Outcome.next.inj ((takes.quiet still unsent).symm.trans doubleRoot_revokes)
  have ctxs : doubleRevoked.ctxs = y.ctxs := by
    rw [← left, settleForwards_ctxs, unanswered rfl, (completed 0 revokePacket rfl).ctxs]
  obtain ⟨lives, -⟩ := Destroyed.root (destroyed 0 revokePacket rfl) rfl (by decide)
  have : false = true := calc
    false = (doubleRevoked.ctx 0).live := by decide
    _ = (y.ctx 0).live := by unfold State.ctx; rw [ctxs]
    _ = true := lives
  cases this

end Sys2Proof.Claims
end

section
-- One proof after another: side by side their threads pass the limit of memory that the check sets.
set_option Elab.async false
/-! CLAIM. A link that leaves service (R35, R36, R48, R135). -/

namespace Sys2Proof.Claims

open Sys2Proof Sys2Proof.Machine

/-- A state whose link 5 has failed eight tags in a row, and whose table of presented packets is not in rising order: what it holds for device 0 and
link 3 lies behind an entry for link 5, and counts for nothing. -/
def unsortedLinks : State :=
  { fabric := { links := [(5, { state := 2, rxFails := 8 })], presented := [(5, 1), (3, 7)] }
    input := { link := 5 } }

theorem unsortedLinks_fails : exec .linkFailed unsortedLinks = .next (unsortedLinks.failLink 5) := rfl

/-- What counted for nothing counts once the entry of the lost link is gone. -/
theorem unsortedLinks_presented :
    Sparse.get 0 3 unsortedLinks.fabric.presented = 0 ∧ Sparse.get 0 3 (unsortedLinks.failLink 5).fabric.presented = 7 := by
  decide

/-- Refutes O44: the loss of a link forgets its entries in the table of presented packets; in a table that is not in rising order this lays bare an
entry of another link, whose value the statement keeps. -/
theorem not_fabricSource : ¬ Obligations.FabricSource := by
  rintro ⟨links, -⟩
  obtain ⟨-, -, -, fails, -⟩ := links unsortedLinks
  obtain ⟨t, run, -, -, -, -, presented, -⟩ := fails (.inl rfl) (by decide)
  obtain rfl := Host.Outcome.next.inj (run.symm.trans unsortedLinks_fails)
  obtain ⟨before, after⟩ := unsortedLinks_presented
  have kept : Sparse.get 0 3 (unsortedLinks.failLink 5).fabric.presented = Sparse.get 0 3 unsortedLinks.fabric.presented :=
    presented 0 3 (by decide)
  rw [before, after] at kept
  cases kept

end Sys2Proof.Claims
end

section
-- One proof after another: side by side their threads pass the limit of memory that the check sets.
set_option Elab.async false
/-! SUPPORT. What accesses to memory leave of the contexts. -/

namespace Sys2Proof.Claims

open Sys2Proof Sys2Proof.Machine

/-- What accesses to memory may leave of the contexts: halts raised, bounce channels stopped, and misses noted in OSF_ERR. -/
def CtxsLeft (s t : State) : Prop :=
  ∀ c, t.ctx c = { s.ctx c with halt := (t.ctx c).halt, bounce := (t.ctx c).bounce, osfErr := (t.ctx c).osfErr }

theorem CtxsLeft.of_eq {s t : State} (h : t.ctxs = s.ctxs) : CtxsLeft s t := fun c => by
  rw [State.ctx, h]
  rfl

@[refl] theorem CtxsLeft.refl (s : State) : CtxsLeft s s := .of_eq rfl

@[trans] theorem CtxsLeft.trans {s t u : State} (h : CtxsLeft s t) (g : CtxsLeft t u) : CtxsLeft s u := fun c => by rw [g c, h c]

theorem CtxsLeft.ite_of {α : Type} (f : α → State) {p : Prop} [Decidable p] {s : State} {x y : α} (h : CtxsLeft s (f x)) (g : CtxsLeft s (f y)) :
    CtxsLeft s (f (if p then x else y)) := by
  split
  · exact h
  · exact g

theorem WalkLeaves.ctxsLeft {s t : State} (h : WalkLeaves s t) : CtxsLeft s t := .of_eq (by rw [h.only])

section Leaves

variable (s : State)

theorem ctxsLeft_modCtx (c : Nat) {f : Ctx → Ctx} (h : ∀ x, f x = { x with halt := (f x).halt, bounce := (f x).bounce, osfErr := (f x).osfErr }) :
    CtxsLeft s (s.modCtx c f) := fun k => by
  by_cases hk : k = c
  · rw [hk, State.ctx_modCtx_same, ← h]
  · rw [State.ctx_modCtx_other s c k f hk]

theorem ctxsLeft_raiseHalt (c : Nat) (r : StopRec) (b : Bool) (t : Option Nat) : CtxsLeft s (s.raiseHalt c r b t) :=
  (ctxsLeft_modCtx s c fun _ => rfl).trans (ctxsLeft_modCtx _ c fun _ => rfl)

theorem ctxsLeft_recordOsf (c : Nat) (d : BitVec 12) (b : Bool) (k : BitVec 2) (a : Nat) : CtxsLeft s (s.recordOsf c d b k a) :=
  ctxsLeft_modCtx s c fun x => by
    dsimp only
    split <;> rfl

theorem ctxsLeft_countFailure (x : BitVec 8) : CtxsLeft s (s.countFailure x) := .ite_of id (.of_eq rfl) (.refl s)

/-- Each record changed as accesses may change it. -/
theorem CtxsLeft.of_map {s t : State} {f : Ctx → Ctx} (h : t.ctxs = s.ctxs.map fun p => (p.1, f p.2))
    (hf : ∀ x, f x = { x with halt := (f x).halt, bounce := (f x).bounce, osfErr := (f x).osfErr }) : CtxsLeft s t := fun c => by
  have found : t.ctx c = ((Table.find c s.ctxs).map f).getD {} := by rw [State.ctx, h, Table.find_map fun _ => f]
  rw [found, State.ctx]
  cases Table.find c s.ctxs with
  | none => rfl
  | some x => exact hf x

theorem ctxsLeft_tamperAlarmed : CtxsLeft s s.tamperAlarmed := by
  unfold State.tamperAlarmed
  dsimp only
  split
  · exact .of_eq rfl
  · refine .of_map (f := fun x => if x.live then { x with halt := some { haltWith x.halt { engine := 0, cause := Cause.cipherIntegrity }
      false none s.steps with tamper := true, saved := true } } else x) (List.map_congr_left fun p _ => ?_) fun x => ?_
    · dsimp only
      split <;> rfl
    · dsimp only
      split <;> rfl

theorem ctxsLeft_cpxFault (ctx : Nat) (x : BitVec 8) (a : DWord) : CtxsLeft s (s.cpxFault ctx x a) :=
  .ite_of id (.refl s) (ctxsLeft_raiseHalt s _ _ _ _)

theorem ctxsLeft_cpxMiss (ctx : Nat) (dev : BitVec 12) (a : Nat) (k : BitVec 2) : CtxsLeft s (s.cpxMiss ctx dev a k) :=
  (ctxsLeft_recordOsf s _ _ _ _ _).trans (ctxsLeft_cpxFault _ _ _ _)

theorem ctxsLeft_cpxWalkMiss (ctx va : Nat) (m : Miss) : CtxsLeft s (s.cpxWalkMiss ctx va m) := by
  unfold State.cpxWalkMiss
  cases m.why with
  | absent => exact .refl s
  | spoiled cause => exact (ctxsLeft_cpxFault s _ _ _).trans (ctxsLeft_countFailure _ _)
  | far dev a kind => exact ctxsLeft_cpxMiss s _ _ _ _
  | farFailed cause => exact ctxsLeft_cpxFault s _ _ _
  | tampered => exact (ctxsLeft_cpxFault s _ _ _).trans (ctxsLeft_tamperAlarmed _)

theorem ctxsLeft_walkFor (ctx va : Nat) : CtxsLeft s (s.walkFor ctx va) := (walkLeaves_walkFor s ctx va).ctxsLeft

theorem ctxsLeft_cpxFar (ctx va : Nat) (dev : BitVec 12) (a : Nat) (q : RemoteReq) (got : State → Option (List Byte)) :
    CtxsLeft s (s.cpxFar ctx va dev a q got).s := by
  obtain ⟨t, left, h | h | ⟨_, h⟩ | ⟨_, h⟩⟩ := farGo_cases s ctx (fabricAddr dev a).toNat q
  all_goals rw [State.cpxFar, h]
  · exact left.ctxsLeft
  · exact left.ctxsLeft
  · exact left.ctxsLeft.trans (ctxsLeft_cpxMiss t _ _ _ _)
  · exact left.ctxsLeft.trans (ctxsLeft_cpxFault t _ _ _)

/-! ## Reads and writes at their homes -/

theorem ctxsLeft_mxRead (inter : Nat) (w : BitVec 6) (c : BitVec 2) (a n : Nat) : CtxsLeft s (s.mxRead inter w c a n).s := by
  have marked (p : Bool) : CtxsLeft s (if p = true then s else s.overrun a) := .ite_of id (.refl s) (.of_eq rfl)
  unfold State.mxRead
  dsimp only
  split
  · exact (marked _).trans (ctxsLeft_countFailure _ _)
  · exact marked _

theorem ctxsLeft_agentRead (inter : Nat) (w : BitVec 6) (c : BitVec 2) (a n : Nat) : CtxsLeft s (s.agentRead inter w c a n).s := by
  suffices h : CtxsLeft s (s.homeRead inter w c a n).s from .ite_of HomeOut.s h h
  unfold State.homeRead
  split
  · exact ctxsLeft_mxRead s _ _ _ _ _
  · exact .ite_of HomeOut.s (ctxsLeft_countFailure s _) (.refl s)
  · split
    · exact ctxsLeft_countFailure s _
    · exact .refl s

theorem ctxsLeft_mxWrite (inter : Nat) (w : BitVec 6) (c : BitVec 2) (a mask : Nat) (data : List Byte) :
    CtxsLeft s (s.mxWrite inter w c a mask data).s := by
  have marked (p : Bool) : CtxsLeft s (if p = true then s else s.overrun a) := .ite_of id (.refl s) (.of_eq rfl)
  have stored (d : MxAlias) (b c : Nat) (codes : List Nat) (u : State) : CtxsLeft u (u.aliasStore d inter b c codes) := by
    have puts (a : Nat → Nat) (x : Nat → List Byte) (l : List Nat) (v : State) : (l.foldl (fun st i => st.writeLocal inter (a i) (x i)) v).ctxs = v.ctxs :=
      List.foldlRecOn (motive := fun t : State => t.ctxs = v.ctxs) l _ rfl fun _ h _ _ => h
    unfold State.aliasStore
    dsimp only
    split <;> exact .of_eq (puts _ _ _ _)
  unfold State.mxWrite
  dsimp only
  split
  · exact marked _
  · split
    · exact (marked _).trans (ctxsLeft_countFailure _ _)
    · exact (marked _).trans (stored _ _ _ _ _)

theorem ctxsLeft_homeWrite (inter : Nat) (w : BitVec 6) (c : BitVec 2) (a mask : Nat) (data : List Byte) (sector line : Bool) :
    CtxsLeft s (s.homeWrite inter w c a mask data sector line).s := by
  unfold State.homeWrite
  split
  · exact ctxsLeft_mxWrite s _ _ _ _ _ _
  · exact .refl s
  · exact .ite_of HomeOut.s (ctxsLeft_countFailure s _) (.ite_of HomeOut.s (ctxsLeft_countFailure s _) (.of_eq rfl))

/-! ## Accesses of the command processor -/

theorem ctxsLeft_readPiece (ctx : Nat) (p : Nat × Nat) : CtxsLeft s (s.readPiece ctx p).s := by
  unfold State.readPiece
  refine (ctxsLeft_walkFor s ctx p.1).trans ?_
  generalize s.walkFor ctx p.1 = u
  dsimp only
  split
  · exact ctxsLeft_cpxWalkMiss u _ _ _
  · exact .refl u
  · split
    · next a inter w c _ =>
      have read := (CtxsLeft.of_eq (by rw [befall_only]) : CtxsLeft u (u.befall inter.toNat a (u.hitAt a))).trans (ctxsLeft_agentRead _ inter.toNat w c a p.2)
      refine .ite_of Got.s ((ctxsLeft_cpxFault u _ _ _).trans (ctxsLeft_tamperAlarmed _)) ?_
      split
      · exact read.trans (ctxsLeft_cpxFault _ _ _ _)
      · exact read
    · exact ctxsLeft_cpxFar u _ _ _ _ _ _
    · exact .refl u

theorem ctxsLeft_readPieces (ctx : Nat) (l : List (Nat × Nat)) (g : Got) (h : CtxsLeft s g.s) : CtxsLeft s (readPieces ctx l g).s := by
  induction l generalizing g with
  | nil => exact h
  | cons p rest ih =>
    unfold readPieces
    split
    · exact h
    · exact ih _ (h.trans (ctxsLeft_readPiece g.s ctx p))

theorem ctxsLeft_readVa (ctx va n : Nat) : CtxsLeft s (s.readVa ctx va n).s := ctxsLeft_readPieces s ctx _ _ (.refl s)

theorem ctxsLeft_writePiece (ctx : Nat) (p : Nat × Nat) (bs : List Byte) (whole : Nat × Nat) : CtxsLeft s (s.writePiece ctx p bs whole).s := by
  unfold State.writePiece
  refine (ctxsLeft_walkFor s ctx p.1).trans ?_
  generalize s.walkFor ctx p.1 = u
  dsimp only
  split
  · exact ctxsLeft_cpxWalkMiss u _ _ _
  · exact .refl u
  · unfold State.putTarget
    split
    · next a inter w c _ =>
      have written : CtxsLeft u _ := ((walkLeaves_befallRange u inter.toNat a bs.length).ctxsLeft).trans
        (ctxsLeft_homeWrite _ inter.toNat w c a (2 ^ 64 - 1) bs (unitIn (regionOf a) whole.1 whole.2 p.1) (lineIn whole.1 whole.2 p.1))
      refine .ite_of Put.s ((ctxsLeft_cpxFault u _ _ _).trans (ctxsLeft_tamperAlarmed _)) ?_
      dsimp only
      split
      · exact written.trans (ctxsLeft_cpxFault _ _ _ _)
      · exact written
    · exact ctxsLeft_cpxFar u _ _ _ _ _ _
    · exact .refl u

theorem ctxsLeft_writePieces (ctx : Nat) (whole : Nat × Nat) (l : List (Nat × Nat)) (bs : List Byte) (r : Put) (h : CtxsLeft s r.s) :
    CtxsLeft s (writePieces ctx whole l bs r).s := by
  induction l generalizing bs r with
  | nil => exact h
  | cons p rest ih =>
    unfold writePieces
    exact ih _ _ (h.trans (ctxsLeft_writePiece r.s ctx p _ _))

theorem ctxsLeft_writeRecordVa (ctx va : Nat) (bs : List Byte) : CtxsLeft s (s.writeRecordVa ctx va bs) :=
  ctxsLeft_writePieces s ctx _ _ _ _ (.refl s)

end Leaves

end Sys2Proof.Claims
end

section
-- One proof after another: side by side their threads pass the limit of memory that the check sets.
set_option Elab.async false
/-! CLAIM. BUNDLE_RETIRE, COMPLETION_RECORD_WRITE and HANDLER_RECORD_WRITE (R47, R82, R88, R89, R93, R112, R120, R192). -/

namespace Sys2Proof.Claims

open Sys2Proof Sys2Proof.Machine

/-! ## The pieces of a record -/

/-- The words of so many bytes from an aligned address on. -/
def wordsAt (va m : Nat) : List (Nat × Nat) := (List.range m).map fun i => (va + 8 * i, 8)

theorem piecesOf_step {va n : Nat} (pos : 0 < n) :
    piecesOf va n = (va, min n (8 - va % 8)) :: piecesOf (va + min n (8 - va % 8)) (n - min n (8 - va % 8)) := by
  rw [piecesOf, pieces, if_neg (Nat.ne_of_gt pos), pieces_fuel (fuels_piecesOf va n).rest (fuels_piecesOf _ _)]
  rfl

theorem piecesOf_zero (va : Nat) : piecesOf va 0 = [] := rfl

/-- A range cut where a word ends has the pieces of both parts. -/
theorem piecesOf_append {va a b : Nat} (cut : (va + a) % 8 = 0 ∨ b = 0) : piecesOf va (a + b) = piecesOf va a ++ piecesOf (va + a) b := by
  induction a using Nat.strong_induction_on generalizing va with
  | _ a ih =>
    rcases Nat.eq_zero_or_pos a with rfl | pos
    · simp [piecesOf_zero]
    · have first : min (a + b) (8 - va % 8) = min a (8 - va % 8) := by omega
      rw [piecesOf_step (by omega : 0 < a + b), piecesOf_step pos, first, List.cons_append]
      generalize hk : min a (8 - va % 8) = k
      have rest := ih (a - k) (by omega) (va := va + k) (by omega)
      rw [show a + b - k = a - k + b by omega, rest, show va + k + (a - k) = va + a by omega]

/-- Cut at the lines, a range has the same pieces. -/
theorem lineParts_pieces {f va n : Nat} (fuel : n = 0 ∨ va % 64 + n ≤ 64 * f) :
    (lineParts f va n).flatMap (fun p => piecesOf p.1 p.2) = piecesOf va n := by
  induction f generalizing va n with
  | zero =>
    obtain rfl : n = 0 := by omega
    rfl
  | succ f ih =>
    rcases Nat.eq_zero_or_pos n with rfl | pos
    · rfl
    · rw [lineParts, if_neg (Nat.ne_of_gt pos)]
      generalize hk : min n (64 - va % 64) = k
      rw [List.flatMap_cons, ih (by omega), ← piecesOf_append (by omega), Nat.add_sub_cancel' (by omega)]

theorem piecesOf_words {va : Nat} (aligned : va % 8 = 0) (m : Nat) : piecesOf va (8 * m) = wordsAt va m := by
  induction m generalizing va with
  | zero => rfl
  | succ m ih =>
    have first : min (8 * (m + 1)) (8 - va % 8) = 8 := by omega
    rw [piecesOf_step (by omega), first, show 8 * (m + 1) - 8 = 8 * m by omega, ih (by omega), wordsAt, wordsAt, List.range_succ_eq_map, List.map_cons,
      List.map_map]
    refine congrArg₂ _ rfl (List.map_congr_left fun i _ => ?_)
    simp [Nat.mul_succ]
    omega

theorem partsAt_pieces {s : State} {c : Nat} (noWindow : ∀ a t, s.lead (cpxSalt a) c a .store = .ok t → (s.targetOf t a).inWindow = false) (va n : Nat) :
    s.partsAt c va n = piecesOf va n := by
  have outside (a : Nat) : s.leadsToWindow (cpxSalt a) c a .store = false := by
    unfold State.leadsToWindow
    split
    · next t led => exact noWindow a t led
    · rfl
  simp only [State.partsAt, outside, Bool.false_eq_true, if_false]
  exact lineParts_pieces (.inr (by omega))

/-- The pieces of a record: those behind its first four bytes, and these at the end. -/
theorem partsAt_record {s : State} {c : Nat} (noWindow : ∀ a t, s.lead (cpxSalt a) c a .store = .ok t → (s.targetOf t a).inWindow = false)
    {va n : Nat} (aligned : va % 8 = 0) (pos : 0 < n) : s.partsAt c (va + 4) (8 * n - 4) = (va + 4, 4) :: wordsAt (va + 8) (n - 1) := by
  have first : min (8 * n - 4) (8 - (va + 4) % 8) = 4 := by omega
  rw [partsAt_pieces noWindow, piecesOf_step (by omega), first, ← piecesOf_words (by omega : (va + 8) % 8 = 0), show 8 * n - 4 - 4 = 8 * (n - 1) by omega]

/-- Words in a row make up their bytes. -/
theorem flatMap_words (l : List Byte) (m : Nat) : ((List.range m).flatMap fun i => (l.drop (8 * i)).take 8) = l.take (8 * m) := by
  induction m with
  | zero => rfl
  | succ m ih => rw [List.range_succ, List.flatMap_append, ih, Nat.mul_succ, List.take_add]; simp

/-- Pieces written one after another, each with its bytes, pass through the states that each leaves. -/
theorem writePieces_states (c : Nat) (whole : Nat × Nat) (data : Nat × Nat → List Byte) {parts : List (Nat × Nat)}
    (len : ∀ p ∈ parts, (data p).length = p.2) {r : Put} {st : Nat → State} (start : st 0 = r.s)
    (step : ∀ (j : Nat) (p : Nat × Nat), parts[j]? = some p → st (j + 1) = ((st j).writePiece c p (data p) whole).s) :
    (writePieces c whole parts (parts.flatMap data) r).s = st parts.length := by
  induction parts generalizing r st with
  | nil => exact start.symm
  | cons p rest ih =>
    have here := len p List.mem_cons_self
    rw [writePieces, List.flatMap_cons, ← here, List.take_left, List.drop_left]
    refine ih (st := fun j => st (j + 1)) (fun q hq => len q (List.mem_cons_of_mem p hq)) ?_ fun j q hq => step (j + 1) q (by simpa using hq)
    rw [step 0 p rfl, start]

theorem writeRecordVa_states {s : State} {c va n : Nat} {bs : List Byte} {st : Nat → State} (aligned : va % 8 = 0) (pos : 0 < n)
    (len : bs.length = 8 * n) (noWindow : ∀ a t, s.lead (cpxSalt a) c a .store = .ok t → (s.targetOf t a).inWindow = false) (start : st 0 = s)
    (step : ∀ (j : Nat) (p : Nat × Nat), ((va + 4, 4) :: wordsAt (va + 8) (n - 1) ++ [(va, 4)])[j]? = some p →
      st (j + 1) = ((st j).writePiece c p ((bs.drop (p.1 - va)).take p.2) (va, bs.length)).s) :
    s.writeRecordVa c va bs = st ((va + 4, 4) :: wordsAt (va + 8) (n - 1) ++ [(va, 4)]).length := by
  have words : (wordsAt (va + 8) (n - 1)).flatMap (fun p : Nat × Nat => (bs.drop (p.1 - va)).take p.2) = bs.drop 8 := by
    have word (i : Nat) : (bs.drop (va + 8 + 8 * i - va)).take 8 = ((bs.drop 8).drop (8 * i)).take 8 := by
      rw [List.drop_drop, show va + 8 + 8 * i - va = 8 + 8 * i by omega]
    simp only [wordsAt, List.flatMap_map, word]
    rw [flatMap_words, List.take_of_length_le (by rw [List.length_drop]; omega)]
  have all : ((va + 4, 4) :: wordsAt (va + 8) (n - 1) ++ [(va, 4)]).flatMap (fun p : Nat × Nat => (bs.drop (p.1 - va)).take p.2) = bs.drop 4 ++ bs.take 4 := by
    have front : (bs.drop 4).take 4 ++ bs.drop 8 = bs.drop 4 := by
      rw [show bs.drop 8 = (bs.drop 4).drop 4 by rw [List.drop_drop], List.take_append_drop]
    simp [List.flatMap_append, words, ← List.append_assoc, front]
  rw [State.writeRecordVa, len, partsAt_record noWindow aligned pos, ← all, ← len]
  refine writePieces_states c _ _ (fun p hp => ?_) start step
  simp only [List.cons_append, List.mem_cons, List.mem_append, wordsAt, List.mem_map, List.mem_range, List.not_mem_nil, or_false] at hp
  rw [List.length_take, List.length_drop]
  rcases hp with rfl | ⟨i, hi, rfl⟩ | rfl
  · dsimp only; omega
  · dsimp only; omega
  · dsimp only; omega

/-! ## Bundles retire -/

theorem execBundleRetire_eq {s : State} {b : Bundle} (found : s.bundle? s.input.num = some b) (fresh : b.retiring = false)
    (placed : ∀ k ∈ b.kernels, k.gridX * k.gridY * k.gridZ ≤ k.nextTeam) (gone : ∀ t ∈ s.teams, t.2.bundle ≠ s.input.num) :
    exec .bundleRetire s = .next ((s.setBundle s.input.num { b with retiring := true }).pushRec b.ring.toNat
      { kind := 2, status := 0, queue := b.queue, tag := b.tag, userTag := 0, index := b.index, payload := 0
        pkt := some (b.queue.toNat, b.index.toNat) }) := by
  have all : (b.kernels.all fun k => k.total ≤ k.nextTeam) = true := List.all_eq_true.2 fun k hk => decide_eq_true (placed k hk)
  have none : (s.teams.any fun t => t.2.bundle == s.input.num) = false := List.any_eq_false.2 fun t ht => by simpa using gone t ht
  show execBundleRetire s = _
  simp [execBundleRetire, found, fresh, all, none, Status.ok]

/-! ## Completion records -/

theorem calm_ringTakes (s : State) (q n : Nat) : (calm s).ringTakes q n = s.ringTakes q n := by
  unfold State.ringTakes
  simp only [calm_canWrite]
  rfl

theorem crec_bytes (r : CRec) (flip : Bool) : r.bytes (!flip) =
    let le (n v : Nat) : List Byte := (List.range n).map fun j => BitVec.ofNat 8 (v / 256 ^ j)
    le 4 (r.kind.toNat + 2 ^ 8 * r.status.toNat + 2 ^ 16 * r.queue.toNat + 2 ^ 31 * (if flip then 0 else 1)) ++ le 4 r.tag.toNat ++
      le 4 r.userTag.toNat ++ le 4 r.index.toNat ++ le 16 r.payload.toNat := by
  have phase : bitNat (!flip) = if flip then 0 else 1 := by cases flip <;> rfl
  simp only [CRec.bytes, leBytes_eq_map, phase, at_, Nat.mul_comm]

/-- What follows for its packet or bundle once a record is written (R82, R88). -/
def recordDone (z : State) (r : CRec) : State :=
  if r.kind = 2 then z.retired r.queue.toNat r.index r.status
  else match r.pkt with
    | some (p, _) => z.closePacket p r.index
    | none => z

theorem writeRecord_eq {s : State} {c : CtxId} {r : CRec} {rest : List CRec} (waiting : (s.queue s.input.slot.toNat).waiting = r :: rest)
    (owner : (s.queue s.input.slot.toNat).owner = some c) (takes : s.ringTakes s.input.slot.toNat 0 = true) :
    writeRecord s = .next (recordDone ((s.writeRecordVa c.toNat ((s.queue s.input.slot.toNat).recPlace (s.queue s.input.slot.toNat).crWrite)
      (r.bytes (!(s.queue s.input.slot.toNat).crFlip))).modQueue s.input.slot.toNat Queue.wrote) r).wakeAll := by
  simp [writeRecord, waiting, owner, takes, recordDone] <;> rfl

theorem unsent_retired (z : State) (q : Nat) (index : Word) (status : BitVec 8) : Unsent z (z.retired q index status) := by
  unfold State.retired
  split
  · exact .refl z
  · dsimp only
    split <;> exact .of_eq rfl rfl rfl

theorem unsent_recordDone (z : State) (r : CRec) : Unsent z (recordDone z r) := by
  unfold recordDone
  split
  · exact unsent_retired z _ _ _
  · split
    · exact .of_eq rfl rfl rfl
    · exact .refl z

theorem unsent_writeRecordVa (s : State) (c va : Nat) (bs : List Byte) : Unsent s (s.writeRecordVa c va bs) :=
  unsent_writePieces s c _ _ _ _ (.refl s)

/-- The bundle whose KIND 2 record is written is gone, and its LAUNCH completes (R82). -/
theorem retired_eq {z : State} {q : Nat} {index : Word} (status : BitVec 8) {b : Nat × Bundle}
    (first : FirstWith (fun b => b.2.queue.toNat = q ∧ b.2.index = index ∧ b.2.retiring = true) z.bundles b) :
    z.retired q index status = ({ z with bundles := Table.drop b.1 z.bundles } : State).modQueue q fun x =>
      if b.2.cpl then { x with waiting := x.waiting ++ [{ kind := 1, status := status, queue := b.2.queue, tag := b.2.tag, userTag := 0
                                                          index := index, payload := 0, pkt := some (q, index.toNat) }] }
      else { x with open_ := x.open_.filter fun i => i != index } := by
  have found := find?_of_firstWith (f := fun b : Nat × Bundle => b.2.queue.toNat == q && b.2.index == index && b.2.retiring)
    (fun x => by simp [and_assoc]) first
  rw [State.retired, found]
  dsimp only
  cases b.2.cpl <;> rfl

/-! ## Handler records -/

theorem hrec_bytes (r : HRec) (flip : Bool) : r.bytes (!flip) =
    let le (n v : Nat) : List Byte := (List.range n).map fun j => BitVec.ofNat 8 (v / 256 ^ j)
    le 4 (r.kind.toNat + 2 ^ 8 * r.cause.toNat + 2 ^ 16 * r.stage.toNat + 2 ^ 31 * (if flip then 0 else 1)) ++ le 4 r.userTag.toNat ++
      le 2 r.ctx.toNat ++ le 2 r.origin.toNat ++ le 4 r.seq.toNat ++ le 8 r.addr.toNat ++ le 8 r.image.toNat ++ le 8 r.pc.toNat ++
      le 4 r.team.toNat ++ le 20 0 := by
  have phase : bitNat (!flip) = if flip then 0 else 1 := by cases flip <;> rfl
  have zeros : List.replicate 20 (0 : Byte) = (List.range 20).map fun j => BitVec.ofNat 8 (0 / 256 ^ j) := by decide
  simp only [HRec.bytes, leBytes_eq_map, phase, zeros, at_, Nat.mul_comm]

theorem hqRead_of {s y : State} {c : Nat} {i : Word} (h : HqRead s c y i) : s.hqRead c = (y, some i) := by
  obtain ⟨root, child⟩ := h
  unfold State.hqRead State.handlerOf
  by_cases level : (s.ctx c).level = 0
  · obtain ⟨rfl, rfl⟩ := root level
    rw [if_pos level]
  · obtain ⟨bs, read, rfl⟩ := child level
    rw [if_neg level]
    dsimp only
    rw [read, littleEndian_eq_leNat]
    rfl

/-- Reading HQ_READ sends and stalls only as accesses do, and leaves of the contexts what they leave. -/
theorem HqRead.leaves {s y : State} {c : Nat} {i : Word} (h : HqRead s c y i) : Unsent s y ∧ CtxsLeft s y := by
  obtain ⟨root, child⟩ := h
  by_cases level : (s.ctx c).level = 0
  · obtain ⟨rfl, -⟩ := root level
    exact ⟨.refl y, .refl y⟩
  · obtain ⟨bs, read, -⟩ := child level
    have unsent := unsent_readVa s (s.ctx c).parent.toNat ((s.ctx c).hqBase.toNat + 64 * 2 ^ (s.ctx c).hqLog2.toNat) 8
    have left := ctxsLeft_readVa s (s.ctx c).parent.toNat ((s.ctx c).hqBase.toNat + 64 * 2 ^ (s.ctx c).hqLog2.toNat) 8
    rw [read] at unsent left
    exact ⟨unsent, left⟩

/-- The state of a handler record's bytes written, before its queue goes on (R120). -/
def handlerWritten (y : State) (c : Nat) (bytes : List Byte) : State :=
  if (y.ctx c).level = 0 then { y with mem := y.mem.writeHost (y.hqPlace c) bytes } else y.writeRecordVa (y.ctx c).parent.toNat (y.hqPlace c) bytes

theorem writeHandler_eq (y : State) (c : Nat) (bytes : List Byte) : y.writeHandler c (y.hqPlace c) bytes = handlerWritten y c bytes := by
  unfold State.writeHandler State.handlerOf handlerWritten
  by_cases level : (y.ctx c).level = 0
  · rw [if_pos level, if_pos level]
  · rw [if_neg level, if_neg level]

theorem handlerWritten_leaves (y : State) (c : Nat) (bytes : List Byte) : Unsent y (handlerWritten y c bytes) ∧ CtxsLeft y (handlerWritten y c bytes) := by
  unfold handlerWritten
  split
  · exact ⟨.of_eq rfl rfl rfl, .of_eq rfl⟩
  · exact ⟨unsent_writeRecordVa y _ _ _, ctxsLeft_writeRecordVa y _ _ _⟩

theorem unsent_reported (z : State) (r : HRec) : Unsent z (z.reported r) := .ite (unsent_modCtx z _ _) (.refl z)

theorem hqTakes_of {y : State} {c : Nat} {i : Word} (log : LogOk (y.ctx c).hqLog2) (room : ((y.ctx c).hqWrite - i).toNat < 2 ^ (y.ctx c).hqLog2.toNat)
    (may : (y.ctx c).level ≠ 0 → y.canWrite (y.ctx c).parent.toNat (y.hqPlace c) 64 = true) : y.hqTakes c i = true := by
  rw [State.hqTakes, (logOk_iff _).2 log, decide_eq_true room, State.handlerOf]
  by_cases level : (y.ctx c).level = 0
  · rw [if_pos level]
    rfl
  · rw [if_neg level]
    exact may level

theorem writeHandlerRecord_eq {s y : State} {i : Word} {r : HRec} {rest : List HRec} (waiting : (s.ctx s.input.ctx.toNat).hqWaiting = r :: rest)
    (read : HqRead s s.input.ctx.toNat y i) (takes : y.hqTakes s.input.ctx.toNat i = true) :
    writeHandlerRecord s = .next (((handlerWritten y s.input.ctx.toNat (r.bytes (!(y.ctx s.input.ctx.toNat).hqFlip))).modCtx s.input.ctx.toNat
      Ctx.hqWrote).reported r) := by
  rw [← writeHandler_eq]
  simp [writeHandlerRecord, waiting, hqRead_of read, takes]

/-- A ring that has room takes its oldest record, and the record's packet or bundle completes. -/
theorem completionRecords (s : State) (c : CtxId) (r : CRec) (rest : List CRec) (waiting : (s.queue s.input.slot.toNat).waiting = r :: rest)
    (owner : (s.queue s.input.slot.toNat).owner = some c) (takes : s.ringTakes s.input.slot.toNat 0 = true) :
    let q := s.input.slot.toNat
    let y := (calm s).writeRecordVa c.toNat ((s.queue q).recPlace (s.queue q).crWrite) (r.bytes (!(s.queue q).crFlip))
    TakesPlace .completionRecordWrite s (recordDone (y.modQueue q Queue.wrote) r).wakeAll := by
  refine takesPlace_throughLinks rfl (writeRecord_eq (s := calm s) waiting owner (by rw [← takes]; exact calm_ringTakes s _ _)) ?_
  exact (unsent_writeRecordVa _ _ _ _).trans ((unsent_modQueue _ _ _).trans ((unsent_recordDone _ r).trans (unsent_wakeAll _)))

theorem recordDone_none {z : State} {r : CRec} (kind : r.kind ≠ 2) (pkt : r.pkt = none) : recordDone z r = z := by
  rw [recordDone, if_neg kind, pkt]

theorem recordDone_packet {z : State} {r : CRec} (kind : r.kind ≠ 2) {k i : Nat} (pkt : r.pkt = some (k, i)) :
    recordDone z r = z.closePacket k r.index := by
  rw [recordDone, if_neg kind, pkt]

theorem recordDone_bundle {z : State} {r : CRec} (kind : r.kind = 2) : recordDone z r = z.retired r.queue.toNat r.index r.status := by
  rw [recordDone, if_pos kind]

/-- A bundle whose record is written is gone, and its LAUNCH completes: with a record when it asks for one, and else at once (R82). -/
theorem recordDone_retires {z : State} {r : CRec} (kind : r.kind = 2) {b : Nat × Bundle}
    (first : FirstWith (fun b => b.2.queue.toNat = r.queue.toNat ∧ b.2.index = r.index ∧ b.2.retiring = true) z.bundles b) :
    let gone := { z with bundles := Table.drop b.1 z.bundles }
    let k := r.queue.toNat
    (b.2.cpl = true → OnlyQueue gone (recordDone z r) k { z.queue k with waiting := (z.queue k).waiting ++
      [{ kind := 1, status := r.status, queue := b.2.queue, tag := b.2.tag, userTag := 0, index := r.index, payload := 0
         pkt := some (k, r.index.toNat) }] }) ∧
    (b.2.cpl = false → OnlyQueue gone (recordDone z r) k { z.queue k with open_ := (z.queue k).open_.filter fun j => j != r.index }) := by
  rw [recordDone_bundle kind, retired_eq r.status first]
  constructor
  all_goals
    intro cpl
    rw [cpl]
    exact onlyQueue_modQueue _ _ _

/-- A handler queue that has room takes its oldest record, and the halt of a KIND 2 record is reported (R112, R120, R192). -/
theorem handlerRecords {s y : State} {i : Word} {r : HRec} {rest : List HRec} (waiting : (s.ctx s.input.ctx.toNat).hqWaiting = r :: rest)
    (read : HqRead (calm s) s.input.ctx.toNat y i) (takes : y.hqTakes s.input.ctx.toNat i = true) :
    TakesPlace .handlerRecordWrite s (((handlerWritten y s.input.ctx.toNat (r.bytes (!(y.ctx s.input.ctx.toNat).hqFlip))).modCtx s.input.ctx.toNat
      Ctx.hqWrote).reported r) := by
  refine takesPlace_throughLinks rfl (writeHandlerRecord_eq (s := calm s) waiting read takes) ?_
  exact read.leaves.1.trans ((handlerWritten_leaves y _ _).1.trans ((unsent_modCtx _ _ _).trans (unsent_reported _ r)))

theorem reported_halt {z : State} {r : HRec} (kind : r.kind = 2) : OnlyCtx z (z.reported r) r.ctx.toNat
    { z.ctx r.ctx.toNat with halt := (z.ctx r.ctx.toNat).halt.map fun h => { h with reported := true } } := by
  rw [State.reported, if_pos kind]
  exact onlyCtx_modCtx _ _ _

theorem reported_none {z : State} {r : HRec} (kind : r.kind ≠ 2) : z.reported r = z := by
  rw [State.reported, if_neg kind]

/-- A handler queue goes on from the state its record's bytes leave as it would have gone on before (R120). -/
theorem CtxsLeft.hqWrote {s w : State} (h : CtxsLeft s w) (c : Nat) : (w.ctx c).hqWrote = { w.ctx c with
    hqWaiting := (w.ctx c).hqWaiting.drop 1, hqWrite := (s.ctx c).hqWrite + 1
    hqFlip := (if ((s.ctx c).hqWrite + 1).toNat % 2 ^ (s.ctx c).hqLog2.toNat = 0 then !(s.ctx c).hqFlip else (s.ctx c).hqFlip) } := by
  rw [h c]
  rfl

/-- Settles O40: a record's bytes are written piece by piece, PHASE last, and of the contexts such writes leave only halts, bounce channels and
OSF_ERR changed. -/
theorem recordWrites : Obligations.RecordWrites := by
  refine ⟨fun s b found fresh placed gone => ?_, fun s c r rest => ?_, fun s c va n bs st aligned pos len noWindow => ?_, fun s y i r rest => ?_⟩
  · exact ⟨_, _, execBundleRetire_eq found fresh placed gone, rfl, onlyQueue_modQueue _ _ _⟩
  · intro q x waiting owner takes le bytes y
    have data : r.bytes (!x.crFlip) = bytes := crec_bytes r x.crFlip
    have written : y = (calm s).writeRecordVa c.toNat (x.recPlace x.crWrite) (r.bytes (!x.crFlip)) := by rw [data]
    refine ⟨y.modQueue q Queue.wrote, recordDone (y.modQueue q Queue.wrote) r, ?_, onlyQueue_modQueue _ _ _, recordDone_none, fun k i kind pkt => ?_,
      fun kind b first => recordDone_retires kind first⟩
    · rw [written]
      exact completionRecords s c r rest waiting owner takes
    · rw [recordDone_packet kind pkt]
      exact onlyQueue_modQueue _ _ _
  · exact writeRecordVa_states aligned pos len noWindow
  · intro c x le bytes place waiting read log room may
    obtain ⟨-, left⟩ := read.leaves
    have kept : y.ctx c = { x with halt := (y.ctx c).halt, bounce := (y.ctx c).bounce, osfErr := (y.ctx c).osfErr } := left c
    have here : y.hqPlace c = place := by rw [State.hqPlace, kept]
    have takes : y.hqTakes c i = true := hqTakes_of (by rw [kept]; exact log) (by rw [kept]; exact room) (by rw [here, kept]; exact may)
    have data : r.bytes (!(y.ctx c).hqFlip) = bytes := by
      rw [kept]
      exact hrec_bytes r x.hqFlip
    have runs := handlerRecords waiting read takes
    rw [data] at runs
    refine ⟨handlerWritten y c bytes, _, _, ?_, runs, ?_, reported_none, reported_halt⟩
    · rw [handlerWritten, here, kept]
    · exact (left.trans (handlerWritten_leaves y c bytes).2).hqWrote c ▸ onlyCtx_modCtx _ c Ctx.hqWrote

end Sys2Proof.Claims
end

section
-- One proof after another: side by side their threads pass the limit of memory that the check sets.
set_option Elab.async false
/-! SUPPORT. Bytes of one line at their home: the interleave moves whole stripes (R53), and loads, masked stores and atomics of a request (R57, R69, R127, R313). -/

namespace Sys2Proof.Claims

open Sys2Proof Sys2Proof.Machine

/-! ## Bytes of one stripe

The interleave moves stripes of 256 bytes: the place of a byte within its stripe stays (R53). -/

section Stripe

variable {a b : Nat} (same : a / 256 = b / 256)
include same

theorem shiftRight_stripe (n : Nat) (le : 8 ≤ n) : a >>> n = b >>> n := by
  obtain ⟨d, rfl⟩ := Nat.exists_eq_add_of_le le
  rw [Nat.shiftRight_add, Nat.shiftRight_add, Nat.shiftRight_eq_div_pow a, Nat.shiftRight_eq_div_pow b]
  exact congrArg (· >>> d) same

theorem bits_stripe (h l : Nat) (le : 8 ≤ l) : bits a h l = bits b h l := by
  rw [bits, bits, shiftRight_stripe same l le]

theorem testBit_stripe (n : Nat) (le : 8 ≤ n) : a.testBit n = b.testBit n := by
  have bit (x : Nat) : x.testBit n = (x >>> n).testBit 0 := by rw [Nat.testBit_shiftRight, Nat.add_zero]
  rw [bit a, bit b, shiftRight_stripe same n le]

theorem window_stripe : a % 0x1000000000 / 256 = b % 0x1000000000 / 256 := by omega

theorem storingStack_stripe (inter : Nat) : storingStack inter a = storingStack inter b := by
  unfold storingStack
  split <;> simp only [bits_stripe same _ _ (by decide : 8 ≤ 36), bits_stripe same _ _ (by decide : 8 ≤ 8),
    bits_stripe same _ _ (by decide : 8 ≤ 12)]

omit same in
theorem le_hashBase (inter : Nat) : 8 ≤ hashBase inter := by
  unfold hashBase
  split <;> decide

theorem hashIndex_stripe (masks : List (BitVec 26)) (inter : Nat) : hashIndex masks inter a = hashIndex masks inter b := by
  have term (i : Nat) : hashTerm masks inter a i = hashTerm masks inter b i := by
    rw [hashTerm, hashTerm, bits_stripe same _ _ (by decide)]
  have le := le_hashBase inter
  simp only [hashIndex, term, testBit_stripe same _ (by decide : 8 ≤ 8), fun i => testBit_stripe same (11 + i) (by omega),
    fun i => testBit_stripe same (hashBase inter + i) (by omega)]

theorem channelPlace_stripe (inter : Nat) : channelPlace inter a = channelPlace inter b := by
  have le := le_hashBase inter
  have x := window_stripe same
  simp only [channelPlace, shiftRight_stripe x 17 (by decide), bits_stripe x 11 9 (by decide), shiftRight_stripe x 8 (by decide),
    shiftRight_stripe x (hashBase inter + 6) (by omega)]

theorem storageOf_stripe (masks : List (BitVec 26)) (inter : Nat) : storageOf masks inter a + b % 256 = storageOf masks inter b + a % 256 := by
  unfold storageOf hbmStorage
  rw [storingStack_stripe same, channelPlace_stripe same, hashIndex_stripe same]
  split <;> split <;> omega

end Stripe

section Line

variable {a k : Nat} (line : a % 64 = 0) (lt : k < 64)
include line lt

theorem place_line (s : State) (inter : Nat) : s.place inter (a + k) = s.place inter a + k := by
  have := storageOf_stripe (show a / 256 = (a + k) / 256 by omega) s.cfg.hashMask inter
  rw [State.place, State.place]
  omega

theorem place_line_div (s : State) (inter : Nat) : s.place inter (a + k) / 64 = s.place inter a / 64 := by
  have : s.place inter a % 64 = 0 := by
    rw [State.place, storageOf]
    split
    · rw [hbmStorage]
      omega
    · exact line
  rw [place_line line lt]
  omega

theorem regionOf_line : regionOf (a + k) = regionOf a := by
  rw [← regionOf_alignDown (by decide : 64 ∣ 4096) (a + k), show a + k - (a + k) % 64 = a by omega]

theorem tagOk_line (s : State) (m : Mem) (inter : Nat) (w : BitVec 6) (c : BitVec 2) :
    m.tagOk (s.place inter (a + k)) (a + k) w c = m.tagOk (s.place inter a) a w c := by
  rw [Mem.tagOk, Mem.tagOk, regionOf_line line lt, place_line_div line lt, Mem.tagFor, Mem.tagFor, Mem.tensorAt, Mem.tensorAt,
    show (a + k) / 65536 = a / 65536 by omega]

theorem memByte_line (mem : MemByte a) : MemByte (a + k) := by
  rwa [MemByte, regionOf_line line lt]

end Line

/-! ## Loads -/

theorem agentRead_state (s : State) (inter : Nat) (w : BitVec 6) (c : BitVec 2) (a n : Nat) :
    (s.agentRead inter w c a n).s = (s.homeRead inter w c a n).s := by
  unfold State.agentRead
  dsimp only
  split <;> rfl

theorem clean_line {a k : Nat} (line : a % 64 = 0) (lt : k < 64) (s : State) (i : BitVec 3) (w : BitVec 6) (c : BitVec 2) :
    Clean s i w c (a + k) ↔ s.mem.poisoned (s.place i.toNat a + k) = false ∧ s.mem.tagOk (s.place i.toNat a) a w c = true := by
  rw [Clean, tagOk_line line lt, place_line line lt]

section Load

variable {s : State} {t : Trans} {a : Nat} (line : a % 64 = 0) (mem : MemByte a)

/-- One byte of a load, read at its home. -/
def loadByte (t : Trans) (a : Nat) (x : Serving) (k : Nat) : Serving := x.take (2 ^ k) (x.s.agentRead t.inter.toNat t.world t.comp (a + k) 1)

include line mem

theorem loadByte_clean {x : Serving} {k : Nat} (lt : k < 64) (clean : Clean x.s t.inter t.world t.comp (a + k))
    (unmixed : x.s.mixed (a + k) = false) :
    loadByte t a x k = { x with bytes := x.bytes ++ [x.s.mem.get (x.s.place t.inter.toNat a + k)], sound := x.sound ||| 2 ^ k } := by
  have home := homeRead_clean (memByte_line line lt mem) Nat.one_pos (by decide) clean
  have read := agentRead_unmixed x.s t.inter.toNat t.world t.comp (a + k) 1 (by rw [home]; simpa using unmixed)
  rw [loadByte, read, home, place_line line lt]
  rfl

/-- A load whose bytes are all clean brings them. -/
theorem loadBytes_clean (ks : List Nat) (x : Serving) (all : ∀ k ∈ ks, k < 64 ∧ Clean x.s t.inter t.world t.comp (a + k) ∧
    x.s.mixed (a + k) = false) : ∃ sound, ks.foldl (loadByte t a) x =
      { x with bytes := x.bytes ++ ks.map fun k => x.s.mem.get (x.s.place t.inter.toNat a + k), sound := sound } := by
  induction ks generalizing x with
  | nil => exact ⟨x.sound, by simp⟩
  | cons k rest ih =>
    obtain ⟨⟨lt, clean, unmixed⟩, others⟩ := List.forall_mem_cons.1 all
    rw [List.foldl_cons, loadByte_clean line mem lt clean unmixed]
    obtain ⟨sound, eq⟩ := ih { x with bytes := x.bytes ++ [x.s.mem.get (x.s.place t.inter.toNat a + k)], sound := x.sound ||| 2 ^ k } others
    refine ⟨sound, eq.trans ?_⟩
    simp

/-- What a load has left and found after some of its bytes: only SEC_EVENT differs, the mask is of the clean bytes, and unless one was not clean
nothing has failed. -/
structure LoadedTo (s : State) (t : Trans) (a : Nat) (ks : List Nat) (x : Serving) : Prop where
  rest  : x.s = { s with cfg := { s.cfg with sec := x.s.cfg.sec } }
  sound : ∀ j, x.sound.testBit j = true ↔ j ∈ ks ∧ Clean s t.inter t.world t.comp (a + j)
  fail  : x.fail = none → ∀ k ∈ ks, Clean s t.inter t.world t.comp (a + k)

theorem LoadedTo.step {ks : List Nat} {x : Serving} (h : LoadedTo s t a ks x) {k : Nat} (lt : k < 64) :
    LoadedTo s t a (ks ++ [k]) (loadByte t a x k) := by
  have same : Clean x.s t.inter t.world t.comp (a + k) ↔ Clean s t.inter t.world t.comp (a + k) := by rw [h.rest]; rfl
  by_cases clean : Clean s t.inter t.world t.comp (a + k)
  · have home := homeRead_clean (memByte_line line lt mem) Nat.one_pos (by decide) (same.2 clean)
    have fail : (x.s.agentRead t.inter.toNat t.world t.comp (a + k) 1).fail = none := by rw [agentRead_fail, home]
    have state : (x.s.agentRead t.inter.toNat t.world t.comp (a + k) 1).s = x.s := by rw [agentRead_state, home]
    rw [loadByte, Serving.take, fail]
    dsimp only
    rw [state]
    refine ⟨h.rest, fun j => ?_, fun none => ?_⟩
    · rw [Nat.testBit_or, Nat.testBit_two_pow, Bool.or_eq_true, h.sound]
      simp only [decide_eq_true_eq, List.mem_append, List.mem_singleton]
      constructor
      · rintro (⟨mem, clean⟩ | rfl)
        · exact ⟨.inl mem, clean⟩
        · exact ⟨.inr rfl, clean⟩
      · rintro ⟨mem | rfl, clean⟩
        · exact .inl ⟨mem, clean⟩
        · exact .inr rfl
    · simpa [or_imp, forall_and, clean] using h.fail none
  · obtain ⟨cause, home⟩ := homeRead_unclean (memByte_line line lt mem) Nat.one_pos (by decide) (mt same.1 clean)
    have fail : (x.s.agentRead t.inter.toNat t.world t.comp (a + k) 1).fail = some cause := by rw [agentRead_fail, home]; rfl
    have state : (x.s.agentRead t.inter.toNat t.world t.comp (a + k) 1).s = x.s.countFailure cause := by rw [agentRead_state, home]; rfl
    have counted (y : State) (hy : y = { s with cfg := { s.cfg with sec := y.cfg.sec } }) :
        y.countFailure cause = { s with cfg := { s.cfg with sec := (y.countFailure cause).cfg.sec } } := by
      rw [State.countFailure]
      split
      · rw [State.countIntegrity, hy]
      · exact hy
    rw [loadByte, Serving.take, fail]
    dsimp only
    rw [state]
    refine ⟨?_, fun j => ?_, fun none => by simp at none⟩
    · split
      · exact h.rest
      · exact counted _ h.rest
    · rw [h.sound, List.mem_append, List.mem_singleton]
      refine ⟨fun ⟨mem, clean⟩ => ⟨.inl mem, clean⟩, ?_⟩
      rintro ⟨mem | rfl, sound⟩
      · exact ⟨mem, sound⟩
      · exact absurd sound clean

theorem loadedTo_foldl (ks : List Nat) {past : List Nat} {x : Serving} (h : LoadedTo s t a past x) (all : ∀ k ∈ ks, k < 64) :
    LoadedTo s t a (past ++ ks) (ks.foldl (loadByte t a) x) := by
  induction ks generalizing past x with
  | nil => rwa [List.append_nil]
  | cons k rest ih =>
    obtain ⟨lt, others⟩ := List.forall_mem_cons.1 all
    rw [List.append_cons]
    exact ih (h.step line mem lt) others

end Load

/-- The bytes that a request names. -/
def namedBytes (q : RemoteReq) : List Nat := (List.range 64).filter fun j => q.bytes.testBit j

theorem mem_namedBytes {q : RemoteReq} {j : Nat} : j ∈ namedBytes q ↔ j < 64 ∧ q.bytes.testBit j = true := by simp [namedBytes]

section ServeLoad

variable {s : State} {t : Trans} {q : RemoteReq} (kind : q.kind = .load) (line : q.addr.toNat % 64 = 0) (mem : MemByte q.addr.toNat)
include kind line mem

omit line mem in
theorem serve_load_eq : s.serve t q =
    { s := ((namedBytes q).foldl (loadByte t q.addr.toNat) { s := s }).s
      ans := ((namedBytes q).foldl (loadByte t q.addr.toNat) { s := s }).answer } := by
  rw [State.serve, kind]
  dsimp only
  rw [show remoteBytes q = namedBytes q by rw [remoteBytes, kind]; rfl]
  rfl

theorem serve_load_clean (all : ∀ j < 64, q.bytes.testBit j = true →
    Clean s t.inter t.world t.comp (q.addr.toNat + j) ∧ s.mixed (q.addr.toNat + j) = false) :
    s.serve t q = { s := s, ans := .done ((namedBytes q).map fun j => s.mem.get (s.place t.inter.toNat q.addr.toNat + j)) } := by
  obtain ⟨sound, eq⟩ := loadBytes_clean (t := t) line mem (namedBytes q) { s := s } fun k hk =>
    ⟨(mem_namedBytes.1 hk).1, all k (mem_namedBytes.1 hk).1 (mem_namedBytes.1 hk).2⟩
  rw [serve_load_eq kind, eq]
  rfl

theorem serve_load_failed (some : ∃ j < 64, q.bytes.testBit j = true ∧ ¬Clean s t.inter t.world t.comp (q.addr.toNat + j)) :
    ∃ x cause mask bs, s.serve t q = { s := x, ans := .failed cause mask bs } ∧ x = { s with cfg := { s.cfg with sec := x.cfg.sec } } ∧
      ∀ j < 64, mask.testBit j = true ↔ q.bytes.testBit j = true ∧ Clean s t.inter t.world t.comp (q.addr.toNat + j) := by
  have loaded := loadedTo_foldl (t := t) line mem (namedBytes q) (past := []) (x := { s := s })
    ⟨rfl, fun j => by simp, fun _ => by simp⟩ fun k hk => (mem_namedBytes.1 hk).1
  rw [List.nil_append] at loaded
  rw [serve_load_eq kind]
  generalize (namedBytes q).foldl (loadByte t q.addr.toNat) { s := s } = x at loaded ⊢
  obtain ⟨j, lt, bit, bad⟩ := some
  cases fail : x.fail with
  | none => exact absurd (loaded.fail fail j (mem_namedBytes.2 ⟨lt, bit⟩)) bad
  | some cause =>
    refine ⟨x.s, cause, x.sound, x.bytes, by rw [Serving.answer, fail], loaded.rest, fun j lt => ?_⟩
    rw [loaded.sound, mem_namedBytes]
    simp [lt]

end ServeLoad

/-! ## Stores and atomics -/

theorem fst_lt_of_mem_sbmWords {len mask : Nat} {p : Nat × Bool} (h : p ∈ sbmWords len mask) : p.1 < len := by
  obtain ⟨i, hi, rfl⟩ := List.mem_map.1 h
  have := List.mem_range.1 (List.mem_filter.1 hi).1
  show 8 * i < len
  omega

/-- Bytes written at a place of HBM or SBM of which none is poisoned: they, and the tag of a line of HBM, which verifies for the access from
then on (R127). -/
theorem mem_cellWrite_unpoisoned {m : Mem} {k a mask : Nat} {w : BitVec 6} {c : BitVec 2} {bs : List Byte} (pos : 0 < bs.length)
    (unpoisoned : ∀ j < bs.length, m.poisoned (k + j) = false) (whole : Bool) :
    ∃ lines, m.cellWrite k a mask w c bs whole = { m.writeMasked k mask bs with lines := lines } ∧
      (regionOf a = .sbm ∧ lines = m.lines ∨ lines = Sparse.set {} (k / 64) (m.tagFor a w c) m.lines) := by
  have fixed (l : List (Nat × Bool)) (h : ∀ p ∈ l, p.1 < bs.length) : (l.foldl (fun x p => if x.poisoned (k + p.1) = true then
      { x with poison := Sparse.set false (poisonUnit (k + p.1)) false x.poison } else x) m) = m := by
    induction l with
    | nil => rfl
    | cons p rest ih =>
      obtain ⟨lt, others⟩ := List.forall_mem_cons.1 h
      rw [List.foldl_cons, if_neg (by simp [unpoisoned p.1 lt]), ih others]
  have lines : (m.writeMasked k mask bs).lines = m.lines := by rw [writeMasked_only]
  unfold Mem.cellWrite
  split
  · next sbm =>
    refine ⟨m.lines, ?_, .inl ⟨by simpa using sbm, rfl⟩⟩
    dsimp only
    rw [fixed _ fun p hp => fst_lt_of_mem_sbmWords (List.mem_of_mem_filter hp), ← lines]
  · refine ⟨_, ?_, .inr rfl⟩
    have tag : (m.writeMasked k mask bs).tagFor a w c = m.tagFor a w c := by
      rw [writeMasked_only]
      rfl
    have first : m.poisoned k = false := unpoisoned 0 pos
    simp only [first, tag, lines, Bool.false_eq_true, if_false]

theorem cellWrite_unpoisoned {s : State} {i : BitVec 3} {w : BitVec 6} {c : BitVec 2} {a mask : Nat} {bs : List Byte} (pos : 0 < bs.length)
    (unpoisoned : ∀ j < bs.length, s.mem.poisoned (s.place i.toNat a + j) = false) (tag : s.mem.tagOk (s.place i.toNat a) a w c = true)
    (sector line : Bool) : s.cellWrite i.toNat w c a mask bs sector line =
      { s := { s with mem := s.mem.cellWrite (s.place i.toNat a) a mask w c bs sector }, bytes := [], fail := none } := by
  have first : s.mem.poisoned (s.place i.toNat a) = false := unpoisoned 0 pos
  have sbm : ((sbmWords bs.length mask).any fun p => s.mem.poisoned (s.place i.toNat a + p.1) && !p.2 && !sector) = false := by
    refine List.any_eq_false.2 fun p hp => ?_
    simp [unpoisoned p.1 (fst_lt_of_mem_sbmWords hp)]
  simp [State.cellWrite, sbm, first, tag]

theorem homeWrite_unpoisoned {s : State} {i : BitVec 3} {w : BitVec 6} {c : BitVec 2} {a mask : Nat} {bs : List Byte} (mem : MemByte a)
    (pos : 0 < bs.length) (unpoisoned : ∀ j < bs.length, s.mem.poisoned (s.place i.toNat a + j) = false)
    (tag : s.mem.tagOk (s.place i.toNat a) a w c = true) (sector line : Bool) :
    ∃ z : Mem, s.homeWrite i.toNat w c a mask bs sector line = { s := { s with mem := z }, bytes := [], fail := none } ∧
      z = { s.mem with cells := z.cells, lines := z.lines } ∧
      z.tagOk (s.place i.toNat a) a w c = true ∧
      ∀ k, z.get k = if s.place i.toNat a ≤ k ∧ k < s.place i.toNat a + bs.length ∧ mask.testBit (k - s.place i.toNat a) = true
        then bs.getD (k - s.place i.toNat a) 0 else s.mem.get k := by
  obtain ⟨lines, written, tagged⟩ := mem_cellWrite_unpoisoned (a := a) (mask := mask) (w := w) (c := c) pos unpoisoned sector
  refine ⟨_, by rw [homeWrite_memory _ _ _ _ _ _ _ _ mem, cellWrite_unpoisoned pos unpoisoned tag], ?_, ?_, fun k => ?_⟩
  · rw [written, writeMasked_only]
  · rw [written, writeMasked_only]
    rcases tagged with ⟨sbm, -⟩ | rfl
    · simp [Mem.tagOk, sbm]
    · simp only [Mem.tagOk, Sparse.get_set_same]
      simp [Mem.tagFor, Mem.genOf, Mem.tensorAt]
  · rw [written]
    exact get_writeMasked bs s.mem _ mask k

/-! ## The parts of a masked store -/

theorem storeParts_fits {mask : Nat} {d : Nat × Nat} (h : d ∈ storeParts mask) : 0 < d.2 ∧ d.1 + d.2 ≤ 64 := by
  obtain ⟨half, hh, hd⟩ := List.mem_flatMap.1 h
  have low : half = 0 ∨ half = 32 := by simpa using hh
  split at hd
  · obtain rfl := List.mem_singleton.1 hd
    show 0 < 32 ∧ half + 32 ≤ 64
    omega
  · obtain ⟨w, hw, rfl⟩ := List.mem_map.1 hd
    have word : w = half ∨ w = half + 8 ∨ w = half + 16 ∨ w = half + 24 := by simpa using List.mem_of_mem_filter hw
    show 0 < 8 ∧ w + 8 ≤ 64
    omega

/-- A part of a store covers a byte of its block. -/
def Covers (ds : List (Nat × Nat)) (j : Nat) : Prop := ∃ d ∈ ds, d.1 ≤ j ∧ j < d.1 + d.2

/-- The parts of a store reach every byte of its mask. -/
theorem covers_storeParts {mask j : Nat} (lt : j < 64) (bit : mask.testBit j = true) : Covers (storeParts mask) j := by
  have half : j / 32 * 32 ∈ [0, 32] := by
    have : j / 32 = 0 ∨ j / 32 = 1 := by omega
    rcases this with h | h <;> simp [h]
  by_cases full : mask >>> (j / 32 * 32) % 2 ^ 32 = 2 ^ 32 - 1
  · refine ⟨(j / 32 * 32, 32), List.mem_flatMap.2 ⟨_, half, ?_⟩, ?_⟩
    · rw [if_pos full]
      exact List.mem_singleton_self _
    · show j / 32 * 32 ≤ j ∧ j < j / 32 * 32 + 32
      omega
  · refine ⟨(j / 8 * 8, 8), List.mem_flatMap.2 ⟨_, half, ?_⟩, ?_⟩
    · rw [if_neg full]
      refine List.mem_map_of_mem (List.mem_filter.2 ⟨?_, ?_⟩)
      · have : j / 8 * 8 = j / 32 * 32 ∨ j / 8 * 8 = j / 32 * 32 + 8 ∨ j / 8 * 8 = j / 32 * 32 + 16 ∨ j / 8 * 8 = j / 32 * 32 + 24 := by omega
        simpa using this
      · have reached : (mask >>> (j / 8 * 8) % 2 ^ 8).testBit (j - j / 8 * 8) = true := by
          rw [Nat.testBit_mod_two_pow, Nat.testBit_shiftRight, show j / 8 * 8 + (j - j / 8 * 8) = j by omega, bit]
          simp
          omega
        rw [bne_iff_ne]
        intro zero
        rw [show mask >>> (j / 8 * 8) % 2 ^ 8 = 0 from zero] at reached
        simp at reached
    · show j / 8 * 8 ≤ j ∧ j < j / 8 * 8 + 8
      omega

section Store

variable {s : State} {t : Trans} {a mask : Nat} {data : List Byte} (line : a % 64 = 0) (mem : MemByte a) (length : data.length = 64)

/-- One part of a masked store, written at its home. -/
def storePart (t : Trans) (a mask : Nat) (data : List Byte) (x : Serving) (p : Nat × Nat) : Serving :=
  x.take ((mask >>> p.1 % 2 ^ p.2) * 2 ^ p.1) (x.s.homeWrite t.inter.toNat t.world t.comp (a + p.1) (mask >>> p.1 % 2 ^ p.2) ((data.drop p.1).take p.2)
    (p.2 == 32) (mask == 2 ^ 64 - 1))

/-- A block of memory after some parts of a store that meets no failure: nothing was read, and the bytes of the mask that the parts cover are
written. -/
structure StoredTo (s : State) (t : Trans) (a mask : Nat) (data : List Byte) (ds : List (Nat × Nat)) (x : Serving) : Prop where
  state : x.s = { s with mem := x.s.mem }
  mem   : x.s.mem = { s.mem with cells := x.s.mem.cells, lines := x.s.mem.lines }
  none  : x.fail = none ∧ x.bytes = []
  tag   : x.s.mem.tagOk (s.place t.inter.toNat a) a t.world t.comp = true
  bytes : ∀ k, (s.place t.inter.toNat a ≤ k ∧ k < s.place t.inter.toNat a + 64 ∧ Covers ds (k - s.place t.inter.toNat a) ∧
      mask.testBit (k - s.place t.inter.toNat a) = true → x.s.mem.get k = data.getD (k - s.place t.inter.toNat a) 0) ∧
    (¬(s.place t.inter.toNat a ≤ k ∧ k < s.place t.inter.toNat a + 64 ∧ Covers ds (k - s.place t.inter.toNat a) ∧
      mask.testBit (k - s.place t.inter.toNat a) = true) → x.s.mem.get k = s.mem.get k)

include line mem length

theorem StoredTo.step (unpoisoned : ∀ j < 64, s.mem.poisoned (s.place t.inter.toNat a + j) = false) {ds : List (Nat × Nat)} {x : Serving}
    (h : StoredTo s t a mask data ds x) {d : Nat × Nat} (pos : 0 < d.2) (fits : d.1 + d.2 ≤ 64) :
    StoredTo s t a mask data (ds ++ [d]) (storePart t a mask data x d) := by
  obtain ⟨off, n⟩ := d
  replace pos : 0 < n := pos
  replace fits : off + n ≤ 64 := fits
  have lt : off < 64 := by omega
  have placed : x.s.place t.inter.toNat (a + off) = s.place t.inter.toNat a + off := by
    rw [place_line line lt, h.state]
    rfl
  have len : ((data.drop off).take n).length = n := by
    rw [List.length_take, List.length_drop, length]
    omega
  have clean : ∀ j < ((data.drop off).take n).length, x.s.mem.poisoned (x.s.place t.inter.toNat (a + off) + j) = false := by
    intro j hj
    rw [placed, h.mem, Nat.add_assoc]
    exact unpoisoned (off + j) (by omega)
  have tagged : x.s.mem.tagOk (x.s.place t.inter.toNat (a + off)) (a + off) t.world t.comp = true := by
    rw [tagOk_line line lt, ← h.tag, h.state]
    rfl
  obtain ⟨z, written, zmem, ztag, zget⟩ := homeWrite_unpoisoned (mask := mask >>> off % 2 ^ n) (memByte_line line lt mem) (by rw [len]; exact pos)
    clean tagged (n == 32) (mask == 2 ^ 64 - 1)
  have step : storePart t a mask data x (off, n) = { x with s := { x.s with mem := z }, sound := x.sound ||| (mask >>> off % 2 ^ n) * 2 ^ off } := by
    rw [storePart]
    dsimp only
    rw [written, Serving.take, List.append_nil]
  have get (k : Nat) : z.get k = if s.place t.inter.toNat a + off ≤ k ∧ k < s.place t.inter.toNat a + off + n ∧
      mask.testBit (k - s.place t.inter.toNat a) = true then data.getD (k - s.place t.inter.toNat a) 0 else x.s.mem.get k := by
    rw [zget, placed, len]
    by_cases inside : s.place t.inter.toNat a + off ≤ k ∧ k < s.place t.inter.toNat a + off + n
    · obtain ⟨d, rfl⟩ := Nat.exists_eq_add_of_le inside.1
      have within : d < n := by omega
      have from_ : s.place t.inter.toNat a + off + d - s.place t.inter.toNat a = off + d := by omega
      rw [Nat.add_sub_cancel_left, from_, Nat.testBit_mod_two_pow, Nat.testBit_shiftRight]
      simp [within, List.getD_eq_getElem?_getD, List.getElem?_drop]
    · rw [if_neg fun h => inside ⟨h.1, h.2.1⟩, if_neg fun h => inside ⟨h.1, h.2.1⟩]
  rw [step]
  refine ⟨by rw [h.state], by rw [zmem, h.mem], h.none, ?_, fun k => ?_⟩
  · rw [← tagOk_line line lt] at *
    rw [← ztag, h.state]
    rfl
  · have covers : Covers (ds ++ [(off, n)]) (k - s.place t.inter.toNat a) ↔ Covers ds (k - s.place t.inter.toNat a) ∨
        (off ≤ k - s.place t.inter.toNat a ∧ k - s.place t.inter.toNat a < off + n) := by
      simp [Covers, or_and_right, exists_or]
    obtain ⟨put, left⟩ := h.bytes k
    dsimp only
    rw [get, covers]
    split
    · next inside => exact ⟨fun _ => rfl, fun out => absurd ⟨by omega, by omega, .inr ⟨by omega, by omega⟩, inside.2.2⟩ out⟩
    · next outside =>
      refine ⟨fun ⟨lo, hi, cov, bit⟩ => ?_, fun out => left fun ⟨lo, hi, cov, bit⟩ => out ⟨lo, hi, .inl cov, bit⟩⟩
      exact put ⟨lo, hi, cov.resolve_right fun part => outside ⟨by omega, by omega, bit⟩, bit⟩

theorem storedTo_foldl (unpoisoned : ∀ j < 64, s.mem.poisoned (s.place t.inter.toNat a + j) = false) (ds : List (Nat × Nat))
    {past : List (Nat × Nat)} {x : Serving} (h : StoredTo s t a mask data past x) (fit : ∀ d ∈ ds, 0 < d.2 ∧ d.1 + d.2 ≤ 64) :
    StoredTo s t a mask data (past ++ ds) (ds.foldl (storePart t a mask data) x) := by
  induction ds generalizing past x with
  | nil => rwa [List.append_nil]
  | cons d rest ih =>
    obtain ⟨⟨pos, fits⟩, others⟩ := List.forall_mem_cons.1 fit
    rw [List.append_cons]
    exact ih (h.step line mem length unpoisoned pos fits) others

end Store

theorem serve_store {s : State} {t : Trans} {q : RemoteReq} {data : List Byte} (kind : q.kind = .store data)
    (length : data.length = 64)
    (line : q.addr.toNat % 64 = 0) (mem : MemByte q.addr.toNat)
    (unpoisoned : ∀ j < 64, s.mem.poisoned (s.place t.inter.toNat q.addr.toNat + j) = false)
    (tag : s.mem.tagOk (s.place t.inter.toNat q.addr.toNat) q.addr.toNat t.world t.comp = true) :
    let p := s.place t.inter.toNat q.addr.toNat
    ∃ x, s.serve t q = { s := x, ans := .done [] } ∧ x = { s with mem := { s.mem with cells := x.mem.cells, lines := x.mem.lines } } ∧
      ∀ k, x.mem.get k = if p ≤ k ∧ k < p + 64 ∧ q.bytes.testBit (k - p) = true then data.getD (k - p) 0 else s.mem.get k := by
  intro p
  have noWindow : (regionOf q.addr.toNat == .mxWindow) = false := by rcases mem with h | h <;> rw [h] <;> rfl
  have served : s.serve t q =
      { s := ((storeParts (q.bytes % 2 ^ 64)).foldl (storePart t q.addr.toNat (q.bytes % 2 ^ 64) data) { s := s }).s
        ans := ((storeParts (q.bytes % 2 ^ 64)).foldl (storePart t q.addr.toNat (q.bytes % 2 ^ 64) data) { s := s }).answer } := by
    rw [State.serve, kind]
    dsimp only
    rw [noWindow]
    rfl
  have stored := storedTo_foldl line mem length unpoisoned (storeParts (q.bytes % 2 ^ 64)) (past := []) (x := { s := s })
    (mask := q.bytes % 2 ^ 64) ⟨rfl, rfl, ⟨rfl, rfl⟩, tag, fun k => ⟨fun h => by simp [Covers] at h, fun _ => rfl⟩⟩
    fun d hd => storeParts_fits hd
  rw [List.nil_append] at stored
  rw [served]
  generalize (storeParts (q.bytes % 2 ^ 64)).foldl (storePart t q.addr.toNat (q.bytes % 2 ^ 64) data) { s := s } = x at stored ⊢
  refine ⟨x.s, ?_, ?_, fun k => ?_⟩
  · rw [Serving.answer, stored.none.1, stored.none.2]
  · rw [← stored.mem]
    exact stored.state
  · have covered : (p ≤ k ∧ k < p + 64 ∧ q.bytes.testBit (k - p) = true) ↔
        (p ≤ k ∧ k < p + 64 ∧ Covers (storeParts (q.bytes % 2 ^ 64)) (k - p) ∧ (q.bytes % 2 ^ 64).testBit (k - p) = true) := by
      refine and_congr_right fun lo => and_congr_right fun hi => ?_
      have bit : (q.bytes % 2 ^ 64).testBit (k - p) = q.bytes.testBit (k - p) := by
        rw [Nat.testBit_mod_two_pow]
        simp
        omega
      exact ⟨fun h => ⟨covers_storeParts (by omega) (bit.trans h), bit.trans h⟩, fun h => bit.symm.trans h.2⟩
    split
    · next h => exact (stored.bytes k).1 (covered.1 h)
    · next h => exact (stored.bytes k).2 (mt covered.2 h)

theorem serve_atom {s : State} {t : Trans} {q : RemoteReq} {code : BitVec 7} {w64 : Bool} {vals : List (DWord × DWord)} {op : AtomOp} {n : Nat}
    (kind : q.kind = .atom code w64 vals) (known : atomOfCode code.toNat = some op) (size : n = if w64 then 8 else 4) (mem : MemByte q.addr.toNat)
    (unpoisoned : ∀ j < n, s.mem.poisoned (s.place t.inter.toNat q.addr.toNat + j) = false) (unmixed : ∀ j < n, s.mixed (q.addr.toNat + j) = false)
    (tag : s.mem.tagOk (s.place t.inter.toNat q.addr.toNat) q.addr.toNat t.world t.comp = true) :
    let p := s.place t.inter.toNat q.addr.toNat
    let old := (List.range n).map fun j => s.mem.get (p + j)
    let word := (atomStep op w64 (BitVec.ofNat 64 (littleEndian old)) vals).2
    ∃ x, s.serve t q = { s := x, ans := .done old } ∧ x = { s with mem := { s.mem with cells := x.mem.cells, lines := x.mem.lines } } ∧
      ∀ k, x.mem.get k = if p ≤ k ∧ k < p + n then BitVec.ofNat 8 (word.toNat / 256 ^ (k - p)) else s.mem.get k := by
  intro p old word
  have bound : 0 < n ∧ n ≤ 8 := by
    rw [size]
    split <;> decide
  have home := homeRead_clean mem bound.1 bound.2 (show Clean s t.inter t.world t.comp q.addr.toNat from ⟨unpoisoned 0 bound.1, tag⟩)
  have read : s.agentRead t.inter.toNat t.world t.comp q.addr.toNat n = { s := s, bytes := old, fail := none } := by
    rw [agentRead_unmixed, home]
    rw [home]
    simpa using unmixed
  have len : (leBytes n word.toNat).length = n := by rw [leBytes_eq_map, List.length_map, List.length_range]
  obtain ⟨z, written, zmem, -, zget⟩ := homeWrite_unpoisoned (mask := 0xFF) (bs := leBytes n word.toNat) mem (by rw [len]; exact bound.1)
    (fun j hj => unpoisoned j (by rwa [len] at hj)) tag false false
  refine ⟨{ s with mem := z }, ?_, by rw [← zmem], fun k => ?_⟩
  · rw [State.serve, kind]
    dsimp only
    rw [known]
    dsimp only
    rw [← size, read]
    dsimp only
    rw [← littleEndian_eq_leNat, written]
  · rw [show ({ s with mem := z } : State).mem.get k = z.get k from rfl, zget, len]
    by_cases inside : p ≤ k ∧ k < p + n
    · have bit : Nat.testBit 0xFF (k - p) = true := by
        rw [show 0xFF = 2 ^ 8 - 1 from rfl, Nat.testBit_two_pow_sub_one]
        simp
        omega
      have le : k - s.place t.inter.toNat q.addr.toNat < n := by omega
      rw [if_pos inside, if_pos ⟨inside.1, inside.2, bit⟩, leBytes_eq_map]
      simp [le, p]
    · rw [if_neg inside, if_neg fun h => inside ⟨h.1, h.2.1⟩]

end Sys2Proof.Claims
end

section
-- One proof after another: side by side their threads pass the limit of memory that the check sets.
set_option Elab.async false
/-! CLAIM. REMOTE_REQUEST_ARRIVE (R36, R38 to R40, R48, R57, R190, R207, R313). -/

namespace Sys2Proof.Claims

open Sys2Proof Sys2Proof.Machine

/-! ## Links and answers -/

theorem onlyLink_setLink (s : State) (i : Nat) (l : Link) : OnlyLink s (s.setLink i l) i l :=
  ⟨rfl, State.link_setLink_same s i l, fun _ other => State.link_setLink_other s i _ l other⟩

theorem dueSwitch_eq_keyed (l : Link) : l.dueSwitch false = keyed l false := by
  unfold Link.dueSwitch keyed
  exact if_congr (by simp) rfl rfl

theorem fits_iff (l : Link) (n : Nat) : l.fits n = true ↔ Fits l n := by
  simp [Link.fits, Fits]

theorem queued_sendOrHold (l : Link) (p : FarPacket) : Queued l (l.sendOrHold p) p := by
  have takes : (l.state == 2 && l.held.isEmpty) = true ↔ l.state = 2 ∧ l.held = [] := by simp
  have eq (up : l.state = 2) (none : l.held = []) : l.sendOrHold p =
      if (keyed l false).fits p.flits = true then
        { keyed l false with
          tx := (keyed l false).tx + BitVec.ofNat 48 p.flits, sent := freshened (keyed l false) p :: (keyed l false).sent, switched := false }
      else { keyed l false with state := 3, held := [p] } := by
    rw [Link.sendOrHold, if_pos (takes.2 ⟨up, none⟩), dueSwitch_eq_keyed, Link.send]
    by_cases fits : (keyed l false).fits p.flits = true
    · rw [if_pos fits, if_pos fits]
      rfl
    · rw [if_neg fits, if_neg fits]
  refine ⟨fun up none fits => ?_, fun up none full => ?_, fun waits => ?_⟩
  · rw [eq up none, if_pos ((fits_iff _ _).2 fits)]
  · rw [eq up none, if_neg (mt (fits_iff _ _).1 full)]
  · rw [Link.sendOrHold, if_neg fun h => ?_]
    obtain ⟨up, none⟩ := takes.1 h
    exact waits.elim (· up) (· none)

theorem answerFlits_eq (a : FarAnswer) : answerFlits a = replyFlits a := by
  cases a <;> rfl

theorem posted_postAnswer (s : State) (i : Nat) (m : Option Nat) (p : FarPacket) : Posted s (s.postAnswer i m p) i m p where
  gone erased := if_pos erased
  none live none := by
    subst none
    rw [show s.postAnswer i .none p = _ from if_neg (by simp [live])]
    exact ⟨_, queued_sendOrHold _ p, onlyLink_setLink s i _⟩
  some c live some := by
    subst some
    rw [show s.postAnswer i (.some c) p = _ from if_neg (by simp [live])]
    exact onlyLink_setLink s i _

theorem replied_answer (s : State) (i : Nat) (q : RemoteReq) (a : FarAnswer) : Replied s (s.answer i (s.member q.subtree) q a) i q a := by
  rw [State.answer, answerFlits_eq]
  exact posted_postAnswer s i _ _

/-- A request answered, its answer kept for duplicates (R36, R48). -/
def requestDone (s : State) (i : Nat) (q : RemoteReq) (a : FarAnswer) : State :=
  ({ s with fabric := { s.fabric with seen := (q.src.toNat, q.seq, a) :: s.fabric.seen } } : State).answer i (s.member q.subtree) q a

theorem finished_requestDone (s : State) (i : Nat) (q : RemoteReq) (a : FarAnswer) : Finished s (requestDone s i q a) i q a :=
  replied_answer _ i q a

/-! ## A request that reaches the memory side -/

theorem mem_of_find {α : Type} {k : Nat} {x : α} {l : List (Nat × α)} (h : Table.find k l = some x) : (k, x) ∈ l := by
  induction l with
  | nil => simp [Table.find] at h
  | cons p rest ih =>
    rw [Table.find] at h
    split at h
    · next same =>
      rw [← same, ← Option.some.inj h]
      exact List.mem_cons_self
    · exact List.mem_cons_of_mem _ (ih h)

theorem ctx_unwatched {s : State} (h : ∀ c ∈ s.ctxs, c.2.watch = []) (k : Nat) : (s.ctx k).watch = [] := by
  rw [State.ctx]
  cases found : Table.find k s.ctxs with
  | none => rfl
  | some x => exact h (k, x) (mem_of_find found)

/-- With no watchpoint set a remote access strikes none. -/
theorem remoteWatches_eq {s : State} (h : ∀ c ∈ s.ctxs, c.2.watch = []) (unit : Nat) (q : RemoteReq) : s.remoteWatches unit q = s := by
  have unwatched (c : Nat) : State.remoteWatch unit q s c = s := by
    rw [State.remoteWatch, ctx_unwatched h]
    rfl
  exact List.foldl_fixed' unwatched _

section Receive

variable {s : State} {q : RemoteReq}

theorem receive_seen {a : FarAnswer} (i : Nat) (e : HomeEvent)
    (seen : FirstWith (fun p => p.1 = q.src.toNat ∧ p.2.1 = q.seq) s.fabric.seen (q.src.toNat, q.seq, a)) :
    s.receive i q e = s.answer i (s.member q.subtree) q a := by
  rw [State.receive, find?_of_firstWith (by simp) seen]

theorem find_new (new : ∀ p ∈ s.fabric.seen, ¬(p.1 = q.src.toNat ∧ p.2.1 = q.seq)) :
    (s.fabric.seen.find? fun p => p.1 == q.src.toNat && p.2.1 == q.seq) = none := by
  refine List.find?_eq_none.2 fun p hp => ?_
  simpa using new p hp

variable (new : ∀ p ∈ s.fabric.seen, ¬(p.1 = q.src.toNat ∧ p.2.1 = q.seq)) (i : Nat) (e : HomeEvent)
include new

theorem receive_noMember (none : s.member q.subtree = none) : s.receive i q e = requestDone s i q (.miss 0) := by
  simp only [State.receive, find_new new, none, requestDone]

theorem receive_refused {m : Nat} {kind : BitVec 2} (some : s.member q.subtree = some m) (refused : s.targetCheck m q = .error kind) :
    s.receive i q e = requestDone (s.targetMiss m q kind) i q (.miss kind) := by
  simp only [State.receive, find_new new, some, refused, requestDone]

theorem receive_plain {m : Nat} {t : Trans} {x : State} {a : FarAnswer} (some : s.member q.subtree = some m) (passes : s.targetCheck m q = .ok t)
    (served : s.serve t q = { s := x, ans := a }) (unwatched : ∀ c ∈ x.ctxs, c.2.watch = []) :
    s.receive i q .plain = requestDone x i q a := by
  have plain (b : Nat) : s.befall t.inter.toNat b .plain = s := by
    rw [State.befall]
    cases s.reached b <;> rfl
  simp only [State.receive, find_new new, some, passes, plain, served, remoteWatches_eq unwatched, requestDone]
  rfl

end Receive

/-! ## The target check -/

section Target

variable {s : State} {m : Nat} {q : RemoteReq}

/-- What leads to an address: an entry of this device for the page of the address (R38). -/
theorem leads_iff (s : State) (a : Nat) (t : Trans) :
    (s.isOwn t.dev.toNat && t.frame == a - a % 4096) = true ↔ t.dev = s.fabric.deviceNum ∧ t.frame = a / 4096 * 4096 := by
  have page : a - a % 4096 = a / 4096 * 4096 := by omega
  simp [State.isOwn, page, BitVec.toNat_inj]

theorem mem_entriesTo (s : State) (m a : Nat) (x : Trans) :
    x ∈ s.entriesTo m a ↔ ∃ va, s.translate 0xD000000 m va = .ok x ∧ x.dev = s.fabric.deviceNum ∧ x.frame = a / 4096 * 4096 ∧
      (va ∈ s.mapsTo a (s.chainOf m) ∨
        ∃ e ∈ s.eng.castle, e.ctx = m ∧ e.page * 4096 = va ∧ e.tr.dev = s.fabric.deviceNum ∧ e.tr.frame = a / 4096 * 4096) := by
  have old (va : Nat) : (va ∈ (s.eng.castle.filter fun e => e.ctx == m && (s.isOwn e.tr.dev.toNat && e.tr.frame == a - a % 4096)).map
      fun e => e.page * 4096) ↔
      ∃ e ∈ s.eng.castle, e.ctx = m ∧ e.page * 4096 = va ∧ e.tr.dev = s.fabric.deviceNum ∧ e.tr.frame = a / 4096 * 4096 := by
    rw [List.mem_map]
    refine exists_congr fun e => ?_
    rw [List.mem_filter, Bool.and_eq_true, leads_iff, beq_iff_eq]
    tauto
  rw [State.entriesTo, List.mem_filterMap]
  refine exists_congr fun va => ?_
  rw [List.mem_append, old]
  cases s.translate 0xD000000 m va with
  | error miss => simp
  | ok t =>
    simp only [Option.ite_none_right_eq_some, Option.some.injEq, leads_iff, Except.ok.injEq]
    constructor
    · rintro ⟨place, ⟨dev, frame⟩, rfl⟩
      exact ⟨rfl, dev, frame, place⟩
    · rintro ⟨rfl, dev, frame, place⟩
      exact ⟨place, ⟨dev, frame⟩, rfl⟩

/-- The entries that an access passes by, by the checks in their order: pinned, with the tags of the access, and permitting it (R38). -/
def Pinned (s : State) (m : Nat) (q : RemoteReq) (x : Trans) : Prop := x ∈ s.entriesTo m q.addr.toNat ∧ x.pin = true
def Tagged (s : State) (m : Nat) (q : RemoteReq) (x : Trans) : Prop := Pinned s m q x ∧ x.world = q.world ∧ x.comp = q.comp
def Admits (s : State) (m : Nat) (q : RemoteReq) (x : Trans) : Prop := Tagged s m q x ∧ Permitted (remoteAcc q.kind) 0 x

theorem permitted_iff (t : Trans) (k : AccKind) : t.allows k = true ↔ Permitted k 0 t := by
  cases k <;> simp [Trans.allows, Permitted, and_assoc]

theorem mem_pinned (x : Trans) : (x ∈ (s.entriesTo m q.addr.toNat).filter fun t => t.pin) ↔ Pinned s m q x := by
  simp [Pinned]

theorem mem_tagged (x : Trans) : (x ∈ ((s.entriesTo m q.addr.toNat).filter fun t => t.pin).filter fun t => t.world == q.world && t.comp == q.comp) ↔
    Tagged s m q x := by
  rw [List.mem_filter, mem_pinned]
  simp [Tagged]

theorem isEmpty_iff_none {α : Type} {P : α → Prop} {l : List α} (mem : ∀ x, x ∈ l ↔ P x) : l.isEmpty = true ↔ ∀ x, ¬P x := by
  rw [List.isEmpty_iff, List.eq_nil_iff_forall_not_mem]
  exact forall_congr' fun x => not_congr (mem x)

theorem not_isEmpty {α : Type} {P : α → Prop} {l : List α} (mem : ∀ x, x ∈ l ↔ P x) (some : ∃ x, P x) : ¬l.isEmpty = true :=
  fun none => some.elim ((isEmpty_iff_none mem).1 none)

theorem targetCheck_unpinned (none : ∀ x, ¬Pinned s m q x) : s.targetCheck m q = .error 0 := by
  rw [State.targetCheck, if_pos ((isEmpty_iff_none mem_pinned).2 none)]

theorem targetCheck_untagged (some : ∃ x, Pinned s m q x) (none : ∀ x, ¬Tagged s m q x) : s.targetCheck m q = .error 2 := by
  rw [State.targetCheck, if_neg (not_isEmpty mem_pinned some), if_pos ((isEmpty_iff_none mem_tagged).2 none)]

theorem targetCheck_refused (some : ∃ x, Tagged s m q x) (none : ∀ x, ¬Admits s m q x) : s.targetCheck m q = .error 1 := by
  have pinned : ∃ x, Pinned s m q x := some.imp fun x hx => hx.1
  rw [State.targetCheck, if_neg (not_isEmpty mem_pinned pinned), if_neg (not_isEmpty mem_tagged some), List.find?_eq_none.2 fun x hx => ?_]
  exact fun may => none x ⟨(mem_tagged x).1 hx, (permitted_iff x _).1 may⟩

theorem targetCheck_admits {t : Trans} (first : FirstWith (Admits s m q) (s.entriesTo m q.addr.toNat) t) : s.targetCheck m q = .ok t := by
  obtain ⟨l, r, eq, ht, before⟩ := first
  have admits (x : Trans) (hx : x ∈ s.entriesTo m q.addr.toNat) :
      decide (x.pin = true ∧ decide ((x.world == q.world && x.comp == q.comp) = true ∧ x.allows (remoteAcc q.kind) = true) = true) = true ↔
        Admits s m q x := by
    simp [Admits, Tagged, Pinned, hx, and_assoc, permitted_iff]
  have found : (((s.entriesTo m q.addr.toNat).filter fun t => t.pin).filter fun t => t.world == q.world && t.comp == q.comp).find?
      (fun t => t.allows (remoteAcc q.kind)) = some t := by
    rw [List.find?_filter, List.find?_filter]
    refine List.find?_eq_some_iff_append.2 ⟨(admits t ht.1.1.1).2 ht, l, r, eq, fun y hy => ?_⟩
    rw [Bool.not_eq_true', Bool.eq_false_iff]
    exact mt (admits y (by simp [eq, hy])).1 (before y hy)
  rw [State.targetCheck, if_neg (not_isEmpty mem_pinned ⟨t, ht.1.1⟩), if_neg (not_isEmpty mem_tagged ⟨t, ht.1⟩), found]

end Target

/-! ## A miss at the target -/

section TargetMiss

/-- OSF_ERR of a context records a miss at its target, or OVERFLOW (R40). -/
theorem onlyCtx_recordOsf (s : State) (m : Nat) (peer : BitVec 12) (kind : BitVec 2) (a : Nat) :
    OnlyCtx s (s.recordOsf m peer true kind a) m { s.ctx m with osfErr :=
      if (s.ctx m).osfErr.valid then { (s.ctx m).osfErr with overflow := true }
      else { (s.ctx m).osfErr with peer := peer, isTarget := true, kind := kind, valid := true, localAddr := BitVec.ofNat 44 a } } := by
  rw [State.recordOsf]
  have recorded := onlyCtx_modCtx s m fun x =>
    if x.osfErr.valid then { x with osfErr := { x.osfErr with overflow := true } }
    else { x with osfErr := { x.osfErr with peer := peer, isTarget := true, kind := kind, valid := true, localAddr := BitVec.ofNat 44 a } }
  by_cases valid : (s.ctx m).osfErr.valid = true
  · simpa only [if_pos valid] using recorded
  · simpa only [if_neg valid] using recorded

theorem OnlyCtx.trans {s t u : State} {c : Nat} {x y : Ctx} (first : OnlyCtx s t c x) (second : OnlyCtx t u c y) : OnlyCtx s u c y := by
  obtain ⟨rest, -, others⟩ := first
  obtain ⟨rest', ctx', others'⟩ := second
  exact ⟨by rw [rest', rest], ctx', fun k hk => (others' k hk).trans (others k hk)⟩

theorem targetMiss_halted {s : State} {m : Nat} (halted : (s.ctx m).halt ≠ none) (q : RemoteReq) (kind : BitVec 2) :
    s.targetMiss m q kind = s.recordOsf m q.src true kind q.addr.toNat := by
  rw [State.targetMiss, if_pos (by simpa [Option.isSome_iff_ne_none] using halted)]

theorem onlyCtx_pushHandler (s : State) (c : Nat) (r : HRec) : OnlyCtx s (s.pushHandler c r) c { s.ctx c with
    faultSeq := (s.ctx c).faultSeq + 1, hqWaiting := (s.ctx c).hqWaiting ++ [{ r with seq := (s.ctx c).faultSeq }] } :=
  onlyCtx_modCtx s c _

theorem targetMiss_running {s : State} {m : Nat} (running : (s.ctx m).halt = none) (q : RemoteReq) (kind : BitVec 2) :
    s.targetMiss m q kind =
      ((s.recordOsf m q.src true kind q.addr.toNat).pushHandler m
        { kind := 4, cause := kind.setWidth 8, stage := 0, userTag := 0, ctx := BitVec.ofNat 16 m, origin := 0, seq := 0
          addr := fabricAddr s.fabric.deviceNum q.addr.toNat, image := 0, pc := 0, team := 0xFFFFFFFF }).raiseHalt m
        { engine := 4, cause := Cause.remotePinMiss, pcOrOp := q.src.setWidth 64, addr := fabricAddr s.fabric.deviceNum q.addr.toNat } false none := by
  rw [State.targetMiss, if_neg (by simp [running])]

theorem targetMiss_fabric (s : State) (m : Nat) (q : RemoteReq) (kind : BitVec 2) : (s.targetMiss m q kind).fabric = s.fabric := by
  unfold State.targetMiss
  dsimp only
  split <;> rfl

end TargetMiss

/-! ## The event -/

/-- The state in which a request presented in its turn is received (R36). -/
def presentedIn (y : State) (i : Nat) (q : RemoteReq) : State :=
  { y with
    freeCtr := y.freeCtr + 1
    fabric := { y.fabric with presented := Sparse.set 0 (planeKey q.src i) (y.presentedOn q.src i + 1) y.fabric.presented } }

section Arrive

variable {s : State} {q : RemoteReq} {i : Nat} (request : s.input.remote = q) (port : s.input.link.toNat = i) (takes : s.takesPacket i = true)
  (foreign : s.isOwn q.src.toNat = false) (own : s.isOwn q.dev.toNat = true)
include request port takes foreign own

theorem arrive_early (early : s.presentedOn q.src i < q.place) : exec .remoteRequestArrive s = .next
    (if s.fabric.reorder.any fun p => p.1.src == q.src && p.1.seq == q.seq && p.2.1.toNat == i then s.tookPacket i
    else { s.tookPacket i with fabric := { (s.tookPacket i).fabric with reorder := s.fabric.reorder ++ [(q, s.input.link, s.input.home)] } }) := by
  subst request port
  show execRemoteRequestArrive s = _
  rw [execRemoteRequestArrive, if_neg (by simp [takes, foreign, own])]
  exact if_pos early

theorem arrive_late (late : q.place < s.presentedOn q.src i) : exec .remoteRequestArrive s = .next
    (if s.fabric.seen.any fun p => p.1 == q.src.toNat && p.2.1 == q.seq then (s.tookPacket i).receive i q .plain else s.tookPacket i) := by
  subst request port
  show execRemoteRequestArrive s = _
  rw [execRemoteRequestArrive, if_neg (by simp [takes, foreign, own])]
  exact (if_neg (by omega)).trans (if_pos late)

theorem arrive_inTurn (inTurn : q.place = s.presentedOn q.src i) : exec .remoteRequestArrive s =
    .next (State.drainReorder q.src i s.fabric.reorder.length ((presentedIn (s.tookPacket i) i q).receive i q s.input.home)) := by
  subst request port
  show execRemoteRequestArrive s = _
  rw [execRemoteRequestArrive, if_neg (by simp [takes, foreign, own])]
  exact (if_neg (by omega)).trans (if_neg (by omega))

end Arrive

/-- With no request waiting for the one just presented, none follows it (R36). -/
theorem drainReorder_stops {src : BitVec 12} {i : Nat} {t : State} (none : ∀ p ∈ t.fabric.reorder, ¬(p.1.src = src ∧ p.2.1.toNat = i ∧
    p.1.place = t.presentedOn src i)) (fuel : Nat) : State.drainReorder src i fuel t = t := by
  cases fuel with
  | zero => rfl
  | succ n =>
    have stop : (t.fabric.reorder.find? fun p => p.1.src == src && p.2.1.toNat == i && p.1.place == t.presentedOn src i) = .none :=
      List.find?_eq_none.2 fun p hp => by simpa [and_assoc] using none p hp
    rw [State.drainReorder, stop]

theorem answer_fabric (s : State) (i : Nat) (m : Option Nat) (q : RemoteReq) (a : FarAnswer) :
    (s.answer i m q a).fabric = { s.fabric with links := (s.answer i m q a).fabric.links } := by
  unfold State.answer State.postAnswer
  split
  · rfl
  · cases m <;> rfl

/-! ## A request in its turn -/

/-- A state after a request in its turn, of which only the links and the answers kept may differ at the port, presents none that waits behind it. -/
theorem drainReorder_inTurn {y u : State} {i : Nat} {q : RemoteReq} (none : ∀ p ∈ y.fabric.reorder, ¬(p.1.src = q.src ∧ p.2.1.toNat = i ∧
    p.1.place = y.presentedOn q.src i + 1))
    (same : u.fabric = { (presentedIn y i q).fabric with links := u.fabric.links, seen := u.fabric.seen }) (fuel : Nat) :
    State.drainReorder q.src i fuel u = u := by
  refine drainReorder_stops ?_ fuel
  have turn : u.presentedOn q.src i = y.presentedOn q.src i + 1 := by
    rw [State.presentedOn, same]
    exact Sparse.get_set_same _ _ _ _
  rw [turn, same]
  exact none

theorem drainReorder_requestDone {y x : State} {i : Nat} {q : RemoteReq} (none : ∀ p ∈ y.fabric.reorder, ¬(p.1.src = q.src ∧ p.2.1.toNat = i ∧
    p.1.place = y.presentedOn q.src i + 1)) (same : x.fabric = (presentedIn y i q).fabric) (fuel : Nat) (a : FarAnswer) :
    State.drainReorder q.src i fuel (requestDone x i q a) = requestDone x i q a := by
  refine drainReorder_inTurn none ?_ fuel
  rw [requestDone, answer_fabric, ← same]

/-- What a miss at the target leaves of the member context (R38 to R40, R120, R190). -/
theorem targetMiss_effects (z : State) (m : Nat) (q : RemoteReq) (kind : BitVec 2) :
    let fa : DWord := BitVec.ofNat 64 (z.fabric.deviceNum.toNat * 2 ^ 44 + q.addr.toNat)
    let x := { z.ctx m with osfErr :=
      if (z.ctx m).osfErr.valid then { (z.ctx m).osfErr with overflow := true }
      else { (z.ctx m).osfErr with peer := q.src, isTarget := true, kind := kind, valid := true, localAddr := BitVec.ofNat 44 q.addr.toNat } }
    ((z.ctx m).halt ≠ none → OnlyCtx z (z.targetMiss m q kind) m x) ∧
    ((z.ctx m).halt = none → ∃ o, OnlyCtx z o m { x with
        faultSeq := x.faultSeq + 1
        hqWaiting := x.hqWaiting ++ [{ kind := 4, cause := kind.setWidth 8, stage := 0, userTag := 0, ctx := BitVec.ofNat 16 m, origin := 0
                                       seq := x.faultSeq, addr := fa, image := 0, pc := 0, team := 0xFFFFFFFF }] } ∧
      HaltRaised o (z.targetMiss m q kind) m
        { engine := 4, cause := 6, pcOrOp := q.src.setWidth 64, addr := fa, ctx := BitVec.ofNat 16 m } false none) := by
  intro fa x
  have noted : OnlyCtx z _ m x := onlyCtx_recordOsf z m q.src kind q.addr.toNat
  refine ⟨fun halted => ?_, fun running => ?_⟩
  · rw [targetMiss_halted halted]
    exact noted
  · rw [targetMiss_running running]
    refine ⟨_, noted.trans ?_, haltRaised_raiseHalt _ m _ false none⟩
    have pushed := onlyCtx_pushHandler (z.recordOsf m q.src true kind q.addr.toNat) m
      { kind := 4, cause := kind.setWidth 8, stage := 0, userTag := 0, ctx := BitVec.ofNat 16 m, origin := 0, seq := 0
        addr := fa, image := 0, pc := 0, team := 0xFFFFFFFF }
    rw [noted.2.1] at pushed
    exact pushed

theorem takesPacket_of {s : State} {i : Nat} (enabled : s.fabric.enable = true) (live : s.cfg.erased = false)
    (serving : (s.link i).state = 2 ∨ (s.link i).state = 3) (passing : (s.link i).rxFails < 8) : s.takesPacket i = true := by
  have up : (s.link i).serves = true := by simpa [Link.serves] using serving
  rw [State.takesPacket, enabled, live, up, decide_eq_true passing]
  rfl

/-- Settles O45: a request waits for its turn by the count of those presented, and in its turn it is checked against the entries that lead to its
address and performed byte by byte at its home. -/
theorem remoteArrivals : Obligations.RemoteArrivals := by
  intro s q i l key turn seen new enabled live foreign own serving passing
  have takes := takesPacket_of enabled live serving passing
  have from_ : s.isOwn q.src.toNat = false := by simpa [State.isOwn, BitVec.toNat_inj] using foreign
  have for_ : s.isOwn q.dev.toNat = true := by simp [State.isOwn, own]
  have link := onlyLink_setLink s i { l with rxFails := 0, rxNext := l.rxNext && !s.input.newKey }
  have again (p : RemoteReq × BitVec 4 × HomeEvent) : (p.1.src == q.src && p.1.seq == q.seq && p.2.1.toNat == i) = true ↔
      p.1.src = q.src ∧ p.1.seq = q.seq ∧ p.2.1 = s.input.link := by simp [i, BitVec.toNat_inj, and_assoc]
  rcases Nat.lt_trichotomy turn q.place with early | inTurn | late
  · refine ⟨s.tookPacket i, _, link, arrive_early rfl rfl takes from_ for_ early,
      fun _ ⟨p, hp, same⟩ => ?_, fun _ none => ?_, fun h => absurd h (by omega), fun h => absurd h (by omega)⟩
    · rw [if_pos (List.any_eq_true.2 ⟨p, hp, (again p).2 same⟩)]
    · rw [if_neg fun h => ?_]
      obtain ⟨p, hp, same⟩ := List.any_eq_true.1 h
      exact none p hp ((again p).1 same)
  · refine ⟨s.tookPacket i, _, link, arrive_inTurn rfl rfl takes from_ for_ inTurn.symm, fun h => absurd h (by omega), fun h => absurd h (by omega),
      fun h => absurd h (by omega), fun _ none => ?_⟩
    have unfollowed : ∀ p ∈ (s.tookPacket i).fabric.reorder,
        ¬(p.1.src = q.src ∧ p.2.1.toNat = i ∧ p.1.place = (s.tookPacket i).presentedOn q.src i + 1) :=
      fun p hp ⟨src, port, place⟩ => none p hp ⟨src, BitVec.toNat_inj.1 port, place⟩
    let z : State := presentedIn (s.tookPacket i) i q
    have done {x : State} (same : x.fabric = z.fabric) (a : FarAnswer)
        (received : z.receive i q s.input.home = requestDone x i q a) :
        Finished x (State.drainReorder q.src i s.fabric.reorder.length (z.receive i q s.input.home)) i q a := by
      rw [received, drainReorder_requestDone unfollowed same]
      exact finished_requestDone x i q a
    refine ⟨z, rfl, fun n => Sparse.get_set _ _ _ _ _, fun a first => ?_, fun new none => ?_, ?_⟩
    · rw [receive_seen (s := z) i _ first, drainReorder_inTurn unfollowed (by rw [answer_fabric])]
      exact replied_answer _ i q a
    · exact done rfl _ (receive_noMember (s := z) new i _ none)
    · intro pinned tagged admits
      refine ⟨fun m x => mem_entriesTo z m q.addr.toNat x, fun new m kind some refused => ?_,
        fun new m tr some first plain unwatched mem => ?_⟩
      · have check : z.targetCheck m q = .error kind := by
          rcases refused with ⟨none, rfl⟩ | ⟨some, none, rfl⟩ | ⟨some, none, rfl⟩
          · exact targetCheck_unpinned none
          · exact targetCheck_untagged some none
          · exact targetCheck_refused some none
        have finished := done (targetMiss_fabric _ m q kind) _ (receive_refused (s := z) new i s.input.home some check)
        obtain ⟨halted, running⟩ := targetMiss_effects z m q kind
        exact ⟨fun h => ⟨_, halted h, finished⟩, fun h => (running h).imp fun o ho => ⟨_, ho.1, ho.2, finished⟩⟩
      · have served {x : State} {ans : FarAnswer} (same : x.fabric = z.fabric ∧ x.ctxs = s.ctxs)
            (serve : z.serve tr q = { s := x, ans := ans }) :
            Finished x (State.drainReorder q.src i s.fabric.reorder.length (z.receive i q s.input.home)) i q ans :=
          done same.1 ans (by rw [plain]; exact receive_plain (s := z) new i some (targetCheck_admits (s := z) first) serve (by rwa [same.2]))
        intro a p good sound
        refine ⟨fun load line all => ?_, fun load line bad => ?_, fun data store length line all => ?_, fun code w64 vals op atom known => ?_⟩
        · exact served ⟨rfl, rfl⟩ (serve_load_clean load line mem fun j lt bit =>
            ⟨(clean_line line lt _ _ _ _).2 (all j lt bit).1, (all j lt bit).2⟩)
        · obtain ⟨j, lt, bit, unsound⟩ := bad
          obtain ⟨x, cause, mask, bs, serve, rest, masked⟩ := serve_load_failed (s := z) (t := tr) load line mem
            ⟨j, lt, bit, mt (clean_line line lt _ _ _ _).1 unsound⟩
          exact ⟨x, cause, mask, bs, served (by rw [rest]; exact ⟨rfl, rfl⟩) serve, rest, fun j lt => (masked j lt).trans
            (and_congr_right fun _ => clean_line line lt _ _ _ _)⟩
        · obtain ⟨x, serve, rest, written⟩ := serve_store (s := z) (t := tr) store length line mem all.1 all.2.2
          exact ⟨x, served (by rw [rest]; exact ⟨rfl, rfl⟩) serve, rest, written⟩
        · intro n old word aligned all
          obtain ⟨x, serve, rest, written⟩ := serve_atom (s := z) (t := tr) (n := n) atom known rfl mem all.1 all.2.1 all.2.2
          exact ⟨x, served (by rw [rest]; exact ⟨rfl, rfl⟩) serve, rest, written⟩
  · refine ⟨s.tookPacket i, _, link, arrive_late rfl rfl takes from_ for_ late,
      fun h => absurd h (by omega), fun h => absurd h (by omega), fun _ => ⟨fun none => ?_, fun a first => ?_⟩,
      fun h => absurd h (by omega)⟩
    · rw [if_neg fun h => ?_]
      obtain ⟨p, hp, same⟩ := List.any_eq_true.1 h
      exact none p hp (by simpa using same)
    · rw [if_pos, receive_seen (s := s.tookPacket i) i .plain first]
      · exact replied_answer _ i q a
      · obtain ⟨before, after, eq, -, -⟩ := first
        exact List.any_eq_true.2 ⟨(q.src.toNat, q.seq, a), by rw [eq]; simp, by simp [q]⟩

end Sys2Proof.Claims
end

section
-- One proof after another: side by side their threads pass the limit of memory that the check sets.
set_option Elab.async false
/-! SUPPORT. Codes of the formats in units of their smallest subnormal, rounding to nearest, and the words that codes widen to (R41, R227 to R236). -/

namespace Sys2Proof.Claims

open Sys2Proof Sys2Proof.Machine

/-! ## Magnitudes in units of the smallest subnormal -/

/-- The magnitude of a code in units of the smallest subnormal (R227). -/
def units (F : Fmt) (c : Nat) : Nat := if c / 2 ^ F.frac = 0 then c else (2 ^ F.frac + c % 2 ^ F.frac) * 2 ^ (c / 2 ^ F.frac - 1)

theorem mag_eq_units (F : Fmt) (c : Nat) : mag F c = units F c * (2 : Rat) ^ F.ulow := by
  unfold mag units Fmt.ulow
  split
  · rfl
  · next normal =>
    obtain ⟨n, hn⟩ := Nat.exists_eq_succ_of_ne_zero normal
    have two : (2 : Rat) ≠ 0 := by norm_num
    rw [hn, Nat.succ_sub_one]
    push_cast
    rw [mul_assoc, ← zpow_natCast (2 : Rat) n, ← zpow_add₀ two]
    congr 2
    ring

section Units

variable {F : Fmt} {k q : Nat}

/-- A code put together from a count of units of 2^k stands for that count (R227). -/
theorem units_code (low : k = 0 ∨ 2 ^ F.frac ≤ q) (high : q ≤ 2 ^ (F.frac + 1)) : units F (k * 2 ^ F.frac + q) = q * 2 ^ k := by
  have pos : 0 < 2 ^ F.frac := Nat.two_pow_pos _
  have double : 2 ^ (F.frac + 1) = 2 ^ F.frac + 2 ^ F.frac := by ring
  unfold units
  rcases Nat.lt_or_ge q (2 ^ F.frac) with lt | ge
  · obtain rfl : k = 0 := by omega
    rw [Nat.zero_mul, Nat.zero_add, if_pos (Nat.div_eq_of_lt lt)]
    simp
  · obtain ⟨d, rfl⟩ := Nat.exists_eq_add_of_le ge
    rcases Nat.lt_or_ge d (2 ^ F.frac) with lt | ge
    · have form : k * 2 ^ F.frac + (2 ^ F.frac + d) = d + 2 ^ F.frac * (k + 1) := by ring
      rw [form, Nat.add_mul_div_left _ _ pos, Nat.add_mul_mod_self_left, Nat.div_eq_of_lt lt, Nat.mod_eq_of_lt lt, if_neg (by omega)]
      congr 2
      omega
    · obtain rfl : d = 2 ^ F.frac := by omega
      have form : k * 2 ^ F.frac + (2 ^ F.frac + 2 ^ F.frac) = 0 + 2 ^ F.frac * (k + 2) := by ring
      rw [form, Nat.add_mul_div_left _ _ pos, Nat.add_mul_mod_self_left, Nat.zero_div, Nat.zero_mod, if_neg (by omega),
        show 0 + (k + 2) - 1 = k + 1 by omega]
      ring

theorem units_strictMono (F : Fmt) : StrictMono (units F) := by
  refine strictMono_nat_of_lt_succ fun c => ?_
  have pos : 0 < 2 ^ F.frac := Nat.two_pow_pos _
  have double : 2 ^ (F.frac + 1) = 2 ^ F.frac + 2 ^ F.frac := by ring
  have split_ : c = 2 ^ F.frac * (c / 2 ^ F.frac) + c % 2 ^ F.frac := (Nat.div_add_mod c _).symm
  have lt : c % 2 ^ F.frac < 2 ^ F.frac := Nat.mod_lt _ pos
  generalize c / 2 ^ F.frac = a at split_
  generalize c % 2 ^ F.frac = b at split_ lt
  subst split_
  rcases Nat.eq_zero_or_pos a with rfl | up
  · have here : units F (0 * 2 ^ F.frac + b) = b * 2 ^ 0 := units_code (.inl rfl) (by omega)
    have next : units F (0 * 2 ^ F.frac + (b + 1)) = (b + 1) * 2 ^ 0 := units_code (.inl rfl) (by omega)
    simp only [Nat.zero_mul, Nat.zero_add, pow_zero, Nat.mul_one, Nat.mul_zero] at here next ⊢
    omega
  · obtain ⟨n, rfl⟩ := Nat.exists_eq_add_of_le' up
    have form (d : Nat) : 2 ^ F.frac * (n + 1) + d = n * 2 ^ F.frac + (2 ^ F.frac + d) := by ring
    rw [Nat.add_assoc, form, form, units_code (.inr (by omega)) (by omega), units_code (.inr (by omega)) (by omega)]
    exact Nat.mul_lt_mul_of_pos_right (by omega) (Nat.two_pow_pos n)

/-- Above a power of two the magnitudes are multiples of it that leave `frac` bits (R227). -/
theorem dvd_units {d : Nat} (h : 2 ^ F.frac * 2 ^ k ≤ units F d) : 2 ^ k ∣ units F d := by
  have pos : 0 < 2 ^ F.frac := Nat.two_pow_pos _
  unfold units at h ⊢
  split at h
  · next sub =>
    have lt : d < 2 ^ F.frac := by
      rw [Nat.div_eq_zero_iff] at sub
      omega
    have : 1 ≤ 2 ^ k := Nat.one_le_two_pow
    nlinarith
  · next normal =>
    rw [if_neg normal]
    refine Dvd.dvd.mul_left (pow_dvd_pow 2 ?_) _
    by_contra less
    have lt : d % 2 ^ F.frac < 2 ^ F.frac := Nat.mod_lt _ pos
    have le : 2 * 2 ^ (d / 2 ^ F.frac - 1) ≤ 2 ^ k := by
      rw [← pow_succ']
      exact Nat.pow_le_pow_right (by decide) (by omega)
    have step : (2 ^ F.frac + d % 2 ^ F.frac) * 2 ^ (d / 2 ^ F.frac - 1) < 2 * 2 ^ F.frac * 2 ^ (d / 2 ^ F.frac - 1) :=
      Nat.mul_lt_mul_of_pos_right (by omega) (Nat.two_pow_pos _)
    nlinarith

end Units

/-! ## The nearest whole number -/

/-- A whole number nearest to a rational, even where another is as near. -/
def NearestNat (y : Rat) (n : Nat) : Prop := ∀ j : Nat, |(n : Rat) - y| ≤ |(j : Rat) - y| ∧ (j ≠ n → |(j : Rat) - y| = |(n : Rat) - y| → n % 2 = 0)

theorem scaled_spec (m : Nat) (e u : Int) : ∃ r : Rat, (m : Rat) * 2 ^ (e - u) = (scaled m e u).1 + r ∧ 0 ≤ r ∧ r < 1 ∧
    ((scaled m e u).2.1 = 0 ∧ r < 1 / 2 ∨ (scaled m e u).2.1 = 1 ∧ r = 1 / 2 ∨ (scaled m e u).2.1 = 2 ∧ 1 / 2 < r) := by
  unfold scaled
  split
  · next le =>
    obtain ⟨d, hd⟩ := Int.eq_ofNat_of_zero_le (Int.sub_nonneg_of_le le)
    refine ⟨0, ?_, le_refl 0, by norm_num, .inl ⟨rfl, by norm_num⟩⟩
    dsimp only
    rw [hd, Int.toNat_natCast, Nat.shiftLeft_eq]
    push_cast
    rw [zpow_natCast, add_zero]
  · next lt =>
    obtain ⟨k, hk⟩ := Int.eq_ofNat_of_zero_le (show 0 ≤ u - e by omega)
    have exp : e - u = -(k : Int) := by omega
    have pos : (0 : Rat) < 2 ^ k := by positivity
    dsimp only
    rw [hk, Int.toNat_natCast, Nat.shiftRight_eq_div_pow, Nat.shiftLeft_eq, exp, zpow_neg, zpow_natCast]
    have divides : m = m / 2 ^ k * 2 ^ k + m % 2 ^ k := by rw [Nat.mul_comm]; exact (Nat.div_add_mod m _).symm
    have rest : m - m / 2 ^ k * 2 ^ k = m % 2 ^ k := by omega
    have less : m % 2 ^ k < 2 ^ k := Nat.mod_lt _ (Nat.two_pow_pos k)
    rw [rest]
    refine ⟨(m % 2 ^ k : Nat) / 2 ^ k, ?_, by positivity, ?_, ?_⟩
    · rw [← div_eq_mul_inv, div_eq_iff pos.ne', add_mul, div_mul_cancel₀ _ pos.ne']
      exact_mod_cast divides
    · rw [div_lt_one pos]
      exact_mod_cast less
    · have cast : ((2 ^ k : Nat) : Rat) = 2 ^ k := by push_cast; rfl
      rcases Nat.lt_trichotomy (2 * (m % 2 ^ k)) (2 ^ k) with h | h | h
      · rw [if_pos h]
        refine .inl ⟨rfl, ?_⟩
        rw [div_lt_iff₀ pos, ← cast]
        have : (2 : Rat) * (m % 2 ^ k : Nat) < (2 ^ k : Nat) := by exact_mod_cast h
        linarith
      · rw [if_neg (by omega), if_pos h]
        refine .inr (.inl ⟨rfl, ?_⟩)
        rw [div_eq_iff pos.ne', ← cast]
        have : (2 : Rat) * (m % 2 ^ k : Nat) = (2 ^ k : Nat) := by exact_mod_cast h
        linarith
      · rw [if_neg (by omega), if_neg (by omega)]
        refine .inr (.inr ⟨rfl, ?_⟩)
        rw [lt_div_iff₀ pos, ← cast]
        have : ((2 ^ k : Nat) : Rat) < 2 * (m % 2 ^ k : Nat) := by exact_mod_cast h
        linarith

/-- The whole units after rounding to nearest, ties to even (R236). -/
def roundedUnits (m : Nat) (e u : Int) : Nat :=
  if (scaled m e u).2.1 = 2 || ((scaled m e u).2.1 = 1 && (scaled m e u).1 % 2 = 1) then (scaled m e u).1 + 1 else (scaled m e u).1

theorem nearestNat_of_split {y r : Rat} {q : Nat} (h : y = q + r) (lo : 0 ≤ r) (hi : r < 1) :
    (r < 1 / 2 ∨ (r = 1 / 2 ∧ q % 2 = 0) → NearestNat y q) ∧ (1 / 2 < r ∨ (r = 1 / 2 ∧ q % 2 = 1) → NearestNat y (q + 1)) := by
  have far (j : Nat) : (j ≤ q ∧ |(j : Rat) - y| = r + (q - j) ∧ (j : Rat) ≤ q) ∨ (q + 1 ≤ j ∧ |(j : Rat) - y| = j - q - r ∧ (q : Rat) + 1 ≤ j) := by
    rcases Nat.lt_or_ge q j with lt | le
    · have : (q : Rat) + 1 ≤ j := by exact_mod_cast lt
      exact .inr ⟨lt, by rw [abs_of_nonneg (by linarith)]; linarith, this⟩
    · have : (j : Rat) ≤ q := by exact_mod_cast le
      exact .inl ⟨le, by rw [abs_of_nonpos (by linarith)]; linarith, this⟩
  have here : |(q : Rat) - y| = r := by rw [abs_of_nonpos (by linarith)]; linarith
  have next : |((q + 1 : Nat) : Rat) - y| = 1 - r := by
    push_cast
    rw [abs_of_nonneg (by linarith)]
    linarith
  refine ⟨fun near j => ?_, fun near j => ?_⟩
  · rw [here]
    rcases far j with ⟨le, dist, cast⟩ | ⟨lt, dist, cast⟩
    · refine ⟨by linarith, fun ne tie => absurd ?_ ne⟩
      have : (j : Rat) = q := by linarith
      exact_mod_cast this
    · refine ⟨by rcases near with h | ⟨h, -⟩ <;> linarith, fun _ tie => ?_⟩
      rcases near with h | ⟨h, even⟩
      · exact absurd tie (by linarith)
      · exact even
  · rw [next]
    rcases far j with ⟨le, dist, cast⟩ | ⟨lt, dist, cast⟩
    · refine ⟨by rcases near with h | ⟨h, -⟩ <;> linarith, fun _ tie => ?_⟩
      rcases near with h | ⟨h, odd⟩
      · exact absurd tie (by linarith)
      · omega
    · refine ⟨by linarith, fun ne tie => absurd ?_ ne⟩
      have : (j : Rat) = q + 1 := by linarith
      exact_mod_cast this

theorem nearestNat_roundedUnits (m : Nat) (e u : Int) : NearestNat ((m : Rat) * 2 ^ (e - u)) (roundedUnits m e u) := by
  obtain ⟨r, split_, lo, hi, half⟩ := scaled_spec m e u
  obtain ⟨down, up⟩ := nearestNat_of_split split_ lo hi
  unfold roundedUnits
  rcases half with ⟨h, less⟩ | ⟨h, tie⟩ | ⟨h, more⟩
  · rw [h]
    exact down (.inl less)
  · rw [h]
    rcases Nat.mod_two_eq_zero_or_one (scaled m e u).1 with even | odd
    · rw [even]
      exact down (.inr ⟨tie, even⟩)
    · rw [odd]
      exact up (.inr ⟨tie, odd⟩)
  · rw [h]
    exact up (.inl more)

/-! ## Rounding to nearest -/

theorem ratAbs_eq (q : Rat) : q.abs = |q| := by
  unfold Rat.abs
  split
  · next h => exact (abs_of_nonneg h).symm
  · next h => exact (abs_of_nonpos (by linarith)).symm

/-- A code closest to a magnitude among all codes, even where another is as close. -/
def Closest (F : Fmt) (x : Rat) (c : Nat) : Prop := ∀ d : Nat, |mag F c - x| ≤ |mag F d - x| ∧ (d ≠ c → |mag F d - x| = |mag F c - x| → c % 2 = 0)

theorem mag_strictMono (F : Fmt) : StrictMono (mag F) := fun c d lt => by
  rw [mag_eq_units, mag_eq_units]
  have : (units F c : Rat) < units F d := by exact_mod_cast units_strictMono F lt
  exact mul_lt_mul_of_pos_right this (by positivity)

/-- The closest code, or the one above the largest finite code where that is lower, is the nearest of those (R236). -/
theorem Closest.nearest {F : Fmt} {x : Rat} {c : Nat} (h : Closest F x c) : Nearest F x (min c (F.maxCode + 1)) := by
  simp only [Nearest, ratAbs_eq]
  rcases Nat.lt_or_ge (F.maxCode + 1) c with gt | le
  · rw [Nat.min_eq_right gt.le]
    have beyond : mag F (F.maxCode + 1) ≤ x := by
      by_contra less
      have up := mag_strictMono F gt
      have closest := (h (F.maxCode + 1)).1
      rw [abs_of_nonneg (by linarith), abs_of_nonneg (by linarith)] at closest
      linarith
    have dist (d : Nat) (le : d ≤ F.maxCode + 1) : |mag F d - x| = x - mag F d := by
      have := (mag_strictMono F).monotone le
      rw [abs_of_nonpos (by linarith)]
      ring
    refine ⟨le_refl _, fun d le => ?_, fun d le ne tie => absurd tie ?_⟩
    · have := (mag_strictMono F).monotone le
      rw [dist d le, dist _ (le_refl _)]
      linarith
    · have := mag_strictMono F (Nat.lt_of_le_of_ne le ne)
      rw [dist d le, dist _ (le_refl _)]
      linarith
  · rw [Nat.min_eq_left le]
    exact ⟨le, fun d _ => (h d).1, fun d _ => (h d).2⟩

section Round

variable {F : Fmt} {m : Nat} {e : Int}

/-- The unit in the last place of a magnitude, counted from the smallest subnormal. -/
def ulpSteps (F : Fmt) (m : Nat) (e : Int) : Nat := (F.ulpExp m e - F.ulow).toNat

theorem ulpExp_eq (F : Fmt) (m : Nat) (e : Int) : F.ulpExp m e = F.ulow + ulpSteps F m e := by
  have : F.ulow ≤ F.ulpExp m e := le_max_right _ _
  rw [ulpSteps, Int.toNat_of_nonneg (by omega)]
  omega

theorem scaled_lt (m : Nat) (e : Int) : (m : Rat) * 2 ^ (e - F.ulpExp m e) < 2 ^ (F.frac + 1) := by
  have low : (m.log2 : Int) + e - F.frac ≤ F.ulpExp m e := le_max_left _ _
  have size : (m : Rat) < 2 ^ (m.log2 + 1) := by exact_mod_cast Nat.lt_log2_self
  calc (m : Rat) * 2 ^ (e - F.ulpExp m e) < 2 ^ (m.log2 + 1) * 2 ^ (e - F.ulpExp m e) := mul_lt_mul_of_pos_right size (by positivity)
    _ = (2 : Rat) ^ ((m.log2 : Int) + 1 + (e - F.ulpExp m e)) := by rw [zpow_add₀ (by norm_num)]; norm_cast
    _ ≤ (2 : Rat) ^ ((F.frac : Int) + 1) := zpow_le_zpow_right₀ (by norm_num) (by omega)
    _ = 2 ^ (F.frac + 1) := by norm_cast

theorem le_scaled (pos : m ≠ 0) (above : ulpSteps F m e ≠ 0) : (2 : Rat) ^ F.frac ≤ (m : Rat) * 2 ^ (e - F.ulpExp m e) := by
  have exp : F.ulpExp m e = (m.log2 : Int) + e - F.frac := by
    have := ulpExp_eq F m e
    rcases max_choice ((m.log2 : Int) + e - (F.frac : Int)) F.ulow with h | h
    · exact h
    · exact absurd (show F.ulpExp m e = F.ulow from h) (by omega)
  have size : (2 : Rat) ^ m.log2 ≤ m := by exact_mod_cast Nat.log2_self_le pos
  calc (2 : Rat) ^ F.frac = (2 : Rat) ^ m.log2 * 2 ^ (e - F.ulpExp m e) := by
        rw [exp, ← zpow_natCast (2 : Rat) m.log2, ← zpow_add₀ (by norm_num), ← zpow_natCast (2 : Rat) F.frac]
        congr 1
        ring
    _ ≤ m * 2 ^ (e - F.ulpExp m e) := mul_le_mul_of_nonneg_right size (by positivity)

/-- The code that rounding to nearest puts together, before overflow (R236). -/
def nearCode (F : Fmt) (m : Nat) (e : Int) : Nat := F.codeOf (roundedUnits m e (F.ulpExp m e)) (F.ulpExp m e)

theorem units_nearCode (pos : m ≠ 0) : units F (nearCode F m e) = roundedUnits m e (F.ulpExp m e) * 2 ^ ulpSteps F m e := by
  have near := nearestNat_roundedUnits m e (F.ulpExp m e)
  refine units_code ?_ ?_
  · rw [or_iff_not_imp_left]
    intro above
    by_contra less
    have low := le_scaled pos above
    have cast : ((2 ^ F.frac : Nat) : Rat) = 2 ^ F.frac := by push_cast; rfl
    have lt : (roundedUnits m e (F.ulpExp m e) : Rat) < (2 ^ F.frac : Nat) := by exact_mod_cast Nat.lt_of_not_le less
    have closest := (near (2 ^ F.frac)).1
    rw [abs_of_nonpos (by linarith), abs_of_nonpos (by linarith)] at closest
    linarith
  · by_contra more
    have high := scaled_lt (F := F) m e
    have cast : ((2 ^ (F.frac + 1) : Nat) : Rat) = 2 ^ (F.frac + 1) := by push_cast; rfl
    have gt : ((2 ^ (F.frac + 1) : Nat) : Rat) < roundedUnits m e (F.ulpExp m e) := by exact_mod_cast Nat.lt_of_not_le more
    have closest := (near (2 ^ (F.frac + 1))).1
    rw [abs_of_nonneg (by linarith), abs_of_nonneg (by linarith)] at closest
    linarith

theorem mag_in_ulps (F : Fmt) (m : Nat) (e : Int) (d : Nat) :
    mag F d = (units F d : Rat) / 2 ^ ulpSteps F m e * 2 ^ F.ulpExp m e := by
  rw [mag_eq_units, ulpExp_eq F m e, zpow_add₀ (by norm_num), zpow_natCast]
  field_simp

theorem value_in_ulps (F : Fmt) (m : Nat) (e : Int) : (m : Rat) * 2 ^ e = (m : Rat) * 2 ^ (e - F.ulpExp m e) * 2 ^ F.ulpExp m e := by
  rw [mul_assoc, ← zpow_add₀ (by norm_num), sub_add_cancel]

/-- The code put together is the closest (R236). -/
theorem closest_nearCode (frac : F.frac ≠ 0) (pos : m ≠ 0) : Closest F ((m : Rat) * 2 ^ e) (nearCode F m e) := by
  have near := nearestNat_roundedUnits m e (F.ulpExp m e)
  generalize hy : (m : Rat) * 2 ^ (e - F.ulpExp m e) = y at near
  generalize hn : roundedUnits m e (F.ulpExp m e) = n at near
  generalize hk : ulpSteps F m e = k
  have scale : (0 : Rat) < 2 ^ F.ulpExp m e := by positivity
  have dist (d : Nat) : |mag F d - (m : Rat) * 2 ^ e| = |(units F d : Rat) / 2 ^ k - y| * 2 ^ F.ulpExp m e := by
    rw [mag_in_ulps F m e, value_in_ulps F, hy, hk, ← sub_mul, abs_mul, abs_of_pos scale]
  have here : (units F (nearCode F m e) : Rat) / 2 ^ k = n := by
    rw [units_nearCode pos, hn, hk]
    push_cast
    field_simp
  have even : n % 2 = 0 → nearCode F m e % 2 = 0 := by
    intro h
    obtain ⟨g, hg⟩ := Nat.exists_eq_succ_of_ne_zero frac
    rw [nearCode, Fmt.codeOf, hn, hg, pow_succ, ← Nat.mul_assoc]
    omega
  have inj (d : Nat) (ne : d ≠ nearCode F m e) : units F d ≠ units F (nearCode F m e) := (units_strictMono F).injective.ne ne
  intro d
  rw [dist, dist, here]
  by_cases multiple : 2 ^ k ∣ units F d
  · obtain ⟨j, hj⟩ := multiple
    have count : (units F d : Rat) / 2 ^ k = j := by
      rw [hj]
      push_cast
      field_simp
    rw [count]
    refine ⟨mul_le_mul_of_nonneg_right (near j).1 scale.le, fun ne tie => even ((near j).2 (fun eq => inj d ne ?_) (mul_right_cancel₀ scale.ne' tie))⟩
    rw [units_nearCode pos, hn, hk, hj, eq, Nat.mul_comm]
  · have below : units F d < 2 ^ F.frac * 2 ^ k := Nat.lt_of_not_le (mt dvd_units multiple)
    have above : ulpSteps F m e ≠ 0 := by
      rw [hk]
      rintro rfl
      exact multiple (by simp)
    have low : (2 : Rat) ^ F.frac ≤ y := hy ▸ le_scaled pos above
    have less : (units F d : Rat) / 2 ^ k < 2 ^ F.frac := by
      rw [div_lt_iff₀ (by positivity)]
      exact_mod_cast below
    have closest := (near (2 ^ F.frac)).1
    push_cast at closest
    rw [abs_of_nonpos (a := (2 : Rat) ^ F.frac - y) (by linarith)] at closest
    have farther : |(n : Rat) - y| < |(units F d : Rat) / 2 ^ k - y| := by
      rw [abs_of_nonpos (a := (units F d : Rat) / 2 ^ k - y) (by linarith)]
      linarith
    exact ⟨mul_le_mul_of_nonneg_right farther.le scale.le, fun _ tie => absurd (mul_right_cancel₀ scale.ne' tie) farther.ne'⟩

end Round

/-! ## The model's numbers in the words of the claims -/

/-- What a value stands for. -/
def toNum : FVal → NumVal
  | .nan => .nan
  | .inf neg => .inf neg
  | .fin neg m e => .val neg ((m : Rat) * 2 ^ e)

/-- What the five formats that are widened to FP32 exactly have in common (R226, R227). -/
structure Widens (F : Fmt) : Prop where
  top   : F.top = .ieee ∨ F.top = .nanOnly
  frac  : F.frac ≠ 0 ∧ F.frac ≤ 23
  low   : -149 ≤ F.ulow
  bits  : F.maxCode + 1 < 2 ^ F.width
  width : F.width ≤ 31
  high  : mag F (F.maxCode + 1) ≤ 2 ^ 128
  cnan  : numOf F F.cnan = .nan

theorem widens_f32 : Widens .f32 := ⟨.inl rfl, by decide, by decide, by decide, by decide, by norm_num [mag, Fmt.f32], by decide⟩

theorem widens_collFmt (fmt : Nat) : Widens (collFmt fmt) := by
  unfold collFmt
  split
  · exact widens_f32
  · exact ⟨.inl rfl, by decide, by decide, by decide, by decide, by norm_num [mag, Fmt.bf16], by decide⟩
  · exact ⟨.inl rfl, by decide, by decide, by decide, by decide, by norm_num [mag, Fmt.f16], by decide⟩
  · exact ⟨.inr rfl, by decide, by decide, by decide, by decide, by norm_num [mag, Fmt.e4m3], by decide⟩
  · exact ⟨.inl rfl, by decide, by decide, by decide, by decide, by norm_num [mag, Fmt.e5m2], by decide⟩

section Format

variable {F : Fmt} (wide : Widens F)
include wide

theorem Widens.top_ne : F.top ≠ .none := by rcases wide.top with h | h <;> rw [h] <;> decide

omit wide in
theorem toNum_magOf (neg : Bool) (c : Nat) : toNum (F.magOf neg c) = .val neg (mag F c) := by
  unfold Fmt.magOf mag
  dsimp only
  split
  · rfl
  · next normal =>
    refine congrArg (NumVal.val neg) (congrArg₂ _ rfl (congrArg _ ?_))
    rw [Fmt.ulow]
    push_cast
    ring

/-- A code's value is its number (R227, R228). -/
theorem numOf_eq (code : Nat) : numOf F code = toNum (F.value code) := by
  have signless (b : Bool) : (b && (F.top != .none || code % 2 ^ F.width != 0)) = b := by
    have : (F.top != .none) = true := by simpa using wide.top_ne
    rw [this]
    simp
  unfold numOf Fmt.value
  dsimp only
  rw [signless]
  rcases wide.top with top | top <;> rw [top] <;> split
  · exact (toNum_magOf _ _).symm
  · simp only [true_and]
    split <;> rfl
  · exact (toNum_magOf _ _).symm
  · simp [toNum]

theorem signed_eq (neg : Bool) (c : Nat) : F.signed neg c = withSign F neg c := by
  have : (F.top != .none) = true := by simpa using wide.top_ne
  simp [Fmt.signed, withSign, this]

theorem zero_eq (neg : Bool) : F.zero neg = F.signed neg 0 := by rw [Fmt.zero, if_neg wide.top_ne]

omit wide in
theorem nearCode_of_zero {m : Nat} {e : Int} (pos : m ≠ 0) (zero : roundedUnits m e (F.ulpExp m e) = 0) : nearCode F m e = 0 := by
  refine (units_strictMono F).injective ?_
  rw [units_nearCode pos, zero, Nat.zero_mul, units]
  simp

theorem rn_fin (neg : Bool) {m : Nat} (pos : m ≠ 0) (e : Int) :
    F.rn (.fin neg m e) = if nearCode F m e ≤ F.maxCode then F.signed neg (nearCode F m e) else F.over neg := by
  rw [Fmt.rn, if_neg pos]
  show (if roundedUnits m e (F.ulpExp m e) = 0 then F.zero neg
    else if nearCode F m e > F.maxCode then F.over neg else F.signed neg (nearCode F m e)) = _
  split
  · next zero => rw [nearCode_of_zero pos zero, if_pos (Nat.zero_le _), zero_eq wide]
  · split
    · next big => rw [if_neg (by omega)]
    · next fits => rw [if_pos (by omega)]

omit wide in
theorem mag_zero : mag F 0 = 0 := by
  rw [mag_eq_units, units]
  simp

/-- Rounding to nearest, said over rationals (R234, R236). -/
theorem rounded_rn (v : FVal) : Rounded F (toNum v) (F.rn v) := by
  cases v with
  | nan => exact rfl
  | inf neg => exact signed_eq wide neg _
  | fin neg m e =>
    rcases eq_or_ne m 0 with rfl | pos
    · refine ⟨0, ⟨Nat.zero_le _, fun d _ => ?_, fun d _ ne tie => rfl⟩, ?_⟩
      · simp only [ratAbs_eq, mag_zero, Nat.cast_zero, zero_mul, sub_zero, abs_zero]
        exact abs_nonneg _
      · rw [if_pos (Nat.zero_le _), ← signed_eq wide, ← zero_eq wide, Fmt.rn, if_pos rfl]
    · refine ⟨_, (closest_nearCode wide.frac.1 pos).nearest, ?_⟩
      rw [rn_fin wide neg pos, ← signed_eq wide]
      split
      · next le => rw [Nat.min_eq_left (by omega), if_pos le]
      · next gt =>
        rw [Nat.min_eq_right (by omega), if_neg (by omega)]
        rfl

/-- A magnitude that a code has is rounded to that code. -/
theorem rn_exact (neg : Bool) {m : Nat} {e : Int} {c : Nat} (exact_ : mag F c = (m : Rat) * 2 ^ e) (le : c ≤ F.maxCode) :
    F.rn (.fin neg m e) = F.signed neg c := by
  have inj := (mag_strictMono F).injective
  rcases eq_or_ne m 0 with rfl | pos
  · have : c = 0 := inj (by rw [exact_, mag_zero]; simp)
    rw [this, Fmt.rn, if_pos rfl, zero_eq wide]
  · have same : nearCode F m e = c := by
      have closest := (closest_nearCode (F := F) (e := e) wide.frac.1 pos c).1
      rw [exact_, sub_self, abs_zero] at closest
      refine inj ?_
      rw [exact_]
      linarith [abs_eq_zero.1 (le_antisymm closest (abs_nonneg _))]
    rw [rn_fin wide neg pos, same, if_pos le]

theorem numOf_signed (neg : Bool) {c : Nat} (lt : c < 2 ^ F.width) : numOf F (F.signed neg c) =
    if c ≤ F.maxCode then .val neg (mag F c) else if F.top = .ieee ∧ c % 2 ^ F.frac = 0 then .inf neg else .nan := by
  have low : F.signed neg c % 2 ^ F.width = c := by
    cases neg <;> simp [Fmt.signed, Nat.mod_eq_of_lt lt]
  have sign : (F.signed neg c).testBit F.width = neg := by
    cases neg
    · simpa [Fmt.signed] using Nat.testBit_lt_two_pow lt
    · simp [Fmt.signed, Nat.testBit_two_pow_add_eq, Nat.testBit_lt_two_pow lt]
  have top : (F.top != .none) = true := by simpa using wide.top_ne
  unfold numOf
  dsimp only
  rw [low, sign, top]
  simp

theorem signed_lt (neg : Bool) {c : Nat} (lt : c < 2 ^ F.width) : F.signed neg c < 2 ^ 32 := by
  have double : 2 ^ F.width + 2 ^ F.width ≤ 2 ^ 32 := by
    rw [← Nat.two_mul, ← pow_succ']
    exact Nat.pow_le_pow_right (by decide) (by have := wide.width; omega)
  unfold Fmt.signed
  split <;> omega

theorem over_lt (neg : Bool) : F.over neg < 2 ^ 32 := by
  have := wide.bits
  exact signed_lt wide neg (by split <;> omega)

omit wide in
/-- A count of units that a format's steps divide, below the first magnitude beyond its range, is one of its magnitudes. -/
theorem exists_code {m : Nat} {e : Int} (pos : m ≠ 0) (fine : F.ulpExp m e ≤ e) (lt : (m : Rat) * 2 ^ e < mag F (F.maxCode + 1)) :
    ∃ c ≤ F.maxCode, mag F c = (m : Rat) * 2 ^ e := by
  have whole : (roundedUnits m e (F.ulpExp m e) : Rat) = (m : Rat) * 2 ^ (e - F.ulpExp m e) := by
    obtain ⟨d, hd⟩ := Int.eq_ofNat_of_zero_le (Int.sub_nonneg_of_le fine)
    have parts : scaled m e (F.ulpExp m e) = (m <<< d, 0, false) := by rw [scaled, if_pos fine, hd, Int.toNat_natCast]
    rw [roundedUnits, parts, hd]
    simp [Nat.shiftLeft_eq]
  have exact_ : mag F (nearCode F m e) = (m : Rat) * 2 ^ e := by
    rw [mag_in_ulps F m e, units_nearCode pos, value_in_ulps F, ← whole]
    push_cast
    field_simp
  exact ⟨_, Nat.le_of_lt_succ ((mag_strictMono F).lt_iff_lt.1 (exact_.trans_lt lt)), exact_⟩

end Format

/-! ## FP32 words -/

theorem num_eq (w : Word) : num w = toNum (f32Of w) := numOf_eq widens_f32 _

theorem rn_lt (v : FVal) : Fmt.f32.rn v < 2 ^ 32 := by
  cases v with
  | nan => decide
  | inf neg => exact over_lt widens_f32 neg
  | fin neg m e =>
    rcases eq_or_ne m 0 with rfl | pos
    · rw [Fmt.rn, if_pos rfl, zero_eq widens_f32]
      exact signed_lt widens_f32 neg (by decide)
    · rw [rn_fin widens_f32 neg pos]
      split
      · next le => exact signed_lt widens_f32 neg (lt_of_le_of_lt le (by decide))
      · exact over_lt widens_f32 neg

theorem toF32_toNat (v : FVal) : (toF32 v).toNat = Fmt.f32.rn v := by
  rw [toF32, BitVec.toNat_ofNat, Nat.mod_eq_of_lt (rn_lt v)]

theorem rounded_toF32 (v : FVal) : Rounded32 (toNum v) (toF32 v) := by
  rw [Rounded32, toF32_toNat]
  exact rounded_rn widens_f32 v

theorem num_toF32_exact (neg : Bool) {m : Nat} {e : Int} {c : Nat} (exact_ : mag .f32 c = (m : Rat) * 2 ^ e) (le : c ≤ Fmt.f32.maxCode) :
    num (toF32 (.fin neg m e)) = .val neg ((m : Rat) * 2 ^ e) := by
  rw [num, toF32_toNat, rn_exact widens_f32 neg exact_ le, numOf_signed widens_f32 neg (lt_of_le_of_lt le (by decide)), if_pos le, exact_]

/-! ## The exact sum -/

theorem numAt_eq {lo e : Int} (le : lo ≤ e) (neg : Bool) (m : Nat) : (Machine.numAt lo neg m e : Rat) * 2 ^ lo = signed neg ((m : Rat) * 2 ^ e) := by
  obtain ⟨d, hd⟩ := Int.eq_ofNat_of_zero_le (Int.sub_nonneg_of_le le)
  have exp : (2 : Rat) ^ e = 2 ^ d * 2 ^ lo := by
    rw [← zpow_natCast (2 : Rat) d, ← zpow_add₀ (by norm_num)]
    congr 1
    omega
  rw [Machine.numAt, hd, Int.toNat_natCast, Nat.shiftLeft_eq, exp]
  cases neg <;> simp [signed, mul_assoc]

theorem toNum_ofNum (lo n : Int) (zero : Bool) : toNum (ofNum lo n zero) = ofRat zero ((n : Rat) * 2 ^ lo) := by
  have scale : (0 : Rat) < 2 ^ lo := by positivity
  unfold ofNum ofRat
  by_cases h : n = 0
  · subst h
    simp [toNum]
  · have ne : (n : Rat) * 2 ^ lo ≠ 0 := mul_ne_zero (by exact_mod_cast h) scale.ne'
    have sign : decide (n < 0) = decide ((n : Rat) * 2 ^ lo < 0) := by
      refine decide_eq_decide.2 ?_
      refine ⟨fun neg => mul_neg_of_neg_of_pos (by exact_mod_cast neg) scale, fun neg => ?_⟩
      by_contra ge
      have : (0 : Rat) ≤ n := by exact_mod_cast not_lt.1 ge
      exact absurd neg (not_lt.2 (mul_nonneg this scale.le))
    rw [if_neg h, if_neg ne, toNum, ratAbs_eq, abs_mul, abs_of_pos scale, sign]
    congr 2
    rw [Nat.cast_natAbs]
    push_cast
    rfl

/-- The model's exact sum is the sum (R235). -/
theorem toNum_add (x y : FVal) : toNum (x.add y) = (toNum x).plus (toNum y) := by
  cases x with
  | nan => cases y <;> rfl
  | inf a =>
    cases y with
    | nan => rfl
    | inf b =>
      rcases eq_or_ne a b with rfl | ne
      · simp [FVal.add, toNum, NumVal.plus]
      · simp [FVal.add, toNum, NumVal.plus, ne]
    | fin b n d => rfl
  | fin a m e =>
    cases y with
    | nan => rfl
    | inf b => rfl
    | fin b n d =>
      have zero (k : Nat) (i : Int) : ((k : Rat) * 2 ^ i == 0) = (k == 0) := by
        have : (2 : Rat) ^ i ≠ 0 := by positivity
        rw [Bool.eq_iff_iff]
        simp [this]
      rw [FVal.add, toNum_ofNum, Int.cast_add, add_mul, numAt_eq (min_le_left e d), numAt_eq (min_le_right e d)]
      simp only [toNum, NumVal.plus, zero]

/-! ## Reductions (R41) -/

theorem codeFmt_eq {fmt : Nat} (le : fmt ≤ 4) : codeFmt fmt = collFmt fmt := by
  interval_cases fmt <;> rfl

section Widen

variable {F : Fmt} (wide : Widens F)
include wide

/-- Every finite number of the five formats is one of FP32. -/
theorem exists_f32 {c : Nat} (le : c ≤ F.maxCode) (neg : Bool) : ∃ m e d, F.magOf neg c = .fin neg m e ∧ mag F c = (m : Rat) * 2 ^ e ∧
    d ≤ Fmt.f32.maxCode ∧ mag .f32 d = (m : Rat) * 2 ^ e := by
  have pos : 0 < 2 ^ F.frac := Nat.two_pow_pos _
  have double : 2 ^ (F.frac + 1) = 2 ^ F.frac + 2 ^ F.frac := by ring
  have small : 2 ^ (F.frac + 1) ≤ 2 ^ 24 := Nat.pow_le_pow_right (by decide) (by have := wide.frac.2; omega)
  obtain ⟨m, e, form, lt, low⟩ : ∃ m e, F.magOf neg c = .fin neg m e ∧ m < 2 ^ (F.frac + 1) ∧ F.ulow ≤ e := by
    unfold Fmt.magOf
    dsimp only
    split
    · next sub =>
      rw [Nat.div_eq_zero_iff] at sub
      exact ⟨_, _, rfl, by omega, le_refl _⟩
    · next normal =>
      have := Nat.mod_lt c pos
      have up : (1 : Int) ≤ (c / 2 ^ F.frac : Nat) := by exact_mod_cast Nat.pos_of_ne_zero normal
      exact ⟨_, _, rfl, by omega, by linarith⟩
  have value : mag F c = (m : Rat) * 2 ^ e := by
    have := toNum_magOf (F := F) neg c
    rw [form, toNum] at this
    exact (NumVal.val.inj this).2.symm
  refine ⟨m, e, ?_⟩
  rcases eq_or_ne m 0 with rfl | nz
  · exact ⟨0, form, value, by decide, by rw [mag_zero]; simp⟩
  · obtain ⟨d, le', exact_⟩ := exists_code (F := .f32) (m := m) (e := e) nz (by
        have log : m.log2 < 24 := (Nat.log2_lt nz).2 (by omega)
        have := wide.low
        refine max_le ?_ ?_
        · show (m.log2 : Int) + e - (23 : Nat) ≤ e
          omega
        · show (1 : Int) - (127 : Nat) - (23 : Nat) ≤ e
          omega) (by
        rw [← value]
        refine (mag_strictMono F (Nat.lt_succ_of_le le)).trans_le (wide.high.trans ?_)
        norm_num [mag, Fmt.f32])
    exact ⟨d, form, value, le', exact_⟩

/-- A contribution is widened exactly. -/
theorem num_widened (code : Nat) : num (toF32 (F.value code)) = numOf F code := by
  rw [numOf_eq wide]
  unfold Fmt.value
  dsimp only
  have finite (le : code % 2 ^ F.width ≤ F.maxCode) (neg : Bool) : num (toF32 (F.magOf neg (code % 2 ^ F.width))) = toNum (F.magOf neg (code % 2 ^ F.width)) := by
    obtain ⟨m, e, d, form, -, le', exact_⟩ := exists_f32 wide le neg
    rw [form, num_toF32_exact neg exact_ le']
    rfl
  have nan : num (toF32 .nan) = toNum .nan := by decide
  have inf (neg : Bool) : num (toF32 (.inf neg)) = toNum (.inf neg) := by cases neg <;> decide
  rcases wide.top with top | top <;> rw [top] <;> dsimp only <;> split
  · next le => exact finite le _
  · split
    · exact inf _
    · exact nan
  · next le => exact finite le _
  · exact nan

end Widen

end Sys2Proof.Claims
end

section
-- One proof after another: side by side their threads pass the limit of memory that the check sets.
set_option Elab.async false
/-! SUPPORT. Collectives in the words of the claims: the block, the batches of outgoing elements, their packets, and faults of the engine (R35, R41 to R44, R334 to R336). -/

namespace Sys2Proof.Claims

open Sys2Proof Sys2Proof.Machine

/-! ## The parameter block (R334) -/

theorem elem_eq (b : CollBlock) : b.elem = elemBytes b := by
  unfold CollBlock.elem elemBytes
  generalize b.fmt = n
  match n with
  | 0 | 1 | 2 | 3 | 4 | 5 | 6 => rfl
  | n + 7 => rfl

theorem hasDst_iff (b : CollBlock) : b.hasDst = true ↔ 1 ≤ b.kind ∧ b.kind ≤ 3 := by simp [CollBlock.hasDst]

theorem bufElems_eq (b : CollBlock) : b.bufElems = bufLen b := if_congr (by simp) rfl rfl

theorem dstElems_eq {b : CollBlock} (dst : 1 ≤ b.kind ∧ b.kind ≤ 3) : b.dstElems = outLen b := by
  unfold CollBlock.dstElems outLen
  rw [if_pos ((hasDst_iff b).2 dst)]
  split
  · next one => rw [if_neg (by omega)]
  · next other => rw [if_pos (by omega)]

theorem outRange_eq (b : CollBlock) : b.outRange = (outVa b, outLen b * elemBytes b) := by
  unfold CollBlock.outRange outVa
  rw [elem_eq]
  by_cases dst : 1 ≤ b.kind ∧ b.kind ≤ 3
  · rw [if_pos ((hasDst_iff b).2 dst), if_pos dst, dstElems_eq dst]
  · rw [if_neg (mt (hasDst_iff b).1 dst), if_neg dst, bufElems_eq, bufLen, outLen, if_neg (by omega), if_neg (by omega)]

theorem isPow2_iff (n : Nat) : isPow2 n = true ↔ ∃ x, n = 2 ^ x := by
  simp only [isPow2, Bool.and_eq_true, bne_iff_ne, beq_iff_eq]
  constructor
  · rintro ⟨-, eq⟩
    exact ⟨_, eq.symm⟩
  · rintro ⟨x, rfl⟩
    exact ⟨by positivity, by rw [Nat.log2_two_pow]⟩

/-- The rank of this device among those of a block (R334). -/
theorem rankOf_eq_some_iff {s : State} {b : CollBlock} (stride : b.stride ≠ 0) (d : Nat) :
    s.rankOf b = some d ↔ d < b.ranks ∧ s.fabric.deviceNum.toNat = b.first + d * b.stride := by
  unfold State.rankOf
  dsimp only
  have pos : 0 < b.stride := Nat.pos_of_ne_zero stride
  generalize s.fabric.deviceNum.toNat = n
  have split_ := Nat.div_add_mod (n - b.first) b.stride
  rw [Nat.mul_comm] at split_
  constructor
  · intro h
    split at h
    · cases h
    · next not =>
      obtain rfl := Option.some.inj h
      simp only [Bool.or_eq_true, decide_eq_true_eq, not_or, not_lt, Decidable.not_not, ge_iff_le, not_le] at not
      obtain ⟨⟨le, mod⟩, lt⟩ := not
      exact ⟨lt, by omega⟩
  · rintro ⟨lt, rfl⟩
    rw [if_neg (by simp [Nat.mul_div_cancel _ pos, Nat.mul_mod_left, lt])]
    simp [Nat.mul_div_cancel _ pos]

theorem rankOf_isNone_iff {s : State} {b : CollBlock} (stride : b.stride ≠ 0) :
    (s.rankOf b).isNone = true ↔ ¬∃ d < b.ranks, s.fabric.deviceNum.toNat = b.first + d * b.stride := by
  rw [Option.isNone_iff_eq_none, Option.eq_none_iff_forall_ne_some]
  simp only [ne_eq, rankOf_eq_some_iff stride, not_exists]

theorem ranksInRange_iff (s : State) (c : Nat) (b : CollBlock) : s.ranksInRange c b = true ↔
    b.first + (b.ranks - 1) * b.stride ≤ 4095 ∧ (s.subtreeOf c).2.1.toNat ≤ b.first ∧
      b.first + (b.ranks - 1) * b.stride < (s.subtreeOf c).2.1.toNat + (s.subtreeOf c).2.2.toNat := by
  simp [State.ranksInRange, and_assoc]

/-- A block is bad as R334 says. -/
theorem collBad_iff (s : State) (c : Nat) (b : CollBlock) : s.collBad c b = true ↔ BlockBad s c b := by
  by_cases stride : b.stride = 0
  · exact iff_of_true (by simp [State.collBad, stride]) (by simp [BlockBad, stride])
  · have dst : b.hasDst = decide (1 ≤ b.kind ∧ b.kind ≤ 3) := by rw [Bool.eq_iff_iff, hasDst_iff, decide_eq_true_iff]
    have pow (n : Nat) : (!isPow2 n) = true ↔ ∀ x, n ≠ 2 ^ x := by
      rw [Bool.not_eq_true', Bool.eq_false_iff, ne_eq, isPow2_iff, not_exists]
    have range : (!s.ranksInRange c b) = true ↔ 4095 < b.first + (b.ranks - 1) * b.stride ∨ b.first < (s.subtreeOf c).2.1.toNat ∨
        (s.subtreeOf c).2.1.toNat + (s.subtreeOf c).2.2.toNat ≤ b.first + (b.ranks - 1) * b.stride := by
      rw [Bool.not_eq_true', Bool.eq_false_iff, ne_eq, ranksInRange_iff]
      omega
    have overlap : (b.hasDst && decide (b.buf < b.dst + b.dstElems * b.elem) && decide (b.dst < b.buf + b.bufElems * b.elem)) = true ↔
        ((1 ≤ b.kind ∧ b.kind ≤ 3) ∧ b.buf < b.dst + outLen b * elemBytes b ∧ b.dst < b.buf + bufLen b * elemBytes b) := by
      rw [Bool.and_eq_true, Bool.and_eq_true, hasDst_iff, decide_eq_true_iff, decide_eq_true_iff, elem_eq, bufElems_eq, and_assoc]
      exact and_congr_right fun dst => by rw [dstElems_eq dst]
    unfold State.collBad
    simp only [Bool.or_eq_true, overlap, range, rankOf_isNone_iff stride]
    simp only [BlockBad, Bool.and_eq_true, Bool.or_eq_true, decide_eq_true_eq, beq_iff_eq, bne_iff_ne, pow, elem_eq, CollBlock.reduces,
      Bool.not_eq_true', gt_iff_lt, ge_iff_le, dst, decide_eq_false_iff_not]
    simp only [and_or_left, or_assoc]
    ac_nf

/-! ## Batches of outgoing elements (R32, R43; log 69) -/

section Runs

variable {α : Type} {together : Nat → Nat → Bool} {key : Nat → α} (same : ∀ i j, together i j = true ↔ key i = key j)

theorem runsOf_cons (i : Nat) (rest : List Nat) :
    (runsOf together rest = [] ∧ runsOf together (i :: rest) = [[i]]) ∨
    (∃ gs, runsOf together rest = [] :: gs ∧ runsOf together (i :: rest) = [i] :: [] :: gs) ∨
    ∃ j g gs, runsOf together rest = (j :: g) :: gs ∧
      runsOf together (i :: rest) = if together i j then (i :: j :: g) :: gs else [i] :: (j :: g) :: gs := by
  rw [runsOf]
  cases h : runsOf together rest with
  | nil => exact .inl ⟨rfl, rfl⟩
  | cons g gs =>
    cases g with
    | nil => exact .inr (.inl ⟨gs, rfl, rfl⟩)
    | cons j g => exact .inr (.inr ⟨j, g, gs, rfl, rfl⟩)

theorem runsOf_flatten (l : List Nat) : (runsOf together l).flatten = l := by
  induction l with
  | nil => rfl
  | cons i rest ih =>
    rcases runsOf_cons (together := together) i rest with ⟨h, eq⟩ | ⟨gs, h, eq⟩ | ⟨j, g, gs, h, eq⟩ <;> rw [eq] <;> rw [h] at ih
    · simp [← ih]
    · simp [← ih]
    · split <;> simp [← ih]

theorem runsOf_ne_nil (l : List Nat) : ∀ g ∈ runsOf together l, g ≠ [] := by
  induction l with
  | nil => simp [runsOf]
  | cons i rest ih =>
    rcases runsOf_cons (together := together) i rest with ⟨h, eq⟩ | ⟨gs, h, eq⟩ | ⟨j, g, gs, h, eq⟩ <;> rw [eq] <;> rw [h] at ih
    · simp
    · exact absurd rfl (ih [] List.mem_cons_self)
    · split <;> simpa using fun x hx => ih x (List.mem_cons_of_mem _ hx)

include same

theorem runsOf_same (l : List Nat) : ∀ g ∈ runsOf together l, ∀ i ∈ g, ∀ j ∈ g, key i = key j := by
  induction l with
  | nil => simp [runsOf]
  | cons i rest ih =>
    rcases runsOf_cons (together := together) i rest with ⟨h, eq⟩ | ⟨gs, h, eq⟩ | ⟨j, g, gs, h, eq⟩ <;> rw [eq] <;> rw [h] at ih
    · simp
    · exact absurd rfl (runsOf_ne_nil rest [] (by rw [h]; exact List.mem_cons_self))
    · obtain ⟨first, others⟩ := List.forall_mem_cons.1 ih
      split
      · next with_ =>
        have eq_ (x : Nat) (hx : x ∈ j :: g) : key i = key x := ((same i j).1 with_).trans (first j List.mem_cons_self x hx)
        refine List.forall_mem_cons.2 ⟨fun x hx y hy => ?_, others⟩
        rcases List.mem_cons.1 hx with rfl | hx' <;> rcases List.mem_cons.1 hy with rfl | hy'
        · rfl
        · exact eq_ y hy'
        · exact (eq_ x hx').symm
        · exact first x hx' y hy'
      · exact List.forall_mem_cons.2 ⟨by simp, List.forall_mem_cons.2 ⟨first, others⟩⟩

/-- Neighbouring runs do not belong together. -/
theorem runsOf_apart (l : List Nat) : ∀ (n : Nat) (g h : List Nat) (i j : Nat), (runsOf together l)[n]? = some g → (runsOf together l)[n + 1]? = some h →
    g.getLast? = some i → h.head? = some j → key i ≠ key j := by
  induction l with
  | nil => simp [runsOf]
  | cons a rest ih =>
    rcases runsOf_cons (together := together) a rest with ⟨h, eq⟩ | ⟨gs, h, eq⟩ | ⟨b, g, gs, h, eq⟩ <;> rw [eq] <;> rw [h] at ih
    · simp
    · exact absurd rfl (runsOf_ne_nil rest [] (by rw [h]; exact List.mem_cons_self))
    · split
      · intro n x y i j hx hy last head
        cases n with
        | zero =>
          obtain rfl := Option.some.inj hx
          exact ih 0 (b :: g) y i j rfl hy (by rw [← last, List.getLast?_cons_cons]) head
        | succ n => exact ih (n + 1) x y i j hx hy last head
      · next apart =>
        intro n x y i j hx hy last head
        cases n with
        | zero =>
          obtain rfl := Option.some.inj hx
          obtain rfl := Option.some.inj hy
          obtain rfl := Option.some.inj last
          obtain rfl := Option.some.inj head
          exact mt (same _ _).2 apart
        | succ n => exact ih n x y i j hx hy last head

end Runs

/-- Groups with the number of elements up to the end of each, `n` of them before the first. -/
def numbered (n : Nat) : List (List Nat) → List (Nat × List Nat)
  | [] => []
  | g :: gs => (n + g.length, g) :: numbered (n + g.length) gs

theorem foldl_numbered (gs : List (List Nat)) (n : Nat) (past : List (Nat × List Nat)) :
    (gs.foldl (fun (x : Nat × List (Nat × List Nat)) g => (x.1 + g.length, x.2 ++ [(x.1 + g.length, g)])) (n, past)).2 = past ++ numbered n gs := by
  induction gs generalizing n past with
  | nil => simp [numbered]
  | cons g rest ih =>
    rw [List.foldl_cons, ih, numbered]
    simp

theorem batches_eq (b : CollBlock) (d : Nat) : b.batches d = numbered 0 (b.groups d) := by
  rw [CollBlock.batches, foldl_numbered, List.nil_append]

theorem map_snd_numbered (gs : List (List Nat)) (n : Nat) : (numbered n gs).map Prod.snd = gs := by
  induction gs generalizing n with
  | nil => rfl
  | cons g rest ih => rw [numbered, List.map_cons, ih]

theorem getElem?_numbered {gs : List (List Nat)} {n k : Nat} {x : Nat × List Nat} (h : (numbered n gs)[k]? = some x) :
    gs[k]? = some x.2 ∧ x.1 = n + (((numbered n gs).take (k + 1)).map fun y => y.2.length).sum := by
  induction gs generalizing n k with
  | nil => simp [numbered] at h
  | cons g rest ih =>
    rw [numbered] at h ⊢
    cases k with
    | zero =>
      obtain rfl := Option.some.inj h
      simp
    | succ k =>
      obtain ⟨there, count⟩ := ih h
      refine ⟨there, ?_⟩
      rw [count, List.take_succ_cons, List.map_cons, List.sum_cons, Nat.add_assoc]

theorem outgoing_eq (b : CollBlock) (d : Nat) : b.outgoing d = sentOf b d := by
  unfold CollBlock.outgoing sentOf
  rw [bufElems_eq]
  generalize b.kind = n
  match n with
  | 0 | 1 | 2 | 3 | 4 | 5 => rfl
  | n + 6 => rfl

theorem goesTo_eq (b : CollBlock) (d i : Nat) : b.goesTo d i = goesTo b d i := by
  unfold CollBlock.goesTo goesTo
  generalize b.kind = n
  match n with
  | 0 | 1 | 2 | 3 | 4 | 5 => rfl
  | n + 6 => rfl

theorem batchesAre_batches (b : CollBlock) (d : Nat) : BatchesAre b d (b.batches d) := by
  have same (i j : Nat) : ((b.buf + i * b.elem) / 256 == (b.buf + j * b.elem) / 256 && b.goesTo d i == b.goesTo d j) = true ↔
      ((b.buf + i * elemBytes b) / 256, goesTo b d i) = ((b.buf + j * elemBytes b) / 256, goesTo b d j) := by
    rw [Bool.and_eq_true, beq_iff_eq, beq_iff_eq, Prod.mk.injEq, elem_eq, goesTo_eq, goesTo_eq]
  have group {n : Nat} {g : Nat × List Nat} (h : (b.batches d)[n]? = some g) : (b.groups d)[n]? = some g.2 :=
    (getElem?_numbered (batches_eq b d ▸ h)).1
  refine ⟨?_, fun n g hg => ⟨?_, ?_, fun i hi j hj => ?_⟩, fun n g h i j hg hh last head with_ => ?_⟩
  · rw [batches_eq, map_snd_numbered, ← outgoing_eq]
    exact runsOf_flatten _
  · exact runsOf_ne_nil _ _ (List.mem_of_getElem? (group hg))
  · have := (getElem?_numbered (batches_eq b d ▸ hg)).2
    rwa [Nat.zero_add, ← batches_eq] at this
  · exact Prod.mk.inj (runsOf_same same _ _ (List.mem_of_getElem? (group hg)) i hi j hj)
  · exact runsOf_apart same _ n g.2 h.2 i j (group hg) (group hh) last head (Prod.ext with_.1 with_.2)

theorem leaves_iff (b : CollBlock) (d i : Nat) (g : List Nat) : b.leaves d (i :: g) = true ↔ b.ranks ≠ 1 ∧ goesTo b d i ≠ some d := by
  simp [CollBlock.leaves, goesTo_eq]

/-! ## Batches read and sent -/

/-- The progress of an operation that has read and kept so many more elements. -/
def tookMore (o : CleOp) (bs : List (List Byte)) : CleOp := { o with taken := o.taken ++ bs.map littleEndian }

theorem tookMore_nil (o : CleOp) : tookMore o [] = o := by simp [tookMore]

theorem tookMore_cons (o : CleOp) (b : List Byte) (bs : List (List Byte)) :
    tookMore { o with taken := o.taken ++ [leNat b] } bs = tookMore o (b :: bs) := by
  simp [tookMore, littleEndian_eq_leNat]

section Elements

variable {b : CollBlock} {c : Nat}

theorem foldl_takeElem_failed (is : List Nat) {r : CollRun} {x : EFault} (fail : r.fail = some x) : is.foldl (takeElem b) r = r := by
  refine List.foldl_fixed' (fun i => ?_) is
  rw [takeElem, fail]

/-- Elements read one after another, up to the first read that fails (R43, R188). -/
theorem foldl_takeElem (tm : Team) (is : List Nat) {r : CollRun} (none : r.fail = none) (ctx : r.o.ctx.toNat = c) :
    ∃ bs, ReadsAll tm c true (is.map fun i => (b.buf + i * elemBytes b, elemBytes b)) r.s (is.foldl (takeElem b) r).s bs (is.foldl (takeElem b) r).fail ∧
      (is.foldl (takeElem b) r).o = tookMore r.o bs ∧ ((is.foldl (takeElem b) r).fail = .none → bs.length = is.length) := by
  induction is generalizing r with
  | nil => exact ⟨[], ⟨rfl, rfl, none⟩, (tookMore_nil _).symm, fun _ => rfl⟩
  | cons i rest ih =>
    rw [List.foldl_cons]
    cases fail : (r.s.engineRead c (b.buf + i * elemBytes b) (elemBytes b) .load).fail with
    | some x =>
      have step : takeElem b r i = { r with s := (r.s.engineRead c (b.buf + i * elemBytes b) (elemBytes b) .load).s, fail := some x } := by
        rw [takeElem, none]
        dsimp only
        rw [ctx, elem_eq, fail]
      rw [step, foldl_takeElem_failed rest rfl]
      refine ⟨[], ⟨fun h => (by cases h), fun _ => ⟨fun y hy => ⟨rfl, rfl, ?_⟩, fun h => ?_⟩⟩, (tookMore_nil _).symm, fun h => (by cases h)⟩
      · rw [← hy, fail]
      · rw [fail] at h
        cases h
    | none =>
      have step : takeElem b r i = { r with
          s := (r.s.engineRead c (b.buf + i * elemBytes b) (elemBytes b) .load).s
          o := { r.o with taken := r.o.taken ++ [leNat (r.s.engineRead c (b.buf + i * elemBytes b) (elemBytes b) .load).bytes] } } := by
        rw [takeElem, none]
        dsimp only
        rw [ctx, elem_eq, fail]
      rw [step]
      obtain ⟨bs, reads, progress, length⟩ := ih (r := { r with
          s := (r.s.engineRead c (b.buf + i * elemBytes b) (elemBytes b) .load).s
          o := { r.o with taken := r.o.taken ++ [leNat (r.s.engineRead c (b.buf + i * elemBytes b) (elemBytes b) .load).bytes] } }) none ctx
      refine ⟨_ :: bs, ⟨fun h => (by cases h), fun _ => ⟨fun x hx => ?_, fun _ => ⟨bs, rfl, reads⟩⟩⟩, progress.trans (tookMore_cons _ _ _), fun h => ?_⟩
      · rw [fail] at hx
        cases hx
      · rw [List.length_cons, List.length_cons, length h]

end Elements

section Batches

variable {b : CollBlock} {c d : Nat}

/-- Elements of a batch that leaves are sent in one packet, or it waits for its plane. -/
theorem batchSent_sendElements (s : State) (o : CleOp) (ctx : o.ctx.toNat = c) {elems : List (Nat × Nat)} (some : elems ≠ []) :
    BatchSent s (s.sendElements o b d elems) c o b d elems := by
  obtain ⟨first, rest, rfl⟩ := List.exists_cons_of_ne_nil some
  refine ⟨fun e missed => ?_, fun tr led => ?_⟩
  · unfold State.sendElements
    rw [ctx, elem_eq]
    dsimp only
    rw [missed]
  · intro p x
    have packet : s.elementPacket o b d tr (b.buf + ((first :: rest).headD (0, 0)).1 * elemBytes b) (first :: rest) = p := by
      simp [State.elementPacket, p, ctx, goesTo_eq, CollBlock.device]
    have sent : s.sendElements o b d (first :: rest) = if x.2 then x.1.takeSeq else x.1 := by
      unfold State.sendElements
      rw [ctx, elem_eq]
      dsimp only
      rw [led]
      dsimp only
      rw [packet]
    rw [sent]
    exact ⟨fun h => by rw [if_pos h]; rfl, fun h => by rw [if_neg (by simp [h])]⟩

theorem takeBatch_failed {r : CollRun} {x : EFault} (fail : r.fail = some x) (g : Nat × List Nat) : takeBatch b d r g = r := by
  rw [takeBatch, fail]
  rfl

/-- Batches from some element on, of which at least those before it are read: the run of R43, R188 and R354. -/
theorem batchesRun_foldl (tm : Team) (gs : List (List Nat)) (k : Nat) {r : CollRun} (none : r.fail = none) (ctx : r.o.ctx.toNat = c)
    (le : k ≤ r.o.taken.length) : BatchesRun tm c b d (numbered k gs) r ((numbered k gs).foldl (takeBatch b d) r) := by
  induction gs generalizing k r with
  | nil => exact rfl
  | cons g rest ih =>
    rw [numbered, List.foldl_cons]
    refine ⟨fun past => ?_, fun ahead => ?_⟩
    · have step : takeBatch b d r (k + g.length, g) = r := by
        rw [takeBatch, if_pos]
        simp [past]
      rw [step]
      exact ih _ none ctx past
    · replace ahead : r.o.taken.length < k + g.length := ahead
      have start : k + g.length - g.length = k := by omega
      obtain ⟨bs, reads, progress, length⟩ := foldl_takeElem (b := b) tm (g.drop (r.o.taken.length - k)) none ctx
      have step : takeBatch b d r (k + g.length, g) =
          if ((g.drop (r.o.taken.length - k)).foldl (takeElem b) r).fail.isSome || !b.leaves d g then (g.drop (r.o.taken.length - k)).foldl (takeElem b) r
          else { (g.drop (r.o.taken.length - k)).foldl (takeElem b) r with
            s := ((g.drop (r.o.taken.length - k)).foldl (takeElem b) r).s.sendElements ((g.drop (r.o.taken.length - k)).foldl (takeElem b) r).o b d
              (g.zip (((g.drop (r.o.taken.length - k)).foldl (takeElem b) r).o.taken.drop k)) } := by
        rw [takeBatch, if_neg (by simp [none, ahead])]
        dsimp only
        rw [start]
      rw [step]
      dsimp only
      rw [start]
      generalize hx : (g.drop (r.o.taken.length - k)).foldl (takeElem b) r = x at reads progress length ⊢
      have counted (ok : x.fail = .none) : k + g.length = x.o.taken.length := by
        rw [progress, tookMore, List.length_append, List.length_map, length ok, List.length_drop]
        omega
      refine ⟨x.s, bs, x.fail, reads, fun e fail => ?_, fun ok => ⟨fun stays => ?_, fun leaves => ?_⟩⟩
      · rw [fail]
        dsimp only [Option.isSome, Bool.true_or]
        rw [if_pos (by rfl)]
        have fixed : (numbered (k + g.length) rest).foldl (takeBatch b d) x = x := List.foldl_fixed' (fun y => takeBatch_failed fail y) _
        rw [fixed]
        cases x
        cases progress
        cases fail
        rfl
      · have kept : (if x.fail.isSome || !b.leaves d g then x else { x with s := x.s.sendElements x.o b d (g.zip (x.o.taken.drop k)) }) = x :=
          if_pos (by simp [stays])
        rw [kept]
        have same : x = { s := x.s, o := tookMore r.o bs } := by
          cases x
          cases progress
          cases ok
          rfl
        have run := ih (k + g.length) (r := x) ok (by rw [progress]; exact ctx) (counted ok).le
        rw [same] at run
        exact same ▸ run
      · have sends : (if x.fail.isSome || !b.leaves d g then x else { x with s := x.s.sendElements x.o b d (g.zip (x.o.taken.drop k)) }) =
            { s := x.s.sendElements (tookMore r.o bs) b d (g.zip ((tookMore r.o bs).taken.drop k)), o := tookMore r.o bs } := by
          rw [if_neg (by simp [ok, leaves]), progress, ok]
        have some : g.zip ((tookMore r.o bs).taken.drop k) ≠ [] := by
          have first : g ≠ [] := by
            rintro rfl
            simp [CollBlock.leaves] at leaves
          have := List.length_pos_of_ne_nil first
          rw [← List.length_pos_iff, List.length_zip, List.length_drop, ← progress, ← counted ok]
          omega
        rw [sends]
        refine ⟨_, batchSent_sendElements x.s _ ctx some, ih (k + g.length) rfl ctx ?_⟩
        show k + g.length ≤ (tookMore r.o bs).taken.length
        rw [← progress]
        exact (counted ok).le

end Batches

theorem batchesRun_takeElems (tm : Team) {b : CollBlock} {c d : Nat} {s : State} {o : CleOp} (ctx : o.ctx.toNat = c) :
    BatchesRun tm c b d (b.batches d) { s := s, o := o } (takeElems b d { s := s, o := o }) := by
  rw [takeElems, batches_eq]
  exact batchesRun_foldl tm _ 0 rfl ctx (Nat.zero_le _)

/-! ## Planes heard from (R48, R336) -/

theorem link_foldl_heard (l : List Nat) (t : State) (k : Nat) :
    (l.foldl State.heard t).link k = if k ∈ l then { t.link k with txFails := 0 } else t.link k := by
  induction l generalizing t with
  | nil => rfl
  | cons i rest ih =>
    rw [List.foldl_cons, ih]
    rcases eq_or_ne k i with rfl | ne
    · simp [State.heard]
    · have other : (t.heard i).link k = t.link k := State.link_setLink_other _ _ _ _ ne
      simp [other, ne]

theorem foldl_heard_rest (l : List Nat) (t : State) :
    l.foldl State.heard t = { t with fabric := { t.fabric with links := (l.foldl State.heard t).fabric.links } } := by
  induction l generalizing t with
  | nil => rfl
  | cons i rest ih =>
    rw [List.foldl_cons, ih (t.heard i)]
    rfl

theorem heard_acked (s t : State) (c : Nat) : Heard s t (s.acked t c) c := by
  have mem (k : Nat) : (k ∈ (List.range 16).filter fun i => (s.chargedOn t i).contains c) ↔ k < 16 ∧ SentFor s t k c := by
    rw [List.mem_filter, List.mem_range, List.contains_iff_mem, mem_chargedOn_iff]
  refine ⟨foldl_heard_rest _ t, fun k => ⟨fun lt sent => ?_, fun none => ?_⟩⟩
  · rw [State.acked, link_foldl_heard, if_pos ((mem k).2 ⟨lt, sent⟩)]
  · rw [State.acked, link_foldl_heard, if_neg (mt (mem k).1 none)]

/-! ## A run with the fabric disabled sends nothing (R30) -/

section Unsent

variable (s : State)

theorem unsent_engineHome (inter : Nat) (w : BitVec 6) (c : BitVec 2) (a mask : Nat) (bs : List Byte) :
    Unsent s (s.engineHome inter w c a mask bs).s := by
  unfold State.engineHome
  split
  · exact unsent_homeWrite s _ _ _ _ _ _ _ _
  · dsimp only
    split
    · exact unsent_homeWrite s _ _ _ _ _ _ _ _
    · exact (unsent_homeWrite s _ _ _ _ _ _ _ _).trans (unsent_homeWrite _ _ _ _ _ _ _ _ _)

theorem unsent_enginePut (ctx : Nat) (k : Access) (va mask : Nat) (bs : List Byte) : Unsent s (s.enginePut ctx k va mask bs).s := by
  unfold State.enginePut
  refine (unsent_walkFor s ctx va).trans ?_
  generalize s.walkFor ctx va = u
  dsimp only
  split
  · exact .refl u
  · split
    · exact .ite_of EOut.s (.refl u) ((unsent_befallRange u _ _ _).trans (unsent_engineHome _ _ _ _ _ _ _))
    · exact unsent_engineFar u _ _ _ _ _ _
    · exact .refl u

theorem unsent_engineStore (ctx : Nat) (k : Access) (t : List (Nat × Byte)) : Unsent s (s.engineStore ctx k t).s := by
  unfold State.engineStore
  generalize s.storeGroups ctx k t = gs
  suffices h : ∀ o : EOut, Unsent s o.s → Unsent s (gs.foldl (fun o g => match o.fail with
      | some _ => o
      | none =>
        let x := groupBytes g.1 g.2 t
        o.s.enginePut ctx k (g.2 * g.1) x.1 x.2) o).s from h _ (.refl s)
  induction gs with
  | nil => exact fun o h => h
  | cons g rest ih =>
    intro o h
    rw [List.foldl_cons]
    refine ih _ ?_
    split
    · exact h
    · exact h.trans (unsent_enginePut _ _ _ _ _ _)

theorem unsent_putResults (ctx size base : Nat) (rs : List (Nat × Nat)) : Unsent s (s.putResults ctx size base rs).s :=
  .ite_of EOut.s (unsent_enginePut s _ _ _ _ _) (unsent_engineStore s _ _ _)

theorem unsent_engineFault (tid : Nat) (r : StopRec) (x : EFault) : Unsent s (s.engineFault tid r x) := by
  unfold State.engineFault
  split
  · exact .refl s
  · dsimp only
    split
    · exact (unsent_recordOsf s _ _ _ _ _).trans ((unsent_raiseHalt _ _ _ _ _).trans (unsent_faultMarks _ _))
    · exact (unsent_raiseHalt s _ _ _ _).trans (unsent_faultMarks _ _)

end Unsent

section Run

variable {b : CollBlock} {d : Nat}

theorem unsent_writeResults {s : State} (size base : Nat) (ls : List (List (Nat × Nat))) (r : CollRun) (h : Unsent s r.s) :
    Unsent s (writeResults size base ls r).s := by
  induction ls generalizing r with
  | nil => exact h
  | cons l rest ih =>
    have put := h.trans (unsent_putResults r.s r.o.ctx.toNat size base l)
    unfold writeResults
    dsimp only
    split
    · exact put
    · exact ih _ put

theorem unsent_takeElem {s : State} (r : CollRun) (i : Nat) (h : Unsent s r.s) : Unsent s (takeElem b r i).s := by
  have read := h.trans (unsent_engineRead r.s r.o.ctx.toNat (b.buf + i * b.elem) b.elem .load)
  unfold takeElem
  split
  · exact h
  · dsimp only
    split <;> exact read

theorem unsent_foldl {α : Type} {s : State} {f : CollRun → α → CollRun} (step : ∀ r x, Unsent s r.s → Unsent s (f r x).s) (l : List α) (r : CollRun)
    (h : Unsent s r.s) : Unsent s (l.foldl f r).s := by
  induction l generalizing r with
  | nil => exact h
  | cons x rest ih => exact ih _ (step r x h)

/-- An operation of one rank sends nothing. -/
theorem unsent_takeElems {s : State} (alone : b.ranks = 1) (r : CollRun) (h : Unsent s r.s) : Unsent s (takeElems b d r).s := by
  refine unsent_foldl (fun x g hx => ?_) _ r h
  have stays : b.leaves d g.2 = false := by simp [CollBlock.leaves, alone]
  unfold takeBatch
  split
  · exact hx
  · dsimp only
    rw [if_pos (by simp [stays])]
    exact unsent_foldl (fun y i hy => unsent_takeElem y i hy) _ x hx

theorem unsent_acked {s t : State} (u : State) (c : Nat) (h : Unsent s t) : Unsent s (u.acked t c) := by
  have rest := foldl_heard_rest ((List.range 16).filter fun i => (u.chargedOn t i).contains c) t
  refine h.trans fun off => ?_
  rw [State.acked, rest]
  exact ⟨off, rfl, rfl⟩

theorem unsent_collMove {s t : State} {o : CleOp} (alone : b.ranks = 1) (h : Unsent s t) : Unsent s (collMove t o b d).s := by
  have taken := unsent_takeElems (d := d) alone { s := t, o := o } h
  unfold collMove
  dsimp only
  split
  · exact unsent_writeResults _ _ _ _ h
  · split
    · exact taken
    · exact unsent_writeResults _ _ _ _ (unsent_acked _ _ taken)

theorem unsent_collEnd {s : State} (tm : Team) (spans : List (Nat × Nat)) (r : CollRun) (h : Unsent s r.s) : Unsent s (collEnd tm b spans r) := by
  have fault (u : State) (tid wn : Nat) (pc : Word) (x : EFault) (mask : BitVec 16) : Unsent u (u.cleFault tid wn tm pc x mask) :=
    unsent_engineFault u _ _ _
  have finish (u : State) : Unsent u (u.finishColl r.o) := by
    have dropped : Unsent u (u.dropCle r.o.id) := .of_eq rfl rfl rfl
    exact dropped.trans ((unsent_modWarp _ _ _ _).trans (unsent_after _ _ _))
  unfold collEnd
  dsimp only
  split
  · have kept : Unsent r.s (r.s.keepCle r.o) := .of_eq rfl rfl rfl
    exact h.trans (kept.trans (fault _ _ _ _ _ _))
  · exact h.trans ((Unsent.ite (.refl _) (fault _ _ _ _ _ _)).trans (finish _))

end Run

/-! ## Faults of the engines -/

theorem osfNoted_recordOsf (s : State) (c : Nat) (dev : BitVec 12) (kind : BitVec 2) (a : Nat) :
    OsfNoted s (s.recordOsf c dev false kind a) c dev kind a := by
  have recorded := onlyCtx_modCtx s c fun x =>
    if x.osfErr.valid then { x with osfErr := { x.osfErr with overflow := true } }
    else { x with osfErr := { x.osfErr with peer := dev, isTarget := false, kind := kind, valid := true, localAddr := BitVec.ofNat 44 a } }
  rw [OsfNoted, State.recordOsf]
  by_cases valid : (s.ctx c).osfErr.valid = true
  · simpa only [if_pos valid] using recorded
  · simpa only [if_neg valid] using recorded

/-- A fault of an engine's access stops the context of the team it works for, as R183 says. -/
theorem engineFails_engineFault {x : State} {tid c : Nat} {tm : Team} (team : x.team? tid = some tm) (ctx : x.ctxOf tm = c) (r : StopRec) (f : EFault) :
    EngineFails x (x.engineFault tid r f) c { r with ctx := BitVec.ofNat 16 c } f tid := by
  rw [State.engineFault, team]
  dsimp only
  rw [ctx]
  cases far : f.far with
  | none =>
    refine ⟨x, _, fun _ => rfl, fun d a k h => ?_, haltRaised_raiseHalt x c r _ _, rfl⟩
    rw [far] at h
    cases h
  | some y =>
    obtain ⟨dev, a, kind⟩ := y
    refine ⟨x.recordOsf c dev false kind a, _, fun h => ?_, fun d a' k h => ?_, haltRaised_raiseHalt _ c r _ _, rfl⟩
    · rw [far] at h
      cases h
    · rw [far] at h
      cases h
      exact osfNoted_recordOsf x c dev kind a

/-- A fault that is no remote miss and leaves no mark stops the context, and nothing else. -/
theorem haltRaised_engineFault {x : State} {tid c : Nat} {tm : Team} (team : x.team? tid = some tm) (ctx : x.ctxOf tm = c) (r : StopRec) (f : EFault)
    (near : f.far = none) (plain : f.counts = false ∧ f.tamper = false) :
    HaltRaised x (x.engineFault tid r f) c { r with ctx := BitVec.ofNat 16 c } f.toRoot (some tid) := by
  obtain ⟨y, z, same, -, halted, eq⟩ := engineFails_engineFault team ctx r f
  rw [same near] at halted
  rw [eq, Marked, plain.1, plain.2]
  exact halted

end Sys2Proof.Claims
end

section
-- One proof after another: side by side their threads pass the limit of memory that the check sets.
set_option Elab.async false
/-! CLAIM. COLL_COMPLETE (R30, R32, R35, R39 to R48, R172, R183, R188, R334 to R336, R354). -/

namespace Sys2Proof.Claims

open Sys2Proof Sys2Proof.Machine

/-! ## COLL_COMPLETE -/

/-- An event whose meaning sends nothing and finds no plane closed leaves the state that its meaning gives. -/
theorem exec_throughLinks {i : Instr} {eff : State → Host.Outcome State Fault Refusal} {s t : State} (run : exec i s = throughLinks eff s)
    (h : eff (calm s) = .next t) (still : Unsent (calm s) t) (quiet : t.stall = none) (ports : t.eng.ports = s.eng.ports) : exec i s = .next t :=
  (takesPlace_throughLinks run h still).quiet quiet (not_sentFor_of_ports ports)

/-- The stop record of a fault of the collective engine (R183, R191). -/
def cleRecord (tm : Team) (wn c : Nat) (pc : Word) (x : EFault) (mask : BitVec 16) : StopRec :=
  { engineRecord 3 tm wn c x.cause (pc.setWidth 64) (BitVec.ofNat 64 x.addr) with byteMask := mask }

section Fault

variable {s : State} {tid wn c : Nat} {tm : Team} {pc : Word} {x : EFault} {mask : BitVec 16}

/-- A fault of the collective engine that leaves no mark opens no plane and charges none. -/
theorem cleFault_quiet (plain : x.counts = false ∧ x.tamper = false) :
    (s.cleFault tid wn tm pc x mask).stall = s.stall ∧ (s.cleFault tid wn tm pc x mask).eng = s.eng := by
  unfold State.cleFault State.engineFault State.faultMarks
  simp only [plain.1, plain.2, Bool.false_eq_true, if_false]
  split
  · exact ⟨rfl, rfl⟩
  · cases x.far <;> exact ⟨rfl, rfl⟩

theorem unsent_cleFault (s : State) : Unsent s (s.cleFault tid wn tm pc x mask) := unsent_engineFault s _ _ _

variable {tm' : Team} (team : s.team? tid = some tm') (ctx : s.ctxOf tm' = c)
include team ctx

theorem engineFails_cleFault : EngineFails s (s.cleFault tid wn tm pc x mask) c (cleRecord tm wn c pc x mask) x tid :=
  engineFails_engineFault team ctx _ x

theorem haltRaised_cleFault (near : x.far = none) (plain : x.counts = false ∧ x.tamper = false) :
    HaltRaised s (s.cleFault tid wn tm pc x mask) c (cleRecord tm wn c pc x mask) x.toRoot (some tid) :=
  haltRaised_engineFault team ctx _ x near plain

end Fault

/-- The stop record of a remote miss names the fabric address (R191). -/
theorem cleRecord_far {peer : Nat} (lt : peer < 4096) (tm : Team) (wn c : Nat) (pc : Word) (a : Nat) (kind : BitVec 2) :
    cleRecord tm wn c pc (farFault (BitVec.ofNat 12 peer) a kind) 0 =
      engineRecord 3 tm wn c 6 (pc.setWidth 64) (BitVec.ofNat 64 (peer * 2 ^ 44 + a)) := by
  have addr : BitVec.ofNat 64 (farFault (BitVec.ofNat 12 peer) a kind).addr = BitVec.ofNat 64 (peer * 2 ^ 44 + a) := by
    show BitVec.ofNat 64 (fabricAddr _ _).toNat = _
    rw [BitVec.ofNat_toNat, BitVec.setWidth_eq, fabricAddr, BitVec.toNat_ofNat, Nat.mod_eq_of_lt lt]
    norm_num
  rw [cleRecord, addr]
  rfl

/-- Another rank of a good block is a device of the fabric. -/
theorem peer_lt {s : State} {c d : Nat} {b : CollBlock} (good : ¬BlockBad s c b) (many : 1 < b.ranks) :
    b.first + (if d = 0 then 1 else 0) * b.stride < 4096 := by
  have last : b.first + (b.ranks - 1) * b.stride ≤ 4095 := by
    by_contra beyond
    refine good ?_
    unfold BlockBad
    iterate 15 apply Or.inr
    exact .inl (by omega)
  have within : (if d = 0 then 1 else 0) * b.stride ≤ (b.ranks - 1) * b.stride := Nat.mul_le_mul_right _ (by split <;> omega)
  omega

section Complete

variable {s : State} {o : CleOp} {tm : Team} (found : s.eng.cle.find? (fun o => o.id == s.input.num) = some o) (team : s.team? o.team = some tm)
  (running : (s.ctx o.ctx.toNat).halt = none)
include found team running

theorem runColl_eq : runColl (calm s) =
    if o.block.isEmpty || s.collBad o.ctx.toNat (collBlock o.block) || !s.input.coll.agree then
      .next ((calm s).cleFault o.team o.warp tm o.pc { cause := Cause.paramBad, addr := 0 } 0)
    else match s.rankOf (collBlock o.block) with
      | none => .refused .noOccasion
      | some d => collRun { calm s with freeCtr := s.freeCtr + 1 } o tm (collBlock o.block) d := by
  have here : (calm s).eng.cle.find? (fun o => o.id == (calm s).input.num) = some o := found
  have there : (calm s).team? o.team = some tm := team
  have live : (calm s).isHalted o.ctx.toNat = false := by
    show (s.ctx o.ctx.toNat).halt.isSome = false
    rw [running]
    rfl
  rw [runColl, here]
  dsimp only
  rw [there]
  dsimp only
  rw [live]
  rfl

theorem runColl_bad (bad : o.block = [] ∨ BlockBad s o.ctx.toNat (collBlock o.block) ∨ s.input.coll.agree = false) :
    runColl (calm s) = .next ((calm s).cleFault o.team o.warp tm o.pc { cause := Cause.paramBad, addr := 0 } 0) := by
  rw [runColl_eq found team running, if_pos]
  rw [← collBad_iff] at bad
  rcases bad with h | h | h <;> simp [h]

theorem runColl_good (block : o.block ≠ []) (good : ¬BlockBad s o.ctx.toNat (collBlock o.block)) (agree : s.input.coll.agree = true) {d : Nat}
    (lt : d < (collBlock o.block).ranks) (here : s.fabric.deviceNum.toNat = (collBlock o.block).first + d * (collBlock o.block).stride) :
    runColl (calm s) = collRun { calm s with freeCtr := s.freeCtr + 1 } o tm (collBlock o.block) d := by
  have rank : s.rankOf (collBlock o.block) = some d := (rankOf_eq_some_iff (fun zero => good (by simp [BlockBad, zero])) d).2 ⟨lt, here⟩
  rw [runColl_eq found team running, if_neg, rank]
  rw [← collBad_iff] at good
  simp [block, good, agree]

end Complete

/-- The buffers of an operation that may complete lie in pinned pages (R38, R335). -/
theorem collPinned_of {s : State} {c : Nat} {b : CollBlock} (h : b.ranks = 1 ∨ (s.pinned c b.buf (bufLen b * elemBytes b) = true ∧
    (1 ≤ b.kind → b.kind ≤ 3 → s.pinned c b.dst (outLen b * elemBytes b) = true))) : s.collPinned c b = true := by
  unfold State.collPinned
  rcases h with one | ⟨buf, dst⟩
  · simp [one]
  · rw [elem_eq, bufElems_eq, buf]
    by_cases has : 1 ≤ b.kind ∧ b.kind ≤ 3
    · rw [dstElems_eq has, dst has.1 has.2]
      simp
    · have : b.hasDst = false := Bool.eq_false_iff.2 (mt (hasDst_iff b).1 has)
      simp [this]

/-- With the fabric disabled an operation of several ranks is a miss of KIND 3 (R30, R40). -/
theorem collRun_disabled {s : State} {o : CleOp} {tm : Team} {b : CollBlock} {d : Nat} (many : 1 < b.ranks) (off : s.fabric.enable = false) :
    collRun s o tm b d = .next (s.cleFault o.team o.warp tm o.pc
      (farFault (BitVec.ofNat 12 (b.first + (if d = 0 then 1 else 0) * b.stride)) (b.buf % 0x100000000000) 3) 0) := by
  rw [collRun, if_pos (by simp [many, off])]

theorem collRun_move {s : State} {o : CleOp} {tm : Team} {b : CollBlock} {d : Nat} (may : b.ranks = 1 ∨ (s.fabric.enable = true ∧
      s.pinned o.ctx.toNat b.buf (bufLen b * elemBytes b) = true ∧
      (1 ≤ b.kind → b.kind ≤ 3 → s.pinned o.ctx.toNat b.dst (outLen b * elemBytes b) = true)))
    (tree : b.kind ≤ 1 → treeOf b.ranks s.input.coll.tree = true) : collRun s o tm b d =
      .next (collEnd tm b ((b.results d (fun _ _ => 0) (.leaf 0)).map fun x => (outVa b + x.1 * elemBytes b, elemBytes b))
        (collMove (s.dropCle o.id) o b d)) := by
  have on : ¬(decide (b.ranks > 1) && !s.fabric.enable) = true := by
    rcases may with one | ⟨on, -⟩
    · simp [one]
    · simp [on]
  have pinned := collPinned_of (may.imp_right And.right)
  have order : ¬(!s.collPinned o.ctx.toNat b || (b.reduces && !treeOf b.ranks s.input.coll.tree)) = true := by
    rw [pinned]
    by_cases reduces : b.kind ≤ 1
    · simp [tree reduces]
    · simp [CollBlock.reduces, reduces]
  rw [collRun, if_neg on, if_neg order]
  dsimp only
  rw [resultSpans, outRange_eq, elem_eq]

/-- The move of an operation: its results written from where it was stopped, or its elements read and sent and then the results written (R43,
R188, R336). -/
theorem collMove_resumed {s : State} {o : CleOp} {b : CollBlock} {d : Nat} {rs : List (Nat × Nat)} (left : o.left = some rs) :
    collMove s o b d = writeResults (elemBytes b) (outVa b) (resultLines (elemBytes b) (outVa b) rs) { s := s, o := o } := by
  rw [collMove, left, outRange_eq, elem_eq]

theorem collMove_fresh {s : State} {o : CleOp} {b : CollBlock} {d : Nat} (none : o.left = none) :
    ((takeElems b d { s := s, o := o }).fail ≠ .none → collMove s o b d = takeElems b d { s := s, o := o }) ∧
    ((takeElems b d { s := s, o := o }).fail = .none → collMove s o b d =
      writeResults (elemBytes b) (outVa b) (resultLines (elemBytes b) (outVa b)
        (collResults (takeElems b d { s := s, o := o }).s (takeElems b d { s := s, o := o }).o b d))
        { s := s.acked (takeElems b d { s := s, o := o }).s o.ctx.toNat, o := (takeElems b d { s := s, o := o }).o }) := by
  rw [collMove, none, outRange_eq, elem_eq]
  dsimp only
  generalize takeElems b d { s := s, o := o } = x
  refine ⟨fun failed => if_pos ?_, fun ok => ?_⟩
  · rwa [Option.isSome_iff_ne_none]
  · rw [if_neg (by simp [ok]), ok]

/-- What a completion does (R39 to R48, R172, R183, R188, R334 to R336, R354). -/
theorem collCompletes : CollCompletes := by
  refine ⟨fun b d => ⟨batchesAre_batches b d, leaves_iff b d⟩, fun s o tm => ?_⟩
  intro b c rec' found team ctx running
  have event {t : State} (h : runColl (calm s) = .next t) (still : Unsent (calm s) t) := takesPlace_throughLinks (i := .collComplete) rfl h still
  refine ⟨fun bad => ?_, fun d block good agree lt here => ⟨fun many off => ?_, fun may tree => ?_⟩⟩
  · obtain ⟨quiet, eng⟩ := cleFault_quiet (s := calm s) (tid := o.team) (wn := o.warp) (tm := tm) (pc := o.pc) (mask := 0)
      (x := { cause := Cause.paramBad, addr := 0 }) ⟨rfl, rfl⟩
    refine ⟨_, exec_throughLinks rfl (runColl_bad found team running bad) (unsent_cleFault _) quiet (by rw [eng]; rfl), ?_⟩
    exact haltRaised_cleFault (s := calm s) team ctx rfl ⟨rfl, rfl⟩
  · have low : b.first + (if d = 0 then 1 else 0) * b.stride < 4096 := peer_lt good many
    have run := (runColl_good found team running block good agree lt here).trans (collRun_disabled (b := b) many off)
    generalize b.first + (if d = 0 then 1 else 0) * b.stride = peer at low run ⊢
    obtain ⟨quiet, eng⟩ := cleFault_quiet (s := { calm s with freeCtr := s.freeCtr + 1 }) (tid := o.team) (wn := o.warp) (tm := tm) (pc := o.pc)
      (mask := 0) (x := farFault (BitVec.ofNat 12 peer) (b.buf % 0x100000000000) 3) ⟨rfl, rfl⟩
    obtain ⟨y, z, -, noted, halted, eq⟩ := engineFails_cleFault (s := { calm s with freeCtr := s.freeCtr + 1 }) (wn := o.warp) (tm := tm)
      (pc := o.pc) (mask := 0) (x := farFault (BitVec.ofNat 12 peer) (b.buf % 0x100000000000) 3) team ctx
    have counted : Unsent (calm s) { calm s with freeCtr := s.freeCtr + 1 } := .of_eq rfl rfl rfl
    refine ⟨_, y, noted _ _ _ rfl, exec_throughLinks rfl run (counted.trans (unsent_cleFault _)) quiet (by rw [eng]; rfl), ?_⟩
    rw [eq]
    rw [cleRecord_far low] at halted
    exact halted
  · intro start spans
    have moved := (runColl_good found team running block good agree lt here).trans (collRun_move (tm := tm) (b := b) (d := d)
      (s := { calm s with freeCtr := s.freeCtr + 1 }) may tree)
    have still : Unsent (calm s) (collEnd tm b spans (collMove start o b d)) := by
      have started : Unsent (calm s) start := .of_eq rfl rfl rfl
      rcases may with alone | ⟨on, -⟩
      · exact unsent_collEnd tm spans _ (unsent_collMove alone started)
      · intro off
        rw [show (calm s).fabric.enable = true from on] at off
        cases off
    refine ⟨collMove start o b d, event moved still, fun rs left => collMove_resumed left, fun none => ?_⟩
    obtain ⟨failed, ok⟩ := collMove_fresh (s := start) (b := b) (d := d) none
    exact ⟨_, batchesRun_takeElems tm rfl, failed, fun h => ⟨_, heard_acked start _ c, ok h⟩⟩

end Sys2Proof.Claims
end

section
-- One proof after another: side by side their threads pass the limit of memory that the check sets.
set_option Elab.async false
/-! CLAIM. What a collective delivers: reductions, results with bytes stored meanwhile, lines written, and the end of a run (R41 to R44, R172, R188, R191, R336). -/

namespace Sys2Proof.Claims

open Sys2Proof Sys2Proof.Machine

/-! ## What a reduction leaves (R41) -/

/-- The number of a word is one of a format's numbers. -/
def Holds (F : Fmt) (w : Word) : Prop := ∃ code, num w = numOf F code

section Narrow

variable {fmt op : Nat} {w : Word}

theorem collNarrow_nan (le : fmt ≤ 4) (value : f32Of w = .nan) : collNarrow fmt op w = (collFmt fmt).cnan := by
  unfold collNarrow
  rw [if_pos le, value]
  cases op <;> rfl

theorem collNarrow_fin (le : fmt ≤ 4) {neg : Bool} {m : Nat} {e : Int} (value : f32Of w = .fin neg m e) :
    collNarrow fmt op w = (collFmt fmt).rn (.fin neg m e) := by
  unfold collNarrow
  rw [if_pos le, value]
  cases op <;> rfl

/-- The infinities of the formats that have them come back from FP32, those of E5M2 too. -/
theorem numOf_collNarrow_inf (le : fmt ≤ 4) (ne : op ≠ 0) {neg : Bool} (value : f32Of w = .inf neg) (top : (collFmt fmt).top = .ieee) :
    numOf (collFmt fmt) (collNarrow fmt op w) = .inf neg := by
  obtain ⟨n, rfl⟩ := Nat.exists_eq_succ_of_ne_zero ne
  have form : collNarrow fmt n.succ w = if fmt = 4 then (if neg then 0xFC else 0x7C) else (collFmt fmt).rn (.inf neg) := by
    unfold collNarrow
    rw [if_pos le, value]
    rfl
  rw [form]
  interval_cases fmt
  · cases neg <;> decide
  · cases neg <;> decide
  · cases neg <;> decide
  · exact absurd top (by decide)
  · cases neg <;> decide

theorem collNarrow_rounded (le : fmt ≤ 4) : Rounded (collFmt fmt) (num w) (collNarrow fmt 0 w) := by
  unfold collNarrow
  rw [if_pos le, num_eq]
  exact rounded_rn (widens_collFmt fmt) _

/-- A number of the element format comes back from FP32 as it is. -/
theorem numOf_collNarrow (le : fmt ≤ 4) (ne : op ≠ 0) (holds : Holds (collFmt fmt) w) :
    numOf (collFmt fmt) (collNarrow fmt op w) = num w ∧ (num w = .nan → collNarrow fmt op w = (collFmt fmt).cnan) := by
  have wide := widens_collFmt fmt
  obtain ⟨code, same⟩ := holds
  rw [num_eq] at same ⊢
  cases value : f32Of w with
  | nan =>
    rw [collNarrow_nan le value]
    exact ⟨wide.cnan, fun _ => rfl⟩
  | inf neg =>
    rw [value] at same
    have top : (collFmt fmt).top = .ieee := by
      by_contra none
      unfold numOf at same
      dsimp only at same
      split at same
      · cases same
      · rw [if_neg fun h => none h.1] at same
        cases same
    exact ⟨numOf_collNarrow_inf le ne value top, fun h => by cases h⟩
  | fin neg m e =>
    rw [value] at same
    have code_ : code % 2 ^ (collFmt fmt).width ≤ (collFmt fmt).maxCode ∧ mag (collFmt fmt) (code % 2 ^ (collFmt fmt).width) = (m : Rat) * 2 ^ e := by
      unfold numOf at same
      dsimp only at same
      split at same
      · next fits => exact ⟨fits, (NumVal.val.inj same).2.symm⟩
      · split at same <;> cases same
    rw [collNarrow_fin le value, rn_exact wide neg code_.2 code_.1, numOf_signed wide neg (Nat.mod_lt _ (Nat.two_pow_pos _)), if_pos code_.1, code_.2]
    exact ⟨rfl, fun h => by cases h⟩

end Narrow

section Combine

variable {fmt op : Nat}

theorem minS_toInt (x y : Word) : (minS x y).toInt = min x.toInt y.toInt := by
  unfold minS
  by_cases h : y.slt x = true
  · have := BitVec.slt_iff_toInt_lt.1 h
    rw [if_pos h]
    omega
  · have := mt BitVec.slt_iff_toInt_lt.2 h
    rw [if_neg h]
    omega

theorem maxS_toInt (x y : Word) : (maxS x y).toInt = max x.toInt y.toInt := by
  unfold maxS
  by_cases h : x.slt y = true
  · have := BitVec.slt_iff_toInt_lt.1 h
    rw [if_pos h]
    omega
  · have := mt BitVec.slt_iff_toInt_lt.2 h
    rw [if_neg h]
    omega

theorem minN_toNat (x y : Word) : ((Machine.minN x y).toNat : Int) = min (x.toNat : Int) y.toNat := by
  unfold Machine.minN
  by_cases h : y.ult x = true
  · have := BitVec.ult_iff_lt.1 h
    rw [BitVec.lt_def] at this
    rw [if_pos h]
    omega
  · have := mt BitVec.ult_iff_lt.2 h
    rw [BitVec.lt_def] at this
    rw [if_neg h]
    omega

theorem maxN_toNat (x y : Word) : ((Machine.maxN x y).toNat : Int) = max (x.toNat : Int) y.toNat := by
  unfold Machine.maxN
  by_cases h : x.ult y = true
  · have := BitVec.ult_iff_lt.1 h
    rw [BitVec.lt_def] at this
    rw [if_pos h]
    omega
  · have := mt BitVec.ult_iff_lt.2 h
    rw [BitVec.lt_def] at this
    rw [if_neg h]
    omega

/-- One pairwise combination is the one of R41. -/
theorem combines_collCombine (x y : Word) : Combines fmt op x y (collCombine fmt op x y) := by
  refine ⟨fun le => ?_, fun gt => ?_⟩
  · unfold collCombine
    rw [if_pos le]
    refine ⟨?_, ?_, ?_⟩
    · rintro rfl
      rw [num_eq, num_eq, ← toNum_add]
      exact rounded_toF32 _
    · rintro rfl
      rfl
    · rintro rfl
      rfl
  · unfold collCombine
    rw [if_neg (by omega)]
    refine ⟨?_, ?_, ?_, ?_, ?_, ?_⟩
    · rintro rfl
      exact BitVec.toNat_add x y
    · rintro rfl
      dsimp only
      split
      · exact minS_toInt x y
      · exact minN_toNat x y
    · rintro rfl
      dsimp only
      split
      · exact maxS_toInt x y
      · exact maxN_toNat x y
    · rintro rfl i -
      exact BitVec.getLsbD_and
    · rintro rfl i -
      exact BitVec.getLsbD_or
    · rintro rfl i -
      simp

theorem combinesTo_combineTree (leaf : Nat → Word) (t : CombTree) : CombinesTo fmt op leaf t (combineTree fmt op leaf t) := by
  induction t with
  | leaf r => exact rfl
  | node l r ihl ihr => exact ⟨_, _, ihl, ihr, combines_collCombine _ _⟩

/-- The minimum and the maximum are one of their operands, or the canonical NaN. -/
theorem holds_minMax {F : Fmt} (wide : Widens F) {x y : Word} (hx : Holds F x) (hy : Holds F y) : Holds F (fminWord x y) ∧ Holds F (fmaxWord x y) := by
  have nan : Holds F 0x7FC00000 := ⟨F.cnan, by rw [wide.cnan]; decide⟩
  unfold fminWord fmaxWord
  refine ⟨?_, ?_⟩ <;> repeat' split
  all_goals assumption

theorem holds_combineTree (le : fmt ≤ 4) (ne : op ≠ 0) {leaf : Nat → Word} (leaves : ∀ r, Holds (collFmt fmt) (leaf r)) (t : CombTree) :
    Holds (collFmt fmt) (combineTree fmt op leaf t) := by
  induction t with
  | leaf r => exact leaves r
  | node l r ihl ihr =>
    have either := holds_minMax (widens_collFmt fmt) ihl ihr
    rw [combineTree]
    unfold collCombine
    rw [if_pos le]
    split
    · exact absurd rfl ne
    · exact either.1
    · exact either.2

/-- The reduction of a code of every rank is that of R41. -/
theorem reducedTo_reduced (x : Nat → Nat) (t : CombTree) :
    ReducedTo fmt op x t (collNarrow fmt op (combineTree fmt op (fun r => collWiden fmt (x r)) t)) := by
  refine ⟨fun r => collWiden fmt (x r), _, combinesTo_combineTree _ t, fun le => ?_, fun gt => ⟨fun r => ?_, ?_⟩⟩
  · have widened (r : Nat) : num (collWiden fmt (x r)) = numOf (collFmt fmt) (x r) := by
      rw [collWiden, if_pos le]
      exact num_widened (widens_collFmt fmt) (x r)
    rw [codeFmt_eq le]
    refine ⟨widened, ?_, fun ne => ?_⟩
    · rintro rfl
      exact collNarrow_rounded le
    · exact numOf_collNarrow le ne (holds_combineTree le ne (fun r => ⟨x r, widened r⟩) t)
  · exact if_neg (by omega)
  · exact if_neg (by omega)

end Combine

/-! ## What a participant receives (R43, R336) -/

theorem forall_getElem?_map_range {n : Nat} {g : Nat → Nat × Nat} {P : Nat → Nat × Nat → Prop} (h : ∀ i < n, P i (g i)) :
    ((List.range n).map g).length = n ∧ ∀ (i : Nat) (x : Nat × Nat), ((List.range n).map g)[i]? = some x → P i x := by
  refine ⟨by simp, fun i x hx => ?_⟩
  rw [List.getElem?_map, Option.map_eq_some_iff] at hx
  obtain ⟨j, hj, rfl⟩ := hx
  obtain ⟨lt, rfl⟩ := List.getElem?_eq_some_iff.1 hj
  rw [List.getElem_range]
  exact h i (by simpa using lt)

/-- Rows of so many elements one after another are one row. -/
theorem rows_eq (rows n : Nat) (g : Nat → Nat → Nat) : ((List.range rows).flatMap fun j => (List.range n).map fun i => (j * n + i, g j i)) =
    (List.range (rows * n)).map fun i => (i, g (i / n) (i % n)) := by
  induction rows with
  | zero => simp
  | succ k ih =>
    rw [List.range_succ, List.flatMap_append, ih, Nat.succ_mul, List.range_add, List.map_append, List.flatMap_singleton, List.map_map]
    refine congrArg _ (List.map_congr_left fun i hi => ?_)
    have lt := List.mem_range.1 hi
    have div : (k * n + i) / n = k := by
      rw [Nat.mul_comm, Nat.mul_add_div (by omega), Nat.div_eq_of_lt lt, Nat.add_zero]
    have mod : (k * n + i) % n = i := by rw [Nat.mul_comm, Nat.mul_add_mod, Nat.mod_eq_of_lt lt]
    simp [div, mod]

theorem receives_results (b : CollBlock) (d : Nat) (e : Nat → Nat → Nat) (t : CombTree) : Receives b d e t (b.results d e t) := by
  refine ⟨fun h => ?_, fun h => ?_, fun h => ?_, fun h => ?_, fun h => ?_, fun h => ?_⟩ <;> unfold CollBlock.results <;> rw [h]
  · exact forall_getElem?_map_range fun i _ => ⟨rfl, reducedTo_reduced (fun r => e r i) t⟩
  · exact forall_getElem?_map_range fun i _ => ⟨rfl, reducedTo_reduced (fun r => e r (d * b.count + i)) t⟩
  · rw [rows_eq _ _ fun j i => e j i]
    exact forall_getElem?_map_range fun i _ => ⟨rfl, rfl⟩
  · rw [rows_eq _ _ fun j i => e j (d * b.count + i)]
    exact forall_getElem?_map_range fun i _ => ⟨rfl, rfl⟩
  · split
    · rfl
    · exact forall_getElem?_map_range fun i _ => ⟨rfl, rfl⟩
  · rfl

/-! ## The results of an operation (R44, R336) -/

theorem leNat_lt (bs : List Byte) : leNat bs < 256 ^ bs.length := by
  induction bs with
  | nil => simp [leNat]
  | cons b rest ih =>
    have := b.isLt
    rw [leNat, List.length_cons, pow_succ]
    omega

theorem leNat_byte (bs : List Byte) {k : Nat} (lt : k < bs.length) : leNat bs / 256 ^ k % 256 = bs[k].toNat := by
  induction bs generalizing k with
  | nil => simp at lt
  | cons b rest ih =>
    have := b.isLt
    cases k with
    | zero =>
      rw [leNat]
      simp only [pow_zero, Nat.div_one, List.getElem_cons_zero]
      omega
    | succ k =>
      have tail : (b.toNat + 256 * leNat rest) / 256 = leNat rest := by omega
      rw [leNat, pow_succ', ← Nat.div_div_eq_div_mul, tail, ih (by simpa using lt), List.getElem_cons_succ]

theorem find_eq_elim {α : Type} (d : α) (k : Nat) (l : List (Nat × α)) : (Table.find k l).getD d = (l.find? fun p => p.1 == k).elim d Prod.snd := by
  induction l with
  | nil => rfl
  | cons p rest ih =>
    rw [Table.find, List.find?_cons]
    by_cases same : p.1 = k
    · simp [same]
    · have differs : (p.1 == k) = false := beq_eq_false_iff_ne.2 same
      rw [if_neg same, differs, ih]

theorem elemAt_eq_numAt (size i : Nat) (bs : List Byte) : Machine.elemAt size bs i = numAt bs (i * size) size := (littleEndian_eq_leNat _).symm

/-- A byte of a result is its own, or where another agent has stored since the issue it may be the byte of that store or of the issue (R44). -/
theorem mixedByte_cases (o : CleOp) (ctr i : Nat) (now : List (Option Byte)) (new : Byte) : o.mixedByte ctr i now new = new ∨
    ∃ v old, now[i]? = some (some v) ∧ o.outOld[i]? = some (some old) ∧ v ≠ old ∧ (o.mixedByte ctr i now new = v ∨ o.mixedByte ctr i now new = old) := by
  unfold CleOp.mixedByte
  split
  · next v old hv hold =>
    split
    · exact .inl rfl
    · next ne =>
      have present : now[i]? = some (some v) ∧ o.outOld[i]? = some (some old) := by
        rw [Option.join_eq_some_iff] at hv hold
        exact ⟨hv, hold⟩
      split
      · exact .inl rfl
      · exact .inr ⟨v, old, present.1, present.2, ne, .inl rfl⟩
      · exact .inr ⟨v, old, present.1, present.2, ne, .inr rfl⟩
  · exact .inl rfl

theorem collResults_eq (s : State) (o : CleOp) (b : CollBlock) (d : Nat) :
    collResults s o b d = (b.results d (fun r i => if r = d then (((sentOf b d).zip o.taken).find? fun p => p.1 == i).elim 0 Prod.snd
        else numAt (s.input.coll.bufs.getD r []) (i * elemBytes b) (elemBytes b)) s.input.coll.tree).map
      (o.mixedCode s.freeCtr (elemBytes b) (s.ownBytes o.ctx.toNat (outVa b, outLen b * elemBytes b))) := by
  rw [collResults, outRange_eq, elem_eq]
  simp only [find_eq_elim, outgoing_eq, elemAt_eq_numAt]

theorem mixedCode_spec (o : CleOp) (ctr size : Nat) (now : List (Option Byte)) (x : Nat × Nat) :
    let y := o.mixedCode ctr size now x
    y.1 = x.1 ∧ y.2 < 256 ^ size ∧ ∀ k < size, y.2 / 256 ^ k % 256 = x.2 / 256 ^ k % 256 ∨
      ∃ v old, now[x.1 * size + k]? = some (some v) ∧ o.outOld[x.1 * size + k]? = some (some old) ∧ v ≠ old ∧
        (y.2 / 256 ^ k % 256 = v.toNat ∨ y.2 / 256 ^ k % 256 = old.toNat) := by
  intro y
  have len : ((List.range size).map fun k => o.mixedByte ctr (x.1 * size + k) now (BitVec.ofNat 8 (x.2 / 256 ^ k))).length = size := by simp
  refine ⟨rfl, (leNat_lt _).trans_eq (by rw [len]), fun k lt => ?_⟩
  have byte : y.2 / 256 ^ k % 256 = (o.mixedByte ctr (x.1 * size + k) now (BitVec.ofNat 8 (x.2 / 256 ^ k))).toNat := by
    show leNat _ / 256 ^ k % 256 = _
    rw [leNat_byte _ (by rw [len]; exact lt), List.getElem_map, List.getElem_range]
  rw [byte]
  rcases mixedByte_cases o ctr (x.1 * size + k) now (BitVec.ofNat 8 (x.2 / 256 ^ k)) with new | ⟨v, old, hv, hold, ne, either⟩
  · rw [new]
    exact .inl (BitVec.toNat_ofNat _ _)
  · exact .inr ⟨v, old, hv, hold, ne, either.imp (congrArg BitVec.toNat) (congrArg BitVec.toNat)⟩

/-! ## The end of a run (R172, R188, R191, R207) -/

theorem modifyAt_eq_mapIdx {α : Type} (f : α → α) (k : Nat) (l : List α) : modifyAt f k l = l.mapIdx fun i x => if i = k then f x else x := by
  induction l generalizing k with
  | nil => cases k <;> rfl
  | cons x rest ih =>
    rw [List.mapIdx_cons]
    cases k with
    | zero => exact congrArg (f x :: ·) (List.ext_getElem (by simp) (by simp))
    | succ k => simp [modifyAt, ih]

theorem lower_eq (w : Warp) (k : BitVec 3) : w.lower k = { w with tokens := lowered k w.tokens } := by
  rw [Warp.lower, modifyAt_eq_mapIdx, lowered]

theorem bindTo_eq (w : Warp) (k : BitVec 3) : w.bindTo k = { w with tokens := raised k w.tokens } := by
  rw [Warp.bindTo, modifyAt_eq_mapIdx, raised]

/-- The bytes of a watchpoint that accesses of several spans strike together (R191). -/
def struckOver (w : Watch) (spans : List (Nat × Nat)) : BitVec 16 := spans.foldl (fun x a => x ||| w.struck .store a.1 a.2) 0

theorem getLsbD_foldl_or {α : Type} (f : α → BitVec 16) (l : List α) (x : BitVec 16) (j : Nat) :
    (l.foldl (fun x a => x ||| f a) x).getLsbD j = true ↔ x.getLsbD j = true ∨ ∃ a ∈ l, (f a).getLsbD j = true := by
  induction l generalizing x with
  | nil => simp
  | cons a rest ih =>
    rw [List.foldl_cons, ih]
    simp [or_assoc]

theorem struckOver_bit (w : Watch) (spans : List (Nat × Nat)) {j : Nat} (hj : j < 16) :
    (struckOver w spans).getLsbD j = true ↔ ∃ x ∈ spans, Hits w .store x.1 x.2 j := by
  rw [struckOver, getLsbD_foldl_or]
  simp [struck_bit _ _ _ _ hj]

theorem struckOver_ne_zero_iff (w : Watch) (spans : List (Nat × Nat)) : struckOver w spans ≠ 0 ↔ ∃ x ∈ spans, ∃ j < 16, Hits w .store x.1 x.2 j := by
  constructor
  · intro ne
    by_contra none
    refine ne (BitVec.eq_of_getLsbD_eq fun j hj => ?_)
    have clear : (struckOver w spans).getLsbD j = false := Bool.eq_false_iff.2 fun bit => by
      obtain ⟨x, hx, hit⟩ := (struckOver_bit w spans hj).1 bit
      exact none ⟨x, hx, j, hj, hit⟩
    exact clear.trans BitVec.getLsbD_zero.symm
  · rintro ⟨x, hx, j, hj, hit⟩ zero
    have bit := (struckOver_bit w spans hj).2 ⟨x, hx, hit⟩
    rw [zero] at bit
    simp at bit

theorem foldl_struck_nonzero {α : Type} (f : α → BitVec 16) (l : List α) {m : BitVec 16} (ne : m ≠ 0) :
    l.foldl (fun m p => if m != 0 then m else f p) m = m := by
  induction l with
  | nil => rfl
  | cons p rest ih => rw [List.foldl_cons, if_pos (by simpa using ne), ih]

theorem foldl_struck_zero {α : Type} (f : α → BitVec 16) (l : List α) (none : ∀ p ∈ l, f p = 0) :
    l.foldl (fun m p => if m != 0 then m else f p) 0 = 0 := by
  induction l with
  | nil => rfl
  | cons p rest ih =>
    obtain ⟨first, others⟩ := List.forall_mem_cons.1 none
    rw [List.foldl_cons, if_neg (by simp), first, ih others]

theorem struckBy_none {c : Ctx} {spans : List (Nat × Nat)} (none : ∀ p ∈ c.watch, struckOver p.2 spans = 0) : c.struckBy .store spans = 0 :=
  foldl_struck_zero (fun p : Nat × Watch => struckOver p.2 spans) c.watch none

theorem struckBy_first {c : Ctx} {spans : List (Nat × Nat)} {p : Nat × Watch} (first : FirstWith (fun q => struckOver q.2 spans ≠ 0) c.watch p) :
    c.struckBy .store spans = struckOver p.2 spans := by
  obtain ⟨before, after, eq, ne, zeros⟩ := first
  show c.watch.foldl (fun m p => if m != 0 then m else struckOver p.2 spans) 0 = _
  rw [eq, List.foldl_append, foldl_struck_zero (fun p : Nat × Watch => struckOver p.2 spans) before fun q hq => Decidable.not_not.1 (zeros q hq),
    List.foldl_cons, if_neg (by simp)]
  exact foldl_struck_nonzero (fun p : Nat × Watch => struckOver p.2 spans) after ne

theorem finishColl_eq {y : State} {o : CleOp} {tm : Team} (team : y.team? o.team = some tm) :
    ∃ z : State, y.finishColl o = z.after o.team o.warp ∧
      z = { y with teams := z.teams, eng := { y.eng with cle := y.eng.cle.filter fun x => x.id != o.id } } ∧
      (∀ n, n ≠ o.team → z.team? n = y.team? n) ∧
      z.team? o.team = some { tm with warps := tm.warps.set o.warp { tm.warp o.warp with tokens := lowered o.tok (tm.warp o.warp).tokens } } := by
  obtain ⟨rest, others, this⟩ := onlyTeam_modWarp (s := y.dropCle o.id) (t := o.team) (tm := tm) team o.warp fun w => w.lower o.tok
  have set_ : (y.dropCle o.id).modWarp o.team o.warp (fun w => w.lower o.tok) =
      { y.dropCle o.id with teams := ((y.dropCle o.id).modWarp o.team o.warp fun w => w.lower o.tok).teams } := by
    rw [State.modWarp, State.modTeam, show (y.dropCle o.id).team? o.team = some tm from team]
    rfl
  exact ⟨_, rfl, set_, others, by rw [this, lower_eq]⟩

theorem collEnd_failed {tm tm' : Team} {b : CollBlock} {spans : List (Nat × Nat)} {r : CollRun} {x : EFault} (fail : r.fail = some x)
    (team : r.s.team? r.o.team = some tm') (ctx : r.s.ctxOf tm' = r.o.ctx.toNat) : EngineFails (r.s.keepCle r.o) (collEnd tm b spans r) r.o.ctx.toNat
      (cleRecord tm r.o.warp r.o.ctx.toNat r.o.pc x 0) x r.o.team := by
  have eq : collEnd tm b spans r = (r.s.keepCle r.o).cleFault r.o.team r.o.warp tm r.o.pc x 0 := by
    rw [collEnd, fail]
  rw [eq]
  exact engineFails_cleFault team ctx

theorem collEnd_unstruck {tm : Team} {b : CollBlock} {spans : List (Nat × Nat)} {r : CollRun} (none : r.fail = none)
    (zero : (r.s.ctx r.o.ctx.toNat).struckBy .store spans = 0) : collEnd tm b spans r = r.s.finishColl r.o := by
  rw [collEnd, none]
  dsimp only
  rw [if_pos zero]

theorem collEnd_struck (tm : Team) (b : CollBlock) {spans : List (Nat × Nat)} {r : CollRun} (none : r.fail = none)
    (struck : (r.s.ctx r.o.ctx.toNat).struckBy .store spans ≠ 0) : ∃ at', collEnd tm b spans r =
      (r.s.cleFault r.o.team r.o.warp tm r.o.pc { cause := Cause.watch, addr := at' } ((r.s.ctx r.o.ctx.toNat).struckBy .store spans)).finishColl r.o := by
  rw [collEnd, none]
  dsimp only
  rw [if_neg struck]
  exact ⟨_, rfl⟩

theorem collEnd_done (tm : Team) (b : CollBlock) (spans : List (Nat × Nat)) {r : CollRun} (none : r.fail = none) {tm' : Team}
    (team : r.s.team? r.o.team = some tm') (ctx : r.s.ctxOf tm' = r.o.ctx.toNat) :
    ∃ y z : State, collEnd tm b spans r = z.after r.o.team r.o.warp ∧
      ((∀ p ∈ (r.s.ctx r.o.ctx.toNat).watch, struckOver p.2 spans = 0) → y = r.s) ∧
      (∀ p, FirstWith (fun q => struckOver q.2 spans ≠ 0) (r.s.ctx r.o.ctx.toNat).watch p → ∃ at', HaltRaised r.s y r.o.ctx.toNat
        (cleRecord tm r.o.warp r.o.ctx.toNat r.o.pc { cause := Cause.watch, addr := at' } (struckOver p.2 spans)) false (some r.o.team)) ∧
      z = { y with teams := z.teams, eng := { y.eng with cle := y.eng.cle.filter fun x => x.id != r.o.id } } ∧
      (∀ n, n ≠ r.o.team → z.team? n = y.team? n) ∧
      z.team? r.o.team = some { tm' with warps := tm'.warps.set r.o.warp { tm'.warp r.o.warp with tokens := lowered r.o.tok (tm'.warp r.o.warp).tokens } } := by
  by_cases zero : (r.s.ctx r.o.ctx.toNat).struckBy .store spans = 0
  · obtain ⟨z, eq, rest, others, this⟩ := finishColl_eq team
    refine ⟨r.s, z, (collEnd_unstruck none zero).trans eq, fun _ => rfl, fun p first => absurd (struckBy_first first) ?_, rest, others, this⟩
    rw [zero]
    obtain ⟨-, -, -, ne, -⟩ := first
    exact ne.symm
  · obtain ⟨at', ended⟩ := collEnd_struck tm b none zero
    have halted := haltRaised_cleFault (wn := r.o.warp) (tm := tm) (pc := r.o.pc) (mask := (r.s.ctx r.o.ctx.toNat).struckBy .store spans)
      (x := { cause := Cause.watch, addr := at' }) team ctx rfl ⟨rfl, rfl⟩
    obtain ⟨z, eq, rest, others, this⟩ := finishColl_eq (o := r.o) (tm := tm')
      (y := r.s.cleFault r.o.team r.o.warp tm r.o.pc { cause := Cause.watch, addr := at' } ((r.s.ctx r.o.ctx.toNat).struckBy .store spans))
      (by rw [halted.rest]; exact team)
    refine ⟨_, z, ended.trans eq, fun none => absurd (struckBy_none none) zero, fun p first => ⟨at', ?_⟩, rest, others, this⟩
    rw [← struckBy_first first]
    exact halted

/-- The results of an operation, byte by byte (R44, R336). -/
theorem collResults_spec (s : State) (o : CleOp) (b : CollBlock) (d : Nat) :
    let e (r i : Nat) : Nat := if r = d then (((sentOf b d).zip o.taken).find? fun p => p.1 == i).elim 0 Prod.snd
      else numAt (s.input.coll.bufs.getD r []) (i * elemBytes b) (elemBytes b)
    let now := s.ownBytes o.ctx.toNat (outVa b, outLen b * elemBytes b)
    ∃ rs, rs = b.results d e s.input.coll.tree ∧ (collResults s o b d).length = rs.length ∧
      ∀ (j : Nat) (x y : Nat × Nat), rs[j]? = some x → (collResults s o b d)[j]? = some y → y.1 = x.1 ∧ y.2 < 256 ^ elemBytes b ∧
        ∀ k < elemBytes b, y.2 / 256 ^ k % 256 = x.2 / 256 ^ k % 256 ∨
          ∃ v old, now[x.1 * elemBytes b + k]? = some (some v) ∧ o.outOld[x.1 * elemBytes b + k]? = some (some old) ∧ v ≠ old ∧
            (y.2 / 256 ^ k % 256 = v.toNat ∨ y.2 / 256 ^ k % 256 = old.toNat) := by
  intro e now
  refine ⟨_, rfl, ?_, fun j x y hx hy => ?_⟩
  · rw [collResults_eq, List.length_map]
  · rw [collResults_eq, List.getElem?_map, hx] at hy
    cases hy
    exact mixedCode_spec o s.freeCtr (elemBytes b) now x

theorem firstWith_congr {α : Type} {P Q : α → Prop} (same : ∀ a, P a ↔ Q a) {l : List α} {x : α} (first : FirstWith P l x) : FirstWith Q l x := by
  rwa [show P = Q from funext fun a => propext (same a)] at first

theorem struckOver_eq_zero_iff (w : Watch) (spans : List (Nat × Nat)) :
    struckOver w spans = 0 ↔ ∀ x ∈ spans, ∀ j < 16, ¬Hits w .store x.1 x.2 j := by
  rw [← not_iff_not, ← ne_eq, struckOver_ne_zero_iff]
  push Not
  rfl

/-- The end of a run that met no fault (R172, R188, R191). -/
theorem collEnd_ended (tm : Team) (b : CollBlock) (spans : List (Nat × Nat)) {r : CollRun} (none : r.fail = none) {tm' : Team}
    (team : r.s.team? r.o.team = some tm') (ctx : r.s.ctxOf tm' = r.o.ctx.toNat) :
    let c := r.o.ctx.toNat
    let rec' (cause : BitVec 8) (addr : Nat) (m : BitVec 16) : StopRec :=
      { engineRecord 3 tm r.o.warp c cause (r.o.pc.setWidth 64) (BitVec.ofNat 64 addr) with byteMask := m }
    ∃ y z : State, collEnd tm b spans r = z.after r.o.team r.o.warp ∧
      ((∀ p ∈ (r.s.ctx c).watch, ∀ x ∈ spans, ∀ j < 16, ¬Hits p.2 .store x.1 x.2 j) → y = r.s) ∧
      (∀ p, FirstWith (fun q => ∃ x ∈ spans, ∃ j < 16, Hits q.2 .store x.1 x.2 j) (r.s.ctx c).watch p →
        ∃ m at', (∀ j < 16, m.getLsbD j = true ↔ ∃ x ∈ spans, Hits p.2 .store x.1 x.2 j) ∧ HaltRaised r.s y c (rec' 16 at' m) false (some r.o.team)) ∧
      z = { y with teams := z.teams, eng := { y.eng with cle := y.eng.cle.filter fun x => x.id != r.o.id } } ∧ (∀ n, n ≠ r.o.team → z.team? n = y.team? n) ∧
      z.team? r.o.team = some { tm' with warps := tm'.warps.set r.o.warp { tm'.warp r.o.warp with tokens := lowered r.o.tok (tm'.warp r.o.warp).tokens } } := by
  intro c rec'
  obtain ⟨y, z, ended, unstruck, struck, rest, others, this⟩ := collEnd_done tm b spans none team ctx
  refine ⟨y, z, ended, fun no => unstruck fun p hp => (struckOver_eq_zero_iff _ _).2 (no p hp), fun p first => ?_, rest, others, this⟩
  obtain ⟨at', halted⟩ := struck p (firstWith_congr (fun q : Nat × Watch => (struckOver_ne_zero_iff q.2 spans).symm) first)
  exact ⟨struckOver p.2 spans, at', fun j hj => struckOver_bit p.2 spans hj, halted⟩

/-- Results are written line by line, up to the first fault (R188, R336). -/
theorem writeResults_cons (size base : Nat) (ls : List (List (Nat × Nat))) (l : List (Nat × Nat)) (r : CollRun) :
    let w := r.s.putResults r.o.ctx.toNat size base l
    (w.fail = none → writeResults size base (l :: ls) r = writeResults size base ls { r with s := w.s }) ∧
    ∀ x, w.fail = some x → writeResults size base (l :: ls) r = { s := w.s, o := { r.o with left := some (l ++ ls.flatten) }, fail := some x } := by
  intro w
  constructor
  · intro none
    rw [writeResults, show (r.s.putResults r.o.ctx.toNat size base l).fail = .none from none]
  · intro x fail
    rw [writeResults, show (r.s.putResults r.o.ctx.toNat size base l).fail = some x from fail]

/-! ## Results written within a line (R69, R128, R213) -/

theorem find_of_mem {α : Type} {k : Nat} {v : α} {t : List (Nat × α)} (mem : (k, v) ∈ t) (only : ∀ x, (k, x) ∈ t → x = v) : Table.find k t = some v := by
  induction t with
  | nil => cases mem
  | cons p rest ih =>
    rw [Table.find]
    split
    · next same => exact congrArg some (only p.2 (by rw [← same]; exact List.mem_cons_self))
    · next other =>
      rcases List.mem_cons.1 mem with rfl | later
      · exact absurd rfl other
      · exact ih later fun x hx => only x (List.mem_cons_of_mem _ hx)

/-- The mask of so many bits that a predicate chooses. -/
def maskOf (f : Nat → Bool) (n : Nat) : Nat := (List.range n).foldl (fun m i => if f i then m + 2 ^ i else m) 0

theorem maskOf_succ (f : Nat → Bool) (n : Nat) : maskOf f (n + 1) = maskOf f n + if f n then 2 ^ n else 0 := by
  rw [maskOf, List.range_succ, List.foldl_append, List.foldl_cons, List.foldl_nil, ← maskOf]
  split <;> rfl

theorem maskOf_lt (f : Nat → Bool) (n : Nat) : maskOf f n < 2 ^ n := by
  induction n with
  | zero => exact Nat.one_pos
  | succ n ih =>
    rw [maskOf_succ, pow_succ]
    split <;> omega

theorem testBit_maskOf (f : Nat → Bool) {n i : Nat} (lt : i < n) : (maskOf f n).testBit i = f i := by
  induction n with
  | zero => cases lt
  | succ n ih =>
    have small := maskOf_lt f n
    rw [maskOf_succ]
    rcases Nat.lt_succ_iff_lt_or_eq.1 lt with before | rfl
    · rw [← ih before]
      split
      · rw [Nat.add_comm, Nat.testBit_two_pow_add_gt before]
      · rfl
    · cases value : f i
      · simpa [value] using Nat.testBit_lt_two_pow small
      · simp only [if_true]
        rw [Nat.add_comm, Nat.testBit_two_pow_add_eq, Nat.testBit_lt_two_pow small]
        rfl

section Group

variable (span g : Nat) (t : List (Nat × Byte))

theorem groupBytes_mask : (groupBytes span g t).1 = maskOf (fun i => (Table.find (g * span + i) t).isSome) span := rfl

theorem groupBytes_length : (groupBytes span g t).2.length = span := by simp [groupBytes]

theorem groupBytes_byte {i : Nat} (lt : i < span) : (groupBytes span g t).2.getD i 0 = (Table.find (g * span + i) t).getD 0 := by
  simp [groupBytes, lt]

theorem groupBytes_bit {i : Nat} (lt : i < span) : (groupBytes span g t).1.testBit i = (Table.find (g * span + i) t).isSome := by
  rw [groupBytes_mask, testBit_maskOf _ lt]

end Group

section BlockWritten

variable {s z : State} {l a c : Nat} {i : BitVec 3} {w : BitVec 6} {m : BitVec 2}

theorem cellWrite_lines_of_sbm {x : Mem} {k b mask : Nat} (sbm : regionOf b = .sbm) (u : BitVec 6) (v : BitVec 2) (bs : List Byte) (whole : Bool) :
    (x.cellWrite k b mask u v bs whole).lines = x.lines := by
  have cleaned (ps : List (Nat × Bool)) (y : Mem) : (ps.foldl (fun y p => if y.poisoned (k + p.1) = true then
      { y with poison := Sparse.set false (poisonUnit (k + p.1)) false y.poison } else y) y).lines = y.lines := by
    induction ps generalizing y with
    | nil => rfl
    | cons p rest ih =>
      rw [List.foldl_cons, ih]
      split <;> rfl
  rw [Mem.cellWrite]
  dsimp only
  rw [if_pos (beq_iff_eq.2 sbm), writeMasked_only]
  exact cleaned _ _

theorem place_aligned (line : a % 64 = 0) (s : State) (inter : Nat) : s.place inter a % 64 = 0 := by
  have := place_line_div line (by decide : 0 < 64) s inter
  have whole := place_line_div line (by decide : 63 < 64) s inter
  rw [place_line line (by decide)] at whole
  omega

variable (line : a % 64 = 0) (mem : MemByte a) (clean : ∀ j < 64, Clean s i w m (a + j))

section
include line clean

theorem clean_unpoisoned {j : Nat} (lt : j < 64) : s.mem.poisoned (s.place i.toNat a + j) = false := ((clean_line line lt s i w m).1 (clean j lt)).1

theorem clean_tagged : s.mem.tagOk (s.place i.toNat a) a w m = true := ((clean_line line (by decide : 0 < 64) s i w m).1 (clean 0 (by decide))).2

/-- A block of which every byte is clean is what it is, its tag as for a write of the same context. -/
theorem blockPut_self : BlockPut s s (s.place i.toNat a) a w m fun j => s.mem.get (s.place i.toNat a + j) := by
  refine ⟨rfl, fun x => ?_, fun k => ?_⟩
  · split
    · next inside => exact congrArg s.mem.get (Nat.add_sub_cancel' inside.1).symm
    · rfl
  · split
    · next here =>
      obtain ⟨hbm, rfl⟩ := here
      simpa [Mem.tagOk, hbm] using clean_tagged line clean
    · rfl

end

/-- Another state whose memory differs in the bytes of the block only. -/
theorem BlockPut.elsewhere {new : Nat → Byte} {p : Nat} (put : BlockPut s z p a w m new) (aligned : p % 64 = 0) (q : Nat) (other : q / 64 ≠ p / 64) :
    z.mem.get q = s.mem.get q ∧ Sparse.get {} (q / 64) z.mem.lines = Sparse.get {} (q / 64) s.mem.lines := by
  obtain ⟨-, bytes, lines⟩ := put
  exact ⟨by rw [bytes, if_neg (by omega)], by rw [lines, if_neg fun x => other x.2]⟩

/-- The bytes of a block after a masked write. -/
def maskedOver (j0 mask : Nat) (bs : List Byte) (new : Nat → Byte) (j : Nat) : Byte :=
  if j0 ≤ j ∧ j < j0 + bs.length ∧ mask.testBit (j - j0) = true then bs.getD (j - j0) 0 else new j

include line mem clean in
/-- A masked write within a block all of whose bytes are clean (R69, R128). -/
theorem blockPut_homeWrite {new : Nat → Byte} (put : BlockPut s z (s.place i.toNat a) a w m new) {j0 mask : Nat} {bs : List Byte}
    (pos : 0 < bs.length) (fits : j0 + bs.length ≤ 64) (sector whole : Bool) :
    ∃ y, z.homeWrite i.toNat w m (a + j0) mask bs sector whole = { s := y, bytes := [], fail := none } ∧
      BlockPut s y (s.place i.toNat a) a w m (maskedOver j0 mask bs new) := by
  have lt : j0 < 64 := by omega
  have aligned := place_aligned line s i.toNat
  obtain ⟨rest, bytes, lines⟩ := put
  have place : z.place i.toNat (a + j0) = s.place i.toNat a + j0 := by
    rw [show z.place i.toNat (a + j0) = s.place i.toNat (a + j0) by rw [rest]; rfl, place_line line lt]
  have unpoisoned (j : Nat) (hj : j < 64) : z.mem.poisoned (s.place i.toNat a + j) = false := by
    rw [rest]
    exact clean_unpoisoned line clean hj
  have tagFor : z.mem.tagFor (a + j0) w m = s.mem.tagFor a w m := by
    rw [rest, Mem.tagFor, Mem.tagFor, Mem.tensorAt, Mem.tensorAt, show (a + j0) / 65536 = a / 65536 by omega]
    rfl
  have tagged : z.mem.tagOk (z.place i.toNat (a + j0)) (a + j0) w m = true := by
    rw [Mem.tagOk, regionOf_line line lt, place, tagFor, lines]
    by_cases hbm : regionOf a = .hbm
    · simp [hbm]
      omega
    · simp [hbm]
  have clear (j : Nat) (hj : j < bs.length) : z.mem.poisoned (z.place i.toNat (a + j0) + j) = false := by
    rw [place, Nat.add_assoc]
    exact unpoisoned _ (by omega)
  obtain ⟨tags, written, tag⟩ := mem_cellWrite_unpoisoned (a := a + j0) (mask := mask) (w := w) (c := m) pos clear sector
  refine ⟨{ z with mem := z.mem.cellWrite (z.place i.toNat (a + j0)) (a + j0) mask w m bs sector }, ?_, ?_, fun x => ?_, fun k => ?_⟩
  · rw [homeWrite_memory _ _ _ _ _ _ _ _ (memByte_line line lt mem), cellWrite_unpoisoned pos clear tagged]
  · rw [written, writeMasked_only, rest]
  · show (z.mem.cellWrite (z.place i.toNat (a + j0)) (a + j0) mask w m bs sector).get x = _
    rw [written, show ({ z.mem.writeMasked (z.place i.toNat (a + j0)) mask bs with lines := tags } : Mem).get x =
      (z.mem.writeMasked (z.place i.toNat (a + j0)) mask bs).get x from rfl, get_writeMasked, place, bytes]
    by_cases inside : s.place i.toNat a ≤ x ∧ x < s.place i.toNat a + 64
    · simp only [maskedOver, if_pos inside, show x - (s.place i.toNat a + j0) = x - s.place i.toNat a - j0 by omega]
      exact if_congr (and_congr (by omega) (and_congr (by omega) Iff.rfl)) rfl rfl
    · rw [if_neg inside, if_neg inside, if_neg]
      rintro ⟨low, high, -⟩
      exact inside ⟨by omega, by omega⟩
  · show Sparse.get {} k (z.mem.cellWrite (z.place i.toNat (a + j0)) (a + j0) mask w m bs sector).lines = _
    rcases mem with hbm | sbm
    · have set : tags = Sparse.set {} (s.place i.toNat a / 64) (s.mem.tagFor a w m) z.mem.lines := by
        rw [regionOf_line line lt, place, tagFor, show (s.place i.toNat a + j0) / 64 = s.place i.toNat a / 64 by omega] at tag
        exact tag.resolve_left fun x => by simp [hbm] at x
      rw [written, show ({ z.mem.writeMasked (z.place i.toNat (a + j0)) mask bs with lines := tags } : Mem).lines = tags from rfl, set, Sparse.get_set, lines]
      split
      · next here => rw [if_pos ⟨hbm, here⟩]
      · rfl
    · rw [cellWrite_lines_of_sbm ((regionOf_line line lt).trans sbm), lines]

end BlockWritten

section EnginePut

variable {s : State} {l a c : Nat} {i : BitVec 3} {w : BitVec 6} {m : BitVec 2}
variable (line : a % 64 = 0) (mem : MemByte a) (clean : ∀ j < 64, Clean s i w m (a + j))
variable (noHits : s.input.hits = []) (leads : LeadsTo s c .store l a i w m)

theorem maskedOver_full {n : Nat} {bs : List Byte} (len : bs.length = n) (j0 : Nat) (new : Nat → Byte) (j : Nat) :
    maskedOver j0 (2 ^ n - 1) bs new j = if j0 ≤ j ∧ j < j0 + n then bs.getD (j - j0) 0 else new j := by
  rw [maskedOver, len, Nat.testBit_two_pow_sub_one]
  exact if_congr ⟨fun x => ⟨x.1, x.2.1⟩, fun x => ⟨x.1, x.2, decide_eq_true (by omega)⟩⟩ rfl rfl

/-- A block written as its two halves. -/
theorem maskedOver_halves {bs : List Byte} (len : bs.length = 64) {new : Nat → Byte} {j : Nat} (lt : j < 64) :
    maskedOver (0 + 32) ((2 ^ 64 - 1) >>> 32) (bs.drop 32) (maskedOver 0 ((2 ^ 64 - 1) % 2 ^ 32) (bs.take 32) new) j =
      maskedOver 0 (2 ^ 64 - 1) bs new j := by
  rw [show (2 ^ 64 - 1) >>> 32 = 2 ^ 32 - 1 by decide, show (2 ^ 64 - 1) % 2 ^ 32 = 2 ^ 32 - 1 by decide, maskedOver_full (by simp [len]),
    maskedOver_full (by simp [len]), maskedOver_full len, if_pos (show 0 ≤ j ∧ j < 0 + 64 by omega)]
  by_cases low : j < 32
  · rw [if_neg (by omega), if_pos (by omega)]
    simp [List.getD_eq_getElem?_getD, low]
  · rw [if_pos (by omega)]
    simp [List.getD_eq_getElem?_getD, List.getElem?_drop, Nat.add_sub_cancel' (Nat.le_of_not_lt low)]

include line mem clean in
/-- A masked write of an engine within a block all of whose bytes are clean: in one step, or sector by sector (R69, R128). -/
theorem blockPut_engineHome {z : State} {new : Nat → Byte} (put : BlockPut s z (s.place i.toNat a) a w m new) {j0 mask : Nat} {bs : List Byte}
    (pos : 0 < bs.length) (fits : j0 + bs.length ≤ 64) (small : bs.length ≤ 32 ∨ mask = 2 ^ 64 - 1 ∧ bs.length = 64) :
    ∃ y, z.engineHome i.toNat w m (a + j0) mask bs = { s := y, bytes := [], fail := none } ∧
      BlockPut s y (s.place i.toNat a) a w m (maskedOver j0 mask bs new) := by
  have region : (regionOf (a + j0) == Region.mxWindow) = false := by
    rcases memByte_line line (show j0 < 64 by omega) mem with x | x <;> simp [x]
  rw [State.engineHome, region]
  by_cases short : bs.length ≤ 32
  · rw [if_pos (by simpa using short)]
    exact blockPut_homeWrite line mem clean put pos fits _ _
  · obtain ⟨full, len⟩ := small.resolve_left short
    have start : j0 = 0 := by omega
    rw [if_neg (by simpa using short)]
    obtain ⟨x, first, half⟩ := blockPut_homeWrite line mem clean put (j0 := j0) (mask := mask % 2 ^ 32) (bs := bs.take 32) (by simp [len]) (by simp [len]; omega)
      true true
    obtain ⟨y, second, whole⟩ := blockPut_homeWrite line mem clean half (j0 := j0 + 32) (mask := mask >>> 32) (bs := bs.drop 32) (by simp [len])
      (by simp [len]; omega) true true
    rw [first]
    refine ⟨y, second, ?_⟩
    obtain ⟨rest, bytes, lines⟩ := whole
    subst full start
    refine ⟨rest, fun k => (bytes k).trans ?_, lines⟩
    split
    · exact maskedOver_halves len (by omega)
    · rfl

include line mem clean noHits leads in
theorem blockPut_enginePut {z : State} {new : Nat → Byte} (put : BlockPut s z (s.place i.toNat a) a w m new) {j0 mask : Nat} {bs : List Byte}
    (pos : 0 < bs.length) (fits : j0 + bs.length ≤ 64) (small : bs.length ≤ 32 ∨ mask = 2 ^ 64 - 1 ∧ bs.length = 64) :
    ∃ y, z.enginePut c .store (64 * l + j0) mask bs = { s := y } ∧ BlockPut s y (s.place i.toNat a) a w m (maskedOver j0 mask bs new) := by
  have quiet : z.input.hits = [] := by
    rw [put.1]
    exact noHits
  obtain ⟨⟨t, led, target⟩, walked, -⟩ := leads z put.1 (fun p other => put.elsewhere (place_aligned line s _) p other) j0 (by omega)
  obtain ⟨y, written, after⟩ := blockPut_engineHome line mem clean put pos fits small
  refine ⟨y, ?_, after⟩
  rw [State.enginePut, walked]
  simp only [led, target, netFails_of_noHits quiet, befallRange_of_noHits quiet, written]
  rfl

/-! ### A table of bytes -/

/-- A group of a table reaches byte j of a line. -/
def inGroup (l j : Nat) (g : Nat × Nat) : Bool := decide (g.2 * g.1 ≤ 64 * l + j ∧ 64 * l + j < g.2 * g.1 + g.1)

/-- A group lies in a line, within a sector or a word. -/
def FitsLine (l : Nat) (g : Nat × Nat) : Prop := 0 < g.1 ∧ g.1 ≤ 32 ∧ 64 * l ≤ g.2 * g.1 ∧ g.2 * g.1 + g.1 ≤ 64 * l + 64

/-- A line's bytes after those of a table were put in the places of its groups. -/
def tabledBytes (t : List (Nat × Byte)) (l : Nat) (gs : List (Nat × Nat)) (new : Nat → Byte) (j : Nat) : Byte :=
  if gs.any (inGroup l j) then (Table.find (64 * l + j) t).getD (new j) else new j

theorem maskedOver_groupBytes {l j0 span n : Nat} (start : n * span = 64 * l + j0) (t : List (Nat × Byte)) (new : Nat → Byte) (j : Nat) :
    maskedOver j0 (groupBytes span n t).1 (groupBytes span n t).2 new j = tabledBytes t l [(span, n)] new j := by
  rw [maskedOver, tabledBytes, groupBytes_length]
  by_cases inside : j0 ≤ j ∧ j < j0 + span
  · have lt : j - j0 < span := by omega
    have within : [(span, n)].any (inGroup l j) = true := by
      rw [List.any_cons, inGroup, decide_eq_true (by dsimp only; omega), Bool.true_or]
    rw [groupBytes_bit _ _ _ lt, groupBytes_byte _ _ _ lt, start, if_pos within, show 64 * l + j0 + (j - j0) = 64 * l + j by omega]
    cases Table.find (64 * l + j) t with
    | none => rw [if_neg (by simp)]; rfl
    | some b => rw [if_pos ⟨inside.1, inside.2, rfl⟩]; rfl
  · have without : ¬[(span, n)].any (inGroup l j) = true := by
      rw [List.any_cons, inGroup, decide_eq_false (by dsimp only; omega)]
      simp
    rw [if_neg without, if_neg fun x => inside ⟨x.1, x.2.1⟩]

theorem tabledBytes_cons (t : List (Nat × Byte)) (l : Nat) (g : Nat × Nat) (gs : List (Nat × Nat)) (new : Nat → Byte) (j : Nat) :
    tabledBytes t l gs (tabledBytes t l [g] new) j = tabledBytes t l (g :: gs) new j := by
  simp only [tabledBytes, List.any_cons, List.any_nil, Bool.or_false]
  cases Table.find (64 * l + j) t with
  | none =>
    simp only [Option.getD_none, ite_self]
    exact (ite_self _).symm
  | some b => by_cases later : gs.any (inGroup l j) = true <;> simp [later]

/-- The groups of a table of a line written one after another. -/
def putGroups (c : Nat) (t : List (Nat × Byte)) (o : EOut) (gs : List (Nat × Nat)) : EOut :=
  gs.foldl (fun o g => match o.fail with
    | some _ => o
    | none => o.s.enginePut c .store (g.2 * g.1) (groupBytes g.1 g.2 t).1 (groupBytes g.1 g.2 t).2) o

theorem engineStore_eq (s : State) (c : Nat) (t : List (Nat × Byte)) : s.engineStore c .store t = putGroups c t { s := s } (s.storeGroups c .store t) := rfl

include line mem clean noHits leads in
theorem blockPut_putGroups (t : List (Nat × Byte)) (gs : List (Nat × Nat)) (fits : ∀ g ∈ gs, FitsLine l g) {z : State} {new : Nat → Byte}
    (put : BlockPut s z (s.place i.toNat a) a w m new) :
    ∃ y, putGroups c t { s := z } gs = { s := y } ∧ BlockPut s y (s.place i.toNat a) a w m (tabledBytes t l gs new) := by
  induction gs generalizing z new with
  | nil => exact ⟨z, rfl, put⟩
  | cons g rest ih =>
    obtain ⟨⟨pos, le, low, high⟩, others⟩ := List.forall_mem_cons.1 fits
    obtain ⟨j0, start⟩ := Nat.exists_eq_add_of_le low
    have len := groupBytes_length g.1 g.2 t
    obtain ⟨y, written, after⟩ := blockPut_enginePut line mem clean noHits leads put (j0 := j0) (mask := (groupBytes g.1 g.2 t).1)
      (bs := (groupBytes g.1 g.2 t).2) (by omega) (by omega) (.inl (by omega))
    rw [funext (maskedOver_groupBytes start t new)] at after
    obtain ⟨x, moved, ended⟩ := ih others after
    refine ⟨x, ?_, ?_⟩
    · rw [putGroups, List.foldl_cons]
      dsimp only
      rw [start, written]
      exact moved
    · rwa [funext (tabledBytes_cons t l g rest new)] at ended

end EnginePut

theorem mem_groupsOf {span g : Nat} {t : List (Nat × Byte)} : g ∈ groupsOf span t ↔ ∃ p ∈ t, p.1 / span = g := by
  rw [groupsOf, List.mem_eraseDups, List.mem_map]

theorem groupsOf_single {span g : Nat} {t : List (Nat × Byte)} (some : t ≠ []) (all : ∀ p ∈ t, p.1 / span = g) : groupsOf span t = [g] := by
  cases t with
  | nil => exact absurd rfl some
  | cons p rest =>
    obtain ⟨first, others⟩ := List.forall_mem_cons.1 all
    have none : (rest.map fun p => p.1 / span).filter (fun b => !b == g) = [] := by
      refine List.filter_eq_nil_iff.2 fun b hb => ?_
      obtain ⟨q, hq, rfl⟩ := List.mem_map.1 hb
      simp [others q hq]
    rw [groupsOf, List.map_cons, List.eraseDups_cons, first, none]
    rfl

theorem fitsLine_of_mem_sectorGroups {t : List (Nat × Byte)} {h l : Nat} {g : Nat × Nat} (mem : g ∈ sectorGroups t h) (part : h / 2 = l) : FitsLine l g := by
  rw [sectorGroups] at mem
  split at mem
  · obtain rfl := List.mem_singleton.1 mem
    exact ⟨Nat.succ_pos _, by dsimp only; omega, by dsimp only; omega, by dsimp only; omega⟩
  · obtain ⟨n, hn, rfl⟩ := List.mem_map.1 mem
    have quarter : n / 4 = h := by simpa using (List.mem_filter.1 hn).2
    exact ⟨Nat.succ_pos _, by dsimp only; omega, by dsimp only; omega, by dsimp only; omega⟩

theorem covered_by_sectorGroups {t : List (Nat × Byte)} {p : Nat × Byte} (mem : p ∈ t) :
    ∃ g ∈ sectorGroups t (p.1 / 32), g.2 * g.1 ≤ p.1 ∧ p.1 < g.2 * g.1 + g.1 := by
  rw [sectorGroups]
  split
  · exact ⟨_, List.mem_singleton_self _, by dsimp only; omega, by dsimp only; omega⟩
  · have inSector : p.1 / 8 ∈ (groupsOf 8 t).filter fun g => g / 4 == p.1 / 32 :=
      List.mem_filter.2 ⟨mem_groupsOf.2 ⟨p, mem, rfl⟩, beq_iff_eq.2 (by omega)⟩
    exact ⟨(8, p.1 / 8), List.mem_map_of_mem inSector, by dsimp only; omega, by dsimp only; omega⟩

/-- The bytes of a block with those of a table in their places. -/
def filled (t : List (Nat × Byte)) (l : Nat) (new : Nat → Byte) (j : Nat) : Byte := (Table.find (64 * l + j) t).getD (new j)

theorem BlockPut.congr {s z : State} {p a : Nat} {w : BitVec 6} {m : BitVec 2} {f g : Nat → Byte} (put : BlockPut s z p a w m f)
    (same : ∀ j < 64, f j = g j) : BlockPut s z p a w m g := by
  obtain ⟨rest, bytes, lines⟩ := put
  refine ⟨rest, fun x => (bytes x).trans ?_, lines⟩
  split
  · exact same _ (by omega)
  · rfl

section PutTable

variable {s : State} {l a c : Nat} {i : BitVec 3} {w : BitVec 6} {m : BitVec 2}
variable (line : a % 64 = 0) (mem : MemByte a) (clean : ∀ j < 64, Clean s i w m (a + j))
variable (noHits : s.input.hits = []) (leads : LeadsTo s c .store l a i w m)

include mem leads in
theorem leadsToWindow_line : s.leadsToWindow (engineSalt (64 * l)) c (64 * l) .store = false := by
  obtain ⟨⟨t, led, target⟩, -, -⟩ := leads s rfl (fun _ _ => ⟨rfl, rfl⟩) 0 (by decide)
  rw [Nat.add_zero, State.engineLead] at led
  rw [Nat.add_zero, Nat.add_zero] at target
  rw [State.leadsToWindow]
  split at led
  · next u found =>
    cases led
    rw [found]
    simp only [target, Target.inWindow]
    rcases mem with x | x <;> simp [x]
  · cases led
  · cases led

variable {t : List (Nat × Byte)} (some : t ≠ []) (within : ∀ p ∈ t, p.1 / 64 = l)

include mem leads some within in
theorem storeGroups_line : s.storeGroups c .store t = sectorGroups t (2 * l) ++ sectorGroups t (2 * l + 1) := by
  rw [State.storeGroups, groupsOf_single some within, List.flatMap_cons, List.flatMap_nil, List.append_nil, leadsToWindow_line mem leads]
  rfl

include line mem clean noHits leads some within in
theorem blockPut_engineStore : ∃ y, s.engineStore c .store t = { s := y } ∧
    BlockPut s y (s.place i.toNat a) a w m (filled t l fun j => s.mem.get (s.place i.toNat a + j)) := by
  rw [engineStore_eq, storeGroups_line mem leads some within]
  obtain ⟨y, written, put⟩ := blockPut_putGroups line mem clean noHits leads t (sectorGroups t (2 * l) ++ sectorGroups t (2 * l + 1))
    (fun g hg => (List.mem_append.1 hg).elim (fun x => fitsLine_of_mem_sectorGroups x (by omega)) fun x => fitsLine_of_mem_sectorGroups x (by omega))
    (blockPut_self line clean)
  refine ⟨y, written, put.congr fun j lt => ?_⟩
  rw [tabledBytes, filled]
  split
  · rfl
  · next none =>
    cases found : Table.find (64 * l + j) t with
    | none => rfl
    | some b =>
      obtain ⟨g, hg, low, high⟩ := covered_by_sectorGroups (mem_of_find found)
      refine absurd (List.any_eq_true.2 ⟨g, List.mem_append.2 ?_, decide_eq_true ⟨low, high⟩⟩) none
      rcases (show (64 * l + j) / 32 = 2 * l ∨ (64 * l + j) / 32 = 2 * l + 1 by omega) with x | x
      · exact .inl (x ▸ hg)
      · exact .inr (x ▸ hg)

include line mem clean noHits leads in
/-- A whole line written at once (R128). -/
theorem blockPut_wholeLine (full : (groupBytes 64 l t).1 = 2 ^ 64 - 1) : ∃ y, s.enginePut c .store (64 * l) (groupBytes 64 l t).1 (groupBytes 64 l t).2 = { s := y } ∧
    BlockPut s y (s.place i.toNat a) a w m (filled t l fun j => s.mem.get (s.place i.toNat a + j)) := by
  have len := groupBytes_length 64 l t
  obtain ⟨y, written, put⟩ := blockPut_enginePut line mem clean noHits leads (blockPut_self line clean) (j0 := 0) (mask := (groupBytes 64 l t).1)
    (bs := (groupBytes 64 l t).2) (by omega) (by omega) (.inr ⟨full, len⟩)
  refine ⟨y, written, put.congr fun j lt => ?_⟩
  rw [maskedOver_groupBytes (l := l) (Nat.mul_comm _ _), tabledBytes, if_pos, filled]
  rw [List.any_cons, inGroup, decide_eq_true (by dsimp only; omega), Bool.true_or]

end PutTable

/-! ### The bytes of results -/

theorem mem_resultBytes {size base k : Nat} {v : Byte} {rs : List (Nat × Nat)} :
    (k, v) ∈ resultBytes size base rs ↔ ∃ x ∈ rs, ∃ j < size, k = base + x.1 * size + j ∧ v = BitVec.ofNat 8 (x.2 / 256 ^ j) := by
  simp only [resultBytes, List.mem_flatMap, List.mem_map, List.mem_range, Prod.mk.injEq]
  exact exists_congr fun x => and_congr_right fun _ => exists_congr fun j => and_congr_right fun _ => and_congr eq_comm eq_comm

theorem find_resultBytes {size base : Nat} {rs : List (Nat × Nat)} (pos : 0 < size) (nodup : (rs.map Prod.fst).Nodup) {x : Nat × Nat} (hx : x ∈ rs) {k : Nat}
    (lt : k < size) : Table.find (base + x.1 * size + k) (resultBytes size base rs) = some (BitVec.ofNat 8 (x.2 / 256 ^ k)) := by
  refine find_of_mem (mem_resultBytes.2 ⟨x, hx, k, lt, rfl, rfl⟩) fun v hv => ?_
  obtain ⟨y, hy, j, less, place, rfl⟩ := mem_resultBytes.1 hv
  have parts : x.1 * size + k = y.1 * size + j := by omega
  have same : x.1 = y.1 := by
    have := congrArg (· / size) parts
    rwa [Nat.add_comm, Nat.add_mul_div_right _ _ pos, Nat.div_eq_of_lt lt, Nat.add_comm (y.1 * size), Nat.add_mul_div_right _ _ pos, Nat.div_eq_of_lt less,
      Nat.zero_add, Nat.zero_add] at this
  obtain rfl := List.inj_on_of_nodup_map nodup hx hy same
  rw [show k = j by omega]

theorem find_resultBytes_none {size base k : Nat} {rs : List (Nat × Nat)} (none : ∀ x ∈ rs, ¬(base + x.1 * size ≤ k ∧ k < base + x.1 * size + size)) :
    Table.find k (resultBytes size base rs) = .none := by
  refine Option.eq_none_iff_forall_ne_some.2 fun v found => ?_
  obtain ⟨x, hx, j, lt, rfl, -⟩ := mem_resultBytes.1 (mem_of_find found)
  exact none x hx ⟨by omega, by omega⟩

/-- Results within one line, put there (R44, R128, R213, R336). -/
theorem putResults_line (s : State) (c size base l a : Nat) (rs : List (Nat × Nat)) (i : BitVec 3) (w : BitVec 6) (m : BitVec 2)
    (pos : 0 < size) (some : rs ≠ []) (nodup : (rs.map Prod.fst).Nodup)
    (within : ∀ x ∈ rs, 64 * l ≤ base + x.1 * size ∧ base + x.1 * size + size ≤ 64 * l + 64) (line : a % 64 = 0) (mem : MemByte a)
    (clean : ∀ j < 64, Clean s i w m (a + j)) (noHits : s.input.hits = []) (leads : LeadsTo s c .store l a i w m) :
    let p := s.place i.toNat a
    ∃ z new, s.putResults c size base rs = { s := z } ∧ BlockPut s z p a w m new ∧
      (∀ x ∈ rs, ∀ k < size, new (base + x.1 * size + k - 64 * l) = BitVec.ofNat 8 (x.2 / 256 ^ k)) ∧
      ∀ j < 64, (∀ x ∈ rs, ¬(base + x.1 * size ≤ 64 * l + j ∧ 64 * l + j < base + x.1 * size + size)) → new j = s.mem.get (p + j) := by
  intro p
  have inLine (q : Nat × Byte) (hq : q ∈ resultBytes size base rs) : q.1 / 64 = l := by
    obtain ⟨x, hx, j, lt, eq, -⟩ := mem_resultBytes.1 (show (q.1, q.2) ∈ _ from hq)
    have := within x hx
    omega
  have present : resultBytes size base rs ≠ [] := by
    obtain ⟨x, hx⟩ := List.exists_mem_of_ne_nil _ some
    exact List.ne_nil_of_mem (mem_resultBytes.2 ⟨x, hx, 0, pos, rfl, rfl⟩)
  have first : ((resultBytes size base rs).head?.elim 0 fun q => q.1 / 64) = l := by
    obtain ⟨q, rest, eq⟩ := List.exists_cons_of_ne_nil present
    rw [eq]
    exact inLine q (by rw [eq]; exact List.mem_cons_self)
  have written : ∃ z, s.putResults c size base rs = { s := z } ∧ BlockPut s z p a w m (filled (resultBytes size base rs) l fun j => s.mem.get (p + j)) := by
    rw [State.putResults]
    rw [first]
    split
    · next full => exact blockPut_wholeLine line mem clean noHits leads full
    · exact blockPut_engineStore line mem clean noHits leads present inLine
  obtain ⟨z, written, put⟩ := written
  refine ⟨z, _, written, put, fun x hx k lt => ?_, fun j _ none => ?_⟩
  · have := within x hx
    rw [filled, Nat.add_sub_cancel' (by omega), find_resultBytes pos nodup hx lt]
    rfl
  · rw [filled, find_resultBytes_none none]
    rfl

/-- What a collective delivers (R44, R172, R188, R191, R336). -/
theorem collDelivers : CollDelivers := by
  refine ⟨fun b d e t _ _ _ _ _ => receives_results b d e t, collResults_spec, fun size base ls l r => ⟨rfl, writeResults_cons size base ls l r⟩, ?_, ?_⟩
  · intro s c size base l a rs i w m p sizes some nodup within line mem clean noHits leads
    exact putResults_line s c size base l a rs i w m (by omega) some nodup within line mem clean noHits leads
  · intro tm b spans r tm' team ctx c rec'
    exact ⟨fun x fail => collEnd_failed fail team ctx, fun none => collEnd_ended tm b spans none team ctx⟩

end Sys2Proof.Claims
end

section
-- One proof after another: side by side their threads pass the limit of memory that the check sets.
set_option Elab.async false
/-! CLAIM. The issue of coll, and collectives as a whole (R44, R172, R213, R224, R334, R335). -/

namespace Sys2Proof.Claims

open Sys2Proof Sys2Proof.Machine

/-! ## A read by an engine -/

section NoAccess

variable (s : State)

theorem noAccess_engineFar (ctx va : Nat) (dev : BitVec 12) (a : Nat) (q : RemoteReq) (got : State → List Byte) :
    NoAccess s (s.engineFar ctx va dev a q got).s := by
  obtain ⟨t, left, h | h | ⟨_, h⟩ | ⟨_, h⟩⟩ := farGo_cases s ctx (fabricAddr dev a).toNat q
  all_goals
    rw [State.engineFar, h]
    exact left.noAccess

theorem noAccess_enginePiece (ctx : Nat) (k : Access) (p : Nat × Nat) : NoAccess s (s.enginePiece ctx k p).s := by
  unfold State.enginePiece
  refine (noAccess_walkFor s ctx p.1).trans ?_
  generalize s.walkFor ctx p.1 = u
  dsimp only
  split
  · exact .refl u
  · split
    · exact .ite_of EOut.s (.refl u) ((walkLeaves_befallRange u _ _ _).noAccess.trans (noAccess_agentRead _ _ _ _ _ _))
    · exact noAccess_engineFar u _ _ _ _ _ _
    · exact .refl u

theorem noAccess_enginePieces (ctx : Nat) (k : Access) (l : List (Nat × Nat)) (o : EOut) (h : NoAccess s o.s) :
    NoAccess s (State.enginePieces ctx k l o).s := by
  induction l generalizing o with
  | nil => exact h
  | cons p rest ih =>
    unfold State.enginePieces
    split
    · exact h
    · exact ih _ (h.trans (noAccess_enginePiece o.s ctx k p))

theorem noAccess_engineRead (ctx va n : Nat) (k : Access) : NoAccess s (s.engineRead ctx va n k).s := noAccess_enginePieces s ctx k _ _ (.refl s)

end NoAccess

/-! ## The bytes that results will replace (R44) -/

theorem length_homeRead (s : State) (inter : Nat) (w : BitVec 6) (c : BitVec 2) (a n : Nat) : (s.homeRead inter w c a n).bytes.length = n := by
  unfold State.homeRead
  cases regionOf a with
  | mxWindow =>
    show (s.mxRead inter w c a n).bytes.length = n
    unfold State.mxRead
    dsimp only
    split
    · exact List.length_replicate
    · simp
  | flash =>
    show (s.flashRead w c a n).bytes.length = n
    unfold State.flashRead
    split
    · exact List.length_replicate
    · simp
  | hbm | sbm | hole =>
    show (match s.spoiledRange inter a n w c with
      | some cause => s.homeFail n cause
      | none => { s := s, bytes := s.readLocal inter a n, fail := none }).bytes.length = n
    split
    · exact List.length_replicate
    · rw [State.readLocal, read_eq_map]
      simp

theorem length_ownPiece (s : State) (c : Nat) (p : Nat × Nat) : (s.ownPiece c p).length = p.2 := by
  unfold State.ownPiece
  split
  · split
    · dsimp only
      split
      · exact List.length_replicate
      · rw [List.length_map, length_homeRead]
    · exact List.length_replicate
  · exact List.length_replicate

/-- A byte of a piece of clean memory of this device. -/
theorem ownPiece_clean {s : State} {c p n k : Nat} (lt : k < n) (le : n ≤ 8) {t : Trans} {a : Nat} {i : BitVec 3} {w : BitVec 6} {m : BitVec 2}
    (led : s.engineLead c p .load = .ok t) (target : s.targetOf t p = .here a i w m) (mem : MemByte a) (clean : Clean s i w m a) :
    (s.ownPiece c (p, n)).getD k none = some (s.mem.get (s.place i.toNat a + k)) := by
  have found : s.lead (0xC000000 + p % 0x1000000) c p .load = .ok t := by
    rw [State.engineLead, engineSalt] at led
    split at led
    · next u found =>
      cases led
      exact found
    · cases led
    · cases led
  rw [State.ownPiece, found]
  simp only [target, homeRead_clean mem (by omega) le clean]
  simp [lt]

theorem ownBytes_step {s : State} {c va n : Nat} (pos : 0 < n) : s.ownBytes c (va, n) =
    s.ownPiece c (va, min n (8 - va % 8)) ++ s.ownBytes c (va + min n (8 - va % 8), n - min n (8 - va % 8)) := by
  rw [State.ownBytes, piecesOf_step pos, List.flatMap_cons]
  rfl

theorem oldNoted_ownBytes (s : State) (c va n : Nat) : OldNoted s c va n (s.ownBytes c (va, n)) := by
  induction n using Nat.strong_induction_on generalizing va with
  | _ n ih =>
    rcases Nat.eq_zero_or_pos n with rfl | pos
    · exact ⟨rfl, fun j lt => absurd lt (Nat.not_lt_zero j)⟩
    · have first := length_ownPiece s c (va, min n (8 - va % 8))
      obtain ⟨len, bytes⟩ := ih (n - min n (8 - va % 8)) (by omega) (va + min n (8 - va % 8))
      rw [ownBytes_step pos]
      refine ⟨by rw [List.length_append, first, len]; dsimp only; omega, fun j lt => ?_⟩
      intro p t a i w m led target mem clean
      by_cases here : j < min n (8 - va % 8)
      · have start : p = va := by
          show max va ((va + j) / 8 * 8) = va
          omega
        rw [List.getD_append _ _ _ _ (by rw [first]; exact here)]
        rw [start] at led target
        rw [ownPiece_clean here (by omega) led target mem clean, start, Nat.add_sub_cancel_left]
      · have rest := bytes (j - min n (8 - va % 8)) (by omega)
        have place : max (va + min n (8 - va % 8)) ((va + min n (8 - va % 8) + (j - min n (8 - va % 8))) / 8 * 8) = p := by
          show _ = max va ((va + j) / 8 * 8)
          omega
        dsimp only at rest
        rw [place] at rest
        rw [List.getD_append_right _ _ _ _ (by rw [first]; exact Nat.le_of_not_lt here), first]
        dsimp only
        rw [rest t a i w m led target mem clean, show va + min n (8 - va % 8) + (j - min n (8 - va % 8)) = va + j by omega]

/-! ## The block (R334) -/

theorem blockIs_collBlock (bs : List Byte) : BlockIs bs (collBlock bs) := by
  have field (off n : Nat) : leNat ((bs.drop off).take n) = numAt bs off n := (littleEndian_eq_leNat _).symm
  simp only [collBlock, field]
  exact ⟨⟨rfl, rfl, rfl, rfl, rfl, rfl⟩, ⟨rfl, rfl, rfl, rfl⟩, ⟨rfl, rfl, rfl⟩, by simp [and_assoc]⟩

/-! ## The issue of `coll` (R172, R334, R335) -/

theorem sA64_eq (f : Focus) (a : Reg) : (f.u2 1 a.toNat).toNat = sA64 f a := by
  have lo := (f.u 1 a.toNat).isLt
  have hi := (f.u 1 (a.toNat + 1)).isLt
  rw [Focus.u2, sA64, pairOf_eq, BitVec.toNat_ofNat]
  omega

theorem issuedAs_bindTo (f : Focus) (k : BitVec 3) :
    IssuedAs f { f.wp with tokens := raised k f.wp.tokens } (f.commit.wp.bindTo k) id := by
  rw [bindTo_eq]
  exact ⟨⟨rfl, laneMask_bit f.active⟩, rfl, rfl, List.map_congr_left fun x _ => afterIssue_eq_wentOn f x⟩

/-- The state with one operation more in the collective engine. -/
def collStarted (z : State) (o : CleOp) : State := { z with eng := { z.eng with cle := z.eng.cle ++ [o], nextId := z.eng.nextId + 1 } }

/-- The operation that an issue of `coll` starts (R334, R335). -/
def collOp (f : Focus) (k : BitVec 3) (id : Nat) (bs : List Byte) (inst at' : Nat) (old : List (Option Byte)) : CleOp :=
  { id := id, ctx := BitVec.ofNat 12 f.ctx, team := f.tid, warp := f.wn, tok := k, pc := f.pc
    userTag := f.wp.userTag, block := bs, inst := inst, outAt := at', outOld := old }

/-- The state of an issue of `coll` with its warp bound to the token. -/
def collBound (f : Focus) (k : BitVec 3) : State := (f.commit.withWarp (f.commit.wp.bindTo k)).close

/-- The read of the block at an issue of `coll`. -/
def collRead (f : Focus) (k : BitVec 3) (a : Reg) : EOut := (collBound f k).engineRead f.ctx (sA64 f a) 64 .load

section Issue

variable {h : Hdr} {a : Reg} {s : State} {f : Focus} (ready : Ready (.coll h a) h.s s f) (quiet : f.wp.mem = []) (room : f.wp.tokens.getD h.g.toNat 0 < 63)

include ready quiet room in
/-- What an issue of `coll` does: off a 64-byte boundary, where its read fails, and with its block read. -/
theorem exec_coll :
    let r := collRead f h.g a
    let z := (r.s.takeInstance f.ctx (collBlock r.bytes).group).2
    let n := (r.s.takeInstance f.ctx (collBlock r.bytes).group).1
    let wrong : EFault := { cause := Cause.paramBad, addr := sA64 f a }
    (sA64 f a % 64 ≠ 0 → exec (.coll h a) s =
      .next ((collStarted r.s (collOp f h.g r.s.eng.nextId [] 0 0 [])).cleFault f.tid f.wn f.tm f.pc wrong 0)) ∧
    (sA64 f a % 64 = 0 → ∀ x, r.fail = some x → exec (.coll h a) s =
      .next ((collStarted r.s (collOp f h.g r.s.eng.nextId [] 0 0 [])).cleFault f.tid f.wn f.tm f.pc x 0)) ∧
    (sA64 f a % 64 = 0 → r.fail = none → r.bytes ≠ [] →
      (z.collBad f.ctx (collBlock r.bytes) = true → exec (.coll h a) s =
        .next ((collStarted z (collOp f h.g z.eng.nextId r.bytes n 0 [])).cleFault f.tid f.wn f.tm f.pc wrong 0)) ∧
      (z.collBad f.ctx (collBlock r.bytes) = false → exec (.coll h a) s =
        .next (collStarted z (collOp f h.g z.eng.nextId r.bytes n (collBlock r.bytes).outRange.1 (z.ownBytes f.ctx (collBlock r.bytes).outRange))))) := by
  intro r z n wrong
  obtain ⟨focus, marker, wf, regs, ply⟩ := ready
  have free : tokHold h.g .quiet (fun w => !w.quiet) f (f.takers 0) = none := by
    rw [tokHold, Warp.token, if_neg (by omega), Warp.quiet, quiet]
    rfl
  rw [show exec (.coll h a) s = execColl h a s from rfl, execColl, tokIssue, coreIssue_eff _ _ _ _ _ _ _ f focus marker free wf regs (.inl ply) rfl]
  dsimp only
  rw [sA64_eq, show (f.commit.withWarp (f.commit.wp.bindTo h.g)).close.engineRead f.commit.ctx (sA64 f a) 64 .load = r from rfl]
  refine ⟨fun off => ?_, fun aligned x fail => ?_, fun aligned good some => ?_⟩
  · have unread : (r.fail.isSome || decide (sA64 f a % 64 ≠ 0)) = true := by simp [off]
    rw [if_pos off, if_pos unread]
    simp only [List.isEmpty_nil, if_true, off, ne_eq, not_false_eq_true, decide_true, Bool.true_or]
    rfl
  · have unread : (r.fail.isSome || decide (sA64 f a % 64 ≠ 0)) = true := by simp [fail]
    rw [if_neg (by simpa using aligned), if_pos unread, fail]
    simp [aligned]
    rfl
  · have read : ¬(r.fail.isSome || decide (sA64 f a % 64 ≠ 0)) = true := by simp [good, aligned]
    have present : ¬r.bytes.isEmpty = true := by simpa using some
    rw [if_neg (by simpa using aligned), if_neg read, good]
    simp only [if_neg present, aligned]
    refine ⟨fun bad => ?_, fun fine => ?_⟩
    · have verdict : (decide (0 ≠ 0) || (none : Option EFault).isSome ||
          (r.s.takeInstance f.commit.ctx (collBlock r.bytes).group).2.collBad f.commit.ctx (collBlock r.bytes)) = true :=
        (Bool.or_eq_true_iff).2 (.inr bad)
      simp only [if_pos verdict]
      rfl
    · have verdict : ¬(decide (0 ≠ 0) || (none : Option EFault).isSome ||
          (r.s.takeInstance f.commit.ctx (collBlock r.bytes).group).2.collBad f.commit.ctx (collBlock r.bytes)) = true := fun x =>
        ((Bool.or_eq_true_iff).1 x).elim (fun y => by cases y) (Bool.eq_false_iff.1 fine)
      simp only [if_neg verdict]
      rfl

end Issue

/-- The context of the warp at issue is that of its team. -/
theorem focus_ctxOf {s : State} {f : Focus} (focus : s.focus? = some f) : f.s.ctxOf f.tm = f.ctx := by
  rw [State.focus?] at focus
  split at focus
  · cases focus
  · split at focus
    · cases focus
    · cases focus
      rfl

/-- The team of an issue of `coll`, in any state that has the teams and bundles that the issue left. -/
theorem team_collBound {s u : State} {f : Focus} (focus : s.focus? = some f) (k : BitVec 3) (teams : u.teams = (collBound f k).teams)
    (bundles : u.bundles = (collBound f k).bundles) : ∃ tm, u.team? f.tid = some tm ∧ u.ctxOf tm = f.ctx := by
  refine ⟨{ f.tm with warps := f.tm.warps.set f.wn (f.commit.wp.bindTo k) }, ?_, ?_⟩
  · rw [State.team?, teams]
    exact (onlyWarp_close f _).team
  · rw [State.ctxOf, State.bundle?, bundles]
    exact focus_ctxOf focus

theorem cleRecord_near (tm : Team) (wn c : Nat) (pc : Word) (x : EFault) :
    cleRecord tm wn c pc x 0 = engineRecord 3 tm wn c x.cause (pc.setWidth 64) (BitVec.ofNat 64 x.addr) := rfl

/-- The number of an issue of a group, and the state with its count raised (R335). -/
theorem onlyCtx_takeInstance (s : State) (c group : Nat) :
    (s.takeInstance c group).1 = (Table.find group (s.ctx c).collCount).getD 0 ∧
    OnlyCtx s (s.takeInstance c group).2 c { s.ctx c with
      collCount := Table.put group ((Table.find group (s.ctx c).collCount).getD 0 + 1) (s.ctx c).collCount } :=
  ⟨rfl, onlyCtx_modCtx s c fun x => { x with collCount := Table.put group ((Table.find group (s.ctx c).collCount).getD 0 + 1) x.collCount }⟩

section Stops

variable {s u : State} {f : Focus} (focus : s.focus? = some f) (k : BitVec 3) (same : u.teams = (collBound f k).teams ∧ u.bundles = (collBound f k).bundles)
include focus same

/-- A block that may not be used is PARAM_BAD at its address (R334). -/
theorem haltRaised_collWrong (va : Nat) : HaltRaised u (u.cleFault f.tid f.wn f.tm f.pc { cause := Cause.paramBad, addr := va } 0) f.ctx
    (engineRecord 3 f.tm f.wn f.ctx 13 (f.pc.setWidth 64) (BitVec.ofNat 64 va)) false (some f.tid) := by
  obtain ⟨tm, team, ctx⟩ := team_collBound focus k same.1 same.2
  have halted := haltRaised_cleFault (wn := f.wn) (tm := f.tm) (pc := f.pc) (mask := 0) (x := { cause := Cause.paramBad, addr := va }) team ctx rfl ⟨rfl, rfl⟩
  rwa [cleRecord_near] at halted

/-- A read of the block that fails (R183, R335). -/
theorem engineFails_collRead (x : EFault) : EngineFails u (u.cleFault f.tid f.wn f.tm f.pc x 0) f.ctx
    (engineRecord 3 f.tm f.wn f.ctx x.cause (f.pc.setWidth 64) (BitVec.ofNat 64 x.addr)) x f.tid := by
  obtain ⟨tm, team, ctx⟩ := team_collBound focus k same.1 same.2
  rw [← cleRecord_near]
  exact engineFails_cleFault team ctx

end Stops

/-- What an issue of `coll` does with its block read (R44, R334, R335). -/
theorem collBegins {h : Hdr} {a : Reg} {s : State} {f : Focus} (ready : Ready (.coll h a) h.s s f) (quiet : f.wp.mem = [])
    (room : f.wp.tokens.getD h.g.toNat 0 < 63) {r : EOut} (read : collRead f h.g a = r) :
    let va := sA64 f a
    let group := numAt r.bytes 8 4
    let count := (Table.find group (r.s.ctx f.ctx).collCount).getD 0
    let Op (n : Nat) (bs : List Byte) (at' : Nat) (old : List (Option Byte)) : CleOp := collOp f h.g r.s.eng.nextId bs n at' old
    let bad (cause : BitVec 8) (at' : Nat) : StopRec := engineRecord 3 f.tm f.wn f.ctx cause (f.pc.setWidth 64) (BitVec.ofNat 64 at')
    (va % 64 ≠ 0 → ∃ t, exec (.coll h a) s = .next t ∧ HaltRaised (collStarted r.s (Op 0 [] 0 [])) t f.ctx (bad 13 va) false (some f.tid)) ∧
    (va % 64 = 0 → ∀ x, r.fail = some x → ∃ t, exec (.coll h a) s = .next t ∧
      EngineFails (collStarted r.s (Op 0 [] 0 [])) t f.ctx (bad x.cause x.addr) x f.tid) ∧
    (va % 64 = 0 → r.fail = none → r.bytes.length = 64 → ∃ z b olds, OnlyCtx r.s z f.ctx { r.s.ctx f.ctx with
          collCount := Table.put group (count + 1) (r.s.ctx f.ctx).collCount } ∧ BlockIs r.bytes b ∧ collBlock r.bytes = b ∧
      (¬BlockBad z f.ctx b → OldNoted z f.ctx (outVa b) (outLen b * elemBytes b) olds ∧
        exec (.coll h a) s = .next (collStarted z (Op count r.bytes (outVa b) olds))) ∧
      (BlockBad z f.ctx b → ∃ t, exec (.coll h a) s = .next t ∧
        HaltRaised (collStarted z (Op count r.bytes 0 [])) t f.ctx (bad 13 va) false (some f.tid))) := by
  intro va group count Op bad
  have focus : s.focus? = some f := ready.1
  obtain ⟨off, failed, begun⟩ := exec_coll ready quiet room
  obtain ⟨-, -, -, teams, bundles⟩ : NoAccess (collBound f h.g) (collRead f h.g a).s := noAccess_engineRead _ _ _ _ _
  rw [read] at off failed begun teams bundles
  refine ⟨fun unaligned => ⟨_, off unaligned, haltRaised_collWrong (u := collStarted _ _) focus h.g ⟨teams, bundles⟩ va⟩,
    fun aligned x fail => ⟨_, failed aligned x fail, engineFails_collRead (u := collStarted _ _) focus h.g ⟨teams, bundles⟩ x⟩, fun aligned good len => ?_⟩
  obtain ⟨badly, well⟩ := begun aligned good (List.ne_nil_of_length_pos (by rw [len]; decide))
  obtain ⟨number, counted⟩ := onlyCtx_takeInstance r.s f.ctx (collBlock r.bytes).group
  have is := blockIs_collBlock r.bytes
  have named : (collBlock r.bytes).group = group := is.ranks.1
  rw [collBad_iff, number, named] at badly
  rw [Bool.eq_false_iff, ne_eq, collBad_iff, outRange_eq, number, named] at well
  rw [named] at counted
  exact ⟨_, collBlock r.bytes, _, counted, is, rfl, fun fine => ⟨oldNoted_ownBytes _ _ _ _, well fine⟩,
    fun wrongly => ⟨_, badly wrongly, haltRaised_collWrong (u := collStarted (r.s.takeInstance f.ctx group).2 _) focus h.g ⟨teams, bundles⟩ va⟩⟩

/-- `coll` issues (R44, R172, R213, R224, R334, R335). -/
theorem collIssue : CollIssue := by
  intro h a s f ready quiet room va
  refine ⟨collBound f h.g, f.commit.wp.bindTo h.g, onlyWarp_close f _, issuedAs_bindTo f h.g, ?_⟩
  intro r
  obtain ⟨off, failed, begun⟩ := collBegins ready quiet room (show collRead f h.g a = r from rfl)
  exact ⟨off, fun aligned x fail _ => failed aligned x fail, begun⟩

/-- Settles O53: the issue notes what its results will replace; a completion follows the batches; what is delivered is combined in the order of one tree, and
written line by line. -/
theorem collectives : Obligations.Collectives := ⟨collIssue, collCompletes, collDelivers⟩

end Sys2Proof.Claims
end

section
-- One proof after another: side by side their threads pass the limit of memory that the check sets.
set_option Elab.async false
/-! SUPPORT. The canonical form of memory along the operations on the state, part 1: composition, what no update of a record touches, what follows
a change of a warp, homes and walks. Each lemma is named after the operation that keeps the form, so that a proof reads as the operation does. -/

namespace Sys2Proof

open Machine

/-! ## Composition -/

/-- The outcome of a step, event or instruction leaves memory in its canonical form. -/
def EndsOk (o : Host.Outcome State Fault Refusal) : Prop := ∀ t, o = .next t → MemoryOk t

theorem EndsOk.next {t : State} (h : MemoryOk t) : EndsOk (.next t) := fun u e => by
  obtain rfl := Host.Outcome.next.inj e
  exact h

theorem EndsOk.refused {r : Refusal} : EndsOk (.refused r) := fun _ e => nomatch e

theorem EndsOk.fault {r : Fault} : EndsOk (.fault r) := fun _ e => nomatch e

/-- A result that failed is no success. -/
theorem error_ok {ε α : Type} {f : ε} {a : α} {P : Prop} (e : Except.error f = .ok a) : P := nomatch e

variable {s t : State}

theorem EndsOk.whenever {c : Bool} (h : MemoryOk s) : EndsOk (whenever c s) := by
  unfold Machine.whenever
  split
  · exact .next h
  · exact .refused

theorem EndsOk.ite {p : Prop} [Decidable p] {x y : Host.Outcome State Fault Refusal} (h : EndsOk x) (g : EndsOk y) :
    EndsOk (if p then x else y) := by
  split
  · exact h
  · exact g

/-- A state with the memory of one in canonical form. -/
theorem MemoryOk.of_eq (h : MemoryOk s) (e : t.mem = s.mem) : MemoryOk t := by
  rw [MemoryOk, e]
  exact h

/-- A state with the cells and the host memory of one in canonical form. -/
theorem MemoryOk.of_cells (h : MemoryOk s) (cells : t.mem.cells = s.mem.cells) (host : t.mem.host = s.mem.host) : MemoryOk t :=
  Mem.wf_of_cells s.mem t.mem h cells host

/-- A state written out field by field. -/
theorem MemoryOk.mk {power cfg fabric mem worlds queues ctxs bundles teams eng stamp freeCtr steps issue input stall agenda} (h : mem.wf = true) :
    MemoryOk ⟨power, cfg, fabric, mem, worlds, queues, ctxs, bundles, teams, eng, stamp, freeCtr, steps, issue, input, stall, agenda⟩ := h

/-- A fold over what carries a state. -/
theorem MemoryOk.foldl_of {α β : Type} (g : β → State) {f : β → α → β} {b : β} (l : List α) (h : MemoryOk (g b))
    (keeps : ∀ b x, MemoryOk (g b) → MemoryOk (g (f b x))) : MemoryOk (g (l.foldl f b)) := by
  induction l generalizing b with
  | nil => exact h
  | cons x rest ih => exact ih (keeps b x h)

theorem MemoryOk.foldl {α : Type} {f : State → α → State} {l : List α} (h : MemoryOk s) (keeps : ∀ s x, MemoryOk s → MemoryOk (f s x)) :
    MemoryOk (l.foldl f s) := foldl_of id l h keeps

theorem MemoryOk.ite {p : Prop} [Decidable p] (h : MemoryOk s) (g : MemoryOk t) : MemoryOk (if p then s else t) := by
  split
  · exact h
  · exact g

/-- The same for the state that an answer carries. -/
theorem MemoryOk.ite_of {α : Type} (f : α → State) {p : Prop} [Decidable p] {x y : α} (h : MemoryOk (f x)) (g : MemoryOk (f y)) :
    MemoryOk (f (if p then x else y)) := by
  split
  · exact h
  · exact g

/-- The state that a pair names. -/
theorem MemoryOk.of_fst {α : Type} {p : State × α} {x : α} (h : MemoryOk p.1) (e : p = (s, x)) : MemoryOk s := by
  rwa [e] at h

theorem MemoryOk.of_snd {α : Type} {p : α × State} {x : α} (h : MemoryOk p.2) (e : p = (x, s)) : MemoryOk s := by
  rwa [e] at h

/-! ## Updates of records -/

theorem MemoryOk.setTeam {n v} (h : MemoryOk s) : MemoryOk (s.setTeam n v) := h
theorem MemoryOk.setCtx {n v} (h : MemoryOk s) : MemoryOk (s.setCtx n v) := h
theorem MemoryOk.modCtx {n f} (h : MemoryOk s) : MemoryOk (s.modCtx n f) := h
theorem MemoryOk.setQueue {n v} (h : MemoryOk s) : MemoryOk (s.setQueue n v) := h
theorem MemoryOk.modQueue {n f} (h : MemoryOk s) : MemoryOk (s.modQueue n f) := h
theorem MemoryOk.setBundle {n v} (h : MemoryOk s) : MemoryOk (s.setBundle n v) := h
theorem MemoryOk.setLink {n v} (h : MemoryOk s) : MemoryOk (s.setLink n v) := h
theorem MemoryOk.pushRec {q r} (h : MemoryOk s) : MemoryOk (s.pushRec q r) := h
theorem MemoryOk.closePacket {q i} (h : MemoryOk s) : MemoryOk (s.closePacket q i) := h
theorem MemoryOk.resyncBounce {c} (h : MemoryOk s) : MemoryOk (s.resyncBounce c) := h
theorem MemoryOk.raiseHalt {c r b n} (h : MemoryOk s) : MemoryOk (s.raiseHalt c r b n) := h
theorem MemoryOk.recordOsf {c d b k a} (h : MemoryOk s) : MemoryOk (s.recordOsf c d b k a) := h
theorem MemoryOk.pushHandler {c r} (h : MemoryOk s) : MemoryOk (s.pushHandler c r) := h
theorem MemoryOk.freeImage {c n} (h : MemoryOk s) : MemoryOk (s.freeImage c n) := h
theorem MemoryOk.modMemErr {n f} (h : MemoryOk s) : MemoryOk (s.modMemErr n f) := h
theorem MemoryOk.overrun {a} (h : MemoryOk s) : MemoryOk (s.overrun a) := h
theorem MemoryOk.chargePort {i c n} (h : MemoryOk s) : MemoryOk (s.chargePort i c n) := h
theorem MemoryOk.heard {i} (h : MemoryOk s) : MemoryOk (s.heard i) := h
theorem MemoryOk.takeSeq (h : MemoryOk s) : MemoryOk s.takeSeq := h
theorem MemoryOk.tookPacket {i} (h : MemoryOk s) : MemoryOk (s.tookPacket i) := h
theorem MemoryOk.addCmd {k c q} (h : MemoryOk s) : MemoryOk (s.addCmd k c q) := h
theorem MemoryOk.dropCmd {n} (h : MemoryOk s) : MemoryOk (s.dropCmd n) := h
theorem MemoryOk.setBounce {c k b} (h : MemoryOk s) : MemoryOk (s.setBounce c k b) := h
theorem MemoryOk.worldStatus {x op} (h : MemoryOk s) : MemoryOk (s.worldStatus x op) := h
theorem MemoryOk.wakeAll (h : MemoryOk s) : MemoryOk s.wakeAll := h
theorem MemoryOk.mapWarps {c f} (h : MemoryOk s) : MemoryOk (s.mapWarps c f) := h
theorem MemoryOk.spendLeaf (h : MemoryOk s) : MemoryOk s.spendLeaf := h.of_cells rfl rfl

theorem MemoryOk.modTeam {n f} (h : MemoryOk s) : MemoryOk (s.modTeam n f) := h.of_eq (State.modTeam_mem _ _ _)

theorem MemoryOk.modWarp {n w f} (h : MemoryOk s) : MemoryOk (s.modWarp n w f) := h.modTeam

theorem MemoryOk.complete {q p x y} (h : MemoryOk s) : MemoryOk (s.complete q p x y) := h.of_eq (State.complete_mem _ _ _ _ _)

theorem MemoryOk.completeCmd {c x y} (h : MemoryOk s) : MemoryOk (s.completeCmd c x y) := by
  unfold State.completeCmd
  rcases Cmd.queue _ with _ | _
  · exact h.dropCmd
  · exact h.dropCmd.complete

theorem MemoryOk.countFailure {x} (h : MemoryOk s) : MemoryOk (s.countFailure x) := .ite h h

theorem MemoryOk.tamperAlarmed (h : MemoryOk s) : MemoryOk s.tamperAlarmed :=
  .ite h (h.of_cells (s := s) rfl rfl)

/-! ## What follows a change of a warp -/

theorem MemoryOk.releaseStage {n b x} (h : MemoryOk s) : MemoryOk (s.releaseStage n b x) := by
  unfold State.releaseStage
  rcases State.team? _ _ with _ | _
  · exact h
  · exact .ite h h

theorem MemoryOk.advanceStage {n b} (h : MemoryOk s) : MemoryOk (s.advanceStage n b) := by
  unfold State.advanceStage
  rcases State.team? _ _ with _ | _
  · exact h
  · exact h.setTeam.foldl fun _ _ h => h.releaseStage

theorem MemoryOk.settleWarp {n w} (h : MemoryOk s) : MemoryOk (State.settleWarp n s w) := by
  unfold State.settleWarp
  rcases State.team? _ _ with _ | _
  · exact h
  · exact .ite h (.ite h.setTeam.advanceStage h.setTeam)

theorem MemoryOk.settleTeam {n b} (h : MemoryOk s) : MemoryOk (s.settleTeam n b) := by
  unfold State.settleTeam
  rcases State.team? _ _ with _ | _
  · exact h
  · exact (h.advanceStage.foldl fun _ _ h => h.foldl fun _ _ h => h.settleWarp).modTeam

theorem MemoryOk.startPeriod {c} (h : MemoryOk s) : MemoryOk (s.startPeriod c) := h

theorem MemoryOk.endPeriod {c} (h : MemoryOk s) : MemoryOk (s.endPeriod c) := .ite (.ite h h) h

theorem MemoryOk.settleTempo {c} (h : MemoryOk s) : MemoryOk (s.settleTempo c) := h.mapWarps.endPeriod.endPeriod

theorem MemoryOk.takeTag {c} (h : MemoryOk s) : MemoryOk (s.takeTag c).2 := .ite_of Prod.snd h h.startPeriod

theorem MemoryOk.serveList {core slot fresh l held} (h : MemoryOk s) : MemoryOk (State.serveList core slot fresh l held s) := by
  induction l generalizing held s with
  | nil => exact h
  | cons x rest ih => exact .ite (ih h.modWarp) (ih h)

theorem MemoryOk.serveSlot {core slot fresh} (h : MemoryOk s) : MemoryOk (s.serveSlot core slot fresh) := h.serveList

theorem MemoryOk.serveAll (h : MemoryOk s) : MemoryOk s.serveAll := h.foldl fun _ _ h => h.serveSlot

theorem MemoryOk.checkDeadlock {n} (h : MemoryOk s) : MemoryOk (s.checkDeadlock n) := by
  unfold State.checkDeadlock
  rcases State.team? _ _ with _ | _
  · exact h
  · refine .ite h ?_
    rcases List.findSome? _ _ with _ | _
    · exact h
    · exact h.raiseHalt

theorem MemoryOk.reap {n} (h : MemoryOk s) : MemoryOk (s.reap n) := by
  unfold State.reap
  rcases State.team? _ _ with _ | _
  · exact h
  · refine .ite (MemoryOk.of_eq (s := s) h ?_) h
    dsimp only
    rcases State.bundle? _ _ with _ | _ <;> rfl

theorem MemoryOk.settlePreempts (h : MemoryOk s) : MemoryOk s.settlePreempts := by
  refine h.foldl fun u c h => ?_
  cases Cmd.kind c with
  | preempt cores =>
    cases Cmd.queue c with
    | none => exact h
    | some p => exact .ite h (MemoryOk.complete h)
  | _ => exact h

theorem MemoryOk.after {n b} (h : MemoryOk s) : MemoryOk (s.after n b) := by
  unfold State.after
  rcases State.team? _ _ with _ | _
  · exact h
  · exact h.settleTeam.settleTempo.wakeAll.serveAll.checkDeadlock.reap.settlePreempts

/-! ## Links -/

theorem MemoryOk.give {i early p} (h : MemoryOk s) : MemoryOk (s.give i early p).1 := h

theorem MemoryOk.sendPacket {i c n b} (h : MemoryOk s) : MemoryOk (s.sendPacket i c n b).1 := by
  refine .ite_of Prod.fst h ?_
  rcases e : State.give _ _ _ _ with ⟨t, _ | _⟩
  · exact (h.give.of_fst e :)
  · exact (h.give.of_fst e).chargePort

theorem MemoryOk.exhaust {l} (h : MemoryOk s) : MemoryOk (s.exhaust l) := h.foldl fun _ _ h => h.setLink

theorem MemoryOk.remapPlanes (h : MemoryOk s) : MemoryOk s.remapPlanes := by
  unfold State.remapPlanes
  dsimp only
  split <;> exact h

theorem MemoryOk.unsend {i} (h : MemoryOk s) : MemoryOk (s.unsend i) := h

theorem MemoryOk.failLink {i} (h : MemoryOk s) : MemoryOk (s.failLink i) := MemoryOk.remapPlanes h

theorem MemoryOk.postAnswer {i m p} (h : MemoryOk s) : MemoryOk (s.postAnswer i m p) := by
  refine .ite h ?_
  cases m with
  | none => exact h.setLink
  | some c => exact h.setLink

theorem MemoryOk.answer {i m q a} (h : MemoryOk s) : MemoryOk (s.answer i m q a) := h.postAnswer

/-! ## Homes -/

theorem MemoryOk.countCorrected {k} (h : MemoryOk s) : MemoryOk (s.countCorrected k) := h.modMemErr

theorem MemoryOk.poisonAt {k a} (h : MemoryOk s) : MemoryOk (s.poisonAt k a) := h.of_cells rfl rfl

theorem MemoryOk.befall {i a e} (h : MemoryOk s) : MemoryOk (s.befall i a e) := by
  unfold State.befall
  rcases State.reached _ _ with _ | _
  · exact h
  · cases e with
    | plain => exact h
    | networkTag => exact h
    | corrected => exact h.countCorrected
    | uncorrectable => exact h.poisonAt
    | tampered => exact .ite (h.of_cells (s := s) rfl rfl) h

theorem MemoryOk.befallRange {i a n} (h : MemoryOk s) : MemoryOk (s.befallRange i a n) := h.foldl fun _ _ h => h.befall

theorem MemoryOk.homeFail {n x} (h : MemoryOk s) : MemoryOk (s.homeFail n x).s := h.countFailure

theorem MemoryOk.mxRead {i w c a n} (h : MemoryOk s) : MemoryOk (s.mxRead i w c a n).s := by
  unfold State.mxRead
  dsimp only
  rcases List.findSome? _ _ with _ | _
  · exact .ite h h.overrun
  · exact (MemoryOk.ite h h.overrun).homeFail

theorem MemoryOk.flashRead {w c a n} (h : MemoryOk s) : MemoryOk (s.flashRead w c a n).s := .ite_of HomeOut.s h.homeFail h

theorem MemoryOk.homeRead {i w c a n} (h : MemoryOk s) : MemoryOk (s.homeRead i w c a n).s := by
  unfold State.homeRead
  cases regionOf a with
  | mxWindow => exact h.mxRead
  | flash => exact h.flashRead
  | _ =>
    dsimp only
    rcases State.spoiledRange _ _ _ _ _ _ with _ | _
    · exact h
    · exact h.homeFail

theorem MemoryOk.agentRead {i w c a n} (h : MemoryOk s) : MemoryOk (s.agentRead i w c a n).s := .ite_of HomeOut.s h.homeRead h.homeRead

theorem MemoryOk.homeWrite {i w c a mask bs sector line} (h : MemoryOk s) : MemoryOk (s.homeWrite i w c a mask bs sector line).s :=
  State.wf_homeWrite s i w c a mask bs sector line h

/-! ## Walks -/

/-- The state that a request to another device leaves, however it ends. -/
noncomputable def leftBy : FarGo → State
  | .gone t | .waits t | .missed t _ | .failed t _ => t

theorem MemoryOk.farGo {c fa q} (h : MemoryOk s) : MemoryOk (leftBy (s.farGo c fa q)) := by
  refine .ite_of leftBy h ?_
  dsimp only
  rcases e : State.sendPacket _ _ _ _ _ with ⟨t, _ | _⟩
  · exact h.sendPacket.of_fst e
  · have sent := (h.sendPacket.of_fst e).takeSeq.heard (i := s.planeOf fa)
    dsimp only
    rcases State.farMiss _ _ with _ | _
    · rcases State.farFails _ _ _ with _ | _ <;> exact sent
    · exact sent

theorem MemoryOk.left {c fa q g} (h : MemoryOk s) (e : s.farGo c fa q = g) : MemoryOk (leftBy g) := e ▸ h.farGo

theorem MemoryOk.readTable {c r} (h : MemoryOk s) : MemoryOk (s.readTable c r).1 := by
  cases r with
  | home a i w m => exact h.befallRange
  | away dev a w m =>
    unfold State.readTable
    dsimp only
    rcases e : State.farGo _ _ _ _ with _ | _ | _ | _ <;> exact (h.left e :)

theorem MemoryOk.readTables {c l} (h : MemoryOk s) : MemoryOk (State.readTables c l s) := by
  induction l generalizing s with
  | nil => exact h
  | cons r rest ih => exact .ite (ih h.readTable) h.readTable

theorem MemoryOk.walkFor {c va} (h : MemoryOk s) : MemoryOk (s.walkFor c va) := .ite h h.readTables

end Sys2Proof
end

section
-- One proof after another: side by side their threads pass the limit of memory that the check sets.
set_option Elab.async false
/-! SUPPORT. The canonical form of memory along the operations on the state, part 2: accesses of the CPX, the CSE, Tempo, the engines and firmware, and
save areas. -/

namespace Sys2Proof

open Machine

variable {s : State}

/-! ## Failures of an access -/

theorem MemoryOk.cpxFault {c x a} (h : MemoryOk s) : MemoryOk (s.cpxFault c x a) := .ite h h.raiseHalt

theorem MemoryOk.rootFault {c a x} (h : MemoryOk s) : MemoryOk (s.rootFault c a x) := h.cpxFault

theorem MemoryOk.cpxMiss {c d a k} (h : MemoryOk s) : MemoryOk (s.cpxMiss c d a k) := h.recordOsf.cpxFault

theorem MemoryOk.cpxWalkMiss {c va m} (h : MemoryOk s) : MemoryOk (s.cpxWalkMiss c va m) := by
  unfold State.cpxWalkMiss
  rcases Miss.why _ with _ | _ | _ | _ | _
  · exact h
  · exact h.cpxFault.countFailure
  · exact h.cpxMiss
  · exact h.cpxFault
  · exact h.cpxFault.tamperAlarmed

theorem MemoryOk.cpxMissed {n c va} (h : MemoryOk s) : MemoryOk (s.cpxMissed n c va) := by
  refine .ite h ?_
  rcases State.translate _ _ _ _ with _ | _
  · exact h.cpxWalkMiss
  · exact h

theorem MemoryOk.cpxProbe {n c va} (h : MemoryOk s) : MemoryOk (s.cpxProbe n c va) := h.walkFor.cpxMissed

theorem MemoryOk.cpxFar {c va d a q f} (h : MemoryOk s) : MemoryOk (s.cpxFar c va d a q f).s := by
  unfold State.cpxFar
  rcases e : State.farGo _ _ _ _ with _ | _ | _ | _
  · exact (h.left e :)
  · exact (h.left e :)
  · exact MemoryOk.cpxMiss (h.left e :)
  · exact MemoryOk.cpxFault (h.left e :)

theorem MemoryOk.lineTampered {c va} (h : MemoryOk s) : MemoryOk (s.lineTampered c va) := h.cpxFault.tamperAlarmed

/-! ## Reads and writes of the CPX, the CSE and Tempo -/

theorem MemoryOk.readPiece {c p} (h : MemoryOk s) : MemoryOk (s.readPiece c p).s := by
  have walked := h.walkFor (c := c) (va := p.1)
  unfold State.readPiece
  dsimp only
  rcases State.lead _ _ _ _ _ with _ | _ | _
  · dsimp only
    rcases State.targetOf _ _ _ with _ | _ | _ | _
    · refine .ite_of Got.s walked.cpxFault.tamperAlarmed ?_
      rcases HomeOut.fail _ with _ | _
      · exact walked.befall.agentRead
      · exact walked.befall.agentRead.cpxFault
    · exact walked.cpxFar
    · exact walked
    · exact walked
  · exact walked.cpxWalkMiss
  · exact walked

theorem MemoryOk.readPieces {c l} {g : Got} (h : MemoryOk g.s) : MemoryOk (readPieces c l g).s := by
  induction l generalizing g with
  | nil => exact h
  | cons p rest ih =>
    unfold Machine.readPieces
    rcases Got.bytes _ with _ | _
    · exact h
    · exact ih h.readPiece

theorem MemoryOk.readVa {c va n} (h : MemoryOk s) : MemoryOk (s.readVa c va n).s := MemoryOk.readPieces h

theorem MemoryOk.putTarget {c va x bs whole} (h : MemoryOk s) : MemoryOk (s.putTarget c va x bs whole).s := by
  unfold State.putTarget
  rcases x with _ | _ | _ | _
  · refine .ite_of Put.s h.cpxFault.tamperAlarmed ?_
    dsimp only
    rcases HomeOut.fail _ with _ | _
    · exact h.befallRange.homeWrite
    · exact h.befallRange.homeWrite.cpxFault
  · exact h.cpxFar
  · exact h
  · exact h

theorem MemoryOk.writePiece {c p bs whole} (h : MemoryOk s) : MemoryOk (s.writePiece c p bs whole).s := by
  unfold State.writePiece
  dsimp only
  rcases State.lead _ _ _ _ _ with _ | _ | _
  · exact h.walkFor.putTarget
  · exact h.walkFor.cpxWalkMiss
  · exact h.walkFor

theorem MemoryOk.writePieces {c whole l bs} {r : Put} (h : MemoryOk r.s) : MemoryOk (writePieces c whole l bs r).s := by
  induction l generalizing bs r with
  | nil => exact h
  | cons p rest ih => exact ih h.writePiece

theorem MemoryOk.putVa {c va bs} (h : MemoryOk s) : MemoryOk (s.putVa c va bs).s := MemoryOk.writePieces h

theorem MemoryOk.writeVa {c va bs} (h : MemoryOk s) : MemoryOk (s.writeVa c va bs) := h.putVa

theorem MemoryOk.writeRecordVa {c va bs} (h : MemoryOk s) : MemoryOk (s.writeRecordVa c va bs) := MemoryOk.writePieces h

theorem MemoryOk.writeFault {c l} (h : MemoryOk s) : MemoryOk (s.writeFault c l) := by
  induction l with
  | nil => exact h
  | cons p rest ih =>
    unfold State.writeFault
    rcases State.lead _ _ _ _ _ with _ | _ | _
    · exact ih
    · exact h.cpxProbe
    · exact h

theorem MemoryOk.tryWrite {c va bs} (h : MemoryOk s) : MemoryOk (s.tryWrite c va bs).s := .ite_of Put.s h.putVa h.writeFault

/-! ## Whole lines -/

theorem MemoryOk.engineHome {i w c a mask bs} (h : MemoryOk s) : MemoryOk (s.engineHome i w c a mask bs).s := by
  refine .ite_of HomeOut.s h.homeWrite ?_
  dsimp only
  rcases HomeOut.fail _ with _ | _
  · exact h.homeWrite.homeWrite
  · exact h.homeWrite

theorem MemoryOk.putLine {i w k a bs} (h : MemoryOk s) : MemoryOk (s.putLine i w k a bs).s := h.engineHome

theorem MemoryOk.sendLine {c va x bs} (h : MemoryOk s) : MemoryOk (s.sendLine c va x bs).s := by
  unfold State.sendLine
  rcases x with _ | _ | _ | _
  · refine .ite_of Put.s h.lineTampered ?_
    dsimp only
    rcases HomeOut.fail _ with _ | _
    · exact h.befallRange.putLine
    · exact h.befallRange.putLine.cpxFault
  · exact h.cpxFar
  · exact h
  · exact h

theorem MemoryOk.fetchLine {c va x} (h : MemoryOk s) : MemoryOk (s.fetchLine c va x).s := by
  unfold State.fetchLine
  rcases x with _ | _ | _ | _
  · refine .ite_of Got.s h.lineTampered ?_
    dsimp only
    rcases HomeOut.fail _ with _ | _
    · exact h.befallRange.agentRead
    · exact h.befallRange.agentRead.cpxFault
  · exact h.cpxFar
  · exact h
  · exact h

theorem MemoryOk.getChunk {c va x} (h : MemoryOk s) : MemoryOk (s.getChunk c va x).s := by
  refine MemoryOk.foldl_of Got.s _ h fun g i h => ?_
  rcases Got.bytes _ with _ | _
  · exact h
  · exact h.fetchLine

theorem MemoryOk.putChunk {c va x bs} (h : MemoryOk s) : MemoryOk (s.putChunk c va x bs).s :=
  MemoryOk.foldl_of Put.s _ h fun _ _ h => .ite_of Put.s h.sendLine h

/-! ## Save areas -/

theorem MemoryOk.rootPiece {c p} (h : MemoryOk s) : MemoryOk (s.rootPiece c p).s := by
  refine .ite_of Got.s h.rootFault.tamperAlarmed ?_
  dsimp only
  rcases HomeOut.fail _ with _ | _
  · exact h.befallRange.homeRead
  · exact h.befallRange.homeRead.rootFault

theorem MemoryOk.readRoot {c l} {g : Got} (h : MemoryOk g.s) : MemoryOk (readRoot c l g).s := by
  induction l generalizing g with
  | nil => exact h
  | cons p rest ih =>
    unfold Machine.readRoot
    rcases Got.bytes _ with _ | _
    · exact h
    · exact ih h.rootPiece

theorem MemoryOk.saveRead {c pos n} (h : MemoryOk s) : MemoryOk (s.saveRead c pos n).s := by
  unfold State.saveRead
  dsimp only
  rcases State.handlerOf _ _ with _ | _
  · exact .ite_of Got.s (MemoryOk.readRoot h) h
  · exact h.readVa

theorem MemoryOk.putRootPiece {c p bs whole} (h : MemoryOk s) : MemoryOk (s.putRootPiece c p bs whole).s := by
  refine .ite_of Put.s h.rootFault.tamperAlarmed ?_
  dsimp only
  rcases HomeOut.fail _ with _ | _
  · exact h.befallRange.homeWrite
  · exact h.befallRange.homeWrite.rootFault

theorem MemoryOk.writeRoot {c whole l bs} {r : Put} (h : MemoryOk r.s) : MemoryOk (writeRoot c whole l bs r).s := by
  induction l generalizing bs r with
  | nil => exact h
  | cons p rest ih => exact ih h.putRootPiece

theorem MemoryOk.savePut {c pos bs} (h : MemoryOk s) : MemoryOk (s.savePut c pos bs).s := by
  unfold State.savePut
  dsimp only
  rcases State.handlerOf _ _ with _ | _
  · exact .ite_of Put.s (MemoryOk.writeRoot h) h
  · exact h.tryWrite

theorem MemoryOk.saveWrite {c pos bs t} (h : MemoryOk s) (e : s.saveWrite c pos bs = .ok t) : MemoryOk t := by
  unfold State.saveWrite at e
  split at e
  · obtain rfl := Except.ok.inj e
    exact h.savePut
  · cases e

theorem MemoryOk.holdImage {c pos bs t} (h : MemoryOk s) (e : s.holdImage c pos bs = .ok t) : MemoryOk t := by
  unfold State.holdImage at e
  cases w : s.saveWrite c pos bs with
  | error f => rw [w] at e; cases e
  | ok u =>
    rw [w] at e
    obtain rfl := Except.ok.inj e
    exact (h.saveWrite w).modCtx

theorem MemoryOk.notSaved {c f} (h : MemoryOk s) : EndsOk (s.notSaved c f) := by
  unfold State.notSaved
  rcases f with _ | _
  · exact .refused
  · exact EndsOk.ite (.next h.savePut) .refused

theorem MemoryOk.imageNow {c pos} (h : MemoryOk s) : MemoryOk (s.imageNow c pos).s := by
  unfold State.imageNow
  dsimp only
  rcases Got.bytes _ with _ | _
  · exact h.saveRead
  · exact h.saveRead.saveRead

theorem MemoryOk.sptEntry {c k i w} (h : MemoryOk s) : MemoryOk (s.sptEntry c k i w).1 := .ite_of Prod.fst h h.readVa

theorem MemoryOk.warpEntry {c k full w} (h : MemoryOk s) : MemoryOk (s.warpEntry c k full w).1 := by
  refine .ite_of Prod.fst h ?_
  rcases Warp.oneSpt _ with _ | _
  · exact h
  · exact h.sptEntry

theorem MemoryOk.warpEntries {c k full l} (h : MemoryOk s) : MemoryOk (State.warpEntries c k full l s).1 := by
  induction l generalizing s with
  | nil => exact h
  | cons w rest ih => exact ih h.warpEntry

theorem MemoryOk.teamImage {tm full x} (h : MemoryOk s) : MemoryOk (s.teamImage tm full x).s := h.warpEntries

theorem MemoryOk.copyImage {tm} (h : MemoryOk s) : MemoryOk (s.copyImage tm).s := by
  unfold State.copyImage
  dsimp only
  cases Team.place tm with
  | saved => exact h.imageNow
  | _ => exact h.teamImage (x := 0)

theorem MemoryOk.copyImages {d} (h : MemoryOk s) : MemoryOk (s.copyImages d).s :=
  MemoryOk.foldl_of GotAll.s _ h fun _ _ h => h.copyImage

theorem MemoryOk.zugEntry {c k w} (h : MemoryOk s) : MemoryOk (s.zugEntry c k w).1 := by
  unfold State.zugEntry
  rcases Warp.lastSpt _ with _ | _
  · exact h
  · exact .ite_of Prod.fst h.sptEntry h

theorem MemoryOk.zugImage {tm n w} (h : MemoryOk s) : MemoryOk (s.zugImage tm n w).1 := h.zugEntry

theorem MemoryOk.freeZug {c tm} (h : MemoryOk s) : MemoryOk (s.freeZug c tm) := by
  refine h.foldl fun u w h => ?_
  rcases Warp.zug _ with _ | _
  · exact h
  · exact h.freeImage

theorem MemoryOk.saveTeam {n tm full x ready wish p} (h : MemoryOk s) (e : s.saveTeam n tm full x ready wish = .ok p) : MemoryOk p.1 := by
  revert e
  unfold State.saveTeam
  dsimp only
  rcases Ctx.areaPos _ _ _ with _ | pos
  · exact error_ok
  · dsimp only
    rcases held : State.holdImage _ _ _ _ with _ | u
    · exact error_ok
    · exact fun e => Except.ok.inj e ▸ MemoryOk.freeZug (MemoryOk.setTeam (h.teamImage.holdImage held :))

theorem MemoryOk.reportMiss {n r image} (h : MemoryOk s) : MemoryOk (s.reportMiss n r image) := h.modCtx.pushHandler

theorem MemoryOk.restored {tm pos} (h : MemoryOk s) : MemoryOk (s.restored tm pos).1 := h.imageNow

/-! ## Accesses of the engines -/

theorem MemoryOk.engineFar {c va d a q f} (h : MemoryOk s) : MemoryOk (s.engineFar c va d a q f).s := by
  unfold State.engineFar
  rcases e : State.farGo _ _ _ _ with _ | _ | _ | _ <;> exact (h.left e :)

theorem MemoryOk.enginePiece {c k p} (h : MemoryOk s) : MemoryOk (s.enginePiece c k p).s := by
  have walked := h.walkFor (c := c) (va := p.1)
  unfold State.enginePiece
  dsimp only
  rcases State.engineLead _ _ _ _ with _ | _
  · exact walked
  · dsimp only
    rcases State.targetOf _ _ _ with _ | _ | _ | _
    · exact .ite_of EOut.s walked walked.befallRange.agentRead
    · exact walked.engineFar
    · exact walked
    · exact walked

theorem MemoryOk.enginePieces {c k l} {o : EOut} (h : MemoryOk o.s) : MemoryOk (State.enginePieces c k l o).s := by
  induction l generalizing o with
  | nil => exact h
  | cons p rest ih =>
    unfold State.enginePieces
    rcases EOut.fail _ with _ | _
    · exact ih h.enginePiece
    · exact h

theorem MemoryOk.engineRead {c va n k} (h : MemoryOk s) : MemoryOk (s.engineRead c va n k).s := MemoryOk.enginePieces h

theorem MemoryOk.enginePut {c k va mask bs} (h : MemoryOk s) : MemoryOk (s.enginePut c k va mask bs).s := by
  have walked := h.walkFor (c := c) (va := va)
  unfold State.enginePut
  dsimp only
  rcases State.engineLead _ _ _ _ with _ | _
  · exact walked
  · dsimp only
    rcases State.targetOf _ _ _ with _ | _ | _ | _
    · exact .ite_of EOut.s walked walked.befallRange.engineHome
    · exact walked.engineFar
    · exact walked
    · exact walked

theorem MemoryOk.engineStore {c k l} (h : MemoryOk s) : MemoryOk (s.engineStore c k l).s := by
  refine MemoryOk.foldl_of EOut.s _ h fun o g h => ?_
  rcases EOut.fail _ with _ | _
  · exact h.enginePut
  · exact h

theorem MemoryOk.faultMarks {x} (h : MemoryOk s) : MemoryOk (s.faultMarks x) :=
  .ite (MemoryOk.ite h.countFailure h).tamperAlarmed (.ite h.countFailure h)

theorem MemoryOk.engineFault {n r x} (h : MemoryOk s) : MemoryOk (s.engineFault n r x) := by
  unfold State.engineFault
  rcases State.team? _ _ with _ | _
  · exact h
  · refine MemoryOk.faultMarks (MemoryOk.raiseHalt ?_)
    rcases EFault.far _ with _ | _
    · exact h
    · exact h.recordOsf

theorem MemoryOk.cleFault {n w tm pc x mask} (h : MemoryOk s) : MemoryOk (s.cleFault n w tm pc x mask) := h.engineFault

theorem MemoryOk.tceFault {tm o b x mask skid} (h : MemoryOk s) : MemoryOk (s.tceFault tm o b x mask skid) := h.engineFault

theorem MemoryOk.ripeHead {c va} (h : MemoryOk s) : MemoryOk (s.ripeHead c va).1 := by
  unfold State.ripeHead
  dsimp only
  rcases EOut.fail _ with _ | _
  · exact h.engineRead
  · refine MemoryOk.faultMarks ?_
    rcases EFault.far _ with _ | _
    · exact .ite h.engineRead.cpxFault h.engineRead
    · exact h.engineRead.cpxMiss

/-! ## Firmware -/

theorem MemoryOk.firmwareSector {a} (h : MemoryOk s) : MemoryOk (s.firmwareSector a).s := .ite_of Got.s h.tamperAlarmed h.befallRange.homeRead

theorem MemoryOk.readSectors {l} {g : Got} (h : MemoryOk g.s) : MemoryOk (readSectors l g).s := by
  induction l generalizing g with
  | nil => exact h
  | cons a rest ih =>
    conv in Machine.readSectors _ _ => whnf
    rcases Got.bytes _ with _ | _
    · exact h
    · exact ih h.firmwareSector

theorem MemoryOk.firmwarePage {a} (h : MemoryOk s) : MemoryOk (s.firmwarePage a).s := MemoryOk.readSectors h

theorem MemoryOk.putFirmwareSector {a bs} (h : MemoryOk s) : MemoryOk (s.putFirmwareSector a bs) := .ite h.tamperAlarmed h.befallRange.homeWrite

theorem MemoryOk.putFirmwarePage {a bs} (h : MemoryOk s) : MemoryOk (s.putFirmwarePage a bs) := h.foldl fun _ _ h => h.putFirmwareSector

end Sys2Proof
end

section
-- One proof after another: side by side their threads pass the limit of memory that the check sets.
set_option Elab.async false
/-! SUPPORT. The canonical form of memory along the issue of an instruction: one lemma for each shared form of an issue. -/

namespace Sys2Proof

open Machine

variable {s : State} {f : Focus}

/-! ## The warp at issue -/

theorem MemoryOk.close (h : MemoryOk f.s) : MemoryOk f.close := h
theorem MemoryOk.park {x} (h : MemoryOk f.s) : MemoryOk (f.park x) := h
theorem MemoryOk.stop {x} (h : MemoryOk f.s) : MemoryOk (f.stop x) := h
theorem MemoryOk.stopAt {x a m b} (h : MemoryOk f.s) : MemoryOk (f.stopAt x a m b) := h
theorem MemoryOk.fetchFault {x a} (h : MemoryOk f.s) : MemoryOk (f.fetchFault x a) := h
theorem MemoryOk.commit (h : MemoryOk f.s) : MemoryOk f.commit.s := h
theorem MemoryOk.withWarp {w} (h : MemoryOk f.s) : MemoryOk (f.withWarp w).s := h
theorem MemoryOk.await {l n p} (h : MemoryOk f.s) : MemoryOk (f.await l n p).s := h
theorem MemoryOk.arrive {l n} (h : MemoryOk f.s) : MemoryOk (f.arrive l n).s := by
  unfold Focus.arrive
  exact h
theorem MemoryOk.engage {k x} (h : MemoryOk f.s) : MemoryOk (f.engage k x).s := h
theorem MemoryOk.closeAfter (h : MemoryOk f.s) : MemoryOk f.closeAfter := MemoryOk.after h.close

theorem MemoryOk.focusTag (h : MemoryOk f.s) : MemoryOk f.takeTag.2.s := by
  unfold Focus.takeTag
  rcases e : State.takeTag _ _ with ⟨n, t⟩
  dsimp only
  rcases State.team? _ _ with _ | _
  · exact h
  · exact (h.close.takeTag.of_snd e :)

theorem MemoryOk.pageMiss {m} (h : MemoryOk f.s) : MemoryOk (f.pageMiss m) := .ite h h

theorem MemoryOk.missed {m va} (h : MemoryOk f.s) : MemoryOk (f.missed m va) := by
  unfold Focus.missed
  dsimp only
  rcases Miss.why _ with _ | _ | _ | _ | _
  · exact h.pageMiss
  · exact h.close.raiseHalt.countFailure
  · exact h.close.recordOsf.raiseHalt
  · exact h.close.raiseHalt
  · exact h.close.raiseHalt.tamperAlarmed

theorem MemoryOk.rememberAll {c l} (h : MemoryOk s) : MemoryOk (s.rememberAll c l) := by
  refine h.foldl fun u x h => ?_
  rcases Probed.tr _ with _ | _
  · exact h
  · exact .ite h h

theorem MemoryOk.enqueue {l k o sc us n cs} (h : MemoryOk f.s) : MemoryOk (f.enqueue l k o sc us n cs) := MemoryOk.rememberAll h.withWarp.close

/-! ## What stops an instruction -/

/-- What an instruction stops with leaves memory in its canonical form. -/
def StopsOk (o : Option State) : Prop := ∀ t, o = some t → MemoryOk t

theorem StopsOk.none : StopsOk none := fun _ e => nomatch e

theorem StopsOk.some (h : MemoryOk s) : StopsOk (some s) := fun t e => by
  obtain rfl := Option.some.inj e
  exact h

theorem StopsOk.ite {p : Prop} [Decidable p] {x y : Option State} (h : StopsOk x) (g : StopsOk y) : StopsOk (if p then x else y) := by
  split
  · exact h
  · exact g

theorem MemoryOk.gateFault {sel a part} (h : MemoryOk f.s) : StopsOk (gateFault sel a f part) := .ite .none (.some h.stop)

theorem MemoryOk.mmaFault {a b x} (h : MemoryOk f.s) : StopsOk (mmaFault a b x f) :=
  .ite (.some h.stop) (.ite (.some h.stop) (.ite (.some h.stop) .none))

theorem MemoryOk.moveFault {t n x} (h : MemoryOk f.s) : StopsOk (moveFault t n x f) := .ite (.some h.stop) (.ite (.some h.stop) .none)

/-- What a probe stops with leaves memory in its canonical form. -/
def ProbeOk (o : ProbeOut) : Prop := ∀ t, o = .bad t → MemoryOk t

theorem ProbeOk.good {l} : ProbeOk (.good l) := fun _ e => nomatch e

theorem ProbeOk.bad (h : MemoryOk s) : ProbeOk (.bad s) := fun t e => by
  obtain rfl := ProbeOut.bad.inj e
  exact h

theorem MemoryOk.probe {k n l} (h : MemoryOk f.s) : ProbeOk (f.probe k n l) := by
  unfold Focus.probe
  rcases List.find? _ _ with _ | _
  · dsimp only
    rcases List.find? _ _ with _ | _
    · dsimp only
      rcases List.findSome? _ _ with _ | _
      · dsimp only
        rcases List.findSome? _ _ with _ | _
        · dsimp only
          split
          · exact .bad h.withWarp.stopAt
          · exact .good
        · exact .bad h.stopAt
      · exact .bad h.missed
    · exact .bad h.stopAt
  · exact .bad h.stopAt

/-! ## The shared forms -/

section Forms

variable {i : Instr} {mark : Bool} {g : PReg} {hd : Hdr}

theorem MemoryOk.coreIssue {hold own eff} (h : MemoryOk s) (stops : ∀ f part, MemoryOk f.s → StopsOk (own f part))
    (acts : ∀ f part c, MemoryOk f.s → MemoryOk c.s → MemoryOk (eff f part c)) : EndsOk (coreIssue i mark g hold own eff s) := by
  cases e : s.focus? with
  | none =>
    rw [coreIssue_none _ _ _ _ _ _ _ e]
    exact .refused
  | some f =>
    have same : MemoryOk f.s := by
      rw [State.focus_state s f e]
      exact h
    rw [coreIssue_some _ _ _ _ _ _ _ _ e]
    refine .next (.ite same.park ?_)
    rcases hold f (f.takers g) with _ | _
    · refine .ite same.stop (.ite same.stop (.ite same.stop ?_))
      rcases e : own f (f.takers g) with _ | _
      · exact acts f _ _ same same.commit
      · exact stops f _ same _ e
    · exact same.park

theorem MemoryOk.regIssue {upd} (h : MemoryOk s) : EndsOk (regIssue i mark g upd s) :=
  h.coreIssue (fun _ _ _ => .none) fun _ _ _ _ c => c.withWarp.close

theorem MemoryOk.onceIssue {hold own eff} (h : MemoryOk s) (stops : ∀ f part, MemoryOk f.s → StopsOk (own f part))
    (acts : ∀ f part c, MemoryOk f.s → MemoryOk c.s → MemoryOk (eff f part c)) : EndsOk (onceIssue i hd hold own eff s) :=
  h.coreIssue (fun f part h => .ite .none (stops f part h)) fun f part c h k => .ite k.close (acts f part c h k)

theorem MemoryOk.markedIssue {target} (h : MemoryOk s) : EndsOk (markedIssue i hd target s) :=
  h.coreIssue (fun _ _ _ => .none) fun _ _ _ _ c => c.withWarp.closeAfter

theorem MemoryOk.tokIssue {x busy own eff} (h : MemoryOk s) (stops : ∀ f, MemoryOk f.s → StopsOk (own f))
    (acts : ∀ f c, MemoryOk f.s → MemoryOk c.s → MemoryOk (eff f c)) : EndsOk (tokIssue i hd x busy own eff s) :=
  h.coreIssue (fun f _ => stops f) fun f _ c => acts f c

theorem MemoryOk.mxeIssue {own kind} (h : MemoryOk s) (stops : ∀ f, MemoryOk f.s → StopsOk (own f)) : EndsOk (mxeIssue i hd own kind s) :=
  h.tokIssue stops fun _ _ _ c => c.engage.close

theorem MemoryOk.memIssue {k n u lanes enter} (h : MemoryOk s)
    (acts : ∀ f c l, MemoryOk f.s → MemoryOk c.s → MemoryOk (enter f c l)) : EndsOk (memIssue i hd k n u lanes enter s) := by
  refine h.coreIssue (fun f part h => .ite .none ?_) fun f part c h k => .ite k.close ?_
  · rcases e : Focus.probe _ _ _ _ with _ | _
    · exact .some (h.probe _ e)
    · exact .none
  · rcases e : Focus.probe _ _ _ _ with _ | _
    · exact h.probe _ e
    · exact acts f c _ h k

theorem MemoryOk.atomIssue {op d a m} (h : MemoryOk s) : EndsOk (atomIssue i op hd d a m s) := h.memIssue fun _ _ _ _ c => c.enqueue

end Forms

/-! ## The instructions that have a form of their own -/

section Instructions

variable {hd : Hdr} {d a : Reg}

theorem MemoryOk.execGpw (h : MemoryOk s) : EndsOk (execGpw hd s) :=
  h.onceIssue (fun _ _ h => .ite .none (.some h.stop)) fun _ _ _ _ c => c.focusTag.withWarp.closeAfter

theorem MemoryOk.execDfree (h : MemoryOk s) : EndsOk (execDfree hd a s) :=
  h.onceIssue (fun _ _ h => .ite .none (.some h.withWarp.close)) fun _ _ _ _ c => c.focusTag.close.modCtx

theorem MemoryOk.execGate (h : MemoryOk s) : EndsOk (execGate hd a s) :=
  h.coreIssue (fun _ _ h => h.gateFault) fun _ _ _ _ c => .ite c.close c.withWarp.close

theorem MemoryOk.execDlrel (h : MemoryOk s) : EndsOk (execDlrel hd a s) :=
  h.coreIssue (fun _ _ h => h.gateFault) fun _ _ _ _ c => .ite c.close c.withWarp.closeAfter

theorem MemoryOk.execRalloc (h : MemoryOk s) : EndsOk (execRalloc hd a s) :=
  h.onceIssue (fun _ _ h => .ite (.some h.stop) .none) fun _ _ _ _ c => .ite c.withWarp.close c.withWarp.close.serveSlot

theorem MemoryOk.execRfree (h : MemoryOk s) : EndsOk (execRfree hd a s) :=
  h.onceIssue (fun _ _ h => .ite (.some h.stop) .none) fun _ _ _ _ c => c.withWarp.close.serveSlot

theorem MemoryOk.execCpost (h : MemoryOk s) : EndsOk (execCpost hd d s) := by
  refine h.onceIssue (fun _ _ h => .ite .none (.some h.withWarp.close)) fun f _ c _ k => ?_
  rcases State.bundle? _ _ with _ | _
  · exact k.close
  · exact k.close.pushRec

theorem MemoryOk.execSpt {m i} (h : MemoryOk s) : EndsOk (execSpt m i s) :=
  h.coreIssue (fun _ _ _ => .none) fun _ _ _ _ c => .ite c.withWarp.closeAfter c.withWarp.closeAfter

theorem MemoryOk.execWait {m n} (h : MemoryOk s) : EndsOk (execWait m n s) :=
  h.coreIssue (fun _ _ _ => .none) fun _ _ _ _ c => .ite c.withWarp.close c.withWarp.close

theorem MemoryOk.execBarJoin (h : MemoryOk s) : EndsOk (execBarJoin hd a s) :=
  h.onceIssue (fun _ _ _ => .none) fun _ _ _ _ c => c.arrive.await.closeAfter

theorem MemoryOk.execBarMark (h : MemoryOk s) : EndsOk (execBarMark hd a s) :=
  h.onceIssue (fun _ _ _ => .none) fun _ _ _ _ c => c.arrive.closeAfter

theorem MemoryOk.execBarHold (h : MemoryOk s) : EndsOk (execBarHold hd a s) :=
  h.onceIssue (fun _ _ _ => .none) fun _ _ _ _ c => c.await.closeAfter

theorem MemoryOk.execExit (h : MemoryOk s) : EndsOk (execExit hd s) := h.onceIssue (fun _ _ _ => .none) fun _ _ _ _ c => c.withWarp.closeAfter

theorem MemoryOk.execCstage (h : MemoryOk s) : EndsOk (execCstage hd s) :=
  h.tokIssue (fun _ h => .ite (.some h.stop) .none) fun _ _ _ c => c.withWarp.closeAfter

theorem MemoryOk.execTst (h : MemoryOk s) : EndsOk (execTst hd d a s) := h.tokIssue (fun _ _ => .none) fun _ _ _ c => c.engage.withWarp.close

theorem MemoryOk.takeInstance {c n} (h : MemoryOk s) : MemoryOk (s.takeInstance c n).2 := h.modCtx

theorem MemoryOk.execColl (h : MemoryOk s) : EndsOk (execColl hd a s) := by
  refine h.tokIssue (fun _ _ => .none) fun f c _ k => ?_
  extract_lets va c1 r bs b
  have read : MemoryOk r.s := MemoryOk.engineRead (k.withWarp (w := c.wp.bindTo hd.g)).close
  split
  next n s1 e =>
  have counted : MemoryOk s1 := by
    refine MemoryOk.of_snd (p := if bs.isEmpty then (0, r.s) else r.s.takeInstance c.ctx b.group) ?_ e
    exact .ite_of Prod.snd read read.takeInstance
  extract_lets bad op _ s2
  have noted : MemoryOk s2 := counted
  refine .ite noted.cleFault ?_
  rcases EOut.fail _ with _ | _
  · exact .ite noted.cleFault noted
  · exact noted.cleFault

end Instructions

end Sys2Proof
end

section
-- One proof after another: side by side their threads pass the limit of memory that the check sets.
set_option Elab.async false
/-! SUPPORT. The canonical form of memory along the events of a start, of registers, of links and of accesses at their home. -/

namespace Sys2Proof

open Machine

variable {s : State}

/-! ## A start -/

/-- Locations of a unit that trained are left out; what is left is in its canonical form. -/
theorem wf_zeroUnit {m : Mem} {n} (h : m.wf = true) : (m.zeroUnit n).wf = true := by
  simp only [Mem.wf, Bool.and_eq_true] at h ⊢
  exact ⟨Sparse.wf_filter _ _ _ h.1, h.2⟩

theorem MemoryOk.zeroHbm (h : MemoryOk s) : MemoryOk s.zeroHbm := by
  simp only [MemoryOk, Mem.wf, Bool.and_eq_true] at h ⊢
  exact ⟨Sparse.wf_filter _ _ _ h.1, h.2⟩

theorem MemoryOk.newStart {cold sec b} (h : MemoryOk s) : MemoryOk (s.newStart cold sec b) := by
  unfold State.newStart
  dsimp only
  rcases bootFailure _ _ with _ | _ <;> exact Mem.wf_flashOnly _ h

theorem MemoryOk.resetCtl {cold go} (h : MemoryOk s) : MemoryOk (s.resetCtl cold go) := .ite h.newStart h

theorem MemoryOk.execMainPowerOff (h : MemoryOk s) : EndsOk (execMainPowerOff s) := .whenever (Mem.wf_flashOnly _ h)

theorem MemoryOk.execFirmwareLoaded (h : MemoryOk s) : EndsOk (execFirmwareLoaded s) :=
  .ite .refused (.ite (.next h) (.ite (.next h) (.next (wf_zeroUnit (wf_zeroUnit h)))))

theorem MemoryOk.execUnitTrained (h : MemoryOk s) : EndsOk (execUnitTrained s) := by
  refine .ite .refused ?_
  dsimp only
  rcases Input.part _ with _ | _ | _ | _
  · exact .next (wf_zeroUnit h)
  · exact .next h
  · exact .next (.ite (.remapPlanes (.setLink h)) (.setLink h))
  · exact .next h

/-! ## Registers of the physical function -/

theorem MemoryOk.putCfgCtl {n} (h : MemoryOk s) : MemoryOk (s.putCfgCtl n) := .ite h (.ite h h)

theorem MemoryOk.lockable {b t} (h : MemoryOk s) (g : MemoryOk t) : MemoryOk (s.lockable b t) := .ite h (.ite h (.ite g h))

theorem MemoryOk.rekey {n} (h : MemoryOk s) : MemoryOk (s.rekey n) := h.foldl fun _ _ h => .ite h.setLink h

theorem MemoryOk.stopForGood {c} (h : MemoryOk s) : MemoryOk (s.stopForGood c) := h

/-- A branch taken at one number. A match on numbers is opened by the name of its matcher: `split` would first prove an equation for each branch. -/
theorem MemoryOk.lit {n k : Nat} {x : State} {f : ¬n = k → State} (h : MemoryOk x) (g : ∀ e, MemoryOk (f e)) :
    MemoryOk (dite (n = k) (Eq.ndrec_symm (motive := fun _ => State) x) f) := by
  by_cases e : n = k
  · subst e
    rwa [dif_pos rfl]
  · rw [dif_neg e]
    exact g e

set_option linter.auxLemma false in
theorem MemoryOk.startWorld {op} (h : MemoryOk s) : MemoryOk (s.startWorld op) := by
  delta State.startWorld State.startWorld.match_1
  refine .ite h (.lit (.ite h (.ite h h)) fun _ => .lit (.ite h (.ite h (.ite h h))) fun _ => ?_)
  exact .ite h (MemoryOk.foldl h fun _ _ h => h.stopForGood).worldStatus

theorem MemoryOk.putWorldCmd {a} (h : MemoryOk s) : MemoryOk (s.putWorldCmd a) := .ite h (.ite (.mk h) (.startWorld (.mk h)))

theorem MemoryOk.putHashMask {i m} (h : MemoryOk s) : MemoryOk (s.putHashMask i m) := .ite h h.zeroHbm

/-- A write of a register of the physical function, the registers in the order of their offsets (R72). -/
theorem MemoryOk.pfWrite {off a} (h : MemoryOk s) : MemoryOk (s.pfWrite off a) := by
  refine .ite h (.ite (.ite h.resetCtl h) (.ite h ?_))
  extract_lets img
  refine .ite (.ite h h) (.ite (.ite h.putCfgCtl h) (.ite h ?_))
  refine .ite (h.lockable h) (.ite (h.lockable h) (.ite (.ite h.rekey h) (.ite h.putWorldCmd ?_)))
  refine .ite (.ite h h) (.ite (h.lockable h) (.ite (h.lockable h.putHashMask) (.ite (.ite h.modMemErr h) ?_)))
  exact .ite (h.lockable h) (.ite h (.ite (.ite h h) h))

theorem MemoryOk.pfOnly {off a} (h : MemoryOk s) : EndsOk (pfOnly s off a) := .ite .refused (.next (.ite h.pfWrite h))

theorem MemoryOk.execCfgRunDone (h : MemoryOk s) : EndsOk (execCfgRunDone s) :=
  .ite .refused (.next (.foldl h fun _ _ h => h.modCtx.foldl fun _ _ h => h.modQueue))

/-! ## Registers of queues and contexts -/

theorem MemoryOk.queueError {q x a i} (h : MemoryOk s) : MemoryOk (s.queueError q x a i) := by
  unfold State.queueError
  dsimp only
  rcases Queue.owner _ with _ | _
  · exact h.modQueue.pushRec
  · exact .ite h.modQueue.pushRec.pushHandler h.modQueue.pushRec

theorem MemoryOk.enableQueue {q} (h : MemoryOk s) : MemoryOk (s.enableQueue q) :=
  .ite h.modQueue (.ite h.modQueue.queueError (.ite h.modQueue.queueError h.modQueue.modQueue))

theorem MemoryOk.disableQueue {q} (h : MemoryOk s) : MemoryOk (s.disableQueue q) := by
  unfold State.disableQueue
  dsimp only
  cases Queue.state _ with
  | blocked =>
    rcases Queue.cur _ with _ | _
    · exact h.modQueue
    · exact h.modQueue.modQueue.complete
  | _ => exact h.modQueue

theorem MemoryOk.restartQueue {q} (h : MemoryOk s) : MemoryOk (s.restartQueue q) := .ite h.modQueue h

theorem MemoryOk.putCqCtl {q d} (h : MemoryOk s) : MemoryOk (s.putCqCtl q d) := by
  unfold State.putCqCtl
  extract_lets s1 s2 s3
  have set : MemoryOk s1 := h.modQueue
  have moved : MemoryOk s2 := .ite set.enableQueue (.ite set.disableQueue set)
  exact MemoryOk.wakeAll (.ite moved.restartQueue moved)

theorem MemoryOk.putWidx {q w} (h : MemoryOk s) : MemoryOk (s.putWidx q w) := .ite h.modQueue (.ite h h.queueError)

theorem MemoryOk.putRidx {q w} (h : MemoryOk s) : MemoryOk (s.putRidx q w) := .ite h.modQueue h

set_option linter.auxLemma false in
theorem MemoryOk.putQueueReg {q r a} (h : MemoryOk s) : MemoryOk (s.putQueueReg q r a) := by
  delta State.putQueueReg State.putQueueReg.match_1
  refine .lit (.ite h h.modQueue) fun _ => .lit (.ite h.putCqCtl h) fun _ => .lit (.ite h.putWidx h) fun _ => .lit (.ite h.putRidx h) fun _ => ?_
  exact .lit h.modQueue.wakeAll fun _ => .lit (.ite h.modQueue.wakeAll h) fun _ => h

theorem MemoryOk.forget {c b n} (h : MemoryOk s) : MemoryOk (s.forget c b n) := h

theorem MemoryOk.refreshWatches {d b n c} (h : MemoryOk s) : MemoryOk (State.refreshWatches d b n s c) := h.foldl fun _ _ h => .ite h.modCtx h

theorem MemoryOk.refreshSubtree {d b n} (h : MemoryOk s) : MemoryOk (s.refreshSubtree d b n) := h.foldl fun _ _ h => h.refreshWatches

theorem MemoryOk.putPtb {c x} (h : MemoryOk s) : MemoryOk (s.putPtb c x) := h.modCtx.forget.refreshSubtree

theorem MemoryOk.putSaveArea {c a} (h : MemoryOk s) : MemoryOk (s.putSaveArea c a) := h.modCtx

theorem MemoryOk.putOsfErr {c a} (h : MemoryOk s) : MemoryOk (s.putOsfErr c a) := h.modCtx

set_option linter.auxLemma false in
theorem MemoryOk.putRootReg {c off a} (h : MemoryOk s) : MemoryOk (s.putRootReg c off a) := by
  delta State.putRootReg State.putRootReg.match_1
  refine .lit h.putPtb fun _ => .lit h.modCtx fun _ => .lit h.modCtx fun _ => .lit (.ite h h.modCtx) fun _ => ?_
  exact .lit h.putSaveArea fun _ => .lit h.putOsfErr fun _ => h

theorem MemoryOk.putBounce {c k r a} (h : MemoryOk s) : MemoryOk (s.putBounce c k r a) := .ite h h.modCtx

theorem MemoryOk.vfWrite {c off a} (h : MemoryOk s) : MemoryOk (s.vfWrite c off a) :=
  .ite (.ite h.putQueueReg h) (.ite h (.ite h.putRootReg (.ite h.putBounce h)))

theorem MemoryOk.putTempoRing {c a} (h : MemoryOk s) : MemoryOk (s.putTempoRing c a) := h.modCtx

theorem MemoryOk.putWatch {c k r a} (h : MemoryOk s) : MemoryOk (s.putWatch c k r a) := h.modCtx

theorem MemoryOk.doorWrite {c off d} (h : MemoryOk s) : MemoryOk (s.doorWrite c off d) :=
  .ite (.ite h.putQueueReg h) (.ite (.ite h.putTempoRing h) (.ite (.ite h.putSaveArea h) (.ite (.ite h.putWatch h)
    (.ite (.ite h.putOsfErr h) (.ite (.ite h.putBounce h) h)))))

theorem MemoryOk.execRegisterWrite (h : MemoryOk s) : EndsOk (execRegisterWrite s) := by
  unfold Machine.execRegisterWrite
  rcases busAcc _ _ _ with _ | _
  · exact .next h
  · dsimp only
    rcases Input.writer _ with _ | _ | _
    · exact .next h.pfWrite
    · exact .next h.vfWrite
    · exact .next (.ite h.doorWrite h)

theorem MemoryOk.pageWrite {off a} (h : MemoryOk s) : EndsOk (pageWrite s off a) := by
  unfold Machine.pageWrite
  cases Input.writer _ with
  | vf => exact .next (.ite h.putRootReg h)
  | _ => exact .refused

theorem MemoryOk.bounceWrite {r a} (h : MemoryOk s) : EndsOk (bounceWrite s r a) := by
  unfold Machine.bounceWrite
  rcases Writer.acts _ with _ | _
  · exact .refused
  · exact .next (.ite h.putBounce h)

theorem MemoryOk.execBchAbort (h : MemoryOk s) : EndsOk (execBchAbort s) := by
  unfold Machine.execBchAbort
  rcases Writer.acts _ with _ | _
  · exact .refused
  · exact h.bounceWrite

theorem MemoryOk.execTempoRingWrite (h : MemoryOk s) : EndsOk (execTempoRingWrite s) := by
  unfold Machine.execTempoRingWrite
  cases Input.writer _ with
  | ctx => exact .next (.ite h.putTempoRing h)
  | _ => exact .refused

theorem MemoryOk.slotWrite {f : Nat → State} (h : MemoryOk s) (writes : ∀ q, MemoryOk (f q)) : EndsOk (slotWrite s f) :=
  .next (.ite (writes _) h)

/-! ## Links -/

theorem MemoryOk.execLinkKeyInstalled (h : MemoryOk s) : EndsOk (execLinkKeyInstalled s) := .ite .refused (.next h.spendLeaf.setLink)

theorem MemoryOk.imprecise {n w x pc a} (h : MemoryOk s) : MemoryOk (s.imprecise n w x pc a) := by
  unfold State.imprecise
  rcases State.team? _ _ with _ | _
  · exact h
  · exact h.raiseHalt

theorem MemoryOk.blame {n w r u x} (h : MemoryOk s) : MemoryOk (s.blame n w r u x) := by
  unfold State.blame
  rcases x with _ | _
  · exact h
  · exact h.imprecise

theorem MemoryOk.sourceMiss {x is k} (h : MemoryOk s) : MemoryOk (s.sourceMiss x is k) := h.modWarp.recordOsf.imprecise.after

theorem MemoryOk.execRemoteRequestSend (h : MemoryOk s) : EndsOk (execRemoteRequestSend s) := by
  unfold Machine.execRemoteRequestSend
  rcases State.sending? _ with _ | _
  · exact .refused
  · refine .ite .refused (.ite (.next (.sourceMiss h)) (.ite .refused ?_))
    dsimp only
    rcases e : State.give _ _ _ _ with ⟨t, _ | _⟩
    · exact .next (.of_fst (.give (.mk h)) e)
    · have sent : MemoryOk t := .of_fst (.give (.mk h)) e
      exact .next (.modWarp (.chargePort (.ite sent sent)))

theorem MemoryOk.targetMiss {m q k} (h : MemoryOk s) : MemoryOk (s.targetMiss m q k) := .ite h.recordOsf h.recordOsf.pushHandler.raiseHalt

/-- One access of a request served keeps the form when the access itself does. -/
theorem MemoryOk.take {x : Serving} {n} {o : HomeOut} (h : MemoryOk x.s) (g : MemoryOk o.s) : MemoryOk (x.take n o).s := by
  unfold Serving.take
  rcases HomeOut.fail _ with _ | _
  · exact g
  · exact .ite h g

theorem MemoryOk.serve {t q} (h : MemoryOk s) : MemoryOk (s.serve t q).s := by
  unfold State.serve
  dsimp only
  rcases RemoteReq.kind _ with _ | _ | _
  · exact MemoryOk.foldl_of Serving.s _ h fun _ _ h => h.take h.agentRead
  · exact MemoryOk.foldl_of Serving.s _ h fun _ _ h => h.take h.homeWrite
  · dsimp only
    rcases atomOfCode _ with _ | _
    · exact h
    · dsimp only
      rcases HomeOut.fail _ with _ | _
      · exact h.agentRead.homeWrite
      · exact h.agentRead

theorem MemoryOk.remoteWatch {n q c} (h : MemoryOk s) : MemoryOk (State.remoteWatch n q s c) := by
  unfold State.remoteWatch
  dsimp only
  rcases List.filter _ _ with _ | _
  · exact h
  · exact .ite h.modCtx h.raiseHalt

theorem MemoryOk.remoteWatches {n q} (h : MemoryOk s) : MemoryOk (s.remoteWatches n q) := h.foldl fun _ _ h => h.remoteWatch

theorem MemoryOk.receive {i q e} (h : MemoryOk s) : MemoryOk (s.receive i q e) := by
  unfold State.receive
  rcases List.find? _ _ with _ | _
  · dsimp only
    rcases State.member _ _ with _ | _
    · exact .answer h
    · dsimp only
      rcases State.targetCheck _ _ _ with _ | _
      · exact .answer h.targetMiss
      · exact .ite (.answer h.tamperAlarmed) (.answer h.befall.serve.remoteWatches)
  · exact h.answer

theorem MemoryOk.presentOne {i q e} (h : MemoryOk s) : MemoryOk (s.presentOne i q e) := .receive h

theorem MemoryOk.drainReorder {src i n} (h : MemoryOk s) : MemoryOk (State.drainReorder src i n s) := by
  induction n generalizing s with
  | zero => exact h
  | succ n ih =>
    unfold State.drainReorder
    dsimp only
    rcases List.find? _ _ with _ | _
    · exact h
    · exact ih (.presentOne h)

theorem MemoryOk.execRemoteRequestArrive (h : MemoryOk s) : EndsOk (execRemoteRequestArrive s) :=
  .ite .refused (.ite (.next (.ite h.tookPacket (.mk h.tookPacket))) (.ite (.next (.ite h.tookPacket.receive h.tookPacket))
    (.next h.tookPacket.presentOne.drainReorder)))

theorem MemoryOk.remoteMiss {k} (h : MemoryOk s) : EndsOk (remoteMiss s k) := by
  refine .ite .refused (.ite ?_ ?_)
  · dsimp only
    rcases State.engineMiss _ _ _ with _ | _
    · exact .refused
    · exact .next h.tookPacket.heard.engineFault
  · rcases State.sending? _ with _ | _
    · exact .refused
    · exact .ite (.next h.tookPacket.heard.sourceMiss) .refused

theorem MemoryOk.settle {n w id u off l} (h : MemoryOk s) : MemoryOk (s.settle n w id u off l) := h.modWarp

theorem MemoryOk.takeAnswer {x is bs bad} (h : MemoryOk s) : MemoryOk (s.takeAnswer x is bs bad) := (h.foldl fun _ _ h => h.settle).modWarp

theorem MemoryOk.execRemoteAck (h : MemoryOk s) : EndsOk (execRemoteAck s) := by
  unfold Machine.execRemoteAck
  rcases State.sending? _ with _ | _
  · exact .refused
  · refine .ite .refused ?_
    dsimp only
    rcases answerFailure _ with _ | _
    · exact .next (.after (.takeAnswer (.heard (.tookPacket h))))
    · exact .next (.after (.blame (.takeAnswer (.heard (.tookPacket h)))))

theorem MemoryOk.execRetransmissionRequest (h : MemoryOk s) : EndsOk (execRetransmissionRequest s) := by
  unfold Machine.execRetransmissionRequest
  dsimp only
  rcases GetElem?.getElem? _ _ with _ | _
  · exact .refused
  · exact .ite .refused (.ite (.next h.setLink.failLink) (.next h.setLink))

/-! ## Accesses at their home -/

theorem MemoryOk.performAt {n tm c r u whole line} (h : MemoryOk s) : MemoryOk (s.performAt n tm c r u whole line).s := by
  unfold State.performAt
  rcases MemUnit.tgt _ with ⟨_, _, _, _⟩ | _ | _ | _
  · dsimp only
    rcases MemReq.kind _ with _ | _ | _
    · exact h.agentRead
    · exact h.homeWrite
    · dsimp only
      rcases HomeOut.fail _ with _ | _
      · exact h.agentRead.homeWrite
      · exact h.agentRead
  · exact h
  · dsimp only
    rcases MemReq.kind _ with _ | _ | _
    · exact h
    · exact h.setTeam
    · exact h.setTeam
  · dsimp only
    rcases MemReq.kind _ with _ | _ | _
    · exact h
    · exact .ite h.doorWrite h
    · exact h

theorem MemoryOk.performAll {n w c r whole line l} (h : MemoryOk s) : MemoryOk (State.performAll n w c r whole line l s).s := by
  induction l generalizing s with
  | nil => exact h
  | cons i rest ih =>
    conv in State.performAll _ _ _ _ _ _ _ _ => whnf
    rcases GetElem?.getElem? _ _ with _ | _
    · exact ih h
    · rcases State.team? _ _ with _ | _
      · exact ih h
      · dsimp only
        rcases Performed.fail _ with _ | _
        · exact ih h.performAt.settle
        · exact h.performAt.modWarp

theorem MemoryOk.execHomePerform (h : MemoryOk s) : EndsOk (execHomePerform s) := by
  unfold Machine.execHomePerform
  dsimp only
  rcases State.team? _ _ with _ | tm
  · exact .refused
  · dsimp only
    rcases List.find? _ _ with _ | r
    · exact .refused
    · dsimp only
      rcases GetElem?.getElem? _ _ with _ | u
      · exact .refused
      · refine .ite .refused ?_
        rcases (if r.kind == .load then s.forward u (List.reverse _) else .home) with _ | _ | _
        · dsimp only
          rcases MemUnit.tgt _ with _ | _ | _ | _
          · rcases Input.home _
            case networkTag => exact .next (.after (.tamperAlarmed (.blame (.modWarp h))))
            all_goals exact .next (.after (.blame (.performAll (.befall h))))
          all_goals exact .next (.after (.blame (.performAll h)))
        · exact .next (.after (.settle h))
        · exact .refused

theorem MemoryOk.execResultReturn (h : MemoryOk s) : EndsOk (execResultReturn s) := by
  unfold Machine.execResultReturn
  rcases State.team? _ _ with _ | _
  · exact .refused
  · dsimp only
    rcases GetElem?.getElem? _ _ with _ | _
    · exact .refused
    · exact .ite .refused (.next (.after (.modWarp h)))

theorem MemoryOk.execMarkedBranchRendezvous (h : MemoryOk s) : EndsOk (execMarkedBranchRendezvous s) := by
  unfold Machine.execMarkedBranchRendezvous
  rcases State.team? _ _ with _ | _
  · exact .refused
  · exact .ite .refused (.next h.setTeam.after)

end Sys2Proof
end

section
-- One proof after another: side by side their threads pass the limit of memory that the check sets.
set_option Elab.async false
/-! SUPPORT. The canonical form of memory along packets, subtree commands, tensors, scrubs, records, worlds and bounce channels. -/

namespace Sys2Proof

open Machine

variable {s : State}

/-! ## Events that may wait for a plane -/

theorem MemoryOk.waitOver {t : State} (h : MemoryOk t) : MemoryOk (s.waitOver t) := h

theorem MemoryOk.waitAt {t : State} {l} (h : MemoryOk s) : MemoryOk (s.waitAt t l) := h

theorem MemoryOk.throughLinks {eff} (h : MemoryOk s) (ends : ∀ u : State, MemoryOk u → EndsOk (eff u)) : EndsOk (throughLinks eff s) := by
  intro t e
  obtain ⟨u, took, ⟨-, -, rfl⟩ | ⟨-, -, rfl⟩ | ⟨-, -, rfl⟩⟩ := throughLinks_next e
  · exact (ends _ (.mk h) u took).waitOver
  · exact h.waitAt
  · exact h.exhaust

/-! ## The packet at RIDX -/

theorem MemoryOk.showBlocked {q} (h : MemoryOk s) : MemoryOk (s.showBlocked q) := h.modQueue

theorem MemoryOk.beginPacket {q c p} (h : MemoryOk s) : MemoryOk (s.beginPacket q c p) := h.modQueue.modCtx

theorem MemoryOk.readPacket {q c} (h : MemoryOk s) : MemoryOk (s.readPacket q c) := by
  unfold State.readPacket
  dsimp only
  rcases Got.bytes _ with _ | _
  · exact h.readVa.queueError
  · exact .ite h.readVa.queueError (.ite h.readVa.modQueue h.readVa.modQueue.showBlocked)

theorem MemoryOk.lookAtPacket (h : MemoryOk s) : EndsOk (lookAtPacket s) := by
  unfold Machine.lookAtPacket
  dsimp only
  rcases Queue.owner _ with _ | _
  · exact .refused
  · refine .ite .refused ?_
    rcases Queue.cur _ with _ | _
    · exact .next h.readPacket
    · exact .ite (.next h.showBlocked) .refused

theorem MemoryOk.packetEvent {is eff} (h : MemoryOk s) (acts : ∀ (u : State) q p c, MemoryOk u → MemoryOk (eff u q p c)) :
    EndsOk (packetEvent is eff s) := by
  refine h.throughLinks fun u h => ?_
  dsimp only
  rcases Queue.cur _ with _ | _
  · exact .refused
  · rcases Queue.owner _ with _ | _
    · exact .refused
    · exact .ite (.next (acts _ _ _ _ h.beginPacket)) .refused

/-! ## LAUNCH -/

theorem MemoryOk.readRecord {c b f va} (h : MemoryOk s) : MemoryOk (s.readRecord c b f va).1 := by
  unfold State.readRecord
  dsimp only
  rcases Got.bytes _ with _ | _
  · exact h.readVa
  · refine .ite_of Prod.fst h.readVa ?_
    rcases Got.bytes _ with _ | _
    · exact h.readVa.readVa
    · dsimp only
      rcases Got.bytes _ with _ | _
      · exact h.readVa.readVa.readVa
      · exact h.readVa.readVa.readVa

theorem MemoryOk.readChain {c f n l va} (h : MemoryOk s) : MemoryOk (State.readChain c f n l va s).1 := by
  induction n generalizing l va s with
  | zero => exact h
  | succ n ih =>
    conv in State.readChain _ _ _ _ _ _ => whnf
    refine .ite_of Prod.fst h ?_
    rcases e : State.readRecord _ _ _ _ _ with ⟨t, _ | _⟩
    · exact h.readRecord.of_fst e
    · have read := h.readRecord.of_fst e
      refine .ite_of Prod.fst read ?_
      rcases e : State.readChain _ _ _ _ _ _ with ⟨u, _ | _⟩
      · exact (ih read).of_fst e
      · exact (ih read).of_fst e

theorem MemoryOk.execLaunch (h : MemoryOk s) : EndsOk (execLaunch s) := by
  refine h.packetEvent fun u q p c h => ?_
  dsimp only
  rcases e : State.readChain _ _ _ _ _ _ with ⟨t, _ | _⟩
  · exact (h.readChain.of_fst e).modQueue.complete
  · exact .modQueue (.setBundle (.mk (h.readChain.of_fst e)))

/-! ## Mailboxes -/

theorem MemoryOk.refuseMailbox {q c p d} (h : MemoryOk s) : MemoryOk (s.refuseMailbox q c p d) :=
  .complete (.ite h.beginPacket.writeFault (.ite h.beginPacket h.beginPacket.cpxMissed))

theorem MemoryOk.failMailbox {q c p t a x} (h : MemoryOk s) : MemoryOk (s.failMailbox q c p t a x) := h.raiseHalt.complete

theorem MemoryOk.deliver {q c p bs} (h : MemoryOk s) : MemoryOk (s.deliver q c p bs) := .ite h.complete h.tryWrite.complete

theorem wf_setFull {m : Mem} {a b} (h : m.wf = true) : (m.setFull a b).wf = true := h

theorem MemoryOk.serveMailbox {q c p w t} (h : MemoryOk s) : MemoryOk (s.serveMailbox q c p w t) := by
  have reached := (h.beginPacket (q := q) (c := c) (p := p)).befallRange (i := t.inter.toNat) (a := sbmBase + w) (n := 8)
  refine .ite h.beginPacket.failMailbox.tamperAlarmed (.ite (.complete (wf_setFull reached.homeWrite)) ?_)
  dsimp only
  rcases HomeOut.fail _ with _ | _
  · exact .deliver (wf_setFull reached.agentRead)
  · exact reached.agentRead.failMailbox

theorem MemoryOk.tryMailbox {k f q c p} (h : MemoryOk s) : MemoryOk (s.tryMailbox k f q c p) := by
  unfold State.tryMailbox
  rcases State.mailbox _ _ _ _ with _ | _
  · exact h.refuseMailbox
  · exact .ite h.refuseMailbox (.ite h.serveMailbox (.modQueue h))

theorem MemoryOk.walkMailbox {c p} (h : MemoryOk s) : MemoryOk (s.walkMailbox c p) := .ite h h.walkFor

theorem MemoryOk.mailboxEvent {k f n} (h : MemoryOk s) : EndsOk (mailboxEvent k f n s) := by
  refine h.throughLinks fun u h => ?_
  unfold mailboxOnce
  dsimp only
  rcases Queue.cur _ with _ | _
  · exact .refused
  · rcases Queue.owner _ with _ | _
    · exact .refused
    · exact .ite .refused (.next h.walkMailbox.tryMailbox)

theorem MemoryOk.endWait {q c p w} (h : MemoryOk s) : MemoryOk (s.endWait q c p w) := by
  unfold State.endWait
  rcases State.mailbox _ _ _ _ with _ | _
  · exact h.refuseMailbox
  · exact .ite h.serveMailbox h.beginPacket.complete

theorem MemoryOk.serveWaiting (h : MemoryOk s) : EndsOk (serveWaiting s) := by
  unfold Machine.serveWaiting
  dsimp only
  rcases Queue.cur _ with _ | _
  · exact .refused
  · rcases Queue.owner _ with _ | _
    · exact .refused
    · dsimp only
      rcases Packet.waits _ with _ | _
      · exact .refused
      · exact .ite .refused (.next h.walkMailbox.endWait)

/-! ## WRITE, FAULT_DONE and FLOG_APPEND -/

theorem MemoryOk.execWrite (h : MemoryOk s) : EndsOk (execWrite s) := h.packetEvent fun _ _ _ _ h => h.tryWrite.complete

theorem MemoryOk.returnTeam {n} (h : MemoryOk s) : MemoryOk (s.returnTeam n) := .modTeam h

theorem MemoryOk.execFaultDone (h : MemoryOk s) : EndsOk (execFaultDone s) := by
  refine h.packetEvent fun u q p c h => .ite h.complete ?_
  rcases List.find? _ _ with _ | _
  · exact h.complete
  · exact h.modCtx.returnTeam.complete

theorem MemoryOk.flashPages {c l} (h : MemoryOk s) : MemoryOk (flashPages c l s).1 := by
  induction l generalizing s with
  | nil => exact h
  | cons va rest ih => exact .ite_of Prod.fst (ih h.walkFor) h.walkFor.cpxMissed

theorem MemoryOk.readPages {c n va} {g : GotPages} (h : MemoryOk g.s) : MemoryOk (readPages c n va g).s := by
  induction n generalizing va g with
  | zero => exact h
  | succ n ih =>
    unfold Machine.readPages
    rcases GotPages.pages _ with _ | _
    · exact h
    · exact ih h.readVa

theorem MemoryOk.execFlogAppend (h : MemoryOk s) : EndsOk (execFlogAppend s) := by
  refine h.packetEvent fun u q p c h => ?_
  dsimp only
  rcases e : Machine.flashPages _ _ _ with ⟨t, _ | _⟩
  · exact (h.flashPages.of_fst e).complete
  · have read := MemoryOk.readPages (c := c) (n := p.field 24 4) (va := p.field 16 8) (g := { s := t, pages := some [] }) (h.flashPages.of_fst e)
    dsimp only
    rcases GotPages.pages _ with _ | _
    · exact read.complete
    · exact read.addCmd

theorem MemoryOk.putFlashPage {n t bs} (h : MemoryOk s) : MemoryOk (s.putFlashPage n t bs) := Mem.wf_write bs s.mem n h

theorem MemoryOk.commitPages {c dst l} (h : MemoryOk s) : MemoryOk (State.commitPages c dst l s) := by
  induction l generalizing dst s with
  | nil => exact h
  | cons p rest ih =>
    refine ih ?_
    rcases State.flashPage _ _ _ with _ | _
    · exact h
    · exact h.putFlashPage

theorem wf_appended {m : Mem} {n} (h : m.wf = true) : ({ m with appends := n } : Mem).wf = true := h

theorem MemoryOk.commitFlog {x dst l} (h : MemoryOk s) : MemoryOk (s.commitFlog x dst l) := by
  unfold State.commitFlog
  rcases e : Machine.flashPages _ _ _ with ⟨t, _ | _⟩
  · exact (h.flashPages.of_fst e).completeCmd
  · exact .completeCmd (wf_appended (h.flashPages.of_fst e).commitPages)

theorem MemoryOk.commitAppend (h : MemoryOk s) : EndsOk (commitAppend s) := by
  unfold Machine.commitAppend
  rcases State.cmd? _ _ with _ | _
  · exact .refused
  · dsimp only
    cases Cmd.kind _ with
    | flog => exact .next (.ite h.completeCmd h.commitFlog)
    | _ => exact .refused

/-! ## CHILD_CREATE, SET_SHARE and the subtree commands -/

theorem MemoryOk.moveSlot {q n} (h : MemoryOk s) : MemoryOk (s.moveSlot q n) := h.setQueue

theorem MemoryOk.execChildCreate (h : MemoryOk s) : EndsOk (execChildCreate s) := by
  refine h.packetEvent fun u q p c h => .ite h.complete ?_
  rcases State.freeCtx _ with _ | _
  · exact h.complete
  · exact .complete (.foldl h.setCtx fun _ _ h => h.moveSlot)

theorem MemoryOk.execSetShare (h : MemoryOk s) : EndsOk (execSetShare s) :=
  h.packetEvent fun _ _ _ _ h => .ite h.modCtx.complete (.ite h.modCtx.complete h.complete)

theorem MemoryOk.sendCommand {c f d} (h : MemoryOk s) : MemoryOk (State.sendCommand c f s d) := .ite h.sendPacket.takeSeq h.sendPacket

theorem MemoryOk.beginForward {f c d q p b} (h : MemoryOk s) : MemoryOk (s.beginForward f c d q p b) := .addCmd (.foldl h fun _ _ h => h.sendCommand)

theorem MemoryOk.beginCmd {k f c d q p} (h : MemoryOk s) : MemoryOk (s.beginCmd k f c d q p) := .ite h.addCmd.beginForward h.addCmd

theorem MemoryOk.setFlags {d x} (h : MemoryOk s) : MemoryOk (s.setFlags d x) := h.foldl fun _ _ h => h.modCtx.resyncBounce

theorem MemoryOk.execFreeze (h : MemoryOk s) : EndsOk (execFreeze s) := h.packetEvent fun _ _ _ _ h => .ite h.complete h.setFlags.beginCmd

theorem MemoryOk.settleForwards (h : MemoryOk s) : MemoryOk s.settleForwards := by
  refine h.foldl fun u c h => ?_
  cases Cmd.kind c with
  | forward left n denied =>
    cases left with
    | nil => exact .ite h h.completeCmd
    | cons => exact h
  | _ => exact h

theorem MemoryOk.answerCommand {d i m b} (h : MemoryOk s) : MemoryOk (s.answerCommand d i m b) := h.postAnswer

theorem MemoryOk.answerPart {c} (h : MemoryOk s) : MemoryOk (s.answerPart c) := by
  unfold State.answerPart
  rcases Cmd.answer _ with _ | _
  · exact h
  · exact h.answerCommand

theorem MemoryOk.endCmd {c x y} (h : MemoryOk s) : MemoryOk (s.endCmd c x y) := h.completeCmd.answerPart.settleForwards

theorem MemoryOk.afterSubtree {d} (h : MemoryOk s) : MemoryOk (s.afterSubtree d) := h.foldl fun _ _ h => h.foldl fun _ _ h => h.after

theorem MemoryOk.clearFlags {d x} (h : MemoryOk s) : MemoryOk (s.clearFlags d x) := .afterSubtree (.foldl h fun _ _ h => h.modCtx)

theorem MemoryOk.readRanges {d l} (h : MemoryOk s) : MemoryOk (readRanges d l s).s :=
  MemoryOk.foldl_of GotAll.s _ h fun _ _ h => .ite_of GotAll.s h h.readVa

theorem MemoryOk.putCopy {c p l bs} (h : MemoryOk s) : MemoryOk (s.putCopy c p l bs).s :=
  .ite_of Copied.s h (.ite_of Put.s h.tryWrite.tryWrite h.tryWrite)

theorem MemoryOk.copyShards {c d p} (h : MemoryOk s) : MemoryOk (s.copyShards c d p).s := by
  unfold State.copyShards
  dsimp only
  rcases Got.bytes _ with _ | _
  · exact h.readVa
  · dsimp only
    rcases GotAll.all _ with _ | _
    · exact h.readVa.readRanges
    · exact h.readVa.readRanges.copyImages.putCopy

theorem MemoryOk.runCheckpoint {x b} (h : MemoryOk s) : MemoryOk (s.runCheckpoint x b) := by
  unfold State.runCheckpoint
  rcases Cmd.queue _ with _ | _
  · exact h
  · dsimp only
    rcases Copied.res _ with _ | _
    · exact .completeCmd (.ite h.copyShards h.copyShards.clearFlags)
    · exact .mk (MemoryOk.ite h.copyShards h.copyShards.clearFlags)

theorem MemoryOk.completeFreeze (h : MemoryOk s) : EndsOk (completeFreeze s) := by
  unfold Machine.completeFreeze
  rcases State.cmd? _ _ with _ | _
  · exact .refused
  · refine .ite .refused ?_
    cases Cmd.kind _ with
    | freeze => exact .next h.endCmd
    | checkpoint was drained =>
      cases drained with
      | false => exact .next h.runCheckpoint
      | true => exact .refused
    | _ => exact .refused

theorem MemoryOk.teamsRestore {l} {r : State × Bool} (h : MemoryOk r.1) : MemoryOk (teamsRestore l r).1 := by
  induction l generalizing r with
  | nil => exact h
  | cons p rest ih =>
    conv in Machine.teamsRestore _ _ => whnf
    cases Team.place _ with
    | saved => exact .ite_of Prod.fst (ih h) (ih h.restored)
    | _ => exact ih h

theorem MemoryOk.headerOk {d x} (h : MemoryOk s) : MemoryOk (s.headerOk d x).1 := by
  unfold State.headerOk
  rcases List.find? _ _ with _ | _
  · exact h
  · exact h.saveRead

theorem MemoryOk.returnContext {c} (h : MemoryOk s) : MemoryOk (s.returnContext c) := h.modCtx.foldl fun _ _ h => h.returnTeam

theorem MemoryOk.resume {d} (h : MemoryOk s) : MemoryOk (s.resume d).1 := by
  unfold State.resume
  rcases Ctx.halt _ with _ | _
  · exact h
  · have restored := MemoryOk.teamsRestore (l := s.teamsOf d) (h.headerOk (d := d) (x := ‹Halt›))
    exact .ite_of Prod.fst h (.ite_of Prod.fst (.returnContext (.foldl restored fun _ _ h => h.freeImage)) restored)

theorem MemoryOk.thawHere {d x} (h : MemoryOk s) : MemoryOk (s.thawHere d x).1 := h.clearFlags.resume

theorem MemoryOk.execThaw (h : MemoryOk s) : EndsOk (execThaw s) := by
  refine h.packetEvent fun u q p c h => .ite h.complete ?_
  rcases e : State.thawHere _ _ _ with ⟨t, denied⟩
  exact .ite (h.thawHere.of_fst e).beginForward.settleForwards (h.thawHere.of_fst e).complete

theorem MemoryOk.execCheckpoint (h : MemoryOk s) : EndsOk (execCheckpoint s) := h.packetEvent fun _ _ _ _ h => .ite h.complete h.setFlags.addCmd

theorem MemoryOk.putManifest {c va f n b} (h : MemoryOk s) : MemoryOk (s.putManifest c va f n b).s := by
  refine .ite_of Committed.s (.ite_of Committed.s h.walkFor ?_) (.ite_of Put.s h.tryWrite.tryWrite h.tryWrite)
  dsimp only
  rcases e : Machine.flashPages _ _ _ with ⟨t, _ | _⟩
  · exact h.walkFor.flashPages.of_fst e
  · exact .mk (wf_appended (h.walkFor.flashPages.of_fst e).commitPages)

theorem MemoryOk.commitCheckpoint (h : MemoryOk s) : EndsOk (commitCheckpoint s) := by
  unfold Machine.commitCheckpoint
  rcases State.cmd? _ _ with _ | _
  · exact .refused
  · dsimp only
    cases Cmd.kind _ with
    | checkpoint was drained =>
      cases drained with
      | false => exact .refused
      | true =>
        rcases Cmd.queue _ with _ | _
        · exact .refused
        · exact .ite (.next h.completeCmd) (.next h.spendLeaf.putManifest.completeCmd)
    | _ => exact .refused

theorem MemoryOk.abortCheckpoint {c} (h : MemoryOk s) : MemoryOk (s.abortCheckpoint c) := by
  unfold State.abortCheckpoint
  cases Cmd.kind c with
  | checkpoint =>
    rcases Cmd.queue _ with _ | _
    · exact h
    · exact .completeCmd (.ite h h.clearFlags)
  | _ => exact h

theorem MemoryOk.beginRevoke {d} (h : MemoryOk s) : MemoryOk (s.beginRevoke d) :=
  .foldl (.foldl h fun _ _ h => h.abortCheckpoint) fun _ _ h => h.stopForGood

theorem MemoryOk.execRevoke (h : MemoryOk s) : EndsOk (execRevoke s) := h.packetEvent fun _ _ _ _ h => .ite h.complete h.beginRevoke.beginCmd

theorem MemoryOk.abortPackets {k q} (h : MemoryOk s) : MemoryOk (s.abortPackets k q) := by
  unfold State.abortPackets
  extract_lets x mine tagOf held left s1 issuing
  have told : MemoryOk s1 := h.foldl fun _ _ h => h.pushRec
  cases Queue.state _ with
  | blocked =>
    rcases Queue.cur _ with _ | _
    · exact told
    · exact .ite told told.pushRec
  | _ => exact told

theorem MemoryOk.endBundles {d} (h : MemoryOk s) : MemoryOk (s.endBundles d) := by
  refine MemoryOk.foldl h fun u b h => ?_
  extract_lets q status s1 s2
  have told : MemoryOk s1 := .ite h h.pushRec
  exact .closePacket (.ite told.pushRec told)

theorem MemoryOk.dropTeams {l} (h : MemoryOk s) : MemoryOk (s.dropTeams l) := h

theorem MemoryOk.dropWork {l k} (h : MemoryOk s) : MemoryOk (s.dropWork l k) := h

theorem MemoryOk.finishOutside {l k} (h : MemoryOk s) : MemoryOk (s.finishOutside l k) := h.foldl fun _ _ h => h.completeCmd.answerPart

theorem MemoryOk.flushOne {q} (h : MemoryOk s) : MemoryOk (s.flushOne q) := by
  unfold State.flushOne
  rcases Queue.waiting _ with _ | _
  · exact h.modQueue
  · rcases Queue.owner _ with _ | _
    · exact h.modQueue
    · exact .ite h.writeRecordVa.modQueue h.modQueue

theorem MemoryOk.flushRing {q} (h : MemoryOk s) : MemoryOk (s.flushRing q) := h.foldl fun _ _ h => h.flushOne

theorem MemoryOk.destroySubtree {d b k p} (h : MemoryOk s) : MemoryOk (s.destroySubtree d b k p) := by
  unfold State.destroySubtree
  extract_lets cs slots parent s1 s2 s3 kept s4
  have aborted : MemoryOk s1 := .foldl h.dropTeams.endBundles fun _ _ h => h.abortPackets
  have worked : MemoryOk s2 := .dropWork (.finishOutside (.foldl aborted fun _ _ h => h.flushRing))
  have returned : MemoryOk s3 := worked.foldl fun _ _ h => .ite h.modQueue h.setQueue
  have left : MemoryOk s4 := .mk returned
  exact .serveAll (.wakeAll (.ite left.modCtx left))

theorem wf_newKeys {m : Mem} {l} (h : m.wf = true) : ({ m with keyGen := l } : Mem).wf = true := h

theorem MemoryOk.newKeys {w} (h : MemoryOk s) : MemoryOk (s.newKeys w) := .mk (wf_newKeys h)

theorem MemoryOk.destroyWorld {w} (h : MemoryOk s) : MemoryOk (s.destroyWorld w) := by
  unfold State.destroyWorld
  extract_lets roots s1 s2
  have gone : MemoryOk s1 := h.foldl fun _ _ h => h.destroySubtree
  have left : MemoryOk s2 := .mk gone
  exact .mk left.newKeys

theorem MemoryOk.completeRevoke (h : MemoryOk s) : EndsOk (completeRevoke s) := by
  unfold Machine.completeRevoke
  rcases State.cmd? _ _ with _ | _
  · exact .refused
  · dsimp only
    cases Cmd.kind _ with
    | revoke => exact .ite .refused (.next (.endCmd h.destroySubtree))
    | scrub => exact .ite (.next h.completeCmd.destroyWorld) .refused
    | _ => exact .refused

theorem MemoryOk.askTeams {d l} (h : MemoryOk s) : MemoryOk (s.askTeams d l) := h

theorem MemoryOk.execPreempt (h : MemoryOk s) : EndsOk (execPreempt s) :=
  h.packetEvent fun _ _ _ _ h => .ite h.complete (.settlePreempts (.addCmd (.ite h.askTeams.modCtx h.askTeams)))

theorem MemoryOk.execInval (h : MemoryOk s) : EndsOk (execInval s) := h.packetEvent fun _ _ _ _ h => .ite h.complete h.forget.addCmd

theorem MemoryOk.execInvalComplete (h : MemoryOk s) : EndsOk (execInvalComplete s) := by
  unfold Machine.execInvalComplete
  rcases State.cmd? _ _ with _ | _
  · exact .refused
  · dsimp only
    cases Cmd.kind _ with
    | inval => exact .ite .refused (.next h.forget.refreshSubtree.completeCmd)
    | _ => exact .refused

theorem MemoryOk.addPart {k d v i} (h : MemoryOk s) : MemoryOk (s.addPart k d v i) := h

theorem MemoryOk.actPart {f d v i} (h : MemoryOk s) : MemoryOk (s.actPart f d v i) := by
  unfold State.actPart
  dsimp only
  rcases Forward.cmd _ with _ | _ | _
  · exact h.setFlags.addPart
  · exact h.thawHere.answerCommand
  · exact h.beginRevoke.addPart

theorem MemoryOk.forwardCommand (h : MemoryOk s) : EndsOk (forwardCommand s) := by
  refine .ite .refused ?_
  rcases State.member _ _ with _ | _
  · exact .next h.tookPacket.answerCommand
  · exact .ite .refused (.next h.tookPacket.actPart)

theorem MemoryOk.execForwardedCommandAnswer (h : MemoryOk s) : EndsOk (execForwardedCommandAnswer s) := by
  unfold Machine.execForwardedCommandAnswer
  rcases State.cmd? _ _ with _ | _
  · exact .refused
  · dsimp only
    cases Cmd.kind _ with
    | forward => exact .ite .refused (.next (.settleForwards (.mk h.tookPacket.heard)))
    | _ => exact .refused

/-! ## Tensors and scrubs -/

theorem MemoryOk.walkPages {c n va} (h : MemoryOk s) : MemoryOk (walkPages c n va s).1 := by
  induction n generalizing va s with
  | zero => exact h
  | succ n ih =>
    conv in Machine.walkPages _ _ _ _ => whnf
    rcases State.translate _ _ _ _ with _ | _
    · exact h.walkFor.cpxMissed
    · exact ih h.walkFor

theorem MemoryOk.tensorEvent {op no eff} (h : MemoryOk s) (acts : ∀ p (u : State) g, MemoryOk u → MemoryOk (eff p u g)) :
    EndsOk (tensorEvent op no eff s) := by
  refine h.packetEvent fun u q p c h => ?_
  dsimp only
  rcases State.granules _ _ _ _ with _ | _
  · exact h.walkPages.complete
  · exact .ite h.walkPages.complete (.complete (.foldl h.walkPages fun u g => acts p u g))

theorem MemoryOk.setTensor {g t} (h : MemoryOk s) : MemoryOk (s.setTensor g t) := h.of_cells rfl rfl

/-- The lines of a granule zeroed one after another. -/
theorem wf_zeroLines {α : Type} {m : Mem} (l : List α) (k a : α → Nat) (t : Trans) (h : m.wf = true) :
    (l.foldl (fun m x => m.zeroLine (k x) (a x) t) m).wf = true := by
  induction l generalizing m with
  | nil => exact h
  | cons x rest ih => exact ih (Mem.wf_zeroLine m _ _ t h)

theorem MemoryOk.zeroGranule {f g} (h : MemoryOk s) : MemoryOk (State.zeroGranule f s g) := .mk (wf_zeroLines _ _ _ _ h.setTensor)

theorem MemoryOk.reviseGranule {v g} (h : MemoryOk s) : MemoryOk (State.reviseGranule v s g) := by
  refine .mk (Mem.wf_foldl _ ?_ ?_ _ _ h.setTensor) <;> intro m l <;> split <;> rfl

theorem MemoryOk.scrubWalks {c l} (h : MemoryOk s) : MemoryOk (scrubWalks c l s).1 := by
  induction l generalizing s with
  | nil => exact h
  | cons p rest ih => exact .ite_of Prod.fst (ih h.walkFor) h.walkFor.cpxMissed

theorem MemoryOk.zeroPart {c x whole p} (h : MemoryOk s) : MemoryOk (s.zeroPart c x whole p).s :=
  MemoryOk.foldl_of Put.s _ h fun _ _ h => .ite_of Put.s h.putTarget h

theorem MemoryOk.scrubPart {c whole p} {r : Put} (h : MemoryOk r.s) : MemoryOk (State.scrubPart c whole r p).s := by
  refine .ite_of Put.s h ?_
  rcases State.scrubLead _ _ _ with _ | _
  · exact h
  · exact .ite_of Put.s h.sendLine h.zeroPart

theorem MemoryOk.scrubRange {c g} {r : Put} (h : MemoryOk r.s) : MemoryOk (State.scrubRange c r g).s :=
  MemoryOk.foldl_of Put.s _ h fun _ _ h => h.scrubPart

theorem MemoryOk.scrubKeys {c l} (h : MemoryOk s) : MemoryOk (s.scrubKeys c l).1 := by
  refine .ite_of Prod.fst h ?_
  rcases State.rangeGranules _ _ _ with _ | _
  · exact h
  · exact .ite_of Prod.fst h (MemoryOk.foldl h fun _ _ h => h.zeroGranule)

theorem MemoryOk.scrubbed {c m l} (h : MemoryOk s) : MemoryOk (s.scrubbed c m l).1 := by
  unfold State.scrubbed
  rcases e : Machine.scrubWalks _ _ _ with ⟨t, _ | _⟩
  · exact h.scrubWalks.of_fst e
  · have walked := h.scrubWalks.of_fst e
    have zeroed : MemoryOk (if m = 1 then ({ s := t } : Put) else l.foldl (State.scrubRange c) { s := t }).s :=
      .ite_of Put.s walked (.foldl_of Put.s _ walked fun _ _ h => h.scrubRange)
    exact .ite_of Prod.fst zeroed (.ite_of Prod.fst zeroed zeroed.scrubKeys)

theorem wf_scrubs {m : Mem} {n} (h : m.wf = true) : ({ m with scrubs := n } : Mem).wf = true := h

theorem MemoryOk.issueReceipt {c va bs} (h : MemoryOk s) : MemoryOk (s.issueReceipt c va bs).s := .putVa (.spendLeaf (wf_scrubs h))

theorem MemoryOk.endScrub {q c p m} (h : MemoryOk s) : MemoryOk (s.endScrub q c p m) :=
  .ite h.complete (.addCmd (.foldl h fun _ _ h => h.stopForGood))

theorem MemoryOk.scrub {q c p l} (h : MemoryOk s) : MemoryOk (s.scrub q c p l) :=
  .ite h.complete (.ite h.scrubbed.complete (.ite h.scrubbed.issueReceipt.endScrub h.scrubbed.issueReceipt.complete))

theorem MemoryOk.execScrub (h : MemoryOk s) : EndsOk (execScrub s) := by
  refine h.packetEvent fun u q p c h => .ite h.complete ?_
  dsimp only
  rcases Got.bytes _ with _ | _
  · exact h.readVa.complete
  · exact h.readVa.scrub

/-! ## Records -/

theorem MemoryOk.retired {q i x} (h : MemoryOk s) : MemoryOk (s.retired q i x) := by
  unfold State.retired
  rcases List.find? _ _ with _ | _
  · exact h
  · exact .ite (.pushRec h) (.closePacket h)

theorem MemoryOk.writeRecord (h : MemoryOk s) : EndsOk (writeRecord s) := by
  unfold Machine.writeRecord
  dsimp only
  rcases Queue.waiting _ with _ | _
  · exact .refused
  · rcases Queue.owner _ with _ | _
    · exact .refused
    · refine .ite .refused (.next (.wakeAll (.ite h.writeRecordVa.modQueue.retired ?_)))
      rcases CRec.pkt _ with _ | _
      · exact h.writeRecordVa.modQueue
      · exact h.writeRecordVa.modQueue.closePacket

theorem MemoryOk.execBundleRetire (h : MemoryOk s) : EndsOk (execBundleRetire s) := by
  unfold Machine.execBundleRetire
  rcases State.bundle? _ _ with _ | _
  · exact .refused
  · exact .ite .refused (.next h.setBundle.pushRec)

theorem MemoryOk.hqRead {c} (h : MemoryOk s) : MemoryOk (s.hqRead c).1 := by
  unfold State.hqRead
  dsimp only
  rcases State.handlerOf _ _ with _ | _
  · exact h
  · exact h.readVa

theorem MemoryOk.reported {r} (h : MemoryOk s) : MemoryOk (s.reported r) := .ite h.modCtx h

theorem MemoryOk.writeHandler {c va bs} (h : MemoryOk s) : MemoryOk (s.writeHandler c va bs) := by
  unfold State.writeHandler
  rcases State.handlerOf _ _ with _ | _
  · exact .mk (Mem.wf_writeHost _ _ _ h)
  · exact h.writeRecordVa

theorem MemoryOk.writeHandlerRecord (h : MemoryOk s) : EndsOk (writeHandlerRecord s) := by
  unfold Machine.writeHandlerRecord
  dsimp only
  rcases Ctx.hqWaiting _ with _ | _
  · exact .refused
  · dsimp only
    rcases e : State.hqRead _ _ with ⟨t, _ | _⟩
    · exact .ite (.next (h.hqRead.of_fst e)) .refused
    · exact .ite .refused (.next (h.hqRead.of_fst e).writeHandler.modCtx.reported)

/-! ## Worlds and bounce channels -/

theorem MemoryOk.createDone {w} (h : MemoryOk s) : MemoryOk (s.createDone w) := by
  unfold State.createDone
  dsimp only
  rcases Got.bytes _ with _ | _
  · exact h.firmwarePage.worldStatus
  · refine .ite h.firmwarePage.worldStatus (.worldStatus (.spendLeaf (.putFirmwarePage ?_)))
    exact MemoryOk.foldl h.firmwarePage.newKeys fun _ _ h => h.modCtx

theorem MemoryOk.keyDone {w b} (h : MemoryOk s) : MemoryOk (s.keyDone w b) := by
  unfold State.keyDone
  dsimp only
  rcases Got.bytes _ with _ | _
  · exact h.firmwarePage.worldStatus
  · exact .ite h.firmwarePage.worldStatus (.worldStatus h.firmwarePage)

theorem MemoryOk.finishWorldCmd (h : MemoryOk s) : EndsOk (finishWorldCmd s) := by
  unfold Machine.finishWorldCmd
  dsimp only
  rcases Cfg.wOp _ with _ | op
  · exact .refused
  · cases op with
    | create => exact .next h.createDone
    | key => exact .next h.keyDone
    | destroy => exact .ite (.next h.destroyWorld.worldStatus) .refused

theorem MemoryOk.stopChannel {c k b} (h : MemoryOk s) : MemoryOk (s.stopChannel c k b) := h.setBounce

theorem MemoryOk.moveChunk {c k b t} (h : MemoryOk s) : MemoryOk (s.moveChunk c k b t) := by
  refine .ite ?_ (.ite (.ite h.putChunk.setBounce h.putChunk.stopChannel) (.stopChannel h))
  dsimp only
  rcases Got.bytes _ with _ | _
  · exact h.getChunk.stopChannel
  · exact .setBounce (Mem.wf_writeHost _ _ _ h.getChunk)

theorem MemoryOk.chunk {c k b} (h : MemoryOk s) : MemoryOk (s.chunk c k b) := by
  unfold State.chunk
  rcases State.chunkPage _ _ _ with _ | _
  · exact h.cpxMissed.stopChannel
  · exact h.moveChunk

theorem MemoryOk.runChunk (h : MemoryOk s) : EndsOk (runChunk s) := .ite .refused (.next h.walkFor.chunk)

theorem MemoryOk.execBchStatusRecord (h : MemoryOk s) : EndsOk (execBchStatusRecord s) :=
  .ite .refused (.next (.setBounce (.spendLeaf (.mk (Mem.wf_writeHost _ _ _ h)))))

end Sys2Proof
end

section
-- One proof after another: side by side their threads pass the limit of memory that the check sets.
set_option Elab.async false
/-! SUPPORT. Every step keeps memory in its canonical form (R51, R76): teams placed and saved, the engines, halts, the dispatcher, every instruction and
event, and the step. -/

namespace Sys2Proof

open Machine

variable {s : State}

/-! ## Teams placed, saved and placed again -/

theorem MemoryOk.placeNew {b k x} (h : MemoryOk s) : MemoryOk (s.placeNew b k x) := by
  unfold State.placeNew
  rcases State.bundle? _ _ with _ | _
  · exact h
  · exact .ite (.releaseStage (.setTeam (.setBundle h))) (.setTeam (.setBundle h))

theorem MemoryOk.execTeamPlace (h : MemoryOk s) : EndsOk (execTeamPlace s) := by
  unfold Machine.execTeamPlace
  rcases State.nextSeat _ with _ | _
  · exact .refused
  · dsimp only
    rcases Seat.who _ with _ | _
    · exact .refused
    · exact .next h.placeNew

theorem MemoryOk.commitImage (h : MemoryOk s) : EndsOk (commitImage s) := by
  unfold Machine.commitImage
  dsimp only
  rcases State.team? _ _ with _ | _
  · exact .refused
  · refine .ite .refused ?_
    rcases Team.place _ with _ | _ | _
    · rcases Team.ask _ with _ | _ | _
      · exact .refused
      · refine .ite .refused ?_
        rcases e : State.saveTeam _ _ _ _ _ _ _ with _ | _
        · exact h.notSaved
        · exact .next (h.saveTeam e).after
      · exact .refused
    · dsimp only
      rcases e : State.saveTeam _ _ _ _ _ _ _ with _ | _
      · exact h.notSaved
      · refine .next (.after ?_)
        rcases Team.fault _ with _ | _
        · exact h.saveTeam e
        · exact (h.saveTeam e).reportMiss
    · exact .refused

theorem MemoryOk.reenter {n tm pos k x} (h : MemoryOk s) : MemoryOk (s.reenter n tm pos k x) := by
  unfold State.reenter
  dsimp only
  rcases e : State.restored _ _ _ with ⟨t, _ | _⟩
  · exact .ite (h.restored.of_fst e).setTeam (h.restored.of_fst e).setTeam.raiseHalt
  · exact .after (.setTeam (.freeImage (.mk (h.restored.of_fst e))))

theorem MemoryOk.reenterNext (h : MemoryOk s) : EndsOk (reenterNext s) := by
  unfold Machine.reenterNext
  rcases State.nextSeat _ with _ | _
  · exact .refused
  · rcases State.team? _ _ with _ | _
    · exact .refused
    · dsimp only
      rcases Team.place _ with _ | _ | _
      · exact .refused
      · exact .refused
      · exact .ite (.next h.reenter) .refused

/-! ## Copies -/

theorem MemoryOk.copyBytes {c : CopyIn} {tm x m a n f} (h : MemoryOk c.o.s) : MemoryOk (c.bytes tm x m a n f).o.s := by
  unfold CopyIn.bytes
  rcases EOut.fail _ with _ | _
  · exact .ite_of (fun c : CopyIn => c.o.s) h.engineRead h
  · exact h

theorem MemoryOk.copyCodes {tm c d n} (h : MemoryOk s) : MemoryOk (s.copyCodes tm c d n).o.s :=
  MemoryOk.foldl_of (fun c : CopyIn => c.o.s) _ h fun _ _ h => h.copyBytes

theorem MemoryOk.copyScales {c : CopyIn} {tm x d} (h : MemoryOk c.o.s) : MemoryOk (c.scales tm x d).o.s :=
  MemoryOk.foldl_of (fun c : CopyIn => c.o.s) _ h fun _ _ h => h.copyBytes

theorem MemoryOk.readEntry {tm c e d} (h : MemoryOk s) : MemoryOk (s.readEntry tm c e d).2.o.s := h.copyCodes.copyScales

theorem MemoryOk.beatItem {c k f x i} (h : MemoryOk x.o.s) : MemoryOk (BeatIn.item c k f x i).o.s := by
  unfold BeatIn.item
  rcases EOut.fail _ with _ | _
  · exact .ite_of (fun x : BeatIn => x.o.s) h h.engineRead
  · exact h

theorem MemoryOk.memBeat {c k f b} (h : MemoryOk s) : MemoryOk (s.memBeat c k f b).s := by
  unfold State.memBeat
  rcases wholeBlock _ _ _ with _ | _
  · have read := MemoryOk.foldl_of (fun x : BeatIn => x.o.s) (f := BeatIn.item c k f) (b := { o := { s := s } }) b.2 h fun _ _ h => h.beatItem
    dsimp only
    rcases EOut.fail _ with _ | _
    · exact read.engineStore
    · exact read
  · exact h.enginePut

theorem MemoryOk.countDiscard {n} (h : MemoryOk s) : MemoryOk (s.countDiscard n) := h

theorem MemoryOk.arriveBeat {n t k f b} (h : MemoryOk s) : MemoryOk (s.arrive n t k f b) := .ite h.setTeam h.countDiscard

theorem MemoryOk.spmBeats {n tm e f b} (h : MemoryOk s) : MemoryOk (s.spmBeats n tm e f b) := by
  refine .ite (h.foldl fun u j h => .ite h ?_) ?_
  · rcases State.mcastTeam _ _ _ with _ | _
    · exact h.countDiscard
    · exact h.arriveBeat
  · rcases State.team? _ _ with _ | _
    · exact h
    · exact h.arriveBeat

theorem MemoryOk.runBeats {c n k tm e d w l} {r : CopyRun} (h : MemoryOk r.s) : MemoryOk (State.runBeats c n k tm e d w l r).s := by
  induction l generalizing r with
  | nil => exact h
  | cons b rest ih =>
    refine .ite_of CopyRun.s ?_ (ih h.spmBeats)
    dsimp only
    rcases EOut.fail _ with _ | _
    · exact .ite_of CopyRun.s h.memBeat (ih h.memBeat)
    · exact h.memBeat

theorem MemoryOk.copyEntry {tm c o e m w} (h : MemoryOk s) : MemoryOk (s.copyEntry tm c o e m w).1.s := by
  unfold State.copyEntry
  dsimp only
  rcases EOut.fail _ with _ | _
  · dsimp only
    rcases State.gateOf _ _ _ _ _ with _ | _
    · exact h.readEntry
    · exact .runBeats h.readEntry
  · exact h.readEntry

theorem MemoryOk.setBeats {i n} (h : MemoryOk s) : MemoryOk (s.setBeats i n) := h

theorem MemoryOk.finishTce {o e b} (h : MemoryOk s) : MemoryOk (s.finishTce o e b) := .after (.ite h.modTeam (.modTeam h.modTeam))

theorem MemoryOk.stopTce {o tm e n} (h : MemoryOk s) : MemoryOk (s.stopTce o tm e n) := by
  have run := MemoryOk.copyEntry (s := { s with freeCtr := s.freeCtr + 1 }) (tm := tm) (c := s.ctxOf tm) (o := o) (e := e) (m := some (min n 8))
    (w := false) h
  unfold State.stopTce
  dsimp only
  refine .ite h.raiseHalt ?_
  rcases CopyRun.fail _ with _ | _
  · exact .ite run.setBeats.raiseHalt.finishTce run.setBeats.raiseHalt
  · exact run.setBeats.raiseHalt.faultMarks

theorem MemoryOk.runTceEntry (h : MemoryOk s) : EndsOk (runTceEntry s) := by
  unfold Machine.runTceEntry
  rcases List.find? _ _ with _ | _
  · exact .refused
  · dsimp only
    rcases State.team? _ _ with _ | _
    · exact .refused
    · dsimp only
      rcases GetElem?.getElem? _ _ with _ | _
      · exact .refused
      · refine .ite .refused (.ite (.next h.tceFault) ?_)
        have run := MemoryOk.copyEntry (s := { s with freeCtr := s.freeCtr + 1 }) (tm := ‹Team›) (c := s.ctxOf ‹Team›) (o := ‹TceOp›)
          (e := ‹SchedEntry›) (m := none) (w := true) h
        rcases CopyRun.fail _ with _ | _
        · rcases CopyRun.struck _ with _ | _
          · exact .next run.finishTce
          · refine .next ?_
            rcases CopyRun.fail _ with _ | _
            · exact .ite run.copyEntry.setBeats.tceFault.finishTce run.copyEntry.setBeats.tceFault
            · exact run.copyEntry.setBeats.tceFault.faultMarks
        · exact .next run.setBeats.tceFault

/-! ## The matrix engine -/

theorem MemoryOk.finishMxe {o} (h : MemoryOk s) : MemoryOk (s.finishMxe o) := by
  unfold State.finishMxe
  extract_lets eng s1
  have left : MemoryOk s1 := h
  rcases State.team? _ _ with _ | _
  · exact left
  · exact left.setTeam.after

theorem MemoryOk.stopMxe {o tm b} (h : MemoryOk s) : MemoryOk (s.stopMxe o tm b) := .ite h.raiseHalt.finishMxe h.raiseHalt

theorem MemoryOk.execMxeOperationComplete (h : MemoryOk s) : EndsOk (execMxeOperationComplete s) := by
  unfold Machine.execMxeOperationComplete
  rcases List.find? _ _ with _ | _
  · exact .refused
  · dsimp only
    rcases State.team? _ _ with _ | _
    · exact .refused
    · exact .ite (.next h.finishMxe) .refused

/-! ## Collectives -/

theorem MemoryOk.takeElem {b i} {r : CollRun} (h : MemoryOk r.s) : MemoryOk (takeElem b r i).s := by
  unfold Machine.takeElem
  rcases CollRun.fail _ with _ | _
  · dsimp only
    rcases EOut.fail _ with _ | _
    · exact h.engineRead
    · exact h.engineRead
  · exact h

theorem MemoryOk.sendElements {o b d l} (h : MemoryOk s) : MemoryOk (s.sendElements o b d l) := by
  unfold State.sendElements
  dsimp only
  rcases State.engineLead _ _ _ _ with _ | _
  · exact h
  · exact .ite h.sendPacket.takeSeq h.sendPacket

theorem MemoryOk.takeBatch {b d g} {r : CollRun} (h : MemoryOk r.s) : MemoryOk (takeBatch b d r g).s := by
  refine .ite_of CollRun.s h ?_
  extract_lets start x
  have taken : MemoryOk x.s := .foldl_of CollRun.s _ h fun _ _ h => h.takeElem
  exact .ite_of CollRun.s taken taken.sendElements

theorem MemoryOk.takeElems {b d} {r : CollRun} (h : MemoryOk r.s) : MemoryOk (takeElems b d r).s := .foldl_of CollRun.s _ h fun _ _ h => h.takeBatch

theorem MemoryOk.stopColl {o n} (h : MemoryOk s) : MemoryOk (s.stopColl o n).1.s := by
  unfold State.stopColl
  dsimp only
  rcases State.rankOf _ _ with _ | _
  · exact h
  · exact .foldl_of CollRun.s _ h fun _ _ h => h.takeBatch

theorem MemoryOk.stopCle {o tm n} (h : MemoryOk s) : MemoryOk (s.stopCle o tm n) := by
  unfold State.stopCle
  dsimp only
  rcases CollRun.fail _ with _ | _
  · exact .raiseHalt h.stopColl
  · exact .faultMarks (.raiseHalt h.stopColl)

theorem MemoryOk.keepCle {o} (h : MemoryOk s) : MemoryOk (s.keepCle o) := h

theorem MemoryOk.dropCle {n} (h : MemoryOk s) : MemoryOk (s.dropCle n) := h

theorem MemoryOk.finishColl {o} (h : MemoryOk s) : MemoryOk (s.finishColl o) := h.dropCle.modWarp.after

theorem MemoryOk.collEnd {tm b l} {r : CollRun} (h : MemoryOk r.s) : MemoryOk (collEnd tm b l r) := by
  unfold Machine.collEnd
  dsimp only
  rcases CollRun.fail _ with _ | _
  · exact .finishColl (.ite h h.cleFault)
  · exact h.keepCle.cleFault

theorem MemoryOk.putResults {c n base l} (h : MemoryOk s) : MemoryOk (s.putResults c n base l).s := .ite_of EOut.s h.enginePut h.engineStore

theorem MemoryOk.writeResults {n base l} {r : CollRun} (h : MemoryOk r.s) : MemoryOk (writeResults n base l r).s := by
  induction l generalizing r with
  | nil => exact h
  | cons x rest ih =>
    conv in Machine.writeResults _ _ _ _ => whnf
    rcases EOut.fail _ with _ | _
    · exact ih h.putResults
    · exact h.putResults

theorem MemoryOk.acked {t : State} {c} (h : MemoryOk t) : MemoryOk (s.acked t c) := h.foldl fun _ _ h => h.heard

theorem MemoryOk.collMove {o b d} (h : MemoryOk s) : MemoryOk (collMove s o b d).s := by
  have taken := MemoryOk.takeElems (b := b) (d := d) (r := { s := s, o := o }) h
  unfold Machine.collMove
  dsimp only
  rcases CleOp.left _ with _ | _
  · exact .ite_of CollRun.s taken (.writeResults taken.acked)
  · exact .writeResults h

theorem MemoryOk.collRun {o tm b d} (h : MemoryOk s) : EndsOk (collRun s o tm b d) :=
  .ite (.next h.cleFault) (.ite .refused (.next (.collEnd h.dropCle.collMove)))

theorem MemoryOk.runColl (h : MemoryOk s) : EndsOk (runColl s) := by
  unfold Machine.runColl
  rcases List.find? _ _ with _ | _
  · exact .refused
  · dsimp only
    rcases State.team? _ _ with _ | _
    · exact .refused
    · refine .ite .refused (.ite (.next h.cleFault) ?_)
      rcases State.rankOf _ _ with _ | _
      · exact .refused
      · exact .collRun h

/-! ## Halts -/

theorem MemoryOk.stopEngine (h : MemoryOk s) : EndsOk (stopEngine s) := by
  unfold Machine.stopEngine
  rcases Input.engine _ with _ | _ | _
  · dsimp only
    rcases List.find? _ _ with _ | _
    · exact .refused
    · dsimp only
      rcases State.team? _ _ with _ | _
      · exact .refused
      · dsimp only
        rcases State.stopping _ _ with _ | _
        · exact .refused
        · rcases GetElem?.getElem? _ _ with _ | _
          · exact .refused
          · exact .ite .refused (.next h.stopTce)
  · dsimp only
    rcases List.find? _ _ with _ | _
    · exact .refused
    · dsimp only
      rcases State.team? _ _ with _ | _
      · exact .refused
      · dsimp only
        rcases State.stopping _ _ with _ | _
        · exact .refused
        · exact .ite .refused (.next h.stopMxe)
  · dsimp only
    rcases List.find? _ _ with _ | _
    · exact .refused
    · dsimp only
      rcases State.team? _ _ with _ | _
      · exact .refused
      · dsimp only
        rcases State.stopping _ _ with _ | _
        · exact .refused
        · exact .ite .refused (.next h.stopCle)

theorem MemoryOk.saveAll {x l wish p} (h : MemoryOk s) (e : State.saveAll x l wish s = .ok p) : MemoryOk p.1 := by
  induction l generalizing wish s p with
  | nil =>
    obtain rfl := Except.ok.inj e
    exact h
  | cons t rest ih =>
    revert e
    conv in State.saveAll _ _ _ _ => whnf
    rcases saved : State.saveTeam _ _ _ _ _ _ _ with _ | _
    · exact error_ok
    · dsimp -zeta only
      extract_lets s2
      have reported : MemoryOk s2 := by
        dsimp only [s2]
        rcases Team.fault _ with _ | _
        · exact h.saveTeam saved
        · exact (h.saveTeam saved).reportMiss
      rcases others : State.saveAll _ _ _ _ with _ | _
      · exact error_ok
      · exact fun e => Except.ok.inj e ▸ (ih reported others :)

theorem MemoryOk.noteExtra {c pos n} (h : MemoryOk s) : MemoryOk (s.noteExtra c pos n) := h.modCtx

theorem MemoryOk.linkImages {c l t} (h : MemoryOk s) (e : State.linkImages c l s = .ok t) : MemoryOk t := by
  induction l generalizing s with
  | nil =>
    obtain rfl := Except.ok.inj e
    exact h
  | cons p rest ih =>
    revert e
    conv in State.linkImages _ _ _ => whnf
    rcases linked : State.saveWrite _ _ _ _ with _ | _
    · exact error_ok
    · exact ih (h.saveWrite linked)

theorem MemoryOk.reportHalt {c n x} (h : MemoryOk s) : MemoryOk (s.reportHalt c n x) := h.modCtx.pushHandler

theorem MemoryOk.holdRecords {c pos n x t} (h : MemoryOk s) (e : s.holdRecords c pos n x = .ok t) : MemoryOk t := by
  revert e
  unfold State.holdRecords
  rcases saved : State.saveWrite _ _ _ _ with _ | _
  · exact error_ok
  · exact (h.saveWrite saved).noteExtra.saveWrite

/-- The first image of the chain: an empty one where nothing was saved. -/
theorem MemoryOk.emptyStart {c p bs} {x : State × List Nat} (h : MemoryOk s)
    (e : ((s.holdImage c p bs).map fun t => (t.noteExtra c p bs.length, [p])) = .ok x) : MemoryOk x.1 := by
  revert e
  rcases held : State.holdImage _ _ _ _ with _ | _
  · exact error_ok
  · intro e
    obtain rfl := Except.ok.inj e
    exact (h.holdImage held).noteExtra

theorem MemoryOk.saveHalt {c x l t} (h : MemoryOk s) (e : s.saveHalt c x l = .ok t) : MemoryOk t := by
  revert e
  unfold State.saveHalt
  dsimp only
  rcases saved : State.saveAll _ _ _ _ with _ | ⟨s1, ps⟩
  · exact error_ok
  · have held : MemoryOk s1 := h.saveAll saved
    dsimp only
    split
    · exact error_ok
    · next s2 images started =>
      have chained : MemoryOk s2 := by
        revert started
        rcases (if ps.isEmpty then _ else _ : List Nat) with _ | _
        · dsimp only
          rcases Ctx.areaPos _ _ _ with _ | _
          · exact error_ok
          · exact held.emptyStart
        · exact fun e => (Prod.mk.inj (Except.ok.inj e)).1 ▸ held
      rcases linked : State.linkImages _ _ _ with _ | s3
      · rcases Ctx.areaPos _ _ _ with _ | _ <;> exact error_ok
      · rcases Ctx.areaPos _ _ _ with _ | _
        · exact error_ok
        · dsimp only
          rcases recs : State.holdRecords _ _ _ _ _ with _ | _
          · exact error_ok
          · exact fun e => Except.ok.inj e ▸ ((chained.linkImages linked).holdRecords recs).reportHalt

theorem MemoryOk.saveHalted (h : MemoryOk s) : EndsOk (saveHalted s) := by
  unfold Machine.saveHalted
  dsimp only
  rcases State.stopping _ _ with _ | _
  · exact .refused
  · refine .ite .refused ?_
    rcases e : State.saveHalt _ _ _ _ with _ | _
    · exact h.notSaved
    · exact .next (h.saveHalt e).settleTempo.wakeAll.serveAll.settlePreempts

/-! ## Zugzwang and the ripe ring -/

theorem MemoryOk.swapOne (h : MemoryOk s) : EndsOk (swapOne s) := by
  unfold Machine.swapOne
  refine .ite .refused ?_
  rcases victim _ with _ | _
  · exact .refused
  · dsimp only
    rcases State.team? _ _ with _ | _
    · exact .refused
    · dsimp only
      rcases Ctx.areaPos _ _ _ with _ | _
      · exact .refused
      · dsimp only
        rcases e : State.holdImage _ _ _ _ with _ | _
        · exact h.notSaved
        · exact .next (h.zugImage.holdImage e).modWarp.serveSlot.after

theorem MemoryOk.reenterWarp (h : MemoryOk s) : EndsOk (reenterWarp s) := by
  unfold Machine.reenterWarp
  dsimp only
  rcases State.team? _ _ with _ | _
  · exact .refused
  · dsimp only
    rcases Warp.zug _ with _ | _
    · exact .refused
    · refine .ite .refused ?_
      rcases Option.bind _ _ with _ | _
      · exact .next (.ite h.imageNow h.imageNow.raiseHalt)
      · exact .next (.after (.modWarp (.freeImage h.imageNow)))

theorem MemoryOk.writeRipe (h : MemoryOk s) : EndsOk (writeRipe s) := by
  unfold Machine.writeRipe
  dsimp only
  rcases Tempo.deferred _ with _ | _
  · exact .refused
  · refine .ite .refused ?_
    rcases e : State.ripeHead _ _ _ with ⟨t, _ | _⟩
    · exact .ite (.next (h.ripeHead.of_fst e)) .refused
    · have head := h.ripeHead.of_fst e
      exact .ite (.next head) (.ite .refused (.next head.writeVa.writeVa.modCtx.wakeAll))

/-! ## The instructions and events -/

section Forms

variable {i : Instr} {hd : Hdr} {d a b : Reg} {p : PReg}

theorem MemoryOk.vecIssue {v} (h : MemoryOk s) : EndsOk (vecIssue i hd d v s) := h.regIssue
theorem MemoryOk.vecIssue2 {v} (h : MemoryOk s) : EndsOk (vecIssue2 i hd d v s) := h.regIssue
theorem MemoryOk.vecIssue4 {v} (h : MemoryOk s) : EndsOk (vecIssue4 i hd d v s) := h.regIssue
theorem MemoryOk.uniIssue {v} (h : MemoryOk s) : EndsOk (uniIssue i hd d v s) := h.regIssue
theorem MemoryOk.uniIssue2 {v} (h : MemoryOk s) : EndsOk (uniIssue2 i hd d v s) := h.regIssue
theorem MemoryOk.predIssue {v} (h : MemoryOk s) : EndsOk (predIssue i hd p v s) := h.regIssue
theorem MemoryOk.prodIssue {cells} (h : MemoryOk s) : EndsOk (prodIssue i hd cells s) := h.regIssue
theorem MemoryOk.xlIssue {src} (h : MemoryOk s) : EndsOk (xlIssue i hd d a src s) := h.prodIssue
theorem MemoryOk.pcolIssue {v} (h : MemoryOk s) : EndsOk (pcolIssue i hd d p v s) := h.prodIssue
theorem MemoryOk.wredIssue {v} (h : MemoryOk s) : EndsOk (wredIssue i hd d a v s) := h.prodIssue
theorem MemoryOk.pfxIssue {op x incl} (h : MemoryOk s) : EndsOk (pfxIssue i hd d a op x incl s) := h.prodIssue

theorem MemoryOk.matrixIssue {fresh complex} (h : MemoryOk s) : EndsOk (matrixIssue i hd d a b fresh complex s) := h.mxeIssue fun _ k => k.mmaFault

end Forms

theorem MemoryOk.execIllegalInstruction (h : MemoryOk s) : EndsOk (execIllegalInstruction s) := by
  unfold Machine.execIllegalInstruction
  rcases e : State.focus? _ with _ | f
  · exact .refused
  · have same : MemoryOk f.s := by
      rw [State.focus_state s f e]
      exact h
    exact .next same.stop

/-- Every instruction and event keeps memory in its canonical form. -/
theorem MemoryOk.exec {i : Instr} (h : MemoryOk s) : EndsOk (exec i s) := by
  unfold Machine.exec
  induction i with
  | nop | rsb | rse | syswr | wbase | br | call | brx | fence | vlil | vlih | slil | slih | sel | scmp => exact h.regIssue
  | exit => exact h.execExit
  | trap | brk => exact h.onceIssue (fun _ _ _ => .none) fun _ _ _ _ c => c.stop
  | gpw => exact h.execGpw
  | dfree => exact h.execDfree
  | gate => exact h.execGate
  | dlrel => exact h.execDlrel
  | sysrd | sand | sor | sxor | sshr | ssar | sminN | smaxN | rdl | sadd | ssub | smul | sshl | saddi | smov | spopc | sclz | sneg => exact h.uniIssue
  | ralloc => exact h.execRalloc
  | rfree => exact h.execRfree
  | cpost => exact h.execCpost
  | spt => exact h.execSpt
  | wait => exact h.execWait
  | brM | brxM => exact h.markedIssue
  | barJoin => exact h.execBarJoin
  | barMark => exact h.execBarMark
  | barHold => exact h.execBarHold
  | cstage => exact h.execCstage
  | coll => exact h.execColl
  | tld | accZero => exact h.mxeIssue fun _ _ => .none
  | tst => exact h.execTst
  | mma | mmz | cmma | cmmz => exact h.matrixIssue
  | accSt | accLd => exact h.mxeIssue fun _ k => k.moveFault
  | ld | st | sld | sst => exact h.memIssue fun _ _ _ _ c => c.enqueue
  | atomAdd | atomAnd | atomOr | atomXor | atomMinI | atomMaxI | atomMinN | atomMaxN | atomSwap | atomCas | atomFadd | atomFmax => exact h.atomIssue
  | iadd | isub | imul | imulhI | imulhN | imad | iand | ior | ixor | iandn | ishl | ishr | isar | iminI | imaxI | iminN | imaxN | clmul | clmulh
  | bfeN | bfeI | bfi | perm | iaddi | ishli | ishri | isari | iaddVs | imulVs | imadVs | iandVs | ishlVs | ishrVs | mov | popc | clz | brev | ineg
  | iabs | laneid | bcast | tidx | tidy | tidz | fadd | fsub | fmul | ffma | fmin | fmax | faddVs | fmulVs | ffmaVs | badd2 | bmul2 | bfma2 | frcp
  | frsq | fsqrt | fexp2 | flog2 | fsinp | fcosp | fabs | fneg | ffloor | fceil | ftrunc | frint | fclass | cvtF32I32 | cvtF32N32 | cvtI32F32
  | cvtN32F32 | cvtI32F32Rz | cvtBf16x2F32 | cvtF16x2F32 | cvtE4m3x4F32 | cvtE5m2x4F32 | hadd2 | hmul2 | hfma2 => exact h.vecIssue
  | iadd64 | isub64 | imulwN | iadd64Vs | mov64 | cmul | cfma | twosum | cvtF32Bf16x2 | cvtF32F16x2 | twoprod => exact h.vecIssue2
  | icmp | icmpVs | pand | por | pxor | pandn | pnot | pset | fcmp | fcmpVs => exact h.predIssue
  | xlIdx | xlXor | xlBack | xlFwd => exact h.xlIssue
  | pcolMask => exact h.prodIssue
  | pcolAny | pcolAll | pcolCnt => exact h.pcolIssue
  | wredAdd | wredMinI | wredMaxI | wredMinN | wredMaxN | wredAnd | wredOr | wredXor | wredFadd => exact h.wredIssue
  | pfxAddIn | pfxAddEx | pfxXorIn | pfxXorEx | pfxMaxIIn => exact h.pfxIssue
  | cvtF32E4m3x4 | cvtF32E5m2x4 => exact h.vecIssue4
  | sadd64 | smov64 => exact h.uniIssue2
  | mainPowerOn => exact .whenever h.newStart
  | mainPowerOff => exact h.execMainPowerOff
  | hostLinkTrained | fullService | hashMaskZeroingDone => exact .whenever h
  | firmwareLoaded => exact h.execFirmwareLoaded
  | unitTrained => exact h.execUnitTrained
  | resetGo => exact .ite .refused (.next (.ite h.resetCtl h))
  | clockAdjust => exact .ite .refused (.next h)
  | powerCtlWrite | cfgLock | cfgRun | owlRekey | worldCreate | worldKey | worldDestroy => exact h.pfOnly
  | registerWrite => exact h.execRegisterWrite
  | cfgRunDone => exact h.execCfgRunDone
  | hashMaskWrite => exact .ite .refused h.pfOnly
  | linkKeyInstalled => exact h.execLinkKeyInstalled
  | remoteRequestSend => exact h.execRemoteRequestSend
  | linkTagFailure => exact .whenever h.setLink
  | linkFailed => exact .whenever h.failLink
  | remoteRequestArrive => exact h.execRemoteRequestArrive
  | undeliverable => exact h.remoteMiss
  | remoteMissReply => exact .ite .refused h.remoteMiss
  | remoteAck => exact h.execRemoteAck
  | homePerform => exact h.execHomePerform
  | resultReturn => exact h.execResultReturn
  | cqWrite => exact h.slotWrite fun _ => h.putWidx
  | cqEnable | cqDisable => exact h.slotWrite fun _ => h.putCqCtl
  | cqRestart => exact h.slotWrite fun _ => h.restartQueue
  | cqReadWrite => exact h.slotWrite fun _ => h.putRidx
  | crReadWrite => exact h.slotWrite fun _ => h.putQueueReg
  | packetStart => exact h.throughLinks fun _ k => k.lookAtPacket
  | launch => exact h.execLaunch
  | mboxPut | mboxTake => exact h.mailboxEvent
  | mboxWaitServed => exact h.throughLinks fun _ k => k.serveWaiting
  | write => exact h.execWrite
  | faultDone => exact h.execFaultDone
  | flogAppend => exact h.execFlogAppend
  | flogAppendCommit => exact h.throughLinks fun _ k => k.commitAppend
  | childCreate => exact h.execChildCreate
  | setShare => exact h.execSetShare
  | freeze => exact h.execFreeze
  | freezeComplete => exact h.throughLinks fun _ k => k.completeFreeze
  | thaw => exact h.execThaw
  | checkpoint => exact h.execCheckpoint
  | checkpointCommit => exact h.throughLinks fun _ k => k.commitCheckpoint
  | revoke => exact h.execRevoke
  | revokeComplete => exact h.throughLinks fun _ k => k.completeRevoke
  | preempt => exact h.execPreempt
  | inval => exact h.execInval
  | invalComplete => exact h.execInvalComplete
  | rootPtbWrite | rootHqIdxWrite => exact h.pageWrite
  | forwardedCommand => exact h.throughLinks fun _ k => k.forwardCommand
  | tensorDeclare | tensorRetire => exact h.tensorEvent fun _ _ _ k => k.zeroGranule
  | tensorRevise => exact h.tensorEvent fun _ _ _ k => k.reviseGranule
  | scrub => exact h.execScrub
  | completionRecordWrite => exact h.throughLinks fun _ k => k.writeRecord
  | bundleRetire => exact h.execBundleRetire
  | handlerRecordWrite => exact h.throughLinks fun _ k => k.writeHandlerRecord
  | worldCmdDone => exact h.throughLinks fun _ k => k.finishWorldCmd
  | bchEnable | bchGo => exact h.bounceWrite
  | bchChunk => exact h.throughLinks fun _ k => k.runChunk
  | bchAbort => exact h.execBchAbort
  | bchStatusRecord => exact h.execBchStatusRecord
  | tamperAlarm => exact .whenever h.tamperAlarmed
  | teamPlace => exact h.execTeamPlace
  | teamImageCommit => exact h.throughLinks fun _ k => k.commitImage
  | teamReentry => exact h.throughLinks fun _ k => k.reenterNext
  | engineHaltStop => exact h.throughLinks fun _ k => k.stopEngine
  | haltSaveComplete => exact h.throughLinks fun _ k => k.saveHalted
  | zugzwangSwap => exact h.throughLinks fun _ k => k.swapOne
  | zugzwangReentry => exact h.throughLinks fun _ k => k.reenterWarp
  | ripeEntryWrite => exact h.throughLinks fun _ k => k.writeRipe
  | tempoRingWrite => exact h.execTempoRingWrite
  | markedBranchRendezvous => exact h.execMarkedBranchRendezvous
  | tceEntryComplete => exact h.throughLinks fun _ k => k.runTceEntry
  | mxeOperationComplete => exact h.execMxeOperationComplete
  | collComplete => exact h.throughLinks fun _ k => k.runColl
  | watchWrite => exact .ite .refused (.next (.ite h.putWatch h))
  | illegalInstruction => exact h.execIllegalInstruction
  | forwardedCommandAnswer => exact h.execForwardedCommandAnswer
  | retransmissionRequest => exact h.execRetransmissionRequest

end Sys2Proof
end

section
-- One proof after another: side by side their threads pass the limit of memory that the check sets.
set_option Elab.async false
/-! CLAIM. O60: every step keeps memory in its canonical form. The fetch, the issue and the host's accesses, then a step. -/

namespace Sys2Proof

open Machine

variable {s : State}

/-! ## The fetch -/

/-- The state that a fetch leaves, however it ends. -/
noncomputable def fetchedBy : Fetched → State
  | .word t _ _ | .miss t _ | .refused t _ | .failed t _ | .far t _ _ _ | .waits t => t

theorem MemoryOk.fetch {c k off} (h : MemoryOk s) : MemoryOk (fetchedBy (s.fetch c k off)) := by
  have walked {va : Nat} : MemoryOk (s.walkFor c va) := h.walkFor
  unfold State.fetch
  dsimp only
  refine .ite_of fetchedBy walked ?_
  rcases State.lead _ _ _ _ _ with _ | _ | _
  · dsimp only
    rcases State.targetOf _ _ _ with _ | _ | _ | _
    · refine .ite_of fetchedBy walked.tamperAlarmed ?_
      rcases HomeOut.fail _ with _ | _ <;> exact walked.befallRange.agentRead
    · dsimp only
      rcases e : State.farGo _ _ _ _ with _ | _ | _ | _ <;> exact (walked.left e :)
    · exact walked
    · exact walked
  · exact walked
  · exact walked

theorem MemoryOk.fetched {c k off x} (h : MemoryOk s) (e : s.fetch c k off = x) : MemoryOk (fetchedBy x) := e ▸ h.fetch

theorem MemoryOk.rememberWord {b k off w} (h : MemoryOk s) : MemoryOk (s.rememberWord b k off w) := by
  unfold State.rememberWord
  rcases State.bundle? _ _ with _ | _
  · exact h
  · exact h.setBundle

theorem MemoryOk.remember {c va t} (h : MemoryOk s) : MemoryOk (s.remember c va t) := .ite h h

/-- The state that the way to an instruction leaves. -/
noncomputable def preparedBy : Prep → State
  | .done t | .run _ t => t

theorem MemoryOk.fetchAndDecode (h : MemoryOk s) : MemoryOk (preparedBy s.fetchAndDecode) := by
  unfold State.fetchAndDecode
  rcases State.focus? _ with _ | f
  · exact h
  · dsimp only
    rcases e : State.fetch _ _ _ _ with _ | _ | _ | _ | ⟨t, _, _, _⟩ | _
    · have kept {c va t b k off w} := ((h.fetched e).remember (c := c) (va := va) (t := t)).rememberWord (b := b) (k := k) (off := off) (w := w)
      dsimp only
      rcases Sys2Proof.decode _ with _ | _ <;> exact kept
    · exact .missed (h.fetched e)
    · exact .stopAt (h.fetched e)
    · exact .fetchFault (h.fetched e)
    · have got : MemoryOk ({ f with s := t } : Focus).s := h.fetched e
      dsimp only [preparedBy]
      exact got.missed
    · exact h.fetched e

theorem MemoryOk.prepare {n wn w} (h : MemoryOk s) : MemoryOk (preparedBy (s.prepare n wn w)) := by
  unfold State.prepare
  rcases Warp.selectPc _ with _ | _
  · exact h
  · exact .fetchAndDecode h

/-! ## What comes before a move -/

theorem MemoryOk.sendAnswer {i c p} (h : MemoryOk s) : MemoryOk (s.sendAnswer i c p) := h.setLink.chargePort

theorem MemoryOk.drainAnswers {i n} (h : MemoryOk s) : MemoryOk (State.drainAnswers i n s) := by
  induction n generalizing s with
  | zero => exact h
  | succ n ih =>
    conv in State.drainAnswers _ _ _ => whnf
    rcases pickPass _ _ _ with _ | _
    · exact h
    · dsimp only
      rcases List.find? _ _ with _ | _
      · exact h
      · exact ih (.sendAnswer h)

theorem MemoryOk.refreshPort {i} (h : MemoryOk s) : MemoryOk (s.refreshPort i) := .drainAnswers h

theorem MemoryOk.refreshPorts (h : MemoryOk s) : MemoryOk s.refreshPorts := h.foldl fun _ _ h => h.refreshPort

theorem MemoryOk.settleHolds (h : MemoryOk s) : MemoryOk s.settleHolds := h

theorem MemoryOk.refreshDisp (h : MemoryOk s) : MemoryOk s.refreshDisp := h

theorem MemoryOk.upToDate (h : MemoryOk s) : MemoryOk s.upToDate := h.wakeAll.refreshPorts.settleHolds.refreshDisp

theorem MemoryOk.charged {core slot o} (h : MemoryOk s) : MemoryOk (s.charged core slot o) := h

theorem MemoryOk.readyFor {core slot o} (h : MemoryOk s) : MemoryOk (preparedBy (s.readyFor core slot o)) := .prepare (.charged h)

/-! ## The issue -/

theorem MemoryOk.walkLanes {i} (h : MemoryOk s) : MemoryOk (s.walkLanes i) := by
  unfold State.walkLanes
  rcases Instr.access? _ with _ | _
  · exact h
  · rcases State.focus? _ with _ | _
    · exact h
    · exact h.foldl fun _ _ h => h.walkFor

theorem MemoryOk.issueOne {i} (h : MemoryOk s) : EndsOk (issueOne i s) := h.walkLanes.exec

/-- An attempt takes place, or it leaves the memory from before. -/
theorem MemoryOk.attempt {t : State} (h : MemoryOk s) (g : MemoryOk t) : MemoryOk (s.attempt t).1 := by
  obtain ⟨-, e⟩ | ⟨-, -, e⟩ | ⟨-, -, e⟩ := State.attempt_cases s t
  · exact e ▸ h.exhaust
  · exact e ▸ g.waitOver
  · exact e ▸ h.waitAt

theorem MemoryOk.used {t : State} {more} (h : MemoryOk s) (g : MemoryOk t) (adds : ∀ u, MemoryOk u → MemoryOk (more u)) :
    MemoryOk (s.used t more) := by
  have tried := h.attempt g
  unfold State.used
  rcases e : State.attempt _ _ with ⟨u, _ | _⟩
  · exact .mk (tried.of_fst e)
  · exact adds _ (tried.of_fst e)

theorem MemoryOk.issueAlso {i o} (h : MemoryOk s) : MemoryOk (issueAlso i s o) := by
  unfold Machine.issueAlso
  rcases Warp.selectPc _ with _ | _
  · exact h
  · dsimp only
    rcases e : Machine.issueOne _ _ with _ | _ | _
    · exact .ite (h.attempt (MemoryOk.issueOne (.mk h) _ e)) h
    · exact h
    · exact h

theorem MemoryOk.issueFor {core slot o} (h : MemoryOk s) : EndsOk (s.issueFor core slot o) := by
  have ready := h.readyFor (core := core) (slot := slot) (o := o)
  unfold State.issueFor
  rcases e : State.readyFor _ _ _ _ with _ | ⟨i, t⟩
  · exact .next (h.used (by rwa [e] at ready) fun _ k => k)
  · rw [e] at ready
    dsimp only
    rcases out : Machine.issueOne _ _ with _ | _ | _
    · exact .next (h.used (MemoryOk.issueOne ready _ out) fun _ k => .ite k (k.foldl fun _ _ k => k.issueAlso))
    · exact .fault
    · exact .refused

theorem MemoryOk.runIssue {core slot} (h : MemoryOk s) : EndsOk (s.runIssue core slot) := by
  unfold State.runIssue
  rcases State.pickWarp _ _ _ with _ | _
  · exact .next h
  · exact h.issueFor

theorem MemoryOk.prefetch {b k off} (h : MemoryOk s) : MemoryOk (s.prefetch b k off) := by
  unfold State.prefetch
  rcases State.bundle? _ _ with _ | _
  · exact h
  · dsimp only
    rcases e : State.fetch _ _ _ _ with _ | _ | _ | _ | _ | _
    · exact h.attempt (MemoryOk.fetched (.mk h) e).rememberWord
    · exact h
    · exact h
    · exact h
    · exact h
    · exact h.attempt (MemoryOk.fetched (.mk h) e)

/-! ## The host's accesses -/

theorem MemoryOk.hostRead {i p} {g : Got} (h : MemoryOk g.s) : MemoryOk (hostRead i g p).s := by
  unfold Machine.hostRead
  rcases Got.bytes _ with _ | _
  · exact h
  · exact h.befallRange.agentRead

theorem MemoryOk.pcieRead {i a n} (h : MemoryOk s) : MemoryOk (s.pcieRead i a n).s := .foldl_of Got.s _ h fun _ _ h => h.hostRead

theorem MemoryOk.hostStore {i a n l bs} (h : MemoryOk s) : MemoryOk (hostStore i a n l bs s) := by
  induction l generalizing s bs with
  | nil => exact h
  | cons p rest ih => exact ih h.befallRange.homeWrite

theorem MemoryOk.pcieWrite {i a bs} (h : MemoryOk s) : MemoryOk (s.pcieWrite i a bs) := h.hostStore

theorem MemoryOk.execPcie {a} (h : MemoryOk s) : EndsOk (execPcie a s) := by
  unfold Machine.execPcie
  cases a with
  | read => exact .ite (.next h) (.ite (.next h.pcieRead) .refused)
  | write => exact .ite (.next h) (.ite (.next h.pcieWrite) .refused)
  | hostWrite addr bs => exact .next (Mem.wf_writeHost bs s.mem _ h)

/-! ## A step -/

theorem MemoryOk.runEvent {i x} (h : MemoryOk s) : EndsOk (s.runEvent i x) := .exec h

theorem MemoryOk.runFirst {other l} (h : MemoryOk s) (k : EndsOk other) : EndsOk (s.runFirst other l) := by
  induction l with
  | nil => exact k
  | cons p rest ih =>
    conv in State.runFirst _ _ _ => whnf
    rcases e : State.runEvent _ _ _ with _ | _ | _
    · exact .next (h.runEvent _ e)
    · exact ih
    · exact ih

theorem MemoryOk.goOn (h : MemoryOk s) : EndsOk s.goOn := by
  unfold State.goOn
  rcases State.readySlot _ with _ | _
  · exact h.runFirst (.next h)
  · exact .ite (h.runFirst h.runIssue) h.runIssue

theorem MemoryOk.runMove {m} (h : MemoryOk s) : EndsOk (s.runMove m) := by
  have told {x : Input} : MemoryOk ({ s with input := x } : State).upToDate := .upToDate h
  unfold State.runMove
  cases m with
  | event i x => exact h.upToDate.runEvent
  | issue core slot x => exact told.runIssue
  | prefetch b k off x => exact .next told.prefetch
  | pcie a x => exact told.execPcie

theorem MemoryOk.begun {l} (h : MemoryOk s) : MemoryOk (s.begun l) := h

/-- A step from canonical memory: the next move of the agenda, or the box's own, from a state begun anew. -/
theorem MemoryOk.step (h : MemoryOk s) : EndsOk (step s) := by
  unfold Machine.step
  rcases State.agenda _ with _ | _
  · exact .ite .fault h.begun.upToDate.goOn
  · exact .ite .fault h.begun.runMove

end Sys2Proof

namespace Sys2Proof.Claims

/-- Settles O60: each operation on the state has a lemma that it keeps the canonical form, and a step is made of these operations. -/
theorem memoryStaysCanonical : Obligations.MemoryStaysCanonical := fun _ t h e => MemoryOk.step h t e

end Sys2Proof.Claims
end

section
-- One proof after another: side by side their threads pass the limit of memory that the check sets.
set_option Elab.async false
/-! CLAIM. The beats of copy entries (R329): a record of a format that is none of the specification's. -/

namespace Sys2Proof.Claims

open Sys2Proof Sys2Proof.Machine

/-- E4M3 with a canonical NaN of nine bits, one more than its codes have. -/
noncomputable def wideNaN : Fmt := { Fmt.e4m3 with cnan := 256 }

/-- A NaN added to the byte at offset 0 of a scratchpad. -/
noncomputable def addsNaN : Item := { addr := 0, add := some (.nan, none) }

/-- A team whose scratchpad holds no byte but zero. -/
noncomputable def zeroTeam : Team := { bundle := 0, kernel := 0, index := 0 }

theorem inside_addsNaN : Inside wideNaN 0 addsNaN :=
  ⟨.inr (.inl rfl), fun _ => ⟨by decide, rfl⟩, by decide, by decide⟩

/-- A sum with a NaN is a NaN. -/
theorem plus_nan (x : NumVal) : x.plus .nan = .nan := by
  cases x <;> rfl

/-- The model leaves the low byte of the canonical NaN. -/
theorem zeroTeam_spmBeat : Sparse.get 0 0 (zeroTeam.spmBeat wideNaN (0, [addsNaN])).spm = 0 := by
  decide

/-- The byte that takes the sum would have to hold the canonical NaN. -/
theorem itemPuts_addsNaN {old new : Nat → Byte} (puts : ItemPuts wideNaN addsNaN old new) : (new 0).toNat = 256 := by
  obtain ⟨-, -, sum⟩ := puts
  have rounded : Rounded wideNaN ((numOf wideNaN (littleEndian [old 0])).plus .nan) (littleEndian [new 0]) := (sum (by decide)).2.1 .nan rfl
  rw [plus_nan] at rounded
  exact rounded

/-- Refutes O52: the beats are asked of every record of a format, also of one whose canonical NaN is wider than its codes. A NaN added at such a
format leaves its canonical NaN, which the byte of the element cannot hold. -/
theorem not_copyEntries : ¬ Obligations.CopyEntries := by
  rintro ⟨-, -, ⟨-, scratchpad, -⟩, -⟩
  obtain ⟨new, ⟨mid, puts, rfl⟩, -, holds⟩ := scratchpad zeroTeam wideNaN 0 [addsNaN] (List.forall_mem_singleton.2 inside_addsNaN)
  have zero : new 0 = 0 := (holds 0).symm.trans zeroTeam_spmBeat
  have nan := itemPuts_addsNaN puts
  rw [zero] at nan
  cases nan

end Sys2Proof.Claims
end

section
-- One proof after another: side by side their threads pass the limit of memory that the check sets.
set_option Elab.async false
/-! SUPPORT. The order of a warp's memory instructions, and what a load finds among those before it (R216, R217, R224, R308). -/

namespace Sys2Proof.Claims

open Sys2Proof Sys2Proof.Machine

/-! ## The order -/

theorem band_iff {a b : Bool} {p q : Prop} (first : a = true ↔ p) (second : b = true ↔ q) : (a && b) = true ↔ p ∧ q :=
  Bool.and_eq_true_iff.trans (and_congr first second)

theorem bor_iff {a b : Bool} {p q : Prop} (first : a = true ↔ p) (second : b = true ↔ q) : (a || b) = true ↔ p ∨ q :=
  Bool.or_eq_true_iff.trans (or_congr first second)

theorem rings_iff (r : MemReq) : r.rings = true ↔ Rings r := by
  refine band_iff beq_iff_eq (List.any_eq_true.trans (exists_congr fun u => and_congr_right fun _ => ?_))
  cases u.tgt with
  | door off => exact (band_iff decide_eq_true_iff beq_iff_eq).trans ⟨fun h => ⟨off, rfl, h⟩, fun h => h.elim fun _ k => Target.door.inj k.1 ▸ k.2⟩
  | here | spm | away => exact ⟨Bool.noConfusion, fun h => h.elim fun _ k => Target.noConfusion k.1⟩

/-- An access that performs after everything before it. -/
theorem strict_iff (r : MemReq) : (r.order == .sc || r.order == .rel || r.rings) = true ↔ r.order = .rel ∨ r.order = .sc ∨ Rings r :=
  (bor_iff (bor_iff beq_iff_eq beq_iff_eq) (rings_iff r)).trans (or_assoc.trans or_left_comm)

theorem mayPerform_of_inOrder {earlier : List MemReq} {r : MemReq} (order : InOrder earlier r) : mayPerform earlier r = true := by
  rw [mayPerform]
  by_cases strict : (r.order == .sc || r.order == .rel || r.rings) = true
  · rw [if_pos strict]
    exact List.all_eq_true.2 fun e he => List.all_eq_true.2 fun u hu => (order e he u hu).1 ((strict_iff r).1 strict)
  · rw [if_neg strict]
    refine List.all_eq_true.2 fun e he => ?_
    have gone (kind : e.kind ≠ .load) : (if r.kind == .load then true else e.units.all MemUnit.gone) = true := by
      split
      · rfl
      · next other => exact List.all_eq_true.2 fun u hu => Bool.or_eq_true_iff.2 ((order e he u hu).2.2 kind (mt beq_iff_eq.2 other))
    cases kind : e.kind with
    | load =>
      refine List.all_eq_true.2 fun u hu => Bool.or_eq_true_iff.2 (((order e he u hu).2.1 kind).imp_right ?_)
      rintro ⟨d, a, w, c, away⟩
      rw [away]
      rfl
    | store | atom => exact gone (kind ▸ ReqKind.noConfusion)

/-! ## The queue (R216) -/

section Queue

variable {s : State} {u : MemUnit}

/-- The numbers of a range, by their distance from its start. -/
theorem between_iff {a : Prop} {p : Nat → Prop} {lo n k : Nat} :
    ((a ∧ lo ≤ k) ∧ k < lo + n) ∧ p (k - lo) ↔ a ∧ ∃ j < n, k = lo + j ∧ p j := by
  refine ⟨fun h => ⟨h.1.1.1, k - lo, Nat.sub_lt_left_of_lt_add h.1.1.2 h.1.2, (Nat.add_sub_cancel' h.1.1.2).symm, h.2⟩, ?_⟩
  rintro ⟨first, j, lt, rfl, here⟩
  exact ⟨⟨⟨first, Nat.le_add_right _ _⟩, Nat.add_lt_add_left lt _⟩, by rwa [Nat.add_sub_cancel_left]⟩

theorem storesAt_iff (x : MemUnit) (k : Nat) : s.storesAt x (s.wholeOf u).1 k = true ↔ Stores s u x k :=
  (band_iff (band_iff (band_iff (beq_iff_eq (a := (s.keyOf x.tgt).1)) decide_eq_true_iff) decide_eq_true_iff) Iff.rfl).trans
    (between_iff (p := fun j => x.mask.testBit j = true))

variable (near : u.tgt.isAway = false)
include near

theorem mem_overlapping_iff (e : MemReq) (x : MemUnit) : x ∈ s.overlapping u e ↔ Overlaps s e u x := by
  rw [State.overlapping, near]
  by_cases load : e.kind = .load
  · rw [if_pos (beq_iff_eq.2 load)]
    exact iff_of_false List.not_mem_nil fun h => h.1 load
  · rw [if_neg (mt beq_iff_eq.1 load), List.mem_filter]
    refine Iff.trans (and_congr_right' (band_iff ?_ (bor_iff (band_iff (bor_iff (isAlias_iff x.tgt) (isAlias_iff u.tgt)) beq_iff_eq)
      (List.any_eq_true.trans (exists_congr fun i => and_congr List.mem_range (storesAt_iff x _)))))) (and_iff_right load).symm
    exact iff_of_eq (Bool.not_eq_true' _)

theorem forward_skip {l m : List MemReq} (apart : ∀ e ∈ l, ∀ x, ¬Overlaps s e u x) : s.forward u (l ++ m) = s.forward u m := by
  induction l with
  | nil => rfl
  | cons e rest ih =>
    obtain ⟨none, others⟩ := List.forall_mem_cons.1 apart
    have empty : s.overlapping u e = [] := List.eq_nil_iff_forall_not_mem.2 fun x hx => none x ((mem_overlapping_iff near e x).1 hx)
    conv_lhs => whnf
    rw [empty]
    exact ih others

theorem forward_apart {earlier : List MemReq} (apart : Apart s earlier u) : s.forward u earlier.reverse = .home := by
  rw [← List.append_nil earlier.reverse, forward_skip near fun e he => apart e (List.mem_reverse.1 he)]
  rfl

/-- The bytes that a load takes from an entry that covers it. -/
noncomputable def takenBytes (s : State) (u : MemUnit) (e : MemReq) : List Byte :=
  (List.range u.len).map fun i => s.storedByte (s.overlapping u e) (s.wholeOf u).1 ((s.wholeOf u).2 + u.off + i)

omit near in
theorem storedByte_of {xs : List MemUnit} {k : Nat} (some : ∃ y ∈ xs, Stores s u y k) :
    ∃ y ∈ xs, Stores s u y k ∧ s.storedByte xs (s.wholeOf u).1 k = y.data.getD (k - (s.keyOf y.tgt).2) 0 := by
  obtain ⟨x, hx, stores⟩ := some
  rcases found : xs.find? fun x => s.storesAt x (s.wholeOf u).1 k with _ | y
  · exact absurd ((storesAt_iff x k).2 stores) (List.find?_eq_none.1 found x hx)
  · exact ⟨y, List.mem_of_find?_eq_some found, (storesAt_iff y k).1 (List.find?_some (p := fun x => s.storesAt x (s.wholeOf u).1 k) found),
      by rw [State.storedByte, found]⟩

/-- Each of the bytes that a load takes is of a store that reaches it. -/
def TakesBytes (s : State) (u : MemUnit) (e : MemReq) (bs : List Byte) : Prop :=
  bs.length = u.len ∧ ∀ i < u.len, u.off + i < u.size → ∃ y, Overlaps s e u y ∧ Stores s u y (wholeAt s u + u.off + i) ∧
    bs[i]? = some (y.data.getD (wholeAt s u + u.off + i - (s.keyOf y.tgt).2) 0)

theorem takesBytes_takenBytes {e : MemReq} (cover : ∀ i < u.size, ∃ y, Overlaps s e u y ∧ Stores s u y (wholeAt s u + i)) :
    TakesBytes s u e (takenBytes s u e) := by
  refine ⟨(List.length_map _).trans List.length_range, fun i hi lt => ?_⟩
  obtain ⟨z, hz, stores⟩ := cover (u.off + i) lt
  rw [← Nat.add_assoc] at stores
  obtain ⟨v, hv, stored, byte⟩ := storedByte_of ⟨z, (mem_overlapping_iff near e z).2 hz, stores⟩
  exact ⟨v, (mem_overlapping_iff near e v).1 hv, stored,
    List.getElem?_map.trans ((congrArg (Option.map _) (List.getElem?_range hi)).trans (congrArg some byte))⟩

omit near in
/-- What a load finds in an entry that overlaps it, all of whose parts are of one lane. -/
theorem forward_cons {e : MemReq} {rest : List MemReq} {x : MemUnit} {more : List MemUnit} (first : s.overlapping u e = x :: more)
    (mine : ((s.overlapping u e).filter fun y => y.lane == x.lane) = s.overlapping u e) : s.forward u (e :: rest) =
      if e.kind == .store && u.tgt.forwards && !x.tgt.isAlias
          && (List.range u.size).all fun i => (s.overlapping u e).any fun y => s.storesAt y (s.wholeOf u).1 ((s.wholeOf u).2 + i) then
        .bytes (takenBytes s u e)
      else .waits := by
  unfold takenBytes
  rw [first] at mine ⊢
  conv_lhs => whnf
  rw [first]
  dsimp only
  rw [mine]

/-- A load takes its bytes from the youngest store that overlaps it, where one lane of that covers its whole access. -/
theorem forward_covered {e : MemReq} {rest : List MemReq} {x : MemUnit} {lane : Nat} (kind : e.kind = .store) (forwards : u.tgt.forwards = true)
    (meets : Overlaps s e u x) (one : ∀ y, Overlaps s e u y → y.lane = lane ∧ ¬inWindow y.tgt)
    (cover : ∀ i < u.size, ∃ y, Overlaps s e u y ∧ Stores s u y (wholeAt s u + i)) : s.forward u (e :: rest) = .bytes (takenBytes s u e) := by
  have all (z : MemUnit) : z ∈ s.overlapping u e ↔ Overlaps s e u z := mem_overlapping_iff near e z
  obtain ⟨y, more, first⟩ := List.exists_cons_of_ne_nil (List.ne_nil_of_mem ((all x).2 meets))
  have head := one y ((all y).1 (first ▸ List.mem_cons_self))
  refine (forward_cons first (List.filter_eq_self.2 fun z hz => beq_iff_eq.2 ((one z ((all z).1 hz)).1.trans head.1.symm))).trans (if_pos ?_)
  rw [kind, forwards, Bool.eq_false_iff.2 (mt (isAlias_iff y.tgt).1 head.2)]
  exact List.all_eq_true.2 fun i hi => List.any_eq_true.2 ((cover i (List.mem_range.1 hi)).imp fun z h => ⟨(all z).2 h.1, (storesAt_iff z _).2 h.2⟩)

end Queue

end Sys2Proof.Claims
end

section
-- One proof after another: side by side their threads pass the limit of memory that the check sets.
set_option Elab.async false
/-! SUPPORT. HOME_PERFORM of one part: a part that is performed fills the registers that wait for its bytes, and one that fails leaves zeros and raises
the halt line of its context (R170, R188, R216, R305, R306, R314). -/

namespace Sys2Proof.Claims

open Sys2Proof Sys2Proof.Machine

/-! ## The registers that wait (R170, R305) -/

/-- Returned bytes reach the register of a cell. -/
def Fills (off : Nat) (c : PendCell) (x : Nat × List Byte) : Prop :=
  (c.uni = true ∨ c.lane = x.1) ∧ off ≤ c.off ∧ c.off < off + max 1 x.2.length

/-- A cell once bytes have come for a lane. -/
noncomputable def fillCell (m : MSize) (off : Nat) (c : PendCell) (x : Nat × List Byte) : PendCell :=
  if (c.uni || c.lane == x.1) && decide (off ≤ c.off) && decide (c.off < off + max 1 x.2.length) then
    { c with val := some (loadWord m (c.off - off) x.2) } else c

theorem fills_iff {off : Nat} {c : PendCell} {x : Nat × List Byte} :
    ((c.uni || c.lane == x.1) && decide (off ≤ c.off) && decide (c.off < off + max 1 x.2.length)) = true ↔ Fills off c x :=
  (band_iff (band_iff (bor_iff Iff.rfl beq_iff_eq) decide_eq_true_iff) decide_eq_true_iff).trans and_assoc

theorem fillCell_fills {m : MSize} {off : Nat} {c : PendCell} {x : Nat × List Byte} (h : Fills off c x) :
    fillCell m off c x = { c with val := some (loadWord m (c.off - off) x.2) } :=
  if_pos (fills_iff.2 h)

theorem fillCell_other {m : MSize} {off : Nat} {c : PendCell} {x : Nat × List Byte} (h : ¬Fills off c x) : fillCell m off c x = c :=
  if_neg (mt fills_iff.1 h)

theorem fillCells_other {m : MSize} {off : Nat} {c : PendCell} {rets : List (Nat × List Byte)} (h : ∀ x ∈ rets, ¬Fills off c x) :
    rets.foldl (fillCell m off) c = c := by
  induction rets with
  | nil => rfl
  | cons x rest ih =>
    obtain ⟨first, others⟩ := List.forall_mem_cons.1 h
    rw [List.foldl_cons, fillCell_other first, ih others]

/-- Filling changes the value of a cell alone. -/
theorem fillCells_val (m : MSize) (off : Nat) (rets : List (Nat × List Byte)) (c : PendCell) :
    rets.foldl (fillCell m off) c = { c with val := (rets.foldl (fillCell m off) c).val } := by
  induction rets generalizing c with
  | nil => rfl
  | cons x rest ih =>
    have one : fillCell m off c x = { c with val := (fillCell m off c x).val } := by
      by_cases h : Fills off c x
      · rw [fillCell_fills h]
      · rw [fillCell_other h]
    rw [List.foldl_cons, ih, one]

/-- The bytes of one lane fill its cells, whatever comes for the other lanes. -/
theorem fillCells_fills {m : MSize} {off : Nat} {c : PendCell} {rets : List (Nat × List Byte)} {x : Nat × List Byte} (mem : x ∈ rets)
    (fills : Fills off c x)
    (only : ∀ y ∈ rets, Fills off c y → y.1 = x.1) (nodup : (rets.map Prod.fst).Nodup) :
    (rets.foldl (fillCell m off) c).val = some (loadWord m (c.off - off) x.2) := by
  obtain ⟨pre, post, rfl⟩ := List.append_of_mem mem
  rw [List.map_append, List.map_cons, List.nodup_middle, List.nodup_cons] at nodup
  have apart (y : Nat × List Byte) (hy : y ∈ pre ++ post) : ¬Fills off c y := fun h =>
    nodup.1 (by
      rw [← List.map_append, ← only y (List.mem_append.2 ((List.mem_append.1 hy).imp_right (List.mem_cons_of_mem _))) h]
      exact List.mem_map_of_mem hy)
  rw [List.foldl_append, fillCells_other fun y hy => apart y (List.mem_append_left _ hy), List.foldl_cons, fillCell_fills fills,
    fillCells_other (c := { c with val := some (loadWord m (c.off - off) x.2) }) fun y hy => apart y (List.mem_append_right _ hy)]

theorem loadWord_eq (m : MSize) (off : Nat) (bs : List Byte) : loadWord m off bs = loaded m off bs := by
  have little : leNat = littleEndian := funext fun l => (littleEndian_eq_leNat l).symm
  cases m with
  | x8 => exact congrArg (fun f : List Byte → Nat => wN (f (bs.take 1))) little
  | sx8 => exact congrArg (fun f : List Byte → Nat => wI (BitVec.ofNat 8 (f (bs.take 1))).toInt) little
  | x16 => exact congrArg (fun f : List Byte → Nat => wN (f (bs.take 2))) little
  | sx16 => exact congrArg (fun f : List Byte → Nat => wI (BitVec.ofNat 16 (f (bs.take 2))).toInt) little
  | _ => exact congrArg (fun f : List Byte → Nat => wN (f ((bs.drop off).take 4))) little

/-! ## A warp once a part is performed or has failed -/

/-- Bytes taken by the results of a request that wait for them. -/
noncomputable def takeBytes (id off : Nat) (rets : List (Nat × List Byte)) (w : Warp) : Warp :=
  rets.foldl (fun x p => { x with pend := x.pend.map (Pend.fill id p.1 off p.2) }) w

theorem foldl_fill_own {id off : Nat} (rets : List (Nat × List Byte)) {p : Pend} (own : p.req = some id) :
    rets.foldl (fun q x => Pend.fill id x.1 off x.2 q) p = { p with cells := p.cells.map fun c => rets.foldl (fillCell p.size off) c } := by
  induction rets generalizing p with
  | nil => exact congrArg (fun cells => { p with cells := cells }) (List.map_id p.cells).symm
  | cons x rest ih =>
    rw [List.foldl_cons, Pend.fill, if_pos own]
    refine Eq.trans (ih ?_) (congrArg (fun cells => { p with cells := cells }) List.map_map)
    exact own

theorem foldl_fill_other {id off : Nat} (rets : List (Nat × List Byte)) {p : Pend} (other : p.req ≠ some id) :
    rets.foldl (fun q x => Pend.fill id x.1 off x.2 q) p = p := by
  induction rets with
  | nil => rfl
  | cons x rest ih => rw [List.foldl_cons, Pend.fill, if_neg other, ih]

/-- Steps that each change every member of a list change every member by all of them. -/
theorem foldl_map_eq_map_foldl {α β : Type} (f : β → α → α) (xs : List β) (l : List α) :
    xs.foldl (fun l x => l.map (f x)) l = l.map fun a => xs.foldl (fun a x => f x a) a := by
  induction xs generalizing l with
  | nil => exact (List.map_id l).symm
  | cons x rest ih => exact (ih _).trans List.map_map

/-- A warp with another queue and other results. -/
noncomputable def withQueue (v : Warp) (pend : List Pend) (mem : List MemReq) : Warp := { v with pend := pend, mem := mem }

theorem takeBytes_eq (id off : Nat) (rets : List (Nat × List Byte)) (w : Warp) :
    takeBytes id off rets w = withQueue w (w.pend.map fun p => rets.foldl (fun q x => Pend.fill id x.1 off x.2 q) p) w.mem := by
  rw [← foldl_map_eq_map_foldl]
  induction rets generalizing w with
  | nil => rfl
  | cons x rest ih => exact ih _

/-- A part that is done. -/
noncomputable def ended (y : MemUnit) : MemUnit := { y with done := true, sent := false }

/-- A queue once the units of a request are changed: a request with every part done leaves it (R216). -/
noncomputable def leftBy (mem : List MemReq) (id : Nat) (f : Nat → MemUnit → MemUnit) : List MemReq :=
  (mem.map fun x => if x.id = id then { x with units := x.units.mapIdx f } else x).filter fun x => x.units.any fun y => !y.done

/-- A queue once units of a request are done. -/
noncomputable def leftQueue (mem : List MemReq) (id : Nat) (gone : Nat → Bool) : List MemReq := leftBy mem id fun n y => bif gone n then ended y else y

theorem cond_contains {α : Type} (n i : Nat) (a b : α) : (bif [i].contains n then a else b) = if n = i then a else b := by
  rw [List.contains_cons, List.contains_nil, Bool.or_false, Bool.cond_eq_ite]
  exact if_congr beq_iff_eq rfl rfl

theorem foldl_ended (us : List MemUnit) (uis : List Nat) :
    uis.foldl (fun us i => modifyAt ended i us) us = us.mapIdx fun n y => bif uis.contains n then ended y else y := by
  induction uis generalizing us with
  | nil => exact (List.mapIdx_eq_iff.2 fun i => (Option.map_id' (x := us[i]?)).symm).symm
  | cons i rest ih =>
    rw [List.foldl_cons, ih, modifyAt_eq_mapIdx, List.mapIdx_mapIdx]
    refine congrArg (List.mapIdx · us) (funext fun n => funext fun y => ?_)
    rw [List.contains_cons, Function.comp_apply]
    by_cases here : n = i
    · rw [if_pos here, beq_iff_eq.2 here]
      cases rest.contains n <;> rfl
    · rw [if_neg here, beq_eq_false_iff_ne.2 here, Bool.false_or]

theorem finishAll_eq (w : Warp) (id : Nat) (uis : List Nat) : w.finishAll id uis = withQueue w w.pend (leftQueue w.mem id uis.contains) :=
  congrArg (withQueue w w.pend) (congrArg₂ List.filter (funext fun _ => List.not_all_eq_any_not) (congrArg (List.map · w.mem) (funext fun x : MemReq =>
    congrArg (fun us => if x.id = id then { x with units := us } else x) (foldl_ended x.units uis))))

/-- A relation that every member has to itself holds of a list and itself. -/
theorem each_refl {α : Type} {R : α → α → Prop} (h : ∀ a, R a a) (xs : List α) : Each R xs xs :=
  ⟨rfl, fun _ a _ ha hb => Option.some.inj (ha.symm.trans hb) ▸ h a⟩

section Part

variable {s : State} {r : MemReq} {u : MemUnit} {p : Pend} {c : PendCell} {v w : Warp} {pend : List Pend}

section Performed

variable {rets : List (Nat × List Byte)}

/-- What the bytes of a part leave of a register and of a result (R170). -/
def CellDone (r : MemReq) (u : MemUnit) (rets : List (Nat × List Byte)) (p : Pend) (c d : PendCell) : Prop :=
  d = { c with val := d.val } ∧
  (∀ bs, p.req = some r.id → (if c.uni then ∃ l, rets = [(l, bs)] else (c.lane, bs) ∈ rets) → u.off ≤ c.off → c.off < u.off + max 1 bs.length →
    d.val = some (loaded p.size (c.off - u.off) bs)) ∧
  (p.req ≠ some r.id ∨ (∀ x ∈ rets, (c.uni = false ∧ x.1 ≠ c.lane) ∨ c.off < u.off ∨ u.off + max 1 x.2.length ≤ c.off) → d.val = c.val)
def PendDone (r : MemReq) (u : MemUnit) (rets : List (Nat × List Byte)) (p q : Pend) : Prop :=
  q = { p with cells := q.cells } ∧ Each (CellDone r u rets p) p.cells q.cells

theorem fillCells_returned (nodup : (rets.map Prod.fst).Nodup) {m : MSize} {off : Nat} {bs : List Byte}
    (ret : if c.uni then ∃ l, rets = [(l, bs)] else (c.lane, bs) ∈ rets) (lo : off ≤ c.off) (hi : c.off < off + max 1 bs.length) :
    (rets.foldl (fillCell m off) c).val = some (loadWord m (c.off - off) bs) := by
  by_cases uni : c.uni = true
  · rw [if_pos uni] at ret
    obtain ⟨l, rfl⟩ := ret
    exact fillCells_fills List.mem_cons_self ⟨.inl uni, lo, hi⟩ (fun y hy _ => congrArg Prod.fst (List.mem_singleton.1 hy)) nodup
  · rw [if_neg uni] at ret
    exact fillCells_fills ret ⟨.inr rfl, lo, hi⟩ (fun y _ fills => (fills.1.resolve_left uni).symm) nodup

theorem not_fills {off : Nat} {x : Nat × List Byte} (none : (c.uni = false ∧ x.1 ≠ c.lane) ∨ c.off < off ∨ off + max 1 x.2.length ≤ c.off) :
    ¬Fills off c x := fun fills =>
  none.elim (fun h => fills.1.elim (fun uni => Bool.noConfusion (h.1.symm.trans uni)) fun lane => h.2 lane.symm) fun out =>
    out.elim (Nat.not_lt.2 fills.2.1) fun le => Nat.not_lt.2 le fills.2.2

theorem cellDone_own (nodup : (rets.map Prod.fst).Nodup) (own : p.req = some r.id) (c : PendCell) :
    CellDone r u rets p c (rets.foldl (fillCell p.size u.off) c) :=
  ⟨fillCells_val _ _ _ c, fun _ _ ret lo hi => (fillCells_returned nodup ret lo hi).trans (congrArg some (loadWord_eq _ _ _)),
    fun none => congrArg PendCell.val (fillCells_other fun x hx => not_fills (none.resolve_left (not_not_intro own) x hx))⟩

theorem pendDone (nodup : (rets.map Prod.fst).Nodup) (p : Pend) : PendDone r u rets p (rets.foldl (fun q x => Pend.fill r.id x.1 u.off x.2 q) p) := by
  by_cases own : p.req = some r.id
  · rw [foldl_fill_own rets own]
    exact ⟨rfl, each_map (cellDone_own nodup own) p.cells⟩
  · rw [foldl_fill_other rets own]
    exact ⟨rfl, each_refl (fun _ => ⟨rfl, fun _ h => absurd h own, fun _ => rfl⟩) p.cells⟩

theorem partDone_of (eq : w = withQueue v pend (leftQueue v.mem r.id [s.input.unit.unit].contains)) (each : Each (PendDone r u rets) v.pend pend) :
    PartDone s r u rets v w :=
  eq ▸ ⟨rfl, congrArg (leftBy v.mem r.id) (funext fun n => funext fun y => cond_contains n _ _ y), each⟩

/-- A part is performed: the registers take its bytes, and it leaves the queue (R170, R216). -/
theorem partDone (nodup : (rets.map Prod.fst).Nodup) (v : Warp) : PartDone s r u rets v ((takeBytes r.id u.off rets v).finish r.id s.input.unit.unit) :=
  partDone_of ((finishAll_eq _ _ _).trans (takeBytes_eq r.id u.off rets v ▸ rfl)) (each_map (pendDone nodup) v.pend)

end Performed

section Fails

variable {lanes : List Nat}

/-- The lanes of a part, and the parts that end with it where its data fail (R188). -/
noncomputable def lanesOf (u : MemUnit) : List Nat := if u.ops = [] then [u.lane] else u.ops.map Prod.fst
noncomputable def goneOf (s : State) (r : MemReq) (u : MemUnit) (n : Nat) : Bool :=
  if r.kind = .load then (r.units[n]?).any (fun z => (lanesOf u).contains z.lane) else n == s.input.unit.unit

/-- A register that waits, given a value. -/
noncomputable def withVal (c : PendCell) (x : Option Word) : PendCell := { c with val := x }

/-- What the failure of parts leaves of a register and of a result (R188). -/
def CellFailed (r : MemReq) (lanes : List Nat) (p : Pend) (c d : PendCell) : Prop :=
  d = withVal c (if p.req = some r.id ∧ r.kind ≠ .store ∧ (c.uni = true ∨ c.lane ∈ lanes) then some 0 else c.val)
def PendFailed (r : MemReq) (lanes : List Nat) (p q : Pend) : Prop :=
  q = { p with cells := q.cells } ∧ Each (CellFailed r lanes p) p.cells q.cells

theorem cellFailed_same (no : ¬(p.req = some r.id ∧ r.kind ≠ .store ∧ (c.uni = true ∨ c.lane ∈ lanes))) : CellFailed r lanes p c c :=
  congrArg (withVal c) (if_neg no).symm

theorem cellFailed_zero (own : p.req = some r.id) (writes : r.kind ≠ .store) (c : PendCell) :
    CellFailed r lanes p c (if c.uni || lanes.contains c.lane then withVal c (some 0) else c) := by
  have zeroed : (c.uni || lanes.contains c.lane) = true ↔ c.uni = true ∨ c.lane ∈ lanes := bor_iff Iff.rfl List.contains_iff_mem
  by_cases mine : (c.uni || lanes.contains c.lane) = true
  · rw [if_pos mine]
    exact congrArg (withVal c) (if_pos ⟨own, writes, zeroed.1 mine⟩).symm
  · rw [if_neg mine]
    exact cellFailed_same fun h => mine (zeroed.2 h.2.2)

theorem pendFailed_zero (writes : r.kind ≠ .store) (p : Pend) : PendFailed r lanes p (Pend.zero r.id lanes p) := by
  rw [Pend.zero]
  by_cases own : p.req = some r.id
  · rw [if_pos own]
    exact ⟨rfl, each_map (cellFailed_zero own writes) p.cells⟩
  · rw [if_neg own]
    exact ⟨rfl, each_refl (fun c => cellFailed_same fun h => own h.1) p.cells⟩

theorem partFailed_of (eq : w = withQueue v pend (leftQueue v.mem r.id (goneOf s r u))) (each : Each (PendFailed r (lanesOf u)) v.pend pend) :
    PartFailed s r u v w :=
  eq ▸ ⟨rfl, rfl, each⟩

/-- What the failure of parts leaves of a warp: its queue and its results. -/
theorem fail_eq (v : Warp) {uis : List Nat} (each : (uis.flatMap fun i => ((r.units[i]?).map MemUnit.lanes).getD []) = lanes) :
    v.fail r uis = withQueue v (if r.kind == .store || uis.isEmpty then v.pend else v.pend.map (Pend.zero r.id lanes))
      (leftQueue v.mem r.id (r.failed uis).contains) := by
  subst each
  refine (finishAll_eq _ _ _).trans ?_
  cases (r.kind == .store || uis.isEmpty) <;> rfl

theorem any_getElem?_iff {α : Type} (l : List α) (q : α → Bool) (n : Nat) :
    (n ∈ List.range l.length ∧ ((l[n]?).map q).getD false = true) ↔ (l[n]?).any q = true := by
  cases h : l[n]? with
  | none => exact ⟨fun x => x.2, fun x => Bool.noConfusion x⟩
  | some z => exact ⟨fun x => x.2, fun x => ⟨List.mem_range.2 (List.getElem?_eq_some_iff.1 h).1, x⟩⟩

theorem flatMap_lanes (part : r.units[s.input.unit.unit]? = some u) :
    ([s.input.unit.unit].flatMap fun i => ((r.units[i]?).map MemUnit.lanes).getD []) = lanesOf u :=
  (List.flatMap_singleton _ _).trans ((congrArg (fun o => (o.map MemUnit.lanes).getD []) part).trans (if_congr List.isEmpty_iff rfl rfl))

theorem failed_contains (part : r.units[s.input.unit.unit]? = some u) (n : Nat) : (r.failed [s.input.unit.unit]).contains n = goneOf s r u n := by
  rw [MemReq.failed, goneOf, flatMap_lanes part]
  by_cases load : r.kind = .load
  · rw [if_pos load, if_pos (beq_iff_eq.2 load)]
    exact Bool.eq_iff_iff.2 (List.contains_iff_mem.trans (List.mem_filter.trans (any_getElem?_iff _ _ _)))
  · rw [if_neg load, if_neg (mt beq_iff_eq.1 load)]
    exact List.contains_cons.trans (Bool.or_false _)

/-- A part fails: the destinations of its lanes read zero, and it is done, of a load with every part of its lane (R188, R306, R314). -/
theorem partFailed (part : r.units[s.input.unit.unit]? = some u) (v : Warp) : PartFailed s r u v (v.fail r [s.input.unit.unit]) := by
  refine partFailed_of ((fail_eq v (flatMap_lanes part)).trans (congrArg (withQueue v _) (congrArg (leftQueue v.mem r.id) (funext (failed_contains part))))) ?_
  by_cases store : r.kind = .store
  · rw [store]
    exact each_refl (fun p => ⟨rfl, each_refl (fun c => cellFailed_same fun h => h.2.1 store) p.cells⟩) v.pend
  · rw [beq_eq_false_iff_ne.2 store]
    exact each_map (pendFailed_zero store) v.pend

end Fails

end Part

/-! ## The state of the event -/

/-- The state in which a part is performed: a free choice is spent. -/
noncomputable def chosen (s : State) : State := { s with freeCtr := s.freeCtr + 1 }

/-- A team with other warps, with one other warp. -/
noncomputable def withWarps (tm : Team) (ws : List Warp) : Team := { tm with warps := ws }
noncomputable def withWarp (tm : Team) (n : Nat) (w : Warp) : Team := withWarps tm (tm.warps.set n w)

theorem modWarp_eq {s : State} {tid : Nat} {tm : Team} (team : s.team? tid = some tm) (wn : Nat) (f : Warp → Warp) :
    s.modWarp tid wn f = s.setTeam tid (withWarp tm wn (f (tm.warp wn))) := by
  rw [State.modWarp, State.modTeam, team]
  rfl

/-- The state with another memory. -/
noncomputable def withMem (s : State) (m : Mem) : State := { s with mem := m }

/-- The state once a part that was performed from `y` has given its results. -/
noncomputable def settled (s : State) (r : MemReq) (u : MemUnit) (rets : List (Nat × List Byte)) (y : State) : State :=
  y.settle s.input.unit.team s.input.unit.warp r.id s.input.unit.unit u.off rets

section Settle

variable {s y : State} {tm : Team} {r : MemReq} {u : MemUnit}

/-- A part is performed, and the state with it. -/
theorem done_settle {tm' : Team} {mem : Mem} (rest : y = { s with teams := y.teams, mem := mem, freeCtr := s.freeCtr + 1 })
    (others : ∀ k, k ≠ s.input.unit.team → y.team? k = s.team? k) (team : y.team? s.input.unit.team = some tm') (warps : tm'.warps = tm.warps)
    {rets : List (Nat × List Byte)} (nodup : (rets.map Prod.fst).Nodup) : Done s (settled s r u rets y) tm r u rets tm' mem := by
  have warp : tm'.warp s.input.unit.warp = tm.warp s.input.unit.warp := congrArg (fun ws : List Warp => ws.getD s.input.unit.warp _) warps
  have eq : settled s r u rets y = y.setTeam s.input.unit.team
      (withWarp tm' s.input.unit.warp ((takeBytes r.id u.off rets (tm.warp s.input.unit.warp)).finish r.id s.input.unit.unit)) :=
    warp ▸ modWarp_eq team s.input.unit.warp fun w => (takeBytes r.id u.off rets w).finish r.id s.input.unit.unit
  rw [eq]
  exact ⟨congrArg (State.setTeam · _ _) rest, fun k hk => (State.team?_setTeam_other _ _ _ _ hk).trans (others k hk), _,
    (State.team?_setTeam_same _ _ _).trans (congrArg (fun ws : List Warp => some (withWarps tm' (ws.set s.input.unit.warp _))) warps), partDone nodup _⟩

/-- A part is performed that leaves every scratchpad as it was. -/
theorem done_memory (team : s.team? s.input.unit.team = some tm) (mem : Mem) {rets : List (Nat × List Byte)} (nodup : (rets.map Prod.fst).Nodup) :
    Done s (settled s r u rets (withMem (chosen s) mem)) tm r u rets tm mem :=
  done_settle (s := s) (y := withMem (chosen s) mem) rfl (fun _ _ => rfl) team rfl nodup

/-- A part fails, and its warp with it. -/
theorem failed_modWarp (team : s.team? s.input.unit.team = some tm) (part : r.units[s.input.unit.unit]? = some u) :
    Failed s ((chosen s).modWarp s.input.unit.team s.input.unit.warp fun w => w.fail r [s.input.unit.unit]) tm r u := by
  rw [modWarp_eq (s := chosen s) team]
  exact ⟨rfl, fun k hk => State.team?_setTeam_other (chosen s) _ _ _ hk, _, State.team?_setTeam_same _ _ _, partFailed part _⟩

theorem imprecise_eq {tid wn core : Nat} {tag : Word} (team : s.team? tid = some tm) (core_eq : (tm.warp wn).core = core)
    (tag_eq : (tm.warp wn).userTag = tag) (cause : BitVec 8) (pc : Word) (addr : DWord) :
    s.imprecise tid wn cause pc addr = s.raiseHalt (s.ctxOf tm)
      { engine := 0, cause := cause, unit := BitVec.ofNat 16 core, warp := BitVec.ofNat 16 wn, team := BitVec.ofNat 32 tm.index
        userTag := tag, pcOrOp := pc.setWidth 64, addr := addr } false (some tid) := by
  rw [State.imprecise, team, ← core_eq, ← tag_eq]

theorem warp_withWarp {n : Nat} (lt : n < tm.warps.length) (w : Warp) : (withWarp tm n w).warp n = w := by
  refine (List.getD_eq_getElem?_getD).trans ?_
  exact congrArg (Option.getD · _) (List.getElem?_set_self lt)

/-- The failure of a part raises the halt line of its context (R188, R191). -/
theorem haltRaised_blame (team : s.team? s.input.unit.team = some tm) (warp : s.input.unit.warp < tm.warps.length) (cause : BitVec 8) :
    let x := (chosen s).modWarp s.input.unit.team s.input.unit.warp fun w => w.fail r [s.input.unit.unit]
    HaltRaised x (x.blame s.input.unit.team s.input.unit.warp r u (some cause)) (s.ctxOf tm) (queuedRecord s tm r u cause) false
      (some s.input.unit.team) := by
  have same := (warp_withWarp warp _).trans (fail_eq (r := r) (tm.warp s.input.unit.warp) (uis := [s.input.unit.unit]) rfl)
  rw [modWarp_eq (s := chosen s) team]
  show HaltRaised _ (State.imprecise _ _ _ _ _ _) _ _ _ _
  rw [imprecise_eq (State.team?_setTeam_same _ _ _) (congrArg Warp.core same) (congrArg Warp.userTag same)]
  exact haltRaised_raiseHalt _ _ _ _ _

end Settle

end Sys2Proof.Claims
end

section
-- One proof after another: side by side their threads pass the limit of memory that the check sets.
set_option Elab.async false
/-! SUPPORT. The event HOME_PERFORM: it finds its part in the queue, and performs it where the order admits it (R57, R216, R217). -/

namespace Sys2Proof.Claims

open Sys2Proof Sys2Proof.Machine

theorem befall_plain (s : State) (inter a : Nat) : s.befall inter a .plain = s := by
  unfold State.befall
  rcases s.reached a with _ | _ <;> rfl

/-- A part once it is performed, or has failed. -/
noncomputable def onePart (s : State) (r : MemReq) (u : MemUnit) (o : Performed) : Performed :=
  match o.fail with
  | some x => { s := o.s.modWarp s.input.unit.team s.input.unit.warp fun w => w.fail r [s.input.unit.unit], rets := [], fail := some x }
  | none => { s := settled s r u o.rets o.s, rets := [], fail := none }

theorem onePart_failed {s y : State} {r : MemReq} {u : MemUnit} {o : Performed} {x : BitVec 8} (state : o.s = y) (fail : o.fail = some x) :
    onePart s r u o = { s := y.modWarp s.input.unit.team s.input.unit.warp fun w => w.fail r [s.input.unit.unit], rets := [], fail := some x } := by
  rw [onePart, fail, state]

/-- The event's end: the context halts where the part failed, and its warp goes on. -/
noncomputable def endOf (s : State) (r : MemReq) (u : MemUnit) (o : Performed) : Host.Outcome State Fault Refusal :=
  .next ((o.s.blame s.input.unit.team s.input.unit.warp r u o.fail).after s.input.unit.team s.input.unit.warp)

section Event

variable {s : State} {tm : Team} {earlier later : List MemReq} {r : MemReq} {u : MemUnit}

variable (hand : AtHand s tm earlier r later u)
include hand

theorem AtHand.found : ((tm.warp s.input.unit.warp).mem.find? fun x => x.id == s.input.unit.req) = some r := by
  rw [hand.queue, List.find?_append, List.find?_eq_none.2 fun e he => by simpa [← hand.id] using hand.first e he, List.find?_cons_of_pos (by simp [hand.id])]
  rfl

theorem AtHand.before : ((tm.warp s.input.unit.warp).mem.takeWhile fun e => e.id != r.id) = earlier := by
  rw [hand.queue, List.takeWhile_append_of_pos fun e he => by simpa using hand.first e he, List.takeWhile_cons_of_neg (by simp), List.append_nil]

theorem AtHand.near : u.tgt.isAway = false := by
  cases e : u.tgt with
  | away d a w c => exact absurd e (hand.here d a w c)
  | here | spm | door => rfl

/-- The event finds its part where that is at hand and its order admits it: what is left is what the queue answers a load. -/
theorem AtHand.step (order : InOrder earlier r) (taken : MemUnit → MemReq → List Byte → Host.Outcome State Fault Refusal)
    (go : Team → MemReq → MemUnit → Host.Outcome State Fault Refusal) :
    ((match s.team? s.input.unit.team with
    | none => .refused .noOccasion
    | some tm =>
      match (tm.warp s.input.unit.warp).mem.find? fun r => r.id == s.input.unit.req with
      | none => .refused .noOccasion
      | some r =>
        match r.units[s.input.unit.unit]? with
        | none => .refused .noOccasion
        | some u =>
          if u.done || u.tgt.isAway || !mayPerform ((tm.warp s.input.unit.warp).mem.takeWhile fun e => e.id != r.id) r then .refused .noOccasion
          else
            match if r.kind == .load then s.forward u ((tm.warp s.input.unit.warp).mem.takeWhile fun e => e.id != r.id).reverse else .home with
            | .waits => .refused .noOccasion
            | .bytes bs => taken u r bs
            | .home => go tm r u) : Host.Outcome State Fault Refusal) =
    match if r.kind == .load then s.forward u earlier.reverse else .home with
    | .waits => .refused .noOccasion
    | .bytes bs => taken u r bs
    | .home => go tm r u := by
  rw [hand.team]
  dsimp only
  rw [hand.found]
  dsimp only
  rw [hand.part]
  dsimp only
  rw [hand.before, hand.open_, hand.near, mayPerform_of_inOrder order]
  rfl

/-- What is left of the event where a load takes its bytes from the queue, and where its home performs the part. -/
noncomputable def takenBy (s : State) (u : MemUnit) (r : MemReq) (bs : List Byte) : Host.Outcome State Fault Refusal :=
  .next ((settled s r u [(u.lane, bs)] (chosen s)).after s.input.unit.team s.input.unit.warp)
noncomputable def performedOn (s : State) (tm : Team) (r : MemReq) (u : MemUnit) (t : State) : Host.Outcome State Fault Refusal :=
  let g := t.joined r s.input.unit.unit u
  endOf s r u (State.performAll s.input.unit.team s.input.unit.warp (s.ctxOf tm) r g.2.1 g.2.2 g.1 t)
noncomputable def homeBy (s : State) (tm : Team) (r : MemReq) (u : MemUnit) : Host.Outcome State Fault Refusal :=
  match u.tgt, s.input.home with
  | .here _ _ _ _, .networkTag =>
    .next (((((chosen s).modWarp s.input.unit.team s.input.unit.warp fun v => v.fail r [s.input.unit.unit]).blame s.input.unit.team s.input.unit.warp r u
      (some 0x12)).tamperAlarmed).after s.input.unit.team s.input.unit.warp)
  | t, ev => performedOn s tm r u (match t with | .here a inter _ _ => (chosen s).befall inter.toNat a ev | _ => chosen s)

theorem exec_taken (order : InOrder earlier r) (load : r.kind = .load) {bs : List Byte} (forward : s.forward u earlier.reverse = .bytes bs) :
    exec .homePerform s = takenBy s u r bs := by
  refine (hand.step order (takenBy s) (homeBy s)).trans ?_
  rw [load, forward]
  rfl

theorem exec_home (order : InOrder earlier r) (home : r.kind = .load → s.forward u earlier.reverse = .home) : exec .homePerform s = homeBy s tm r u := by
  refine (hand.step order (takenBy s) (homeBy s)).trans ?_
  cases kind : r.kind with
  | load =>
    rw [home kind]
    rfl
  | store | atom => rfl

omit hand in
/-- A part that meets a tag failing on the network is discarded, and the tamper alarm raised (R130). -/
theorem homeBy_networkTag (tag : s.input.home = .networkTag) {a : Nat} {i : BitVec 3} {w : BitVec 6} {c : BitVec 2} (target : u.tgt = .here a i w c) :
    homeBy s tm r u = .next (((((chosen s).modWarp s.input.unit.team s.input.unit.warp fun v => v.fail r [s.input.unit.unit]).blame s.input.unit.team
      s.input.unit.warp r u (some 0x12)).tamperAlarmed).after s.input.unit.team s.input.unit.warp) := by
  rw [homeBy, tag, target]

omit hand in
/-- A part that nothing befalls is performed with the units that one step takes. -/
theorem homeBy_plain (plain : s.input.home = .plain) : homeBy s tm r u = performedOn s tm r u (chosen s) := by
  rw [homeBy, plain]
  cases u.tgt with
  | here a i w c => exact congrArg (performedOn s tm r u) (befall_plain _ _ _)
  | _ => rfl

/-- A part that nothing befalls and that is performed by itself (R57). -/
theorem exec_part (order : InOrder earlier r) (home : r.kind = .load → s.forward u earlier.reverse = .home) (plain : s.input.home = .plain)
    {whole line : Bool}
    (joined : (chosen s).joined r s.input.unit.unit u = ([s.input.unit.unit], whole, line)) :
    exec .homePerform s = endOf s r u (onePart s r u ((chosen s).performAt s.input.unit.team tm (s.ctxOf tm) r u whole line)) := by
  rw [exec_home hand order home, homeBy_plain plain, performedOn, joined]
  refine congrArg (endOf s r u) ?_
  have team : (chosen s).team? s.input.unit.team = some tm := hand.team
  conv_lhs => whnf
  rw [hand.part, team]
  dsimp only
  unfold onePart
  cases (State.performAt _ _ _ _ _ _ _ _).fail <;> rfl

omit hand in
/-- The event ends, and its warp goes on from a state. -/
def PartEnds (s x : State) : Prop := exec .homePerform s = .next (x.after s.input.unit.team s.input.unit.warp)

/-- A part that meets no failure is performed: the registers take what it returns. -/
theorem exec_done (order : InOrder earlier r) (home : r.kind = .load → s.forward u earlier.reverse = .home) (plain : s.input.home = .plain)
    {whole line : Bool}
    (joined : (chosen s).joined r s.input.unit.unit u = ([s.input.unit.unit], whole, line)) {y : State} {rets : List (Nat × List Byte)}
    (done : (chosen s).performAt s.input.unit.team tm (s.ctxOf tm) r u whole line = { s := y, rets := rets, fail := none }) :
    PartEnds s (settled s r u rets y) :=
  (exec_part hand order home plain joined).trans (congrArg (fun o => endOf s r u (onePart s r u o)) done)

end Event

end Sys2Proof.Claims
end

section
-- One proof after another: side by side their threads pass the limit of memory that the check sets.
set_option Elab.async false
/-! SUPPORT. A free choice more or less changes no translation, and no address that a collective under way writes (R44). -/

namespace Sys2Proof.Claims

open Sys2Proof Sys2Proof.Machine

/-! ## Translations -/

/-- The answer of a home, from a state with a free choice spent. -/
noncomputable def chosenOut (o : HomeOut) : HomeOut := { o with s := chosen o.s }

theorem chosen_homeFail (s : State) (n : Nat) (cause : BitVec 8) : (chosen s).homeFail n cause = chosenOut (s.homeFail n cause) := by
  simp only [State.homeFail, State.countFailure, chosenOut]
  split <;> rfl

/-- An answer with or without a failure. -/
theorem chosen_answer {s t : State} (same : t = chosen s) (n : Nat) (bs : List Byte) (o : Option (BitVec 8)) :
    (match o with
    | some cause => t.homeFail n cause
    | none => { s := t, bytes := bs, fail := none }) =
    chosenOut (match o with
    | some cause => s.homeFail n cause
    | none => { s := s, bytes := bs, fail := none }) := by
  subst same
  cases o with
  | none => rfl
  | some cause => exact chosen_homeFail s n cause

theorem chosen_homeRead (s : State) (inter : Nat) (w : BitVec 6) (c : BitVec 2) (a n : Nat) :
    (chosen s).homeRead inter w c a n = chosenOut (s.homeRead inter w c a n) := by
  unfold State.homeRead
  cases regionOf a with
  | mxWindow =>
    refine chosen_answer ?_ n _ _
    exact (apply_ite chosen _ s (s.overrun a)).symm
  | flash =>
    show (if s.mem.poisoned a = true then (chosen s).homeFail n _ else _) = chosenOut (if s.mem.poisoned a = true then s.homeFail n _ else _)
    rw [apply_ite chosenOut, ← chosen_homeFail]
    rfl
  | hbm | sbm | hole => exact chosen_answer rfl n (s.readLocal inter a n) (s.spoiledRange inter a n w c)

theorem chosen_tableWord (s : State) (here : Miss) (inter : Nat) (w : BitVec 6) (c : BitVec 2) (a : Nat) :
    (chosen s).tableWord here inter w c a = s.tableWord here inter w c a := by
  rw [State.tableWord, chosen_homeRead]
  rfl

theorem chosen_rootTableWord (s : State) (here : Miss) : (chosen s).rootTableWord here = s.rootTableWord here := funext fun a => by
  rw [State.rootTableWord, chosen_tableWord]
  rfl

theorem chosen_rootEntryOk (s : State) : (chosen s).rootEntryOk = s.rootEntryOk := rfl

theorem chosen_farBytes (s : State) (a n : Nat) : (chosen s).farBytes a n = s.farBytes a n := by
  induction n generalizing a with
  | zero => rfl
  | succ n ih =>
    rw [State.farBytes, ih]
    rfl

theorem chosen_childTableWord (s : State) (here : Miss) (r : Except Miss Trans) (a : Nat) :
    (chosen s).childTableWord here r a = s.childTableWord here r a := by
  unfold State.childTableWord
  simp only [chosen_tableWord, show (chosen s).isOwn = s.isOwn from rfl, show (chosen s).farMiss = s.farMiss from rfl,
    show (chosen s).farFails = s.farFails from rfl, chosen_farBytes]

theorem chosen_compose (s : State) (l : List (Nat × Ctx)) (va : Nat) : (chosen s).compose l va = s.compose l va := by
  induction l generalizing va with
  | nil => rfl
  | cons p rest ih => simp only [State.compose, State.rootWalk, chosen_rootTableWord, chosen_rootEntryOk, chosen_childTableWord, ih]

theorem chosen_chain (s : State) (fuel n : Nat) : (chosen s).chain fuel n = s.chain fuel n := by
  induction fuel generalizing n with
  | zero => rfl
  | succ fuel ih =>
    simp only [State.chain, ih]
    rfl

theorem chosen_mapsTo (s : State) (a : Nat) (l : List (Nat × Ctx)) : (chosen s).mapsTo a l = s.mapsTo a l := by
  induction l with
  | nil => rfl
  | cons p rest ih =>
    have child (x : Nat) : (chosen s).childTableWord { ctx := p.1, addr := 0 } ((chosen s).compose rest x) x =
        s.childTableWord { ctx := p.1, addr := 0 } (s.compose rest x) x := by rw [chosen_compose, chosen_childTableWord]
    exact (if_congr Iff.rfl (congrArg (mappedFrom · s.rootEntryOk _ 5 _ 0) (chosen_rootTableWord s { ctx := p.1, addr := 0 }))
      (congrArg₂ List.flatMap (funext fun b => congrArg (mappedFrom · (fun _ _ => true) b 5 p.2.tableVa.toNat 0) (funext child)) ih) :
      (if rest.isEmpty = true then _ else _) = _)

/-! ## The bytes that a collective writes -/

theorem map_fst_pairs {l : List Nat} {f g h : Nat → Nat} :
    (l.map fun i => (f i, g i)).map Prod.fst = (l.map fun i => (f i, h i)).map Prod.fst := by
  rw [List.map_map, List.map_map]
  rfl

theorem map_fst_flatMap {l : List Nat} {f g : Nat → List (Nat × Nat)} (same : ∀ j, (f j).map Prod.fst = (g j).map Prod.fst) :
    (l.flatMap f).map Prod.fst = (l.flatMap g).map Prod.fst := by
  rw [List.map_flatMap, List.map_flatMap]
  exact congrArg (List.flatMap · l) (funext same)

theorem map_fst_ite {p : Prop} [Decidable p] {l m : List (Nat × Nat)} (same : l.map Prod.fst = m.map Prod.fst) :
    (if p then [] else l).map Prod.fst = (if p then [] else m).map Prod.fst := by
  split
  · rfl
  · exact same

/-- The elements that a participant receives do not depend on what they are. -/
theorem results_fst (b : CollBlock) (d : Nat) (e e' : Nat → Nat → Nat) (t : CombTree) :
    (b.results d e t).map Prod.fst = (b.results d e' t).map Prod.fst := by
  unfold CollBlock.results
  rcases b.kind with _ | _ | _ | _ | _ | kind
  · exact map_fst_pairs
  · exact map_fst_pairs
  · exact map_fst_flatMap fun _ => map_fst_pairs
  · exact map_fst_flatMap fun _ => map_fst_pairs
  · exact map_fst_ite (p := d = b.root) map_fst_pairs
  · exact map_fst_pairs

theorem find?_fst_isSome {α : Type} (k : Nat) (l : List (Nat × α)) : (l.find? fun x => x.1 == k).isSome = (l.map Prod.fst).contains k := by
  rw [List.isSome_find?, List.contains_eq_any_beq, List.any_map]
  exact congrArg (l.any ·) (funext fun x => by simp [eq_comm])

theorem chosen_comingAt (s : State) (o : CleOp) (va : Nat) : ((chosen s).comingAt o va).isSome = (s.comingAt o va).isSome := by
  unfold State.comingAt State.coming
  dsimp only
  split
  · rfl
  · rw [Option.isSome_map, Option.isSome_map, find?_fst_isSome, find?_fst_isSome]
    rcases o.left with _ | rs
    · rw [show (chosen s).rankOf = s.rankOf from rfl]
      rcases s.rankOf (collBlock o.block) with _ | d
      · rfl
      · exact congrArg (List.contains · _) (results_fst _ _ _ _ _)
    · rfl

theorem chosen_mixed (s : State) (a : Nat) : (chosen s).mixed a = s.mixed a := by
  unfold State.mixed State.newByte
  simp only [List.isSome_findSome?, chosen_mapsTo, State.chainOf, chosen_chain, chosen_comingAt]
  rfl

end Sys2Proof.Claims
end

section
-- One proof after another: side by side their threads pass the limit of memory that the check sets.
set_option Elab.async false
/-! CLAIM. Loads, stores and atomics performed at their home, in scratchpad and in memory that verifies (R57, R127, R173, R213 to R217, R305 to R308,
R313). -/

namespace Sys2Proof.Claims

open Sys2Proof Sys2Proof.Machine

/-! ## Bytes of a scratchpad (R173) -/

theorem spmRead_eq (tm : Team) (off n : Nat) : tm.spmRead off n = (List.range n).map fun j => Sparse.get 0 (off + j) tm.spm := by
  induction n generalizing off with
  | zero => rfl
  | succ n ih =>
    rw [List.range_succ_eq_map, List.map_cons, List.map_map]
    refine congrArg (Sparse.get 0 off tm.spm :: ·) ((ih (off + 1)).trans (List.map_congr_left fun j _ => ?_))
    exact congrArg (Sparse.get 0 · tm.spm) (Nat.add_right_comm off 1 j)

/-- A masked write of a scratchpad puts the bytes that a masked write of memory puts. -/
theorem spm_spmWrite (bs : List Byte) {tm : Team} {m : Mem} (same : m.cells = tm.spm) (off mask : Nat) :
    (tm.spmWrite off mask bs).spm = (m.writeMasked off mask bs).cells := by
  induction bs generalizing tm m off mask with
  | nil => exact same.symm
  | cons b rest ih =>
    refine ih (tm := if mask.testBit 0 then { (tm.soil off) with spm := Sparse.set 0 off b tm.spm } else tm)
      (m := if mask.testBit 0 then m.set off b else m) ?_ (off + 1) (mask / 2)
    split
    · exact congrArg (Sparse.set 0 off b) same
    · exact same

/-- A team with another scratchpad, and with one other byte of it. -/
noncomputable def withSpm (tm : Team) (spm : List Host.Cell) (dirty : List (Nat × Bool)) : Team := { tm with spm := spm, dirty := dirty }
noncomputable def withByte (tm : Team) (off : Nat) (b : Byte) : Team := withSpm tm (Sparse.set 0 off b tm.spm) (tm.soil off).dirty

theorem spmWrite_only (bs : List Byte) (tm : Team) (off mask : Nat) :
    tm.spmWrite off mask bs = withSpm tm (tm.spmWrite off mask bs).spm (tm.spmWrite off mask bs).dirty := by
  induction bs generalizing tm off mask with
  | nil => rfl
  | cons b rest ih =>
    exact (ih (if mask.testBit 0 then withByte tm off b else tm) (off + 1) (mask / 2)).trans
      ((apply_ite (fun t => withSpm t _ _) (mask.testBit 0 = true) (withByte tm off b) tm).trans (ite_self _))

theorem get_spmWrite (bs : List Byte) (tm : Team) (off mask k : Nat) : Sparse.get 0 k (tm.spmWrite off mask bs).spm =
    if off ≤ k ∧ k < off + bs.length ∧ mask.testBit (k - off) = true then bs.getD (k - off) 0 else Sparse.get 0 k tm.spm := by
  rw [spm_spmWrite bs (m := { ({} : Mem) with cells := tm.spm }) rfl]
  exact get_writeMasked bs _ off mask k

/-! ## One part, by its target and its kind -/

theorem with_tgt {u : MemUnit} {t : Target} (target : u.tgt = t) : { u with tgt := t } = u := target ▸ rfl

theorem with_kind {r : MemReq} {k : ReqKind} (kind : r.kind = k) : { r with kind := k } = r := kind ▸ rfl

section Kinds

variable {s : State} {tid ctx : Nat} {tm : Team} {r : MemReq} {u : MemUnit} {whole line : Bool}

section Here

variable {a : Nat} {i : BitVec 3} {w : BitVec 6} {c : BitVec 2} (target : u.tgt = .here a i w c)
include target

theorem performAt_here_load (load : r.kind = .load) : s.performAt tid tm ctx r u whole line =
    { s := (s.agentRead i.toNat w c a u.len).s, rets := [(u.lane, (s.agentRead i.toNat w c a u.len).bytes)]
      fail := (s.agentRead i.toNat w c a u.len).fail } := by
  rw [← with_tgt target, ← with_kind load]
  rfl

theorem performAt_here_store (store : r.kind = .store) : s.performAt tid tm ctx r u whole line =
    { s := (s.homeWrite i.toNat w c a u.mask u.data whole line).s, rets := [], fail := (s.homeWrite i.toNat w c a u.mask u.data whole line).fail } := by
  rw [← with_tgt target, ← with_kind store]
  rfl

theorem performAt_here_atom {op : AtomOp} {w64 ret : Bool} (atom : r.kind = .atom op w64 ret) : s.performAt tid tm ctx r u whole line =
    match (s.agentRead i.toNat w c a u.len).fail with
    | some x => { s := (s.agentRead i.toNat w c a u.len).s, rets := [], fail := some x }
    | none =>
      let new := atomRets op w64 (s.agentRead i.toNat w c a u.len).bytes u
      { s := ((s.agentRead i.toNat w c a u.len).s.homeWrite i.toNat w c a 0xFF new.2 false false).s, rets := new.1, fail := none } := by
  rw [← with_tgt target, ← with_kind atom]
  rfl

/-- An atomic whose word reads without failure. -/
theorem performAt_here_done {op : AtomOp} {w64 ret : Bool} (atom : r.kind = .atom op w64 ret) {t y : State} {bytes new bs : List Byte}
    {rets : List (Nat × List Byte)} {o : Option (BitVec 8)} (read : s.agentRead i.toNat w c a u.len = { s := t, bytes := bytes, fail := none })
    (step : atomRets op w64 bytes u = (rets, new)) (written : t.homeWrite i.toNat w c a 0xFF new false false = { s := y, bytes := bs, fail := o }) :
    s.performAt tid tm ctx r u whole line = { s := y, rets := rets, fail := none } := by
  rw [performAt_here_atom target atom, read]
  dsimp only
  rw [step, written]

end Here

section Scratchpad

variable {off : Nat} (target : u.tgt = .spm off)
include target

theorem performAt_spm_load (load : r.kind = .load) : s.performAt tid tm ctx r u whole line =
    { s := s, rets := [(u.lane, tm.spmRead off u.len)], fail := none } := by
  rw [← with_tgt target, ← with_kind load]
  rfl

theorem performAt_spm_store (store : r.kind = .store) : s.performAt tid tm ctx r u whole line =
    { s := s.setTeam tid (tm.spmWrite off u.mask u.data), rets := [], fail := none } := by
  rw [← with_tgt target, ← with_kind store]
  rfl

theorem performAt_spm_atom {op : AtomOp} {w64 ret : Bool} (atom : r.kind = .atom op w64 ret) : s.performAt tid tm ctx r u whole line =
    { s := s.setTeam tid (tm.spmWrite off 0xFF (atomRets op w64 (tm.spmRead off u.len) u).2), rets := (atomRets op w64 (tm.spmRead off u.len) u).1
      fail := none } := by
  rw [← with_tgt target, ← with_kind atom]
  rfl

end Scratchpad

end Kinds

/-- A part is performed by itself unless the line or the unit that it lies in fails and its store covers that whole. -/
theorem joined_self {s : State} {r : MemReq} {i a : Nat} {u : MemUnit} {x : BitVec 3} {w : BitVec 6} {c : BitVec 2} (target : u.tgt = .here a x w c)
    (line : s.mem.tagOk (s.place x.toNat a) a w c = true ∨ r.covers a 64 (r.mates a x w c 64) = false)
    (unit : s.mem.poisoned (s.place x.toNat a) = false ∨ r.covers a (if regionOf a == .sbm then 8 else 32)
      (r.mates a x w c (if regionOf a == .sbm then 8 else 32)) = false) : s.joined r i u = ([i], false, false) := by
  rw [← with_tgt target]
  exact ite_eq_left_iff.2 fun _ => (if_neg (Bool.eq_false_iff.1 (Bool.and_eq_false_iff.2 (line.imp_left (congrArg Bool.not))))).trans
    (if_neg (Bool.eq_false_iff.1 (Bool.and_eq_false_iff.2 unit)))

/-! ## A part at its home -/

section Part

variable {s : State} {tm : Team} {r : MemReq} {u : MemUnit}

/-- A masked write of a part is performed, from a state that differs from the one of the event in the team's scratchpad or in memory. -/
def Performs (s : State) (tm : Team) (r : MemReq) (u : MemUnit) (rets : List (Nat × List Byte)) (mask : Nat) (data : List Byte) (y : State) : Prop :=
  ∃ tm' mem, Done s (settled s r u rets y) tm r u rets tm' mem ∧ Written s tm u mask data tm' mem

theorem written_spm {off : Nat} (target : u.tgt = .spm off) (mask : Nat) (data : List Byte) :
    Written s tm u mask data (tm.spmWrite off mask data) s.mem := by
  rw [← with_tgt target]
  exact ⟨rfl, spmWrite_only data tm off mask, get_spmWrite data tm off mask⟩

theorem performs_spm {off : Nat} (target : u.tgt = .spm off) (mask : Nat) (data : List Byte) {rets : List (Nat × List Byte)}
    (nodup : (rets.map Prod.fst).Nodup) : Performs s tm r u rets mask data ((chosen s).setTeam s.input.unit.team (tm.spmWrite off mask data)) :=
  ⟨_, s.mem, done_settle (s := s) (tm := tm) (y := (chosen s).setTeam s.input.unit.team (tm.spmWrite off mask data)) rfl
    (fun _ hk => State.team?_setTeam_other (chosen s) _ _ _ hk) (State.team?_setTeam_same _ _ _) (congrArg Team.warps (spmWrite_only data tm off mask) :) nodup,
    written_spm target mask data⟩

section Tags

variable {a : Nat} {w : BitVec 6} {c : BitVec 2}

theorem writeMasked_lines (m : Mem) (k mask : Nat) (bs : List Byte) : (m.writeMasked k mask bs).lines = m.lines :=
  (congrArg Mem.lines (writeMasked_only bs m k mask) :)

theorem writeMasked_tagFor (m : Mem) (k mask : Nat) (bs : List Byte) : (m.writeMasked k mask bs).tagFor a w c = m.tagFor a w c :=
  (congrArg (fun x : Mem => x.tagFor a w c) (writeMasked_only bs m k mask) :)

theorem get_tagged {x m : Mem} (k l : Nat) (lines : x.lines = m.lines) (tag : x.tagFor a w c = m.tagFor a w c) :
    Sparse.get {} l (Sparse.set {} (k / 64) (x.tagFor a w c) x.lines) =
      if Region.hbm = .hbm ∧ l = k / 64 then m.tagFor a w c else Sparse.get {} l m.lines := by
  rw [lines, tag, Sparse.get_set]
  exact if_congr (and_iff_right rfl).symm rfl rfl

end Tags

/-- A write of HBM leaves its tag on the line, one of SBM none (R127). -/
theorem get_cellWrite_lines {a : Nat} (mem : MemByte a) (m : Mem) (k mask : Nat) (w : BitVec 6) (c : BitVec 2) (bs : List Byte) (whole : Bool) (l : Nat) :
    Sparse.get {} l (m.cellWrite k a mask w c bs whole).lines =
      if regionOf a = .hbm ∧ l = k / 64 then m.tagFor a w c else Sparse.get {} l m.lines := by
  rcases mem with hbm | sbm
  · rw [Mem.cellWrite, hbm, if_neg Bool.noConfusion]
    exact get_tagged k l ((writeMasked_lines _ k mask bs).trans ((apply_ite Mem.lines _ _ _).trans (ite_self _)))
      ((writeMasked_tagFor _ k mask bs).trans ((apply_ite (fun x : Mem => x.tagFor a w c) _ _ _).trans (ite_self _)))
  · rw [cellWrite_lines_of_sbm sbm, sbm]
    exact (if_neg fun h => Region.noConfusion h.1).symm

/-- The state once a masked write of memory is performed. -/
noncomputable def wroteHere (s : State) (a : Nat) (i : BitVec 3) (w : BitVec 6) (c : BitVec 2) (mask : Nat) (data : List Byte) (whole : Bool) : State :=
  withMem (chosen s) (s.mem.cellWrite (s.place i.toNat a) a mask w c data whole)

/-- A masked write of at most eight bytes at a place of HBM or SBM that verifies (R57, R127). -/
theorem homeWrite_here {a : Nat} {i : BitVec 3} {w : BitVec 6} {c : BitVec 2} (mem : MemByte a) (clean : Clean s i w c a) (mask : Nat) {data : List Byte}
    (le : data.length ≤ 8) (whole line : Bool) : (chosen s).homeWrite i.toNat w c a mask data whole line =
      { s := wroteHere s a i w c mask data whole, bytes := [], fail := none } :=
  (homeWrite_memory _ _ _ _ _ _ _ _ mem).trans (cellWrite_clean (s := chosen s) le clean whole line)

theorem cellWrite_only {m : Mem} {k : Nat} (clean : m.poisoned k = false) (a mask : Nat) (w : BitVec 6) (c : BitVec 2) {data : List Byte}
    (le : data.length ≤ 8) (whole : Bool) : m.cellWrite k a mask w c data whole =
      { m with cells := (m.cellWrite k a mask w c data whole).cells, lines := (m.cellWrite k a mask w c data whole).lines } := by
  obtain ⟨lines, stored⟩ := mem_cellWrite_clean clean a mask w c le whole
  rw [stored, writeMasked_only]

theorem get_cellWrite {m : Mem} {k : Nat} (clean : m.poisoned k = false) (a mask : Nat) (w : BitVec 6) (c : BitVec 2) {data : List Byte}
    (le : data.length ≤ 8) (whole : Bool) (n : Nat) : (m.cellWrite k a mask w c data whole).get n =
      if k ≤ n ∧ n < k + data.length ∧ mask.testBit (n - k) = true then data.getD (n - k) 0 else m.get n := by
  obtain ⟨lines, stored⟩ := mem_cellWrite_clean clean a mask w c le whole
  rw [stored]
  exact get_writeMasked data m k mask n

theorem written_here {a : Nat} {i : BitVec 3} {w : BitVec 6} {c : BitVec 2} (target : u.tgt = .here a i w c) (mem : MemByte a) (clean : Clean s i w c a)
    (mask : Nat) {data : List Byte} (le : data.length ≤ 8) (whole : Bool) :
    Written s tm u mask data tm (s.mem.cellWrite (s.place i.toNat a) a mask w c data whole) := by
  rw [← with_tgt target]
  exact ⟨rfl, cellWrite_only clean.1 a mask w c le whole, get_cellWrite clean.1 a mask w c le whole,
    get_cellWrite_lines mem s.mem (s.place i.toNat a) mask w c data whole⟩

theorem performs_here (team : s.team? s.input.unit.team = some tm) {a : Nat} {i : BitVec 3} {w : BitVec 6} {c : BitVec 2} (target : u.tgt = .here a i w c)
    (mem : MemByte a) (clean : Clean s i w c a) (mask : Nat) {data : List Byte} (le : data.length ≤ 8) (whole : Bool) {rets : List (Nat × List Byte)}
    (nodup : (rets.map Prod.fst).Nodup) : Performs s tm r u rets mask data (wroteHere s a i w c mask data whole) :=
  ⟨tm, _, done_memory team _ nodup, written_here target mem clean mask le whole⟩

/-- A read of at most eight bytes at a place of HBM or SBM that verifies (R57). -/
theorem read_here {a : Nat} {i : BitVec 3} {w : BitVec 6} {c : BitVec 2} {n : Nat} (mem : MemByte a) (clean : Clean s i w c a) (le : n ≤ 8)
    (unmixed : ∀ j < n, s.mixed (a + j) = false) : (chosen s).agentRead i.toNat w c a n =
      { s := chosen s, bytes := (List.range n).map fun j => s.mem.get (s.place i.toNat a + j), fail := none } := by
  have home : (chosen s).homeRead i.toNat w c a n =
      { s := chosen s, bytes := (List.range n).map fun j => s.mem.get (s.place i.toNat a + j), fail := none } := by
    rcases Nat.eq_zero_or_pos n with rfl | pos
    · exact (homeRead_memory (chosen s) i.toNat w c 0 mem).1 rfl
    · exact homeRead_clean (s := chosen s) mem pos le clean
  rw [agentRead_unmixed, home]
  simpa [home, chosen_mixed] using unmixed

/-- The bytes of a part. -/
noncomputable def bytesOf (s : State) (tm : Team) (u : MemUnit) : List Byte := (List.range u.len).map (byteOf s tm u)

theorem bytesOf_spm {off : Nat} (target : u.tgt = .spm off) : bytesOf s tm u = tm.spmRead off u.len := by
  rw [bytesOf, spmRead_eq]
  exact List.map_congr_left fun j _ => by rw [byteOf, target]

theorem bytesOf_here {a : Nat} {i : BitVec 3} {w : BitVec 6} {c : BitVec 2} (target : u.tgt = .here a i w c) :
    bytesOf s tm u = (List.range u.len).map fun j => s.mem.get (s.place i.toNat a + j) :=
  List.map_congr_left fun j _ => by rw [byteOf, target]

/-- A part that meets no failure: in scratchpad, or at a place of memory that verifies. -/
inductive SoundPart (s : State) (u : MemUnit) : Prop
  | spm (off : Nat) (target : u.tgt = .spm off)
  | here (a : Nat) (i : BitVec 3) (w : BitVec 6) (c : BitVec 2) (target : u.tgt = .here a i w c) (mem : MemByte a) (clean : Clean s i w c a)
    (short : u.len ≤ 8) (le : u.data.length ≤ 8) (unmixed : ∀ j < u.len, s.mixed (a + j) = false)

theorem sound_cases (sound : Sound s u) : SoundPart s u := by
  unfold Sound at sound
  cases target : u.tgt with
  | here a i w c =>
    rw [target] at sound
    obtain ⟨mem, unpoisoned, tag, short, le, unmixed⟩ := sound
    exact .here a i w c target mem ⟨unpoisoned, tag⟩ short le unmixed
  | spm off => exact .spm off target
  | door | away =>
    rw [target] at sound
    exact sound.elim

/-- A part is performed, and writes bytes. -/
def PerformsAt (s : State) (tm : Team) (r : MemReq) (u : MemUnit) (rets : List (Nat × List Byte)) (mask : Nat) (data : List Byte) : Prop :=
  ∃ y, (chosen s).performAt s.input.unit.team tm (s.ctxOf tm) r u false false = { s := y, rets := rets, fail := none } ∧ Performs s tm r u rets mask data y

variable (team : s.team? s.input.unit.team = some tm) (sound : Sound s u)
include sound

theorem performAt_load (load : r.kind = .load) : (chosen s).performAt s.input.unit.team tm (s.ctxOf tm) r u false false =
    { s := chosen s, rets := [(u.lane, bytesOf s tm u)], fail := none } := by
  cases sound_cases sound with
  | spm off target => rw [performAt_spm_load target load, bytesOf_spm target]
  | here a i w c target mem clean short _ unmixed => rw [performAt_here_load target load, read_here mem clean short unmixed, bytesOf_here target]

/-- A part in memory that verifies is performed alone, whatever other parts its instruction has. -/
theorem joined_sound : (chosen s).joined r s.input.unit.unit u = ([s.input.unit.unit], false, false) := by
  cases sound_cases sound with
  | spm off target => rw [State.joined, target]
  | here a i w c target _ clean => exact joined_self target (.inl clean.2) (.inl clean.1)

theorem forwards_sound : u.tgt.forwards = true := by
  cases sound_cases sound with
  | spm off target => exact congrArg Target.forwards target
  | here a i w c target mem => exact (congrArg Target.forwards target).trans (mem.elim (congrArg (fun x => !(x == Region.mxWindow)))
      (congrArg (fun x => !(x == Region.mxWindow))))

include team

theorem performAt_store (store : r.kind = .store) : PerformsAt s tm r u [] u.mask u.data := by
  cases sound_cases sound with
  | spm off target => exact ⟨_, performAt_spm_store target store, performs_spm target u.mask u.data List.nodup_nil⟩
  | here a i w c target mem clean _ le =>
    exact ⟨_, (performAt_here_store target store).trans (congrArg (fun o : HomeOut => Performed.mk o.s [] o.fail)
      (homeWrite_here mem clean u.mask le false false)),
      performs_here team target mem clean u.mask le false List.nodup_nil⟩

theorem performAt_atom {op : AtomOp} {w64 ret : Bool} (atom : r.kind = .atom op w64 ret) {rets : List (Nat × List Byte)} {new : List Byte}
    (step : atomRets op w64 (bytesOf s tm u) u = (rets, new)) (le : new.length ≤ 8) (nodup : (rets.map Prod.fst).Nodup) :
    PerformsAt s tm r u rets 0xFF new := by
  cases sound_cases sound with
  | spm off target =>
    rw [bytesOf_spm target] at step
    exact ⟨_, by rw [performAt_spm_atom target atom, step], performs_spm target 0xFF new nodup⟩
  | here a i w c target mem clean short _ unmixed =>
    exact ⟨_, performAt_here_done target atom ((read_here mem clean short unmixed).trans (congrArg (HomeOut.mk _ · none) (bytesOf_here target).symm)) step
      (homeWrite_here mem clean 0xFF le false false), performs_here team target mem clean 0xFF le false nodup⟩

end Part

/-! ## The event -/

section Event

variable {s : State} {tm : Team} {earlier later : List MemReq} {r : MemReq} {u : MemUnit} (hand : AtHand s tm earlier r later u)
  (order : InOrder earlier r)
include hand order

/-- A load is performed at its home, and one that takes its bytes from the queue; a store or an atomic, and what an atomic returns. -/
def LoadHome (s : State) (tm : Team) (r : MemReq) (u : MemUnit) : Prop := ∃ x, PartEnds s x ∧ Done s x tm r u [(u.lane, bytesOf s tm u)] tm s.mem
def LoadQueue (s : State) (tm : Team) (r : MemReq) (u : MemUnit) (e : MemReq) : Prop :=
  ∃ x bs, PartEnds s x ∧ Done s x tm r u [(u.lane, bs)] tm s.mem ∧ TakesBytes s u e bs
def WriteHome (s : State) (tm : Team) (r : MemReq) (u : MemUnit) (rets : List (Nat × List Byte)) (mask : Nat) (data : List Byte) : Prop :=
  ∃ x tm' mem, PartEnds s x ∧ Done s x tm r u rets tm' mem ∧ Written s tm u mask data tm' mem
def AtomHome (s : State) (tm : Team) (r : MemReq) (u : MemUnit) (data : List Byte) (lanes : List Nat) (vals : List (List Byte)) : Prop :=
  ∃ x tm' mem rets, PartEnds s x ∧ Done s x tm r u rets tm' mem ∧ Written s tm u 0xFF data tm' mem ∧
    rets.map Prod.fst = lanes ∧ rets.map Prod.snd = vals

theorem homeLoad (sound : Sound s u) (plain : s.input.home = .plain) (load : r.kind = .load) (apart : Apart s earlier u) : LoadHome s tm r u :=
  ⟨_, exec_done hand order (fun _ => forward_apart hand.near apart) plain (joined_sound sound) (performAt_load sound load),
    done_memory hand.team s.mem (List.nodup_singleton _)⟩

theorem homeForward (sound : Sound s u) (load : r.kind = .load) {old young : List MemReq} {e : MemReq} {x : MemUnit} {lane : Nat}
    (queue : earlier = old ++ e :: young) (apart : Apart s young u) (kind : e.kind = .store) (meets : Overlaps s e u x)
    (one : ∀ y, Overlaps s e u y → y.lane = lane ∧ ¬inWindow y.tgt)
    (cover : ∀ i < u.size, ∃ y, Overlaps s e u y ∧ Stores s u y (wholeAt s u + i)) :
    LoadQueue s tm r u e := by
  have forward : s.forward u earlier.reverse = .bytes (takenBytes s u e) := by
    rw [queue, List.reverse_append, List.reverse_cons, List.append_assoc, forward_skip hand.near fun e he => apart e (List.mem_reverse.1 he)]
    exact forward_covered hand.near kind (forwards_sound sound) meets one cover
  exact ⟨_, _, exec_taken hand order load forward, done_memory hand.team s.mem (List.nodup_singleton _), takesBytes_takenBytes hand.near cover⟩

theorem homeWrites (sound : Sound s u) (plain : s.input.home = .plain) (other : r.kind ≠ .load)
    {rets : List (Nat × List Byte)} {mask : Nat} {data : List Byte}
    (performs : PerformsAt s tm r u rets mask data) : WriteHome s tm r u rets mask data := by
  exact performs.elim fun y h => h.2.elim fun tm' h2 => h2.elim fun mem k =>
    ⟨_, tm', mem, exec_done hand order (fun load => absurd load other) plain (joined_sound sound) h.1, k⟩

omit hand order in
theorem atomHome_of {rets : List (Nat × List Byte)} {data : List Byte} {lanes : List Nat} {vals : List (List Byte)} (home : WriteHome s tm r u rets 0xFF data)
    (fst : rets.map Prod.fst = lanes) (snd : rets.map Prod.snd = vals) : AtomHome s tm r u data lanes vals :=
  home.elim fun x h => h.elim fun tm' h2 => h2.elim fun mem k => ⟨x, tm', mem, rets, k.1, k.2.1, k.2.2, fst, snd⟩

end Event

theorem length_seqRets (op : AtomOp) (w64 : Bool) (old : DWord) (vals : List (DWord × DWord)) : (seqRets op w64 old vals).1.length = vals.length := by
  induction vals generalizing old with
  | nil => rfl
  | cons v rest ih => exact congrArg (· + 1) (ih _)

theorem length_faddRets (old : Word) (before vs : List Word) : (faddRets old before vs).length = vs.length := by
  induction vs generalizing before with
  | nil => rfl
  | cons v rest ih => exact congrArg (· + 1) (ih _)

/-- Every lane of an atomic returns a value. -/
theorem length_atomStep (op : AtomOp) (w64 : Bool) (old : DWord) (vals : List (DWord × DWord)) : (atomStep op w64 old vals).1.length = vals.length := by
  unfold atomStep
  split
  · rw [List.length_map, length_faddRets, List.length_map]
  · exact length_seqRets op w64 old vals

/-- What an atomic returns to its lanes, and the word that it leaves, as bytes. -/
theorem atomRets_eq (op : AtomOp) (w64 : Bool) (bytes : List Byte) (u : MemUnit) {n : Nat} (len : n = if w64 = true then 8 else 4)
    {out : List DWord × DWord} (step : atomStep op w64 (BitVec.ofNat 64 (littleEndian bytes)) (u.ops.map Prod.snd) = out) : atomRets op w64 bytes u =
      ((u.ops.map Prod.fst).zip (out.1.map fun w => (List.range n).map fun j => BitVec.ofNat 8 (w.toNat / 256 ^ j)),
        (List.range n).map fun j => BitVec.ofNat 8 (out.2.toNat / 256 ^ j)) := by
  rw [littleEndian_eq_leNat] at step
  rw [atomRets, step, ← len, ← funext fun w : DWord => leBytes_eq_map n w.toNat, ← leBytes_eq_map]

section Claim

variable {s : State} {tm : Team} {earlier later : List MemReq} {r : MemReq} {u : MemUnit} (hand : AtHand s tm earlier r later u)
  (order : InOrder earlier r) (sound : Sound s u) (plain : s.input.home = .plain)
include hand order sound plain

/-- A word as bytes, and the step of an atomic. -/
noncomputable def wordBytes (n : Nat) (w : DWord) : List Byte := (List.range n).map fun j => BitVec.ofNat 8 (w.toNat / 256 ^ j)
noncomputable def stepOf (s : State) (tm : Team) (u : MemUnit) (op : AtomOp) (w64 : Bool) : List DWord × DWord :=
  atomStep op w64 (BitVec.ofNat 64 (littleEndian (bytesOf s tm u))) (u.ops.map Prod.snd)

theorem homeAtom {op : AtomOp} {w64 ret : Bool} (atom : r.kind = .atom op w64 ret) (len : u.len = if w64 = true then 8 else 4)
    (nodup : (u.ops.map Prod.fst).Nodup) :
    AtomHome s tm r u (wordBytes u.len (stepOf s tm u op w64).2) (u.ops.map Prod.fst) ((stepOf s tm u op w64).1.map (wordBytes u.len)) := by
  have lengths : (u.ops.map Prod.fst).length = ((stepOf s tm u op w64).1.map (wordBytes u.len)).length := by
    rw [List.length_map, List.length_map, stepOf, length_atomStep, List.length_map]
  have fst := List.map_fst_zip lengths.le
  have size : (wordBytes u.len (stepOf s tm u op w64).2).length ≤ 8 := by
    rw [wordBytes, List.length_map, List.length_range, len]
    split <;> decide
  exact atomHome_of (homeWrites hand order sound plain (fun load => ReqKind.noConfusion (load.symm.trans atom)) (performAt_atom hand.team sound atom
    (atomRets_eq op w64 (bytesOf s tm u) u len rfl) size ((congrArg List.Nodup fst).mpr nodup))) fst (List.map_snd_zip lengths.ge)

omit hand order sound plain in
/-- What a part that meets no failure leaves. -/
def HomePart (s : State) (tm : Team) (earlier : List MemReq) (r : MemReq) (u : MemUnit) : Prop :=
  (r.kind = .load → Apart s earlier u → LoadHome s tm r u) ∧
  (r.kind = .load → ∀ old e young x lane, earlier = old ++ e :: young → Apart s young u → e.kind = .store → Overlaps s e u x →
    (∀ y, Overlaps s e u y → y.lane = lane ∧ ¬inWindow y.tgt) → (∀ i < u.size, ∃ y, Overlaps s e u y ∧ Stores s u y (wholeAt s u + i)) →
    LoadQueue s tm r u e) ∧
  (r.kind = .store → WriteHome s tm r u [] u.mask u.data) ∧
  (∀ op w64 ret, r.kind = .atom op w64 ret → u.len = (if w64 then 8 else 4) → (u.ops.map Prod.fst).Nodup → u.ops ≠ [] →
    AtomHome s tm r u (wordBytes u.len (stepOf s tm u op w64).2) (u.ops.map Prod.fst) ((stepOf s tm u op w64).1.map (wordBytes u.len)))

theorem homePart : HomePart s tm earlier r u :=
  ⟨homeLoad hand order sound plain, fun load _ _ _ _ _ => homeForward hand order sound load,
    fun store => homeWrites hand order sound plain (fun load => ReqKind.noConfusion (load.symm.trans store)) (performAt_store hand.team sound store),
    fun _ _ _ atom len nodup _ => homeAtom hand order sound plain atom len nodup⟩

end Claim

/-- The parts of HOME_PERFORM that meet no failure. -/
theorem homeAccesses : HomeAccesses := @homePart

end Sys2Proof.Claims
end

section
-- One proof after another: side by side their threads pass the limit of memory that the check sets.
set_option Elab.async false
/-! CLAIM. Poisoned units, failing tags and transfers that fail on the network (R68 to R70, R128, R130, R188, R306, R307, R314). -/

namespace Sys2Proof.Claims

open Sys2Proof Sys2Proof.Machine

/-! ## The parts of the map (R51) -/

section Choice

variable {p : Prop} [Decidable p] {x y r : Region}

theorem ite_eq_iff_left (other : y ≠ r) : (if p then x else y) = r ↔ p ∧ x = r := by
  split
  · next yes => exact ⟨fun h => ⟨yes, h⟩, fun h => h.2⟩
  · next no => exact ⟨fun h => absurd h other, fun h => absurd h.1 no⟩

theorem ite_eq_iff_right (other : x ≠ r) : (if p then x else y) = r ↔ ¬p ∧ y = r := by
  split
  · next yes => exact ⟨fun h => absurd h other, fun h => absurd yes h.1⟩
  · next no => exact ⟨fun h => ⟨no, h⟩, fun h => h.2⟩

theorem ite_ne (first : x ≠ r) (second : y ≠ r) : (if p then x else y) ≠ r := fun h => second ((ite_eq_iff_right first).1 h).2

end Choice

theorem regionOf_hbm_iff (a : Nat) : regionOf a = .hbm ↔ a < 0x8000000000 ∧ a % 0x1000000000 < 0xC00000000 :=
  (ite_eq_iff_left (ite_ne (by decide) (ite_ne (by decide) (ite_ne (by decide) (ite_ne (by decide) (ite_ne (by decide)
    (ite_ne (by decide) (by decide)))))))).trans
    (and_congr_right' ((ite_eq_iff_left (by decide)).trans (and_iff_left rfl)))

theorem regionOf_sbm_iff (a : Nat) : regionOf a = .sbm ↔ 0x80000000000 ≤ a ∧ a < 0x8000C000000 := by
  have parts : regionOf a = .sbm ↔ ¬a < 0x8000000000 ∧ ¬a < 0x80000000000 ∧ a < 0x8000C000000 ∧ Region.sbm = .sbm :=
    (ite_eq_iff_right (ite_ne (by decide) (by decide))).trans (and_congr_right' ((ite_eq_iff_right (by decide)).trans
      (and_congr_right' (ite_eq_iff_left (ite_ne (by decide) (ite_ne (by decide) (ite_ne (by decide) (ite_ne (by decide) (by decide)))))))))
  exact parts.trans ⟨fun h => ⟨Nat.not_lt.1 h.2.1, h.2.2.1⟩,
    fun h => ⟨Nat.not_lt.2 (le_trans (by decide) h.1), Nat.not_lt.2 h.1, h.2, rfl⟩⟩

/-! ## The parts of a store that one step takes (R69, R128) -/

/-- No other part of the request lies in the 64 bytes of a part. -/
def Alone (r : MemReq) (i a : Nat) : Prop :=
  ∀ n y b j w c, r.units[n]? = some y → n ≠ i → y.tgt = .here b j w c → b / 64 ≠ a / 64

/-- A filter that one number of a range passes. -/
theorem filter_range_single {p : Nat → Bool} {n i : Nat} (lt : i < n) (hit : p i = true) (only : ∀ j, p j = true → j = i) :
    (List.range n).filter p = [i] := by
  refine List.perm_singleton.1 ((List.perm_ext_iff_of_nodup (List.nodup_range.filter _) (List.nodup_singleton i)).2 fun j => ?_)
  rw [List.mem_filter, List.mem_range, List.mem_singleton]
  exact ⟨fun h => only j h.2, fun h => h ▸ ⟨lt, hit⟩⟩

section Mates

variable {r : MemReq} {i a : Nat} {u : MemUnit} {x : BitVec 3} {w : BitVec 6} {c : BitVec 2} (target : u.tgt = .here a x w c) (part : r.units[i]? = some u)
  (alone : Alone r i a)
include target part alone

/-- A part that lies alone has no mates but itself. -/
theorem mates_alone {span m : Nat} (block : span * m = 64) : r.mates a x w c span = [i] := by
  refine filter_range_single (List.getElem?_eq_some_iff.1 part).1 ?_ fun n same => ?_
  · rw [part]
    dsimp only
    rw [target]
    exact Bool.and_intro (Bool.and_intro (Bool.and_intro (beq_iff_eq.2 rfl) (beq_iff_eq.2 rfl)) (beq_iff_eq.2 rfl)) (beq_iff_eq.2 rfl)
  · by_contra other
    revert same
    cases there : r.units[n]? with
    | none => exact Bool.noConfusion
    | some y =>
      dsimp only
      cases goes : y.tgt with
      | here b j w' c' =>
        intro same
        have span_eq : b / span = a / span := eq_of_beq (Bool.and_elim_left (Bool.and_elim_left (Bool.and_elim_left same)))
        refine alone n y b j w' c' there other goes ?_
        rw [← block, ← Nat.div_div_eq_div_mul, span_eq, Nat.div_div_eq_div_mul]
      | spm | door | away => exact Bool.noConfusion

omit alone in
/-- A part covers an aligned span whole if it begins there and the mask admits every byte. -/
theorem covers_alone {span : Nat} (pos : 0 < span) : r.covers a span [i] = true ↔ a % span = 0 ∧ ∀ k < span, k < u.len ∧ u.mask.testBit k = true := by
  have covers : r.covers a span [i] = true ↔
      ∀ k, k < span → (a ≤ a - a % span + k ∧ a - a % span + k < a + u.len) ∧ u.mask.testBit (a - a % span + k - a) = true := by
    refine List.all_eq_true.trans (forall_congr' fun k => imp_congr List.mem_range ?_)
    rw [List.any_cons, List.any_nil, Bool.or_false, part]
    dsimp only
    rw [target]
    exact band_iff (band_iff decide_eq_true_iff decide_eq_true_iff) Iff.rfl
  rw [covers]
  constructor
  · intro all
    have start : a - a % span = a := Nat.le_antisymm (Nat.sub_le _ _) (all 0 pos).1.1
    refine ⟨Nat.left_eq_add.1 ((Nat.sub_eq_iff_eq_add (Nat.mod_le a span)).1 start), fun k lt => ?_⟩
    have here := all k lt
    rw [start, Nat.add_sub_cancel_left] at here
    exact ⟨Nat.lt_of_add_lt_add_left here.1.2, here.2⟩
  · intro h k lt
    rw [h.1, Nat.sub_zero, Nat.add_sub_cancel_left]
    exact ⟨⟨Nat.le_add_right _ _, Nat.add_lt_add_left (h.2 k lt).1 a⟩, (h.2 k lt).2⟩

/-- A short part that lies alone does not cover an aligned span whole if it leaves a byte of it out. -/
theorem not_covers_alone {span m : Nat} (block : span * m = 64) {k : Nat} (lt : k < span) (out : k < u.len → u.mask.testBit k = false) :
    r.covers a span (r.mates a x w c span) = false := by
  rw [mates_alone target part alone block, Bool.eq_false_iff, ne_eq, covers_alone target part (Nat.zero_lt_of_lt lt)]
  intro all
  have here := all.2 k lt
  rw [out here.1] at here
  cases here.2

/-- A part that lies alone and covers neither its unit nor its line whole is performed by itself. -/
theorem joined_partial (s : State) (short : u.len ≤ 8) (hole : regionOf a = .sbm → ∃ j < 8, u.mask.testBit j = false) :
    s.joined r i u = ([i], false, false) := by
  have beyond {k : Nat} (le : 8 ≤ k) (lt : k < u.len) : u.mask.testBit k = false := absurd (short.trans le) (Nat.not_le.2 lt)
  refine joined_self target (.inr (not_covers_alone target part alone (m := 1) rfl (k := 63) (by decide) (beyond (by decide)))) (.inr ?_)
  split
  · next sbm =>
    obtain ⟨j, lt, bit⟩ := hole (beq_iff_eq.1 sbm)
    exact not_covers_alone target part alone (m := 8) rfl lt fun _ => bit
  · exact not_covers_alone target part alone (m := 2) rfl (k := 31) (by decide) (beyond (by decide))

/-- A store of a whole poisoned word of SBM makes it good (R69). -/
theorem joined_word (s : State) (store : r.kind = .store) (undone : u.done = false) (sbm : regionOf a = .sbm)
    (poisoned : s.mem.poisoned (s.place x.toNat a) = true) (aligned : a % 8 = 0) (len : u.len = 8) (mask : u.mask = 0xFF) :
    s.joined r i u = ([i], true, false) := by
  have mates : r.mates a x w c (if regionOf a == .sbm then 8 else 32) = [i] := by
    rw [if_pos (beq_iff_eq.2 sbm)]
    exact mates_alone target part alone (m := 8) rfl
  have covers : r.covers a (if regionOf a == .sbm then 8 else 32) [i] = true := by
    rw [if_pos (beq_iff_eq.2 sbm)]
    refine (covers_alone target part (by decide)).2 ⟨aligned, fun k lt => ?_⟩
    rw [len, mask, show 0xFF = 2 ^ 8 - 1 from rfl, Nat.testBit_two_pow_sub_one]
    exact ⟨lt, decide_eq_true lt⟩
  rw [← with_tgt target]
  refine (if_neg ?_).trans ((if_neg ?_).trans ((if_pos (Bool.and_intro poisoned ((congrArg (r.covers a _) mates).trans covers))).trans ?_))
  · rw [store, sbm]
    exact Bool.noConfusion
  · rw [Mem.tagOk, sbm]
    exact Bool.noConfusion
  · refine congrArg (·, true, false) ((congrArg (List.filter _) mates).trans (List.filter_cons_of_pos ?_))
    rw [part, Option.map_some, undone]
    rfl

end Mates

/-! ## What a failing unit leaves (R69, R128) -/

/-- The state with other registers. -/
noncomputable def withCfg (s : State) (cfg : Cfg) : State := { s with cfg := cfg }

theorem countedIn_cfg (s : State) (cause : BitVec 8) : ∃ cfg, countedIn s cause = withCfg s cfg ∧
    (chosen s).countFailure cause = chosen (withCfg s cfg) := by
  by_cases tag : cause = 0x12
  · exact ⟨_, if_pos tag, if_pos tag⟩
  · exact ⟨s.cfg, if_neg tag, if_neg tag⟩

/-- Bytes that leave one of a word out reach that word in part. -/
theorem sbmWords_hole {n mask : Nat} (pos : 0 < n) (le : n ≤ 8) (hole : mask % 256 ≠ 0 ∧ ∃ j < 8, mask.testBit j = false) :
    sbmWords n mask = [(0, false)] := by
  obtain ⟨reached, j, lt, bit⟩ := hole
  have open_ : mask % 256 ≠ 255 := fun full => by
    have set : (mask % 2 ^ 8).testBit j = (2 ^ 8 - 1).testBit j := congrArg (Nat.testBit · j) full
    rw [Nat.testBit_mod_two_pow, Nat.testBit_two_pow_sub_one, bit, Bool.and_false] at set
    exact of_decide_eq_false set.symm lt
  have one : (n + 7) / 8 = 1 := Nat.div_eq_of_lt_le (Nat.add_le_add_right pos 7) (Nat.lt_succ_of_le (Nat.add_le_add_right le 7))
  rw [sbmWords, one]
  refine (congrArg (List.map _) (List.filter_cons_of_pos (l := []) (bne_iff_ne.2 reached))).trans (congrArg (fun b => [(0, b)]) ?_)
  exact Bool.and_eq_false_iff.2 (.inr (beq_eq_false_iff_ne.2 open_))

section Failing

variable {s : State} {a : Nat} {i : BitVec 3} {w : BitVec 6} {c : BitVec 2} (mem : MemByte a)
  (bad : s.mem.poisoned (s.place i.toNat a) = true ∨ s.mem.tagOk (s.place i.toNat a) a w c = false)
include mem bad

/-- ECC_UNCORRECTABLE or CIPHER_INTEGRITY. -/
noncomputable def failing (s : State) (i : BitVec 3) (a : Nat) : BitVec 8 := if s.mem.poisoned (s.place i.toNat a) then 0x11 else 0x12

omit mem in
theorem spoiled_failing : s.spoiled i.toNat a w c = some (failing s i a) := by
  unfold State.spoiled failing
  dsimp only
  cases poisoned : s.mem.poisoned (s.place i.toNat a) with
  | true => rfl
  | false =>
    rw [poisoned] at bad
    rw [bad.resolve_left (by decide)]
    rfl

/-- What a home gives back for data that fail, and what is performed of a part that meets them. -/
def HomeFails (o : HomeOut) (t : State) (cause : BitVec 8) : Prop := o.s = t ∧ o.fail = some cause
def PartFails (o : Performed) (t : State) (cause : BitVec 8) : Prop := o.s = t ∧ o.fail = some cause

omit mem bad in
theorem homeFails_of {o : HomeOut} {n : Nat} {cause : BitVec 8} (eq : o = s.homeFail n cause) : HomeFails o (s.countFailure cause) cause :=
  eq ▸ ⟨rfl, rfl⟩

theorem agentRead_failing {n : Nat} (pos : 0 < n) (le : n ≤ 8) :
    HomeFails (s.agentRead i.toNat w c a n) (s.countFailure (failing s i a)) (failing s i a) := by
  rw [HomeFails, agentRead_state, agentRead_fail, (homeRead_memory s i.toNat w c n mem).2 _ (by rw [spoiledRange_word s _ _ pos le, spoiled_failing bad])]
  exact ⟨rfl, rfl⟩

theorem homeWrite_failing {mask : Nat} {data : List Byte} (some : data ≠ []) (le : data.length ≤ 8)
    (hole : regionOf a = .sbm → mask % 256 ≠ 0 ∧ ∃ j < 8, mask.testBit j = false) :
    s.homeWrite i.toNat w c a mask data false false = s.homeFail 0 (failing s i a) := by
  refine (homeWrite_memory _ _ _ _ _ _ _ _ mem).trans ?_
  cases poisoned : s.mem.poisoned (s.place i.toNat a) with
  | true =>
    refine (if_pos ?_).trans (congrArg (s.homeFail 0) (if_pos poisoned).symm)
    by_cases sbm : regionOf a = .sbm
    · refine (if_pos (beq_iff_eq.2 sbm)).trans ?_
      rw [sbmWords_hole (List.length_pos_iff.2 some) le (hole sbm), List.any_cons, Nat.add_zero, poisoned]
      rfl
    · refine (if_neg (mt beq_iff_eq.1 sbm)).trans ?_
      rw [poisoned]
      rfl
  | false =>
    have tag : s.mem.tagOk (s.place i.toNat a) a w c = false := bad.resolve_left (by rw [poisoned]; exact Bool.noConfusion)
    have sbm : regionOf a ≠ .sbm := fun sbm => by
      rw [Mem.tagOk, sbm] at tag
      exact Bool.noConfusion tag
    refine (if_neg (Bool.eq_false_iff.1 ((if_neg (mt beq_iff_eq.1 sbm)).trans ?_))).trans ((if_pos ?_).trans
      (congrArg (s.homeFail 0) (if_neg (Bool.eq_false_iff.1 poisoned)).symm))
    · rw [poisoned]
      rfl
    · rw [tag]
      rfl

end Failing

section Event

variable {s : State} {tm : Team} {earlier later : List MemReq} {r : MemReq} {u : MemUnit} {a : Nat} {i : BitVec 3} {w : BitVec 6} {c : BitVec 2}
  (hand : AtHand s tm earlier r later u) (order : InOrder earlier r) (target : u.tgt = .here a i w c)

include target in
theorem partFails_of {tid ctx : Nat} {whole line : Bool} {t : State} {cause : BitVec 8}
    (read : r.kind ≠ .store → HomeFails (s.agentRead i.toNat w c a u.len) t cause)
    (write : r.kind = .store → HomeFails (s.homeWrite i.toNat w c a u.mask u.data whole line) t cause) :
    PartFails (s.performAt tid tm ctx r u whole line) t cause := by
  cases kind : r.kind with
  | load =>
    rw [performAt_here_load target kind]
    exact read (kind ▸ ReqKind.noConfusion)
  | store =>
    rw [performAt_here_store target kind]
    exact write kind
  | atom op w64 ret =>
    obtain ⟨state, fail⟩ := read (kind ▸ ReqKind.noConfusion)
    rw [performAt_here_atom target kind, fail]
    exact ⟨state, rfl⟩

include hand order

omit hand order in
/-- A part whose data fail ends, and raises the halt line of its context imprecisely (R188, R191). -/
def FailEnds (s : State) (tm : Team) (r : MemReq) (u : MemUnit) (cause : BitVec 8) : Prop :=
  ∃ x t, PartEnds s t ∧ Failed (countedIn s cause) x tm r u ∧ HaltRaised x t (s.ctxOf tm) (queuedRecord s tm r u cause) false (some s.input.unit.team)

theorem exec_failed (home : r.kind = .load → s.forward u earlier.reverse = .home) (plain : s.input.home = .plain)
    (joined : (chosen s).joined r s.input.unit.unit u = ([s.input.unit.unit], false, false)) {cause : BitVec 8}
    (fails : PartFails ((chosen s).performAt s.input.unit.team tm (s.ctxOf tm) r u false false) ((chosen s).countFailure cause) cause) :
    FailEnds s tm r u cause := by
  obtain ⟨cfg, counted, spent⟩ := countedIn_cfg s cause
  exact ⟨_, _, (exec_part hand order home plain joined).trans (congrArg (endOf s r u) (onePart_failed (fails.1.trans spent) fails.2)),
    counted ▸ failed_modWarp (s := withCfg s cfg) hand.team hand.part, haltRaised_blame (s := withCfg s cfg) hand.team hand.warp cause⟩

end Event

/-- A whole word of SBM written over a poisoned one: its bytes, and it is good (R69). -/
noncomputable def cleanWord (m : Mem) (a : Nat) : Mem := { m with poison := Sparse.set false a false m.poison }
noncomputable def goodWord (m : Mem) (a : Nat) (data : List Byte) : Mem := (cleanWord m a).writeMasked a 0xFF data

/-- A word of SBM is cleared as it is written over (R69). -/
theorem cellWrite_word {m : Mem} {a : Nat} (sbm : regionOf a = .sbm) (poisoned : m.poisoned a = true) (aligned : a % 8 = 0) {data : List Byte}
    (len : data.length = 8) (w : BitVec 6) (c : BitVec 2) : m.cellWrite a a 0xFF w c data true = goodWord m a data := by
  have unit : poisonUnit a = a := by
    rw [poisonUnit, sbm]
    exact (congrArg (a - ·) aligned).trans (Nat.sub_zero a)
  rw [Mem.cellWrite, if_pos (beq_iff_eq.2 sbm), len]
  show Mem.writeMasked (if m.poisoned (a + 0) then _ else m) a 0xFF data = _
  rw [Nat.add_zero, if_pos poisoned, unit]
  rfl

theorem homeWrite_word {s : State} {a : Nat} (sbm : regionOf a = .sbm) {i : BitVec 3} (poisoned : s.mem.poisoned (s.place i.toNat a) = true)
    (aligned : a % 8 = 0) {data : List Byte} (len : data.length = 8) (w : BitVec 6) (c : BitVec 2) :
    s.homeWrite i.toNat w c a 0xFF data true false = { s := withMem s (goodWord s.mem a data), bytes := [], fail := none } := by
  have place : s.place i.toNat a = a := if_neg (Nat.not_lt.2 (le_trans (by decide) ((regionOf_sbm_iff a).1 sbm).1))
  refine (homeWrite_memory _ _ _ _ _ _ _ _ (.inr sbm)).trans ((if_neg ?_).trans ((if_neg ?_).trans ?_))
  · rw [if_pos (beq_iff_eq.2 sbm)]
    intro spoilt
    obtain ⟨p, -, bad⟩ := List.any_eq_true.1 spoilt
    exact Bool.noConfusion (Bool.and_elim_right bad)
  · rw [Mem.tagOk, sbm]
    exact Bool.noConfusion
  · rw [place, cellWrite_word sbm (place ▸ poisoned) aligned len]
    rfl

theorem get_goodWord (m : Mem) (a : Nat) {data : List Byte} (len : data.length = 8) (n : Nat) :
    (goodWord m a data).get n = if a ≤ n ∧ n < a + 8 then data.getD (n - a) 0 else m.get n := by
  refine (get_writeMasked data _ a 0xFF n).trans ?_
  rw [len]
  refine if_congr (and_congr_right fun lo => ⟨fun h => h.1, fun h => ⟨h, ?_⟩⟩) rfl rfl
  rw [show 0xFF = 2 ^ 8 - 1 from rfl, Nat.testBit_two_pow_sub_one]
  exact decide_eq_true (Nat.sub_lt_left_of_lt_add lo h)

/-- What a whole word written leaves of memory. -/
def WordLeft (s : State) (u : MemUnit) (a : Nat) (mem : Mem) : Prop :=
  mem = { s.mem with cells := mem.cells, poison := mem.poison } ∧
  (∀ n, mem.get n = if a ≤ n ∧ n < a + 8 then u.data.getD (n - a) 0 else s.mem.get n) ∧
  ∀ n, Sparse.get false n mem.poison = if n = a then false else Sparse.get false n s.mem.poison

theorem wordLeft_goodWord (s : State) {u : MemUnit} (a : Nat) (len : u.data.length = 8) : WordLeft s u a (goodWord s.mem a u.data) :=
  have only := writeMasked_only u.data (cleanWord s.mem a) a 0xFF
  ⟨only.trans (congrArg (fun p => { cleanWord s.mem a with cells := (goodWord s.mem a u.data).cells, poison := p }) (congrArg Mem.poison only :).symm),
    get_goodWord s.mem a len, fun n => (congrArg (Sparse.get false n) (congrArg Mem.poison only :)).trans (Sparse.get_set _ _ _ _ _)⟩

/-- A poisoned word of SBM that a store covers whole is good again. -/
def WordEnds (s : State) (tm : Team) (r : MemReq) (u : MemUnit) (a : Nat) : Prop :=
  ∃ x mem, PartEnds s x ∧ Done s x tm r u [] tm mem ∧ WordLeft s u a mem

section Event

variable {s : State} {tm : Team} {earlier later : List MemReq} {r : MemReq} {u : MemUnit} {a : Nat} {i : BitVec 3} {w : BitVec 6} {c : BitVec 2}
  (hand : AtHand s tm earlier r later u) (order : InOrder earlier r) (target : u.tgt = .here a i w c)
include hand order target

theorem homeFailing (home : r.kind = .load → s.forward u earlier.reverse = .home) (plain : s.input.home = .plain) (mem : MemByte a) (short : u.len ≤ 8)
    (le : u.data.length ≤ 8) (bad : s.mem.poisoned (s.place i.toNat a) = true ∨ s.mem.tagOk (s.place i.toNat a) a w c = false)
    (reads : r.kind ≠ .store → 0 < u.len) (writes : r.kind = .store → Alone r s.input.unit.unit a ∧ u.data ≠ [] ∧
      (regionOf a = .sbm → u.mask % 256 ≠ 0 ∧ ∃ j < 8, u.mask.testBit j = false)) : FailEnds s tm r u (failing s i a) := by
  refine exec_failed hand order home plain ?_ (partFails_of (s := chosen s) target (fun other => agentRead_failing (s := chosen s) mem bad (reads other) short)
    fun store => homeFails_of (homeWrite_failing (s := chosen s) mem bad (writes store).2.1 le (writes store).2.2))
  by_cases store : r.kind = .store
  · obtain ⟨alone, -, hole⟩ := writes store
    exact joined_partial target hand.part alone (chosen s) short fun sbm => (hole sbm).2
  · rw [← with_tgt target]
    exact if_pos (Bool.or_eq_true_iff.2 (.inl (bne_iff_ne.2 store)))

theorem homeWord (plain : s.input.home = .plain) (sbm : regionOf a = .sbm) (poisoned : s.mem.poisoned (s.place i.toNat a) = true)
    (store : r.kind = .store) (aligned : a % 8 = 0) (alone : Alone r s.input.unit.unit a) (len : u.len = 8) (length : u.data.length = 8)
    (mask : u.mask = 0xFF) : WordEnds s tm r u a := by
  have done := (performAt_here_store (s := chosen s) (tid := s.input.unit.team) (tm := tm)
      (ctx := s.ctxOf tm) (whole := true) (line := false) target store).trans
    (congrArg (fun o : HomeOut => Performed.mk o.s [] o.fail) (mask.symm ▸ homeWrite_word (s := chosen s) sbm poisoned aligned length w c))
  exact ⟨_, _, exec_done hand order (fun load => ReqKind.noConfusion (load.symm.trans store)) plain
    (joined_word target hand.part alone (chosen s) store hand.open_ sbm poisoned aligned len mask) done, done_memory hand.team _ List.nodup_nil,
    wordLeft_goodWord s a length⟩

end Event

/-- A part that meets a tag failing on the network is discarded (R130). -/
def TagEnds (s : State) (tm : Team) (r : MemReq) (u : MemUnit) : Prop :=
  ∃ x t, Failed s x tm r u ∧ HaltRaised x t (s.ctxOf tm) (queuedRecord s tm r u 0x12) false (some s.input.unit.team) ∧
    exec .homePerform s = .next (t.tamperAlarmed.after s.input.unit.team s.input.unit.warp)

/-- What a part whose data fail leaves. -/
def FailPart (s : State) (tm : Team) (r : MemReq) (u : MemUnit) (a : Nat) (i : BitVec 3) (w : BitVec 6) (c : BitVec 2) : Prop :=
  (s.input.home = .plain → MemByte a → u.len ≤ 8 → u.data.length ≤ 8 →
    s.mem.poisoned (s.place i.toNat a) = true ∨ s.mem.tagOk (s.place i.toNat a) a w c = false → (r.kind ≠ .store → 0 < u.len) →
    (r.kind = .store → Alone r s.input.unit.unit a ∧ u.data ≠ [] ∧ (regionOf a = .sbm → u.mask % 256 ≠ 0 ∧
      ∃ j < 8, u.mask.testBit j = false)) →
    FailEnds s tm r u (failing s i a)) ∧
  (s.input.home = .plain → regionOf a = .sbm → s.mem.poisoned (s.place i.toNat a) = true → r.kind = .store → a % 8 = 0 →
    Alone r s.input.unit.unit a →
    u.len = 8 → u.data.length = 8 → u.mask = 0xFF → WordEnds s tm r u a) ∧
  (s.input.home = .networkTag → TagEnds s tm r u)

theorem failPart {s : State} {tm : Team} {earlier later : List MemReq} {r : MemReq} {u : MemUnit} {a : Nat} {i : BitVec 3} {w : BitVec 6} {c : BitVec 2}
    (hand : AtHand s tm earlier r later u) (order : InOrder earlier r) (apart : r.kind = .load → Apart s earlier u) (target : u.tgt = .here a i w c) :
    FailPart s tm r u a i w c :=
  have home (load : r.kind = .load) := forward_apart hand.near (apart load)
  ⟨homeFailing hand order target home, homeWord hand order target,
    fun tag => ⟨_, _, failed_modWarp hand.team hand.part, haltRaised_blame hand.team hand.warp 0x12,
      (exec_home hand order home).trans (homeBy_networkTag tag target)⟩⟩

theorem homeFailures : HomeFailures := @failPart

end Sys2Proof.Claims
end

section
-- One proof after another: side by side their threads pass the limit of memory that the check sets.
set_option Elab.async false
/-! CLAIM. MX windows: what a load reads through one, and what a store leaves of a block (R62 to R65). -/

namespace Sys2Proof.Claims

open Sys2Proof Sys2Proof.Machine

/-! ## The numbers of a window (R62 to R64) -/

/-- A code that is zero, fits, or is beyond the largest, each given its sign. -/
theorem signed_choice {u : Prop} [Decidable u] {M c o z big : Nat} {sign w : Nat → Nat} (zero : u → c = 0) (wz : w 0 = z) (ws : ¬u → w c = sign c)
    (wo : big = w o) : (if u then z else if M < c then big else sign c) = w (if min c (M + 1) ≤ M then min c (M + 1) else o) := by
  rcases Nat.lt_or_ge M c with gt | le
  · rw [if_pos gt, Nat.min_eq_right gt, if_neg (Nat.not_succ_le_self M), if_neg fun h => Nat.not_lt_zero M (zero h ▸ gt), wo]
  · rw [if_neg (Nat.not_lt.2 le), Nat.min_eq_left (Nat.le_succ_of_le le), if_pos le]
    split
    · next h => rw [zero h, wz]
    · next h => exact (ws h).symm

section Signless

variable {F : Fmt} (top : F.top = .none)
include top

/-- A code of a format without NaNs has its number (R229). -/
theorem numOf_eq_of_none (full : 2 ^ F.width = F.maxCode + 1) (code : Nat) : numOf F code = toNum (F.value code) := by
  have le : code % 2 ^ F.width ≤ F.maxCode := Nat.le_of_lt_succ ((Nat.mod_lt code (Nat.two_pow_pos F.width)).trans_eq full)
  unfold numOf Fmt.value
  dsimp only
  rw [if_pos le, top]
  exact (toNum_magOf _ _).symm

theorem withSign_zero_of_none (neg : Bool) : withSign F neg 0 = F.zero neg := by
  rw [withSign, Fmt.zero, if_pos top, top]
  cases neg <;> rfl

omit top in
theorem withSign_pos (neg : Bool) {c : Nat} (pos : c ≠ 0) : withSign F neg c = F.signed neg c := by
  rw [withSign, bne_iff_ne.2 pos, Bool.or_true, Bool.and_true]
  rfl

omit top in
theorem nearCode_ne_zero {m : Nat} {e : Int} (pos : m ≠ 0) (some : roundedUnits m e (F.ulpExp m e) ≠ 0) : nearCode F m e ≠ 0 := fun h =>
  Nat.mul_ne_zero some (Nat.two_pow_pos _).ne' ((units_nearCode pos).symm.trans (by rw [h, units, Nat.zero_div, if_pos rfl]))

/-- Rounding to nearest in a format without NaNs (R229, R236). -/
theorem rounded_rn_of_none (frac : F.frac ≠ 0) (sat : F.sat = true) (last : F.maxCode ≠ 0) (v : FVal) : Rounded F (toNum v) (F.rn v) := by
  have most (neg : Bool) : F.over neg = withSign F neg (overCode F) := by
    rw [overCode, if_pos sat, withSign_pos neg last, Fmt.over, if_pos sat]
  cases v with
  | nan => rfl
  | inf neg => exact most neg
  | fin neg m e =>
    rcases eq_or_ne m 0 with rfl | pos
    · have zero : (Nat.cast 0 : Rat) * 2 ^ e = mag F 0 := (zero_mul _).trans mag_zero.symm
      refine ⟨0, ⟨Nat.zero_le _, fun d _ => ?_, fun d _ ne tie => rfl⟩, (withSign_zero_of_none top neg).symm⟩
      rw [zero, sub_self, ratAbs_eq, ratAbs_eq, abs_zero]
      exact abs_nonneg _
    · exact ⟨_, (closest_nearCode frac pos).nearest, (if_neg pos).trans (signed_choice (u := roundedUnits m e (F.ulpExp m e) = 0) (c := nearCode F m e)
        (nearCode_of_zero pos) (withSign_zero_of_none top neg) (fun some => withSign_pos neg (nearCode_ne_zero pos some)) (most neg))⟩

end Signless

section Descriptor

variable {d : MxAlias}

theorem winFmt_eq : winFmt d = d.format :=
  (by decide : ∀ f : BitVec 2, (if f = 0 then Fmt.e4m3 else if f = 1 then .e5m2 else .e2m1) = (match f.toNat with | 0 => Fmt.e4m3 | 1 => .e5m2 | _ => .e2m1))
    d.fmt

theorem winEmax_eq : winEmax d = d.emax :=
  (by decide : ∀ f : BitVec 2, (if f = 0 then (8 : Int) else if f = 1 then 15 else 2) = (match f.toNat with | 0 => 8 | 1 => 15 | _ => 2)) d.fmt

/-- The formats that a window can have (R62). -/
theorem winFmt_cases : Widens (winFmt d) ∨ winFmt d = .e2m1 := by
  unfold winFmt
  split
  · exact .inl (widens_collFmt 3)
  · split
    · exact .inl (widens_collFmt 4)
    · exact .inr rfl

theorem numOf_winFmt (code : Nat) : numOf (winFmt d) code = toNum ((winFmt d).value code) := by
  rcases winFmt_cases (d := d) with wide | plain
  · exact numOf_eq wide code
  · rw [plain]
    exact numOf_eq_of_none rfl (by decide) code

theorem rounded_winFmt (v : FVal) : Rounded (winFmt d) (toNum v) ((winFmt d).rn v) := by
  rcases winFmt_cases (d := d) with wide | plain
  · exact rounded_rn wide v
  · rw [plain]
    exact rounded_rn_of_none rfl (by decide) rfl (by decide) v

end Descriptor

/-- A power of two multiplies a number exactly (R63, R64). -/
theorem toNum_mul_pow (v : FVal) (k : Int) : toNum (v.mul (.fin false 1 k)) = (toNum v).times (.val false ((2 : Rat) ^ k)) := by
  have two : (2 : Rat) ≠ 0 := by norm_num
  cases v with
  | nan => rfl
  | inf neg => exact (if_neg (zpow_ne_zero k two)).symm
  | fin neg m e =>
    refine congrArg (NumVal.val _) ?_
    rw [Nat.mul_one, zpow_add₀ two, mul_assoc]

theorem toNum_unscale (c : Nat) (v : FVal) : toNum (unscale c v) = (toNum v).times (.val false ((2 : Rat) ^ (127 - (c : Int)))) := by
  rw [← toNum_mul_pow]
  cases v with
  | nan => rfl
  | inf neg => cases neg <;> rfl
  | fin neg m e =>
    refine congrArg₂ NumVal.val (Bool.bne_false neg).symm (congrArg₂ (· * ·) (congrArg Nat.cast (Nat.mul_one m).symm) (congrArg _ ?_))
    exact (sub_sub_eq_add_sub e c 127).trans (add_sub_assoc _ _ _)

theorem rounded_bf16 (v : FVal) : Rounded .bf16 (toNum v) (Fmt.bf16.rn v) := rounded_rn (widens_collFmt 1) v

theorem numOf_bf16 (code : Nat) : numOf .bf16 code = toNum (Fmt.bf16.value code) := numOf_eq (widens_collFmt 1) code

/-- The value of an element is its number (R62, R63). -/
theorem winNum_eq (s : State) (d : MxAlias) (i : BitVec 3) (e : Nat) : winNum s d i e = toNum (s.aliasVal d i.toNat e) := by
  have byte : byteN s i (elemAt d e) < 16 * 16 := BitVec.isLt _
  have code : (if d.fmt = 2 then byteN s i (elemAt d e) / 16 ^ (e % 2) % 16 else byteN s i (elemAt d e)) = s.aliasCode d i.toNat e := by
    refine if_congr Iff.rfl ?_ rfl
    rcases Nat.mod_two_eq_zero_or_one e with even | odd
    · rw [if_pos even, even, pow_zero, Nat.div_one]
      rfl
    · rw [if_neg (by rw [odd]; decide), odd, pow_one, Nat.mod_eq_of_lt (Nat.div_lt_of_lt_mul byte)]
      rfl
  rw [State.aliasVal, scaleE8M0, toNum_mul_pow, ← winFmt_eq, ← numOf_winFmt, ← code]
  rfl

/-! ## The elements of a window (R62, R65) -/

section Range

variable {a n : Nat}

/-- The byte after one of memory, where it is one of memory too, lies in the same part. -/
theorem same_part_succ (here : MemByte a) (next : MemByte (a + 1)) :
    regionOf (a + 1) = regionOf a ∧ (regionOf a = .sbm ∨ a / 0x1000000000 = (a + 1) / 0x1000000000) := by
  rcases here with hbm | sbm
  · have bounds := (regionOf_hbm_iff a).1 hbm
    refine ⟨(next.resolve_right fun h => ?_).trans hbm.symm, .inr (Nat.succ_div_of_not_dvd fun whole => ?_).symm⟩
    · exact absurd (((regionOf_sbm_iff _).1 h).1.trans bounds.1) (by decide)
    · exact Nat.succ_ne_zero _ ((Nat.mod_eq_of_lt ((Nat.succ_le_of_lt bounds.2).trans_lt (by decide))).symm.trans
        ((Nat.mod_add_mod a 0x1000000000 1).trans (Nat.mod_eq_zero_of_dvd whole)))
  · refine ⟨(next.resolve_left fun h => ?_).trans sbm.symm, .inl sbm⟩
    exact absurd (((regionOf_sbm_iff _).1 sbm).1.trans_lt ((Nat.lt_succ_self a).trans ((regionOf_hbm_iff _).1 h).1)) (by decide)

/-- Bytes of memory in a row lie in one part of it. -/
theorem same_part (all : ∀ k ≤ n, MemByte (a + k)) :
    regionOf (a + n) = regionOf a ∧ (regionOf a = .sbm ∨ a / 0x1000000000 = (a + n) / 0x1000000000) := by
  induction n with
  | zero => exact ⟨rfl, .inr rfl⟩
  | succ n ih =>
    obtain ⟨region, stack⟩ := ih fun k le => all k (Nat.le_succ_of_le le)
    obtain ⟨region', stack'⟩ := same_part_succ (all n (Nat.le_succ n)) (all (n + 1) le_rfl)
    rw [region] at region' stack'
    exact ⟨region', stack.elim .inl fun h => stack'.imp_right h.trans⟩

/-- What lies between two bytes of one part of memory lies in it. -/
theorem memByte_between {k : Nat} (le : k ≤ n) (here : MemByte a) (last : regionOf (a + n) = regionOf a)
    (stack : regionOf a = .sbm ∨ a / 0x1000000000 = (a + n) / 0x1000000000) : MemByte (a + k) := by
  have up := Nat.add_le_add_left le a
  rcases here with hbm | sbm
  · have same : a / 0x1000000000 = (a + n) / 0x1000000000 := stack.resolve_left (by rw [hbm]; exact Region.noConfusion)
    obtain ⟨low, inside⟩ := (regionOf_hbm_iff _).1 (last.trans hbm)
    have mid : (a + k) / 0x1000000000 = (a + n) / 0x1000000000 :=
      le_antisymm (Nat.div_le_div_right up) (same.symm.trans_le (Nat.div_le_div_right (Nat.le_add_right a k)))
    refine .inl ((regionOf_hbm_iff _).2 ⟨up.trans_lt low, lt_of_le_of_lt ?_ inside⟩)
    rw [Nat.mod_eq_sub_mul_div, Nat.mod_eq_sub_mul_div, mid]
    exact Nat.sub_le_sub_right up _
  · exact .inr ((regionOf_sbm_iff _).2 ⟨((regionOf_sbm_iff _).1 sbm).1.trans (Nat.le_add_right a k),
      up.trans_lt ((regionOf_sbm_iff _).1 (last.trans sbm)).2⟩)

/-- A range lies in one part of memory when each of its bytes lies in memory (R51). -/
theorem inMemory_iff (pos : 0 < n) : inMemory a n = true ↔ ∀ k < n, MemByte (a + k) := by
  obtain ⟨n, rfl⟩ := Nat.exists_eq_succ_of_ne_zero pos.ne'
  have parts : inMemory a (n + 1) = true ↔ MemByte a ∧ regionOf (a + n) = regionOf a ∧
      (regionOf a = .sbm ∨ a / 0x1000000000 = (a + n) / 0x1000000000) :=
    band_iff (bor_iff beq_iff_eq beq_iff_eq) (band_iff beq_iff_eq (bor_iff beq_iff_eq beq_iff_eq))
  exact parts.trans ⟨fun h k lt => memByte_between (Nat.le_of_lt_succ lt) h.1 h.2.1 h.2.2, fun all =>
    ⟨all 0 pos, same_part fun k le => all k (Nat.lt_succ_of_le le)⟩⟩

end Range

theorem and_middle {p q r t u : Prop} : (((p ∧ q) ∧ t) ∧ u) ∧ r ↔ p ∧ q ∧ r ∧ t ∧ u :=
  ⟨fun h => ⟨h.1.1.1.1, h.1.1.1.2, h.2, h.1.1.2, h.1.2⟩, fun h => ⟨⟨⟨⟨h.1, h.2.1⟩, h.2.2.2.1⟩, h.2.2.2.2⟩, h.2.2.1⟩⟩

theorem covers_iff (d : MxAlias) (off : Nat) : d.covers off = true ↔ Covered d (off / 2) := by
  by_cases lt : off / 2 < 32 * d.blocks.toNat
  · have pos : 0 < d.blocks.toNat := Nat.pos_of_lt_mul_left lt
    exact (band_iff (band_iff (band_iff (band_iff Iff.rfl bne_iff_ne) (inMemory_iff (Nat.mul_pos pos (by split <;> decide)))) (inMemory_iff pos))
      decide_eq_true_iff).trans and_middle
  · exact iff_of_false (fun h => lt (of_decide_eq_true (Bool.and_elim_right h))) fun h => lt h.2.2.1

/-! ## What every access through a window leaves (R65) -/

/-- The state with other descriptors of windows. -/
noncomputable def withAliases (s : State) (l : List (Nat × MxAlias)) : State := { s with cfg := { s.cfg with aliases := l } }

/-- The state once an access through a window marks the bytes that lie beyond the array. -/
noncomputable def flagged (s : State) (a : Nat) (all : Bool) : State :=
  withAliases s (bif all then s.cfg.aliases else (s.overrun a).cfg.aliases)

theorem flagged_eq (s : State) (a : Nat) (all : Bool) : (if all = true then s else s.overrun a) = flagged s a all := by
  cases all <;> rfl

theorem overrun_flagged (s : State) (a : Nat) {all : Bool} {p : Prop} (same : all = true ↔ p) :
    Overrun s (flagged s a all) ((a - 0x90000000000) / 2 ^ 34) p := by
  cases all with
  | true => exact ⟨fun _ => rfl, fun no => absurd (same.1 rfl) no⟩
  | false => exact ⟨fun yes => Bool.noConfusion (same.2 yes), fun _ => ⟨rfl, fun k => Sparse.get_set _ _ _ _ _⟩⟩

/-- A part in a window is performed by itself. -/
theorem joined_window {s : State} {r : MemReq} {k a : Nat} {u : MemUnit} {i : BitVec 3} {w : BitVec 6} {c : BitVec 2} (target : u.tgt = .here a i w c)
    (window : regionOf a = .mxWindow) : s.joined r k u = ([k], false, false) := by
  rw [← with_tgt target]
  refine if_pos ?_
  rw [window]
  exact Bool.or_true _

/-- A part is performed, from a state whose registers are as it leaves them. -/
def Ended (s z : State) (tm : Team) (r : MemReq) (u : MemUnit) (rets : List (Nat × List Byte)) (mem : Mem) : Prop :=
  ∃ x, PartEnds s x ∧ Done z x tm r u rets tm mem

theorem exec_window {s : State} {tm : Team} {earlier later : List MemReq} {r : MemReq} {u : MemUnit} {a : Nat} {i : BitVec 3} {w : BitVec 6} {c : BitVec 2}
    (hand : AtHand s tm earlier r later u) (order : InOrder earlier r) (target : u.tgt = .here a i w c) (window : regionOf a = .mxWindow)
    (plain : s.input.home = .plain) (home : r.kind = .load → s.forward u earlier.reverse = .home) {all : Bool} {mem : Mem}
    {rets : List (Nat × List Byte)} (nodup : (rets.map Prod.fst).Nodup)
    (done : (chosen s).performAt s.input.unit.team tm (s.ctxOf tm) r u false false =
      { s := withMem (chosen (flagged s a all)) mem, rets := rets, fail := none }) : Ended s (flagged s a all) tm r u rets mem :=
  ⟨_, exec_done hand order home plain (joined_window target window) done, done_memory (s := flagged s a all) hand.team mem nodup⟩

/-! ## Loads (R63) -/

/-- The byte that a load reads at a place of a window. -/
noncomputable def windowByte (s : State) (a : Nat) (i : BitVec 3) (k : Nat) : Byte :=
  if (s.aliasOf a).covers k then BitVec.ofNat 8 (s.aliasImage (s.aliasOf a) i.toNat (k / 2) >>> (8 * (k % 2))) else 0

/-- A byte is one of the image of an element, or a zero beyond the array. -/
def ReadsAs (s : State) (a : Nat) (i : BitVec 3) (k : Nat) (b : Option Byte) : Prop :=
  (¬Covered (s.aliasOf a) (k / 2) → b = some 0) ∧
  (Covered (s.aliasOf a) (k / 2) → ∃ img, Rounded .bf16 (winNum s (s.aliasOf a) i (k / 2)) img ∧ b = some (BitVec.ofNat 8 (img / 256 ^ (k % 2))))

theorem readsAs_windowByte (s : State) (a : Nat) (i : BitVec 3) (k : Nat) : ReadsAs s a i k (some (windowByte s a i k)) := by
  refine ⟨fun no => congrArg some (if_neg (mt (covers_iff _ _).1 no)), fun yes => ⟨_, winNum_eq s _ i _ ▸ rounded_bf16 _, congrArg some ?_⟩⟩
  refine (if_pos ((covers_iff _ _).2 yes)).trans (congrArg _ ?_)
  rw [Nat.shiftRight_eq_div_pow, Nat.pow_mul]
  rfl

/-- The bytes of an element that a load reads verify. -/
def CleanAt (s : State) (a : Nat) (i : BitVec 3) (w : BitVec 6) (c : BitVec 2) (k : Nat) : Prop :=
  Covered (s.aliasOf a) (k / 2) → Clean s i w c (elemAt (s.aliasOf a) (k / 2)) ∧ Clean s i w c (scaleAt (s.aliasOf a) (k / 2))

/-- Every byte that a load reads is one of the array. -/
noncomputable def readsAll (s : State) (a n : Nat) : Bool := (List.range n).all fun j => (s.aliasOf a).covers (mxOffset a + j)

theorem readsAll_iff {s : State} {a n : Nat} : readsAll s a n = true ↔ ∀ j < n, Covered (s.aliasOf a) ((mxOffset a + j) / 2) :=
  List.all_eq_true.trans (forall_congr' fun _ => imp_congr List.mem_range (covers_iff _ _))

noncomputable def windowBytes (s : State) (a : Nat) (i : BitVec 3) (n : Nat) : List Byte := (List.range n).map fun j => windowByte s a i (mxOffset a + j)

theorem getElem?_windowBytes (s : State) (a : Nat) (i : BitVec 3) {n j : Nat} (lt : j < n) :
    (windowBytes s a i n)[j]? = some (windowByte s a i (mxOffset a + j)) :=
  List.getElem?_map.trans (congrArg (Option.map _) (List.getElem?_range lt))

theorem length_windowBytes (s : State) (a : Nat) (i : BitVec 3) (n : Nat) : (windowBytes s a i n).length = n :=
  (List.length_map _).trans List.length_range

section Load

variable {s : State} {a n : Nat} {i : BitVec 3} {w : BitVec 6} {c : BitVec 2} (clean : ∀ j < n, CleanAt s a i w c (mxOffset a + j))
include clean

theorem mxRead_clean : s.mxRead i.toNat w c a n = { s := flagged s a (readsAll s a n), bytes := windowBytes s a i n, fail := none } := by
  rw [← flagged_eq, State.mxRead, List.findSome?_eq_none_iff.2]
  · rfl
  · intro j mem
    by_cases covered : (s.aliasOf a).covers (mxOffset a + j) = true
    · obtain ⟨elem, scale⟩ := clean j (List.mem_range.1 mem) ((covers_iff _ _).1 covered)
      rw [scaleAt, Nat.div_div_eq_div_mul] at scale
      have both : s.spoiled i.toNat (elemAt (s.aliasOf a) ((mxOffset a + j) / 2)) w c = none := (spoiled_eq_none_iff _ _ _ _ _).2 elem
      exact (if_pos covered).trans ((congrArg (fun o : Option (BitVec 8) => o.orElse _) both).trans ((spoiled_eq_none_iff _ _ _ _ _).2 scale))
    · exact if_neg covered

theorem agentRead_window (window : regionOf a = .mxWindow) (unmixed : ∀ j < n, s.mixed (a + j) = false) : (chosen s).agentRead i.toNat w c a n =
    { s := chosen (flagged s a (readsAll s a n)), bytes := windowBytes s a i n, fail := none } := by
  have home : (chosen s).homeRead i.toNat w c a n = { s := chosen (flagged s a (readsAll s a n)), bytes := windowBytes s a i n, fail := none } := by
    rw [chosen_homeRead, State.homeRead, window]
    exact congrArg chosenOut (mxRead_clean clean)
  refine (agentRead_unmixed (chosen s) i.toNat w c a n fun j lt => ?_).trans home
  rw [home] at lt
  exact (chosen_mixed s _).trans (unmixed j (lt.trans_eq (length_windowBytes s a i n)))

end Load

/-- A load through a window is performed (R63). -/
def LoadEnds (s : State) (tm : Team) (r : MemReq) (u : MemUnit) (a : Nat) (i : BitVec 3) (z x : State) (bs : List Byte) : Prop :=
  PartEnds s x ∧ Overrun s z ((a - 0x90000000000) / 2 ^ 34) (∀ j < u.len, Covered (s.aliasOf a) ((mxOffset a + j) / 2)) ∧
    Done z x tm r u [(u.lane, bs)] tm s.mem ∧ bs.length = u.len ∧ ∀ j < u.len, ReadsAs s a i (mxOffset a + j) bs[j]?
def LoadDone (s : State) (tm : Team) (r : MemReq) (u : MemUnit) (a : Nat) (i : BitVec 3) : Prop := ∃ z x bs, LoadEnds s tm r u a i z x bs

theorem loadDone_of {s z : State} {tm : Team} {r : MemReq} {u : MemUnit} {a : Nat} {i : BitVec 3} {bs : List Byte}
    (ended : Ended s z tm r u [(u.lane, bs)] s.mem)
    (overrun : Overrun s z ((a - 0x90000000000) / 2 ^ 34) (∀ j < u.len, Covered (s.aliasOf a) ((mxOffset a + j) / 2)))
    (length : bs.length = u.len) (bytes : ∀ j < u.len, ReadsAs s a i (mxOffset a + j) bs[j]?) : LoadDone s tm r u a i :=
  ended.elim fun x h => ⟨z, x, bs, h.1, overrun, h.2, length, bytes⟩

theorem windowLoad {s : State} {tm : Team} {earlier later : List MemReq} {r : MemReq} {u : MemUnit} {a : Nat} {i : BitVec 3} {w : BitVec 6} {c : BitVec 2}
    (hand : AtHand s tm earlier r later u) (order : InOrder earlier r) (target : u.tgt = .here a i w c) (window : regionOf a = .mxWindow)
    (plain : s.input.home = .plain) (load : r.kind = .load) (apart : Apart s earlier u) (unmixed : ∀ j < u.len, s.mixed (a + j) = false)
    (clean : ∀ j < u.len, CleanAt s a i w c (mxOffset a + j)) : LoadDone s tm r u a i :=
  loadDone_of (exec_window hand order target window plain (fun _ => forward_apart hand.near apart) (List.nodup_singleton _)
    ((performAt_here_load target load).trans (congrArg (fun o : HomeOut => Performed.mk o.s [(u.lane, o.bytes)] o.fail)
      (agentRead_window clean window unmixed)))) (overrun_flagged s a readsAll_iff) (length_windowBytes s a i u.len)
    fun j lt => (getElem?_windowBytes s a i lt).symm ▸ readsAs_windowByte s a i (mxOffset a + j)

/-! ## The bytes that a store puts (R64) -/

/-- The byte that a masked write puts at a place. -/
noncomputable def putByte (off : Nat) (data : List Byte) (mask k : Nat) : Option Byte :=
  if off ≤ k ∧ k < off + data.length ∧ mask.testBit (k - off) = true then data[k - off]? else none

section Bytes

variable {off : Nat} {data : List Byte} {mask : Nat}

/-- A masked write puts a byte at a place. -/
noncomputable def puts (off : Nat) (data : List Byte) (mask k : Nat) : Bool := decide (off ≤ k) && wantsByte data mask (k - off)

theorem puts_iff {k : Nat} : puts off data mask k = true ↔ off ≤ k ∧ wantsByte data mask (k - off) = true := band_iff decide_eq_true_iff Iff.rfl

theorem putByte_eq (k : Nat) : putByte off data mask k = if puts off data mask k = true then some (data.getD (k - off) 0) else none := by
  have wants : puts off data mask k = true ↔ off ≤ k ∧ k - off < data.length ∧ mask.testBit (k - off) = true :=
    band_iff decide_eq_true_iff (band_iff decide_eq_true_iff Iff.rfl)
  by_cases put : puts off data mask k = true
  · obtain ⟨le, lt, bit⟩ := wants.1 put
    rw [if_pos put, List.getD_eq_getElem _ _ lt]
    exact (if_pos ⟨le, (Nat.sub_lt_iff_lt_add' le).1 lt, bit⟩).trans (List.getElem?_eq_getElem lt)
  · exact (if_neg fun h => put (wants.2 ⟨h.1, (Nat.sub_lt_iff_lt_add' h.1).2 h.2.1, h.2.2⟩)).trans (if_neg put).symm

theorem putByte_ne_none_iff (k : Nat) : putByte off data mask k ≠ none ↔ off ≤ k ∧ wantsByte data mask (k - off) = true := by
  rw [putByte_eq, ← puts_iff]
  cases puts off data mask k with
  | true => exact iff_of_true (Option.some_ne_none _) rfl
  | false => exact iff_of_false (fun h => h rfl) Bool.noConfusion

theorem mxPut_byte (k : Nat) : (if (decide (off ≤ k) && wantsByte data mask (k - off)) = true then some (data.getD (k - off) 0).toNat else none) =
    (putByte off data mask k).map BitVec.toNat :=
  putByte_eq k ▸ (apply_ite (Option.map BitVec.toNat) (puts off data mask k = true) (some (data.getD (k - off) 0)) none).symm

theorem mxPut_eq (b j old : Nat) : mxPut off data mask b j old =
    if putByte off data mask (b * 64 + 2 * j) = none ∧ putByte off data mask (b * 64 + (2 * j + 1)) = none then none
    else some (((putByte off data mask (b * 64 + 2 * j)).map BitVec.toNat).getD (old % 256) +
      256 * ((putByte off data mask (b * 64 + (2 * j + 1))).map BitVec.toNat).getD (old / 256)) := by
  rw [Nat.mul_comm b 64, ← Nat.add_assoc (64 * b)]
  unfold mxPut
  dsimp only
  rw [mxPut_byte, mxPut_byte]
  rcases putByte off data mask (64 * b + 2 * j) with _ | x <;> rcases putByte off data mask (64 * b + 2 * j + 1) with _ | y <;> rfl

end Bytes

/-- The value of an element once bytes of its image are written. -/
noncomputable def newVal (s : State) (d : MxAlias) (i : BitVec 3) (b : Nat) (put : Nat → Nat → Option Nat) (j : Nat) : FVal :=
  match put j (Fmt.bf16.rn (s.aliasVal d i.toNat (32 * b + j))) with
  | none => s.aliasVal d i.toNat (32 * b + j)
  | some img => Fmt.bf16.value img

theorem storedVals (s : State) (d : MxAlias) (i : BitVec 3) (b off mask : Nat) (data : List Byte) :
    StoredVals s d i b (fun k => putByte off data mask (b * 64 + k)) fun j => toNum (newVal s d i b (mxPut off data mask b) j) := by
  intro j _
  rw [winNum_eq]
  refine ⟨_, rounded_bf16 _, ?_⟩
  dsimp only [newVal]
  rw [mxPut_eq, numOf_bf16]
  by_cases none : putByte off data mask (b * 64 + 2 * j) = none ∧ putByte off data mask (b * 64 + (2 * j + 1)) = none
  · rw [if_pos none, if_pos none]
  · rw [if_neg none, if_neg none]

/-! ## The scale of a block (R64) -/

theorem two_zpow_pos (x : Int) : (0 : Rat) < 2 ^ x := zpow_pos two_pos x

theorem two_zpow_mono {x y : Int} (le : x ≤ y) : (2 : Rat) ^ x ≤ 2 ^ y := zpow_le_zpow_right₀ one_le_two le

/-- The magnitude of a finite value, 0 of any other. -/
noncomputable def size : FVal → Rat
  | .fin _ m e => (m : Rat) * 2 ^ e
  | _ => 0

theorem size_of_val {v : FVal} {n : Bool} {q : Rat} (val : toNum v = .val n q) : size v = q := by
  cases v with
  | fin neg m e => exact (NumVal.val.inj val).2
  | _ => exact NumVal.noConfusion val

theorem val_of_size {v : FVal} (pos : 0 < size v) : ∃ n, toNum v = .val n (size v) := by
  cases v with
  | fin neg m e => exact ⟨neg, rfl⟩
  | _ => exact absurd pos (lt_irrefl 0)

/-- The greater of the exponents met. -/
noncomputable def higher (t : Option Int) (v : FVal) : Option Int :=
  match v with
  | .fin _ m e => if m = 0 then t else
    let x := (m.log2 : Int) + e
    match t with
    | none => some x
    | some y => some (max x y)
  | _ => t

/-- A value is zero or not finite and changes no exponent, or has an exponent of its own. -/
theorem higher_cases (v : FVal) : (size v = 0 ∧ ∀ t, higher t v = t) ∨
    ∃ x : Int, (2 : Rat) ^ x ≤ size v ∧ size v < (2 : Rat) ^ (x + 1) ∧ ∀ t, higher t v = some (t.elim x (max x)) := by
  cases v with
  | nan | inf => exact .inl ⟨rfl, fun _ => rfl⟩
  | fin neg m e =>
    rcases eq_or_ne m 0 with rfl | pos
    · exact .inl ⟨zero_mul _, fun _ => rfl⟩
    · have scale := two_zpow_pos e
      refine .inr ⟨m.log2 + e, ?_, ?_, fun t => (if_neg pos).trans (by cases t <;> rfl)⟩
      · rw [zpow_add₀ two_ne_zero, zpow_natCast]
        exact mul_le_mul_of_nonneg_right (by exact_mod_cast Nat.log2_self_le pos) scale.le
      · rw [add_right_comm, zpow_add₀ two_ne_zero, ← Nat.cast_succ, zpow_natCast]
        exact mul_lt_mul_of_pos_right (by exact_mod_cast Nat.lt_log2_self) scale

/-- An exponent is the greatest of n values; none where all of them are zero or not finite. -/
def Leads (f : Nat → FVal) (n : Nat) : Option Int → Prop
  | none => ∀ j < n, size (f j) = 0
  | some x => (∃ j < n, (2 : Rat) ^ x ≤ size (f j)) ∧ ∀ j < n, size (f j) < (2 : Rat) ^ (x + 1)

theorem forall_lt_succ {p : Nat → Prop} {n : Nat} (old : ∀ j < n, p j) (new : p n) (j : Nat) (lt : j < n + 1) : p j :=
  (Nat.lt_succ_iff_lt_or_eq.1 lt).elim (old j) fun h => h ▸ new

theorem leads_succ {f : Nat → FVal} {n : Nat} {t : Option Int} (h : Leads f n t) : Leads f (n + 1) (higher t (f n)) := by
  rcases higher_cases (f n) with ⟨zero, same⟩ | ⟨x, low, high, next⟩
  · rw [same]
    cases t with
    | none => exact forall_lt_succ h zero
    | some y => exact ⟨h.1.imp fun j k => ⟨Nat.lt_succ_of_lt k.1, k.2⟩, forall_lt_succ h.2 (zero.trans_lt (two_zpow_pos _))⟩
  · rw [next]
    cases t with
    | none => exact ⟨⟨n, Nat.lt_succ_self n, low⟩, forall_lt_succ (fun j lt => (h j lt).trans_lt (two_zpow_pos _)) high⟩
    | some y =>
      refine ⟨?_, forall_lt_succ (fun j lt => (h.2 j lt).trans_le (two_zpow_mono (Int.add_le_add_right (le_max_right x y) 1)))
        (high.trans_le (two_zpow_mono (Int.add_le_add_right (le_max_left x y) 1)))⟩
      rcases max_choice x y with eq | eq
      · exact ⟨n, Nat.lt_succ_self n, (congrArg ((2 : Rat) ^ ·) eq).trans_le low⟩
      · exact h.1.imp fun j k => ⟨Nat.lt_succ_of_lt k.1, (congrArg ((2 : Rat) ^ ·) eq).trans_le k.2⟩

theorem leads_foldl (f : Nat → FVal) (n : Nat) : Leads f n (((List.range n).map f).foldl higher none) := by
  induction n with
  | zero => exact fun _ h => absurd h (Nat.not_lt_zero _)
  | succ n ih =>
    rw [List.range_succ, List.map_append, List.foldl_append]
    exact leads_succ ih

/-- The scale code that the greatest exponent gives. -/
noncomputable def scaleCode (emax : Int) : Option Int → Nat
  | none => 0
  | some x => (max 0 (min 254 (x - emax + 127))).toNat

theorem blockScale_of_leads (emax : Int) {f : Nat → FVal} {t : Option Int} (leads : Leads f 32 t) :
    BlockScale emax (fun j => toNum (f j)) (scaleCode emax t) := by
  cases t with
  | none => exact ⟨fun _ => rfl, fun j lt n q val ne => absurd ((size_of_val val).symm.trans (leads j lt)) ne⟩
  | some x =>
    obtain ⟨⟨k, lt, low⟩, high⟩ := leads
    have pos : 0 < size (f k) := (two_zpow_pos x).trans_le low
    obtain ⟨n, val⟩ := val_of_size pos
    exact ⟨fun zero => absurd (zero k lt n _ val) pos.ne', fun j lt' n' q val' _ most => ⟨x, low.trans (most k lt n _ val),
      size_of_val val' ▸ high j lt', Int.toNat_of_nonneg (le_max_left _ _)⟩⟩

theorem blockScale_aliasScale (emax : Int) (f : Nat → FVal) : BlockScale emax (fun j => toNum (f j)) (aliasScale emax ((List.range 32).map f)) :=
  blockScale_of_leads emax (leads_foldl f 32)

/-! ## The bytes of a block (R62, R64) -/

/-- A byte put at each of a list of places. -/
noncomputable def putAll (m : Mem) (l : List (Nat × Byte)) : Mem := l.foldl (fun m p => m.set p.1 p.2) m

theorem putAll_only (m : Mem) (l : List (Nat × Byte)) : putAll m l = { m with cells := (putAll m l).cells } := by
  induction l generalizing m with
  | nil => rfl
  | cons p rest ih => exact (ih (m.set p.1 p.2))

theorem get_putAll_other {k : Nat} {l : List (Nat × Byte)} (m : Mem) (other : ∀ p ∈ l, p.1 ≠ k) : (putAll m l).get k = m.get k := by
  induction l generalizing m with
  | nil => rfl
  | cons p rest ih =>
    obtain ⟨first, others⟩ := List.forall_mem_cons.1 other
    exact (ih (m.set p.1 p.2) others).trans (Mem.get_set_other m _ _ _ first.symm)

/-- A place holds the byte put there where each byte put there is the same. -/
theorem get_putAll_same {p : Nat × Byte} {l : List (Nat × Byte)} (m : Mem) (put : p ∈ l) (only : ∀ q ∈ l, q.1 = p.1 → q = p) :
    (putAll m l).get p.1 = p.2 := by
  induction l generalizing m with
  | nil => exact absurd put List.not_mem_nil
  | cons q rest ih =>
    obtain ⟨first, others⟩ := List.forall_mem_cons.1 only
    by_cases later : p ∈ rest
    · exact ih _ later others
    · obtain rfl : p = q := (List.mem_cons.1 put).resolve_right later
      refine (get_putAll_other (m.set p.1 p.2) fun r mem same => ?_).trans (Mem.get_set_same _ _ _)
      exact later (others r mem same ▸ mem)

/-- A byte put at the place of one address, and bytes put at the places of others, each address given one byte. -/
theorem get_putAll_cons (m : Mem) {f : Nat → Nat} {p : Nat} {x : Byte} {n : Nat} {P : Nat → Nat} {B : Nat → Byte} {l : List (Nat × Byte)}
    (mem : ∀ q, q ∈ l ↔ ∃ j < n, (f (P j), B j) = q) (apart : p ∉ (List.range n).map P) (same : ∀ j j', P j = P j' → B j = B j')
    (inj : ∀ y ∈ p :: (List.range n).map P, ∀ z ∈ p :: (List.range n).map P, f y = f z → y = z) :
    (putAll m ((f p, x) :: l)).get (f p) = x ∧ (∀ j < n, (putAll m ((f p, x) :: l)).get (f (P j)) = B j) ∧
      ∀ k, (∀ y ∈ p :: (List.range n).map P, f y ≠ k) → (putAll m ((f p, x) :: l)).get k = m.get k := by
  have other {j : Nat} (lt : j < n) : P j ∈ (List.range n).map P := List.mem_map_of_mem (List.mem_range.2 lt)
  have ne {j : Nat} (lt : j < n) (eq : f (P j) = f p) : False := apart (inj _ (List.mem_cons_of_mem _ (other lt)) _ List.mem_cons_self eq ▸ other lt)
  refine ⟨get_putAll_same (p := (f p, x)) m List.mem_cons_self fun q h eq => (List.mem_cons.1 h).resolve_right fun h => ?_, fun j lt =>
    get_putAll_same (p := (f (P j), B j)) m (List.mem_cons_of_mem _ ((mem _).2 ⟨j, lt, rfl⟩)) fun q h eq => ?_,
    fun k out => get_putAll_other m fun q h => ?_⟩
  · obtain ⟨j, lt, rfl⟩ := (mem q).1 h
    exact ne lt eq
  · rcases List.mem_cons.1 h with rfl | h
    · exact (ne lt eq.symm).elim
    · obtain ⟨j', lt', rfl⟩ := (mem q).1 h
      exact Prod.ext eq (same j' j (inj _ (List.mem_cons_of_mem _ (other lt')) _ (List.mem_cons_of_mem _ (other lt)) eq))
  · rcases List.mem_cons.1 h with rfl | h
    · exact out _ List.mem_cons_self
    · obtain ⟨j, lt, rfl⟩ := (mem q).1 h
      exact out _ (List.mem_cons_of_mem _ (other lt))

theorem writes_eq (s : State) (i : Nat) (A : Nat → Nat) (B : Nat → Byte) (l : List Nat) :
    l.foldl (fun st t => st.writeLocal i (A t) [B t]) s = withMem s (putAll s.mem (l.map fun t => (s.place i (A t), B t))) := by
  induction l generalizing s with
  | nil => rfl
  | cons t rest ih => exact ih (s.writeLocal i (A t) [B t])

theorem writes_after (s : State) (i a : Nat) (x : Byte) (A : Nat → Nat) (B : Nat → Byte) (l : List Nat) :
    l.foldl (fun st t => st.writeLocal i (A t) [B t]) (s.writeLocal i a [x]) =
      withMem s (putAll s.mem ((s.place i a, x) :: l.map fun t => (s.place i (A t), B t))) :=
  writes_eq (s.writeLocal i a [x]) i A B l

section Block

variable (d : MxAlias)

/-- The byte that holds the code of element j of a block. -/
noncomputable def heldCode (codes : Nat → Nat) (j : Nat) : Byte :=
  BitVec.ofNat 8 (if d.fmt = 2 then codes (j / 2 * 2) + 16 * codes (j / 2 * 2 + 1) else codes j)

/-- The addresses of a block: its scale and its elements. -/
noncomputable def blockOf (b : Nat) : List Nat := scaleAt d (b * 32) :: (List.range 32).map fun j => elemAt d (b * 32 + j)

theorem scaleAt_block (b : Nat) : scaleAt d (b * 32) = d.scaleAddr.toNat + b := congrArg _ (Nat.mul_div_cancel b (by decide))

/-- What a store puts of a block: its scale, and its codes. -/
noncomputable def codePuts (s : State) (i b : Nat) (codes : Nat → Nat) : List (Nat × Byte) :=
  if d.fmt = 2 then (List.range 16).map fun t => (s.place i (d.elemAddr (32 * b + 2 * t)), BitVec.ofNat 8 (codes (2 * t) + 16 * codes (2 * t + 1)))
  else (List.range 32).map fun t => (s.place i (d.elemAddr (32 * b + t)), BitVec.ofNat 8 (codes t))
noncomputable def blockPuts (s : State) (i b c : Nat) (codes : Nat → Nat) : List (Nat × Byte) :=
  (s.place i (scaleAt d (b * 32)), BitVec.ofNat 8 c) :: codePuts d s i b codes

/-- A block put back is its scale and its codes put one after another (R64). -/
theorem aliasStore_eq (s : State) (i b c : Nat) (codes : List Nat) : s.aliasStore d i b c codes =
    withMem s (putAll s.mem (blockPuts d s i b c fun j => codes.getD j 0)) := by
  rw [State.aliasStore, blockPuts, codePuts, scaleAt_block]
  by_cases four : d.fmt = 2
  · rw [if_pos four, if_pos four]
    exact writes_after _ _ _ _ _ _ _
  · rw [if_neg four, if_neg four]
    exact writes_after _ _ _ _ _ _ _

omit d in
theorem half_block (b j : Nat) : (b * 32 + j) / 2 = b * 16 + j / 2 := by
  rw [show b * 32 + j = j + b * 16 * 2 by rw [Nat.mul_assoc, Nat.add_comm], Nat.add_mul_div_right _ _ Nat.two_pos, Nat.add_comm]

omit d in
theorem mem_map_half {α : Type} (f : Nat → α) (n : Nat) (p : α) : p ∈ (List.range n).map f ↔ ∃ j, j < 2 * n ∧ f (j / 2) = p :=
  List.mem_map.trans ⟨fun h => h.elim fun t k => ⟨2 * t, Nat.mul_lt_mul_of_pos_left (List.mem_range.1 k.1) Nat.two_pos,
    (congrArg f (Nat.mul_div_cancel_left t Nat.two_pos)).trans k.2⟩, fun h => h.elim fun j k =>
    ⟨j / 2, List.mem_range.2 (Nat.div_lt_of_lt_mul k.1), k.2⟩⟩

theorem elemAddr_half (four : d.fmt = 2) (b j : Nat) : d.elemAddr (32 * b + 2 * (j / 2)) = elemAt d (b * 32 + j) :=
  congrArg (d.dataFrame.toNat * 4096 + ·) ((if_pos four).trans (((half_block b j).trans (((congrArg (b * 16 + ·)
    (Nat.mul_div_cancel_left (j / 2) Nat.two_pos).symm).trans (half_block b _).symm).trans
    (congrArg (fun k => (k + 2 * (j / 2)) / 2) (Nat.mul_comm b 32)))).symm.trans (if_pos four).symm))

theorem heldCode_half (four : d.fmt = 2) (codes : Nat → Nat) (j : Nat) :
    BitVec.ofNat 8 (codes (2 * (j / 2)) + 16 * codes (2 * (j / 2) + 1)) = heldCode d codes j :=
  congrArg (BitVec.ofNat 8) ((congrArg (fun k => codes k + 16 * codes (k + 1)) (Nat.mul_comm 2 (j / 2))).trans (if_pos four).symm)

theorem mem_codePuts_iff {s : State} {i b : Nat} {codes : Nat → Nat} {p : Nat × Byte} :
    p ∈ codePuts d s i b codes ↔ ∃ j < 32, (s.place i (elemAt d (b * 32 + j)), heldCode d codes j) = p := by
  by_cases four : d.fmt = 2
  · rw [codePuts, if_pos four, mem_map_half]
    exact exists_congr fun j => and_congr_right' (Eq.congr_left (congrArg₂ Prod.mk (congrArg (s.place i) (elemAddr_half d four b j))
      (heldCode_half d four codes j)))
  · rw [codePuts, if_neg four, List.mem_map]
    exact exists_congr fun j => and_congr List.mem_range (Eq.congr_left (congrArg₂ Prod.mk
      (congrArg (fun k => s.place i (elemAt d (k + j))) (Nat.mul_comm 32 b)) (congrArg _ (if_neg four).symm)))

theorem heldCode_eq {b j j' : Nat} (codes : Nat → Nat) (same : elemAt d (b * 32 + j) = elemAt d (b * 32 + j')) : heldCode d codes j = heldCode d codes j' :=
  (Decidable.em (d.fmt = 2)).elim
    (fun four => (heldCode_half d four codes j).symm.trans ((congrArg (fun k => BitVec.ofNat 8 (codes (2 * k) + 16 * codes (2 * k + 1)))
      (Nat.add_left_cancel (((half_block b j).symm.trans (if_pos four).symm).trans ((Nat.add_left_cancel same).trans
      ((if_pos four).trans (half_block b j')))))).trans
      (heldCode_half d four codes j')))
    fun four => congrArg (heldCode d codes) (Nat.add_left_cancel ((if_neg four).symm.trans ((Nat.add_left_cancel same).trans (if_neg four))))

/-- What the bytes of a block read once they are put, and that every other byte is as before. -/
theorem get_blockPuts (s : State) (i b c : Nat) (codes : Nat → Nat)
    (inj : ∀ x ∈ blockOf d b, ∀ y ∈ blockOf d b, s.place i x = s.place i y → x = y) (apart : scaleAt d (b * 32) ∉ (blockOf d b).tail) :
    (putAll s.mem (blockPuts d s i b c codes)).get (s.place i (scaleAt d (b * 32))) = BitVec.ofNat 8 c ∧
    (∀ j < 32, (putAll s.mem (blockPuts d s i b c codes)).get (s.place i (elemAt d (b * 32 + j))) = heldCode d codes j) ∧
    ∀ k, (∀ x ∈ blockOf d b, s.place i x ≠ k) → (putAll s.mem (blockPuts d s i b c codes)).get k = s.mem.get k :=
  get_putAll_cons s.mem (fun _ => mem_codePuts_iff d) apart (fun _ _ => heldCode_eq d codes) inj

theorem aliasSpoiled_clean {s : State} {i : BitVec 3} {w : BitVec 6} {c : BitVec 2} {b : Nat} (clean : ∀ x ∈ blockOf d b, Clean s i w c x) :
    s.aliasSpoiled d i.toNat w c b = none := by
  have block : (d.scaleAddr.toNat + b) :: (List.range 32).map (fun j => d.elemAddr (32 * b + j)) = blockOf d b := by
    rw [blockOf, scaleAt_block, Nat.mul_comm]
    rfl
  refine List.findSome?_eq_none_iff.2 fun x mem => (spoiled_eq_none_iff s i x w c).2 (clean x ?_)
  rwa [block] at mem

end Block

/-! ## Stores (R64) -/

section Store

variable {s : State} {a mask : Nat} {data : List Byte} {i : BitVec 3} {w : BitVec 6} {c : BitVec 2}

/-- A byte that a store writes is one of the array; each is. -/
noncomputable def meetsAny (s : State) (a mask : Nat) (data : List Byte) : Bool :=
  (List.range data.length).any fun j => wantsByte data mask j && (s.aliasOf a).covers (mxOffset a + j)
noncomputable def meetsAll (s : State) (a mask : Nat) (data : List Byte) : Bool :=
  (List.range data.length).all fun j => !wantsByte data mask j || (s.aliasOf a).covers (mxOffset a + j)

theorem exists_add_iff {off : Nat} {P Q : Nat → Prop} : (∃ j, P j ∧ Q (off + j)) ↔ ∃ k, (off ≤ k ∧ P (k - off)) ∧ Q k :=
  ⟨fun h => h.elim fun j k => ⟨off + j, ⟨Nat.le_add_right _ _, (Nat.add_sub_cancel_left off j).symm ▸ k.1⟩, k.2⟩,
    fun h => h.elim fun k p => ⟨k - off, p.1.2, (Nat.add_sub_cancel' p.1.1).symm ▸ p.2⟩⟩

theorem forall_add_iff {off : Nat} {P Q : Nat → Prop} : (∀ j, P j → Q (off + j)) ↔ ∀ k, off ≤ k ∧ P (k - off) → Q k :=
  ⟨fun h k p => Nat.add_sub_cancel' p.1 ▸ h (k - off) p.2, fun h j p => h (off + j)
    ⟨Nat.le_add_right _ _, (Nat.add_sub_cancel_left off j).symm ▸ p⟩⟩

theorem mem_range_of_wantsByte {j : Nat} (wants : wantsByte data mask j = true) : j ∈ List.range data.length :=
  List.mem_range.2 (of_decide_eq_true (Bool.and_elim_left wants))

theorem meetsAny_iff : meetsAny s a mask data = true ↔ ∃ k, putByte (mxOffset a) data mask k ≠ none ∧ Covered (s.aliasOf a) (k / 2) :=
  ((List.any_eq_true.trans (exists_congr fun _ => (and_congr_right' (band_iff Iff.rfl (covers_iff _ _))).trans
    (and_iff_right_of_imp fun h => mem_range_of_wantsByte h.1))).trans (exists_add_iff (Q := fun k => Covered (s.aliasOf a) (k / 2)))).trans
    (exists_congr fun k => and_congr_left' (putByte_ne_none_iff k).symm)

theorem not_bor_iff {b c : Bool} {p : Prop} (iff : c = true ↔ p) : (!b || c) = true ↔ (b = true → p) := by
  cases b with
  | true => exact iff.trans (true_imp_iff.symm.trans (imp_congr_left (iff_of_true trivial rfl)))
  | false => exact iff_of_true rfl fun h => Bool.noConfusion h

theorem meetsAll_iff : meetsAll s a mask data = true ↔ ∀ k, putByte (mxOffset a) data mask k ≠ none → Covered (s.aliasOf a) (k / 2) :=
  ((List.all_eq_true.trans (forall_congr' fun _ => (imp_congr_right fun _ => not_bor_iff (covers_iff _ _)).trans
    ⟨fun h wants => h (mem_range_of_wantsByte wants) wants, fun h _ => h⟩)).trans (forall_add_iff (Q := fun k => Covered (s.aliasOf a) (k / 2)))).trans
    (forall_congr' fun k => imp_congr_left (putByte_ne_none_iff k).symm)

/-- A store none of whose bytes is of the array writes nothing (R65). -/
theorem mxWrite_none (misses : meetsAny s a mask data = false) :
    s.mxWrite i.toNat w c a mask data = { s := if meetsAll s a mask data = true then s else s.overrun a, bytes := [], fail := none } := by
  rw [meetsAny] at misses
  rw [State.mxWrite, misses]
  rfl

/-- A store that meets the array puts its block back (R64). -/
theorem mxWrite_some (meets : meetsAny s a mask data = true) (clean : ∀ x ∈ blockOf (s.aliasOf a) (mxOffset a / 64), Clean s i w c x) :
    s.mxWrite i.toNat w c a mask data =
      let b := mxOffset a / 64
      let img := s.aliasBlock (s.aliasOf a) i.toNat b (mxPut (mxOffset a) data mask b)
      { s := State.aliasStore (if meetsAll s a mask data = true then s else s.overrun a) (s.aliasOf a) i.toNat b img.1 img.2, bytes := [], fail := none } := by
  rw [meetsAny] at meets
  rw [State.mxWrite, meets, aliasSpoiled_clean _ clean]
  rfl

theorem getD_map_map_range {n j : Nat} (lt : j < n) (f : Nat → FVal) (g : FVal → Nat) : (((List.range n).map f).map g).getD j 0 = g (f j) := by
  rw [List.getD_eq_getElem?_getD, List.getElem?_map, List.getElem?_map, List.getElem?_range lt]
  rfl

theorem chosen_flagged (all : Bool) : (if all = true then chosen s else (chosen s).overrun a) = chosen (flagged s a all) :=
  (apply_ite chosen (all = true) s (s.overrun a)).symm.trans (congrArg chosen (flagged_eq s a all))

theorem homeWrite_window (window : regionOf a = .mxWindow) (whole line : Bool) :
    s.homeWrite i.toNat w c a mask data whole line = s.mxWrite i.toNat w c a mask data := by
  rw [State.homeWrite, window]

end Store

/-- Every byte that a store puts is of the array; one of them is. -/
def FitsAll (s : State) (a : Nat) (u : MemUnit) : Prop := ∀ k, putByte (mxOffset a) u.data u.mask k ≠ none → Covered (s.aliasOf a) (k / 2)
def MeetsArray (s : State) (a : Nat) (u : MemUnit) : Prop := ∃ k, putByte (mxOffset a) u.data u.mask k ≠ none ∧ Covered (s.aliasOf a) (k / 2)

/-- What a store leaves of a block: its new values, their scale and their codes, and every other byte as before. -/
def BlockLeft (s : State) (a : Nat) (i : BitVec 3) (u : MemUnit) (d : MxAlias) (b : Nat) (mem : Mem) (val : Nat → NumVal)
    (sc : Nat) (codes : Nat → Nat) : Prop :=
  mem = { s.mem with cells := mem.cells } ∧ StoredVals s d i b (fun k => putByte (mxOffset a) u.data u.mask (b * 64 + k)) val ∧
  BlockScale (winEmax d) val sc ∧ (∀ j < 32, Rounded (winFmt d) ((val j).times (.val false ((2 : Rat) ^ (127 - (sc : Int))))) (codes j)) ∧
  mem.get (s.place i.toNat (scaleAt d (b * 32))) = BitVec.ofNat 8 sc ∧
  (∀ j < 32, mem.get (s.place i.toNat (elemAt d (b * 32 + j))) = heldCode d codes j) ∧
  ∀ k, (∀ x ∈ blockOf d b, s.place i.toNat x ≠ k) → mem.get k = s.mem.get k

/-- The scale and the codes that a block takes for new values (R64). -/
noncomputable def scaleOf (d : MxAlias) (f : Nat → FVal) : Nat := aliasScale d.emax ((List.range 32).map f)
noncomputable def codesOf (d : MxAlias) (f : Nat → FVal) (j : Nat) : Nat :=
  (((List.range 32).map f).map fun v => d.format.rn (unscale (scaleOf d f) v)).getD j 0

/-- The memory once a block takes new values. -/
noncomputable def storedMem (s : State) (d : MxAlias) (i : BitVec 3) (b : Nat) (f : Nat → FVal) : Mem :=
  putAll s.mem (blockPuts d s i.toNat b (scaleOf d f) (codesOf d f))

theorem aliasStore_chosen {s : State} {i : BitVec 3} (d : MxAlias) (b : Nat) (put : Nat → Nat → Option Nat) (l : List (Nat × MxAlias)) :
    State.aliasStore (chosen (withAliases s l)) d i.toNat b ((chosen s).aliasBlock d i.toNat b put).1 ((chosen s).aliasBlock d i.toNat b put).2 =
      withMem (chosen (withAliases s l)) (storedMem s d i b (newVal s d i b put)) := by
  rw [aliasStore_eq, show (chosen s).aliasBlock d i.toNat b put = (scaleOf d (newVal s d i b put), ((List.range 32).map (newVal s d i b put)).map fun v =>
    d.format.rn (unscale (scaleOf d (newVal s d i b put)) v)) from rfl]
  rfl

theorem blockLeft {s : State} {a : Nat} {i : BitVec 3} {u : MemUnit} {d : MxAlias} {b : Nat} {f : Nat → FVal}
    (stored : StoredVals s d i b (fun k => putByte (mxOffset a) u.data u.mask (b * 64 + k)) fun j => toNum (f j))
    (nodup : ((blockOf d b).eraseDups.map (s.place i.toNat)).Nodup) (apart : scaleAt d (b * 32) ∉ (blockOf d b).tail) :
    BlockLeft s a i u d b (storedMem s d i b f) (fun j => toNum (f j)) (scaleOf d f) (codesOf d f) := by
  refine ⟨putAll_only _ _, stored, ?_, fun j lt => ?_, get_blockPuts d s i.toNat b _ _ (fun x hx y hy =>
    List.inj_on_of_nodup_map nodup (List.mem_eraseDups.2 hx) (List.mem_eraseDups.2 hy)) apart⟩
  · rw [winEmax_eq]
    exact blockScale_aliasScale _ _
  · rw [codesOf, getD_map_map_range lt, ← toNum_unscale, ← winFmt_eq]
    exact rounded_winFmt _

/-- A store through a window is performed, one that misses the array and one that meets it (R64, R65). -/
def StoreEnds (s : State) (tm : Team) (r : MemReq) (u : MemUnit) (a : Nat) (z x : State) (mem : Mem) (left : Prop) : Prop :=
  PartEnds s x ∧ Overrun s z ((a - 0x90000000000) / 2 ^ 34) (FitsAll s a u) ∧ Done z x tm r u [] tm mem ∧ left
def MissDone (s : State) (tm : Team) (r : MemReq) (u : MemUnit) (a : Nat) : Prop :=
  ∃ z x, PartEnds s x ∧ Overrun s z ((a - 0x90000000000) / 2 ^ 34) (FitsAll s a u) ∧ Done z x tm r u [] tm s.mem
def MeetDone (s : State) (tm : Team) (r : MemReq) (u : MemUnit) (a : Nat) (i : BitVec 3) : Prop :=
  ∃ z x mem val sc codes, StoreEnds s tm r u a z x mem (BlockLeft s a i u (s.aliasOf a) (mxOffset a / 64) mem val sc codes)

section Event

variable {s z : State} {tm : Team} {earlier later : List MemReq} {r : MemReq} {u : MemUnit} {a : Nat} {i : BitVec 3} {w : BitVec 6} {c : BitVec 2}

theorem missDone_of (ended : Ended s z tm r u [] s.mem) (overrun : Overrun s z ((a - 0x90000000000) / 2 ^ 34) (FitsAll s a u)) : MissDone s tm r u a :=
  ended.elim fun x h => ⟨z, x, h.1, overrun, h.2⟩

theorem meetDone_of {mem : Mem} {val : Nat → NumVal} {sc : Nat} {codes : Nat → Nat} (ended : Ended s z tm r u [] mem)
    (overrun : Overrun s z ((a - 0x90000000000) / 2 ^ 34) (FitsAll s a u))
    (left : BlockLeft s a i u (s.aliasOf a) (mxOffset a / 64) mem val sc codes) : MeetDone s tm r u a i :=
  ended.elim fun x h => ⟨z, x, mem, val, sc, codes, h.1, overrun, h.2, left⟩

/-- The state once a store marks the bytes that lie beyond the array. -/
noncomputable def storeFlagged (s : State) (a : Nat) (u : MemUnit) : State := flagged s a (meetsAll s a u.mask u.data)

theorem homeWrite_none (window : regionOf a = .mxWindow) (misses : ¬MeetsArray s a u) : (chosen s).homeWrite i.toNat w c a u.mask u.data false false =
    { s := chosen (storeFlagged s a u), bytes := [], fail := none } := by
  rw [homeWrite_window window, mxWrite_none (s := chosen s) (Bool.eq_false_iff.2 (mt meetsAny_iff.1 misses))]
  exact congrArg (HomeOut.mk · [] none) (chosen_flagged _)

/-- The values of the block of a store once its bytes are put. -/
noncomputable def storedVal (s : State) (a : Nat) (i : BitVec 3) (u : MemUnit) : Nat → FVal :=
  newVal s (s.aliasOf a) i (mxOffset a / 64) (mxPut (mxOffset a) u.data u.mask (mxOffset a / 64))

/-- A store that meets the array puts the scale and the codes of its block. -/
theorem homeWrite_some (window : regionOf a = .mxWindow) (meets : MeetsArray s a u)
    (clean : ∀ x ∈ blockOf (s.aliasOf a) (mxOffset a / 64), Clean s i w c x) : (chosen s).homeWrite i.toNat w c a u.mask u.data false false =
      { s := withMem (chosen (storeFlagged s a u)) (storedMem s (s.aliasOf a) i (mxOffset a / 64) (storedVal s a i u)), bytes := [], fail := none } := by
  rw [homeWrite_window window, mxWrite_some (s := chosen s) (meetsAny_iff.2 meets) clean]
  refine congrArg (HomeOut.mk · [] none) (Eq.trans ?_ (aliasStore_chosen (s.aliasOf a) (mxOffset a / 64)
    (mxPut (mxOffset a) u.data u.mask (mxOffset a / 64)) _))
  exact congrArg (fun t => State.aliasStore t (s.aliasOf a) i.toNat (mxOffset a / 64) _ _) (chosen_flagged _)

variable (hand : AtHand s tm earlier r later u) (order : InOrder earlier r) (target : u.tgt = .here a i w c) (window : regionOf a = .mxWindow)
  (plain : s.input.home = .plain) (store : r.kind = .store)
include hand order target window plain store

theorem exec_windowStore {mem : Mem} (written : (chosen s).homeWrite i.toNat w c a u.mask u.data false false =
    { s := withMem (chosen (storeFlagged s a u)) mem, bytes := [], fail := none }) : Ended s (storeFlagged s a u) tm r u [] mem :=
  exec_window hand order target window plain (fun load => ReqKind.noConfusion (load.symm.trans store)) List.nodup_nil
    ((performAt_here_store target store).trans (congrArg (fun o : HomeOut => Performed.mk o.s [] o.fail) written))

theorem windowMiss (misses : ¬MeetsArray s a u) : MissDone s tm r u a :=
  missDone_of (exec_windowStore hand order target window plain store (homeWrite_none window misses)) (overrun_flagged s a meetsAll_iff)

theorem windowMeet (meets : MeetsArray s a u) (clean : ∀ x ∈ blockOf (s.aliasOf a) (mxOffset a / 64), Clean s i w c x)
    (nodup : ((blockOf (s.aliasOf a) (mxOffset a / 64)).eraseDups.map (s.place i.toNat)).Nodup)
    (apart : scaleAt (s.aliasOf a) (mxOffset a / 64 * 32) ∉ (blockOf (s.aliasOf a) (mxOffset a / 64)).tail) : MeetDone s tm r u a i :=
  meetDone_of (exec_windowStore hand order target window plain store (homeWrite_some window meets clean)) (overrun_flagged s a meetsAll_iff)
    (blockLeft (storedVals s (s.aliasOf a) i (mxOffset a / 64) (mxOffset a) u.mask u.data) nodup apart)

/-- What a load and a store through a window leave. -/
def WindowPart (s : State) (tm : Team) (earlier : List MemReq) (r : MemReq) (u : MemUnit) (a : Nat) (i : BitVec 3) (w : BitVec 6) (c : BitVec 2) : Prop :=
  (r.kind = .load → Apart s earlier u → (∀ j < u.len, s.mixed (a + j) = false) →
    (∀ j < u.len, CleanAt s a i w c (mxOffset a + j)) → LoadDone s tm r u a i) ∧
  (r.kind = .store → (¬MeetsArray s a u → MissDone s tm r u a) ∧ (MeetsArray s a u → mxOffset a % 64 + u.data.length ≤ 64 →
    (∀ x ∈ blockOf (s.aliasOf a) (mxOffset a / 64), Clean s i w c x) →
    ((blockOf (s.aliasOf a) (mxOffset a / 64)).eraseDups.map (s.place i.toNat)).Nodup →
    scaleAt (s.aliasOf a) (mxOffset a / 64 * 32) ∉ (blockOf (s.aliasOf a) (mxOffset a / 64)).tail → MeetDone s tm r u a i))

omit store in
theorem windowPart : WindowPart s tm earlier r u a i w c :=
  ⟨windowLoad hand order target window plain, fun store => ⟨windowMiss hand order target window plain store,
    fun meets _ => windowMeet hand order target window plain store meets⟩⟩

end Event

/-- HOME_PERFORM of a part in an MX window. -/
theorem windowAccesses : WindowAccesses := @windowPart

/-- Settles O32: accesses performed at their home, those that fail, and those in an MX window. -/
theorem accessesAtHome : Obligations.AccessesAtHome := ⟨homeAccesses, homeFailures, windowAccesses⟩

end Sys2Proof.Claims
end
